-- ==== Sys2Proof/Word.lean ====
section
/-!
DEFINITION. Sys2Proof/Word.lean: the words of the LN16K, its unit numbers (R14, R16), and the one sparse table
that every sparse piece of state uses.
-/
namespace Sys2Proof

/-- A byte of the address map. -/
abbrev Byte := BitVec 8
/-- A 16-bit word, the word of R6. -/
abbrev W16 := BitVec 16
/-- A register, 32 bits (R7). -/
abbrev W32 := BitVec 32
/-- A 40-bit accumulator (R203). -/
abbrev W40 := BitVec 40

/-- The tag of a fabric word (R110). -/
inductive Tag where
  | data | frame | mark | poison
deriving DecidableEq, Repr, Inhabited

/-- A fabric word (R110): tag, data, and whether its parity fails. A word as the device makes it has good parity,
so P itself follows from tag, data and `bad`. -/
structure FWord where
  /-- Tag, `T[1:0]`. -/
  tag : Tag
  /-- Data, `D[15:0]`. -/
  d : W16
  /-- The parity bit P does not match (R111). -/
  bad : Bool := false
deriving DecidableEq, Repr, Inhabited

namespace Tag
/-- The two tag bits of R110. -/
def bits : Tag → BitVec 2
  | .data => 0 | .frame => 1 | .mark => 2 | .poison => 3
/-- The tag of two bits. -/
def ofBits (b : BitVec 2) : Tag :=
  if b = 0 then .data else if b = 1 then .frame else if b = 2 then .mark else .poison
end Tag

namespace FWord
/-- DATA 0x0000 with good parity. -/
def zero : FWord := { tag := .data, d := 0 }
/-- A DATA word. -/
def data (d : W16) : FWord := { tag := .data, d := d }
/-- A FRAME word. -/
def frame (d : W16) : FWord := { tag := .frame, d := d }
/-- A POISON word with its cause (R113). -/
def poison (cause : W16) : FWord := { tag := .poison, d := cause }
/-- MARK GAP with its count (R112, Table 3). -/
def gap (n : Nat) : FWord := { tag := .mark, d := BitVec.ofNat 16 (min n 4095) }
/-- MARK DARK with the region number of the missing source (R112, R150). -/
def dark (region : Nat) : FWord := { tag := .mark, d := BitVec.ofNat 16 (0x1000 + region % 4096) }
/-- MARK RESYNC (R112). -/
def resync : FWord := { tag := .mark, d := 0x2000 }
/-- MARK REFUSED with its count (R112). -/
def refused (n : Nat) : FWord := { tag := .mark, d := BitVec.ofNat 16 (0x3000 + min n 4095) }
/-- The parity bit of R110: the number of 1 bits of the 19 is even, unless parity fails. -/
def parity (w : FWord) : Bool :=
  ((List.range 16).foldl (fun p i => xor p (w.d.getLsbD i)) (xor (w.tag.bits.getLsbD 0) (w.tag.bits.getLsbD 1)))
    |> xor w.bad
/-- The 19 bits of the word (R110, Table 1). -/
def bits (w : FWord) : BitVec 19 :=
  BitVec.ofNat 19 ((if w.parity then 2 ^ 18 else 0) + w.tag.bits.toNat * 2 ^ 16 + w.d.toNat)
/-- The word of 19 bits; its parity fails where the number of 1 bits is odd. -/
def ofBits (b : BitVec 19) : FWord :=
  let w : FWord := { tag := Tag.ofBits (BitVec.ofNat 2 (b.toNat / 2 ^ 16)), d := BitVec.ofNat 16 b.toNat }
  { w with bad := xor w.parity (b.getLsbD 18) }
/-- The word as a consumer takes it: failing parity makes it POISON with cause 0x0001 (R111). -/
def taken (w : FWord) : FWord := if w.bad then poison 1 else w
end FWord

/-! ### Unit numbers (R14, R16) -/
abbrev SectorNo := Fin 16
abbrev ClusterNo := Fin 256
abbrev TileNo := Fin 4096
abbrev CellNo := Fin 16384
abbrev LaneNo := Fin 240
abbrev QuadNo := Fin 4
abbrev QueueNo := Fin 8192
abbrev EngineNo := Fin 544
abbrev TaskNo := Fin 4096
abbrev DrzNo := Fin 64
abbrev RouterNo := Fin 256
/-- A region: cluster n, or sector s as 256 + s (R397). -/
abbrev RegionNo := Fin 272

/-! ### Sparse tables

A table is a list of (key, value) pairs, keys strictly rising, no entry equal to the default: equal contents are
equal lists. -/

/-- A sparse table over natural keys. -/
abbrev Tbl (α : Type) := List (Nat × α)

namespace Tbl
variable {α : Type}

/-- The value at `k`; `d` where no entry stands. -/
def get (d : α) : Tbl α → Nat → α
  | [], _ => d
  | (j, v) :: t, k => if k < j then d else if k = j then v else get d t k

/-- Remove the entry at `k`. -/
def erase : Tbl α → Nat → Tbl α
  | [], _ => []
  | (j, v) :: t, k => if k < j then (j, v) :: t else if k = j then t else (j, v) :: erase t k

/-- Place an entry at `k`. -/
def insert : Tbl α → Nat → α → Tbl α
  | [], k, w => [(k, w)]
  | (j, v) :: t, k, w =>
    if k < j then (k, w) :: (j, v) :: t else if k = j then (k, w) :: t else (j, v) :: insert t k w

/-- Write `w` at `k`, in canonical form: writing the default removes the entry. -/
def set [DecidableEq α] (d : α) (t : Tbl α) (k : Nat) (w : α) : Tbl α :=
  if w = d then erase t k else insert t k w

/-- Change the value at `k`. -/
def modify [DecidableEq α] (d : α) (t : Tbl α) (k : Nat) (f : α → α) : Tbl α :=
  set d t k (f (get d t k))

/-- Keys strictly rising from a bound on. -/
def risingFrom : Nat → Tbl α → Bool
  | _, [] => true
  | b, (j, _) :: t => decide (b ≤ j) && risingFrom (j + 1) t

/-- The canonical form: keys strictly rising, no entry equal to the default. -/
def wf [DecidableEq α] (d : α) (t : Tbl α) : Bool :=
  risingFrom 0 t && t.all (fun e => decide (e.2 ≠ d))

/-- Keys strictly rising, and no entry equal to what its own address reads as. -/
def wfBy [DecidableEq α] (d : Nat → α) (t : Tbl α) : Bool :=
  risingFrom 0 t && t.all (fun e => decide (e.2 ≠ d e.1))
end Tbl

/-- Bit `i` of a word as a Bool. -/
def bit {w : Nat} (x : BitVec w) (i : Nat) : Bool := x.getLsbD i

/-- A Bool as one bit of a word of width `w`. -/
def b2w (w : Nat) (b : Bool) : BitVec w := if b then 1 else 0

/-- Field `[hi:lo]` of a word as a natural number (R5). -/
def bitsOf {w : Nat} (x : BitVec w) (hi lo : Nat) : Nat := (x.toNat / 2 ^ lo) % 2 ^ (hi + 1 - lo)

/-- The word with field `[hi:lo]` replaced by the low bits of `v` (R5). -/
def putBits {w : Nat} (x : BitVec w) (hi lo v : Nat) : BitVec w :=
  let m : BitVec w := BitVec.ofNat w ((2 ^ (hi + 1 - lo) - 1) * 2 ^ lo)
  (x &&& ~~~m) ||| (BitVec.ofNat w (v * 2 ^ lo) &&& m)

/-- A counter of `n` values' width that saturates at `max`. -/
def satAdd (max n k : Nat) : Nat := if n + k ≤ max then n + k else max

/-- A two's-complement number of a field value of `n` bits. -/
def toSigned (n v : Nat) : Int := if v < 2 ^ (n - 1) then (v : Int) else (v : Int) - (2 ^ n : Nat)

/-- The number of 1 bits of a word. -/
def popCount {w : Nat} (x : BitVec w) : Nat :=
  (List.range w).foldl (fun n i => if x.getLsbD i then n + 1 else n) 0

/-- The indices below `n` whose bit is set in the mask. -/
def maskList {w : Nat} (x : BitVec w) (n : Nat) : List Nat := (List.range n).filter (fun i => x.getLsbD i)

end Sys2Proof
end

