-- ==== Sys2Proof/Wire.lean ====
section
/-!
DEFINITION. Sys2Proof/Wire.lean: what comes in from outside with a command: the characters of a timing word, the
blocks of a frame, a packet, and what the parts around the device do during a start.
-/
namespace Sys2Proof

/-- The decoded characters of a 40-bit timing word (R38): whether the comma stands at its position, and the command,
payload and check bytes, none for a character that does not decode. -/
structure TimingChars where
  comma : Bool
  cmd : Option Byte
  payload : Option Byte
  crc : Option Byte
deriving DecidableEq, Repr

/-- A 66-bit block as it arrives: sync header and scrambled payload, first bit received lowest (R73). -/
abbrev Block66 := BitVec 2 × BitVec 64

/-- A packet of the network: its 128-bit header, its payload bytes, 16 to each data unit, and the data units whose
sideband carries `PSN` (R326, R327). -/
structure Packet where
  hdr : BitVec 128
  data : List Byte := []
  psn : BitVec 16 := 0
deriving DecidableEq, Repr

/-- Where a flag set or clear on its way comes from (R279, Table 2 of chapter 10). -/
inductive FlagSrc where
  | engine (p : Nat) | sector (s : Nat) | schedule
deriving DecidableEq, Repr

/-- What a poll of an external regulator returns (R431): whether a transaction failed, and the four words read. -/
structure RailReading where
  failed : Bool
  status : W16
  vout : W16
  iout : W16
  temp : W16
deriving DecidableEq, Repr

/-- What the parts around the device, and its arrays, do during the fixed phase (R382). -/
structure StartEnv where
  /-- The fuse map can be read (step 3). -/
  fuses : Bool
  /-- For each rail, whether it is in regulation before sequencing, and the reading with which its ramp ends (R429). -/
  rails : List (Bool × RailReading)
  /-- Rows that fail the march test: instance, row, failing bits (R424). -/
  march : List (W32 × Nat × BitVec 72)
  /-- The flash can be read, answers in octal mode, and CS1 answers (R368, R369). -/
  flash : Bool
  octal : Bool
  cs1 : Bool
  /-- Sectors whose regulator reaches power-good, quadrants powered (R435). -/
  sectors : BitVec 16
  /-- Rails back in regulation after a change of VOUT by the POWER section (R430). -/
  vout : Bool
  /-- Straps and TEST_EN as the power-on reset releases (R500). -/
  straps : BitVec 3
  testEn : Bool
  /-- The power-on reset comes from RESET_N, so the rails stand as they are (R501). -/
  resetN : Bool
deriving DecidableEq, Repr

/-- A crossing of a raw stream from its marker's position on (R105, R106): its 66-bit blocks, or its 8b/10b characters,
each whether it is a control character and its byte, none for one that does not decode. -/
inductive RawCrossing where
  | r64 (blocks : List Block66)
  | r8 (chars : List (Option (Bool × Byte)))
deriving DecidableEq, Repr

/-- A scrubber (R417): of a tile, of a physical engine, of the task descriptors, of a keep-store bank, of the
control-complex memory. -/
inductive Scrubber where
  | fab (t : TileNo) | eng (p : EngineNo) | dpt | keep (b : Fin 16) | ccm
deriving DecidableEq, Repr

end Sys2Proof
end

