-- ==== Sys2Proof/Syntax.lean ====
section
/-!
DEFINITION. Sys2Proof/Syntax.lean: the commands of the block, one constructor for each row of the spec's table of
operations and events.
-/
namespace Sys2Proof

/-- A command: an operation or event of the table, with the unit it acts on and what comes with it from outside. -/
inductive Instr where
  /-- SLOT_ADVANCE: an FCLK edge: the current slot ends and the next begins. -/
  | slotAdvance
  /-- CROSSING_ADVANCE: the FCLK edge at which the slot count wraps. -/
  | crossingAdvance
  /-- ORBIT_ADVANCE: the FCLK edge at which the crossing count wraps. -/
  | orbitAdvance (qref : BitVec 4)
  /-- TSB_NOW_READ: a read of `TSB_NOW`. -/
  | tsbNowRead
  /-- TIMING_WORD: a 40-bit word received on a timing lane. -/
  | timingWord (lane : Fin 2) (word : TimingChars)
  /-- NOP: the NOP timing command of the current crossing. -/
  | nop
  /-- ORBIT: the ORBIT timing command last received. -/
  | orbit
  /-- ORBIT_PIN_MARKER: the ORBIT ball sampled high at a CX_CLK edge. -/
  | orbitPinMarker
  /-- ACCEPT: the ACCEPT timing command of the current crossing. -/
  | accept
  /-- RESYNC: the RESYNC timing command of the current crossing. -/
  | resync
  /-- TESTPULSE: the TESTPULSE timing command of the current crossing. -/
  | testpulse
  /-- CALSTROBE: the CALSTROBE timing command of the current crossing. -/
  | calstrobe
  /-- CAL_PIN_FALL: the strobe width of a CAL pin expires. -/
  | calPinFall (pin : Fin 4)
  /-- COUNTER_RESET: the COUNTER_RESET timing command of the current crossing. -/
  | counterReset
  /-- QUIET_START: the QUIET_START timing command of the current crossing. -/
  | quietStart
  /-- QUIET_END: the QUIET_END timing command of the current crossing. -/
  | quietEnd
  /-- ACCORD_SWITCH: the ACCORD_SWITCH timing command of the current crossing. -/
  | accordSwitch
  /-- RESERVED_COMMAND: a reserved timing command of the current crossing. -/
  | reservedCommand
  /-- TIMING_LANE_FAILURE: a timing lane fails. -/
  | timingLaneFailure (lane : Fin 2) (lossOfLock : Bool)
  /-- FAILOVER: the active timing lane changes over. -/
  | failover
  /-- TIMING_LANE_QUALIFY: a timing lane qualifies, its offset measured. -/
  | timingLaneQualify (lane : Fin 2) (steps : Int)
  /-- TSB_SWAP: a write of `TSB_CMD.SWAP`. -/
  | tsbSwap
  /-- TSB_REALIGN: a write of `TSB_CMD.REALIGN`. -/
  | tsbRealign
  /-- TSB_SNAP: a write of `TSB_CMD.SNAP`. -/
  | tsbSnap (mask : BitVec 7)
  /-- FCLK_LOCK: the FCLK PLL locks. -/
  | fclkLock
  /-- LOCK_TIMEOUT: `TSB_LOCK_TIMEOUT` expires. -/
  | lockTimeout (noEdge : Bool)
  /-- CLOCK_LOSS: the crossing clock is lost. -/
  | clockLoss
  /-- CLOCK_RETURN: the crossing clock returns, off the held grid by the steps given. -/
  | clockReturn (steps : Int)
  /-- HOLDOVER_EXPIRY: the holdover time expires. -/
  | holdoverExpiry
  /-- RETURN_QUALIFIED: the returned clock has been good for `TSB_RETURN_QUAL` crossings. -/
  | returnQualified
  /-- LANE_ACQUIRE_LOCK: a lane recovers its clock and gains block lock. -/
  | laneAcquireLock (l : LaneNo)
  /-- MIRPEL_FRAME: a frame has arrived, its first bit so many latency steps ago. -/
  | mirpelFrame (l : LaneNo) (blocks : List Block66) (ago : Nat)
  /-- RAW_CROSSING: a crossing of a raw stream has arrived. -/
  | rawCrossing (l : LaneNo) (raw : RawCrossing) (ago : Nat)
  /-- FRAME_DELIVERY: a lane starts a delivery at slot DS. -/
  | frameDelivery (l : LaneNo)
  /-- LANE_LOSS: a lane is declared lost. -/
  | laneLoss (l : LaneNo)
  /-- LANE_JOIN: a waiting lane joins at an orbit start. -/
  | laneJoin (l : LaneNo)
  /-- LANE_REALIGN: a write of `LAN_CTRL.REALIGN`, or its crossing boundary. -/
  | laneRealign (l : LaneNo)
  /-- LANE_ADOPT: a write of `LAN_CTRL.ADOPT`. -/
  | laneAdopt (l : LaneNo)
  /-- RX_EN_WRITE: a write of `RX_EN`. -/
  | rxEnWrite (l : LaneNo) (on : Bool)
  /-- TX_EN_WRITE: a write of `TX_EN`. -/
  | txEnWrite (l : LaneNo) (on : Bool)
  /-- PD_WRITE: a write of `PD`. -/
  | pdWrite (l : LaneNo) (on : Bool)
  /-- MIRPEL_TX_FRAME: the transmitter sends a Mirpel frame. -/
  | mirpelTxFrame (l : LaneNo)
  /-- SYSTEM_TX_FRAME: the transmitter sends a system frame. -/
  | systemTxFrame (l : LaneNo)
  /-- READOUT_TX_FRAME: the transmitter sends a readout frame. -/
  | readoutTxFrame (l : LaneNo)
  /-- CELL_NOP: cell operation NOP issues in a cell. -/
  | cellNop (c : CellNo)
  /-- CELL_PASS: cell operation PASS issues in a cell. -/
  | cellPass (c : CellNo)
  /-- CELL_CONST: cell operation CONST issues in a cell. -/
  | cellConst (c : CellNo)
  /-- CELL_ADD: cell operation ADD issues in a cell. -/
  | cellAdd (c : CellNo)
  /-- CELL_SUB: cell operation SUB issues in a cell. -/
  | cellSub (c : CellNo)
  /-- CELL_ADDS: cell operation ADDS issues in a cell. -/
  | cellAdds (c : CellNo)
  /-- CELL_MIN: cell operation MIN issues in a cell. -/
  | cellMin (c : CellNo)
  /-- CELL_MAX: cell operation MAX issues in a cell. -/
  | cellMax (c : CellNo)
  /-- CELL_ABS: cell operation ABS issues in a cell. -/
  | cellAbs (c : CellNo)
  /-- CELL_CMP: cell operation CMP issues in a cell. -/
  | cellCmp (c : CellNo)
  /-- CELL_THR: cell operation THR issues in a cell. -/
  | cellThr (c : CellNo)
  /-- CELL_AND: cell operation AND issues in a cell. -/
  | cellAnd (c : CellNo)
  /-- CELL_OR: cell operation OR issues in a cell. -/
  | cellOr (c : CellNo)
  /-- CELL_XOR: cell operation XOR issues in a cell. -/
  | cellXor (c : CellNo)
  /-- CELL_NOT: cell operation NOT issues in a cell. -/
  | cellNot (c : CellNo)
  /-- CELL_SHL: cell operation SHL issues in a cell. -/
  | cellShl (c : CellNo)
  /-- CELL_SHR: cell operation SHR issues in a cell. -/
  | cellShr (c : CellNo)
  /-- CELL_ASR: cell operation ASR issues in a cell. -/
  | cellAsr (c : CellNo)
  /-- CELL_MUL8: cell operation MUL8 issues in a cell. -/
  | cellMul8 (c : CellNo)
  /-- CELL_SEL: cell operation SEL issues in a cell. -/
  | cellSel (c : CellNo)
  /-- CELL_LUT4: cell operation LUT4 issues in a cell. -/
  | cellLut4 (c : CellNo)
  /-- CELL_CNT: cell operation CNT issues in a cell. -/
  | cellCnt (c : CellNo)
  /-- CELL_ACC: cell operation ACC issues in a cell. -/
  | cellAcc (c : CellNo)
  /-- CELL_DELAY: cell operation DELAY issues in a cell. -/
  | cellDelay (c : CellNo)
  /-- CELL_SRD: cell operation SRD issues in a cell. -/
  | cellSrd (c : CellNo)
  /-- CELL_SWR: cell operation SWR issues in a cell. -/
  | cellSwr (c : CellNo)
  /-- DEC_EDGE: the level of a DEC ball follows the word presented 4 slots before. -/
  | decEdge (b : Fin 16)
  /-- SORTER_CAPTURE: a sector sorter captures at its sample slot. -/
  | sorterCapture (k : SectorNo)
  /-- SORTER_EMIT: a sector sorter emits. -/
  | sorterEmit (k : SectorNo)
  /-- MERGE_CAPTURE: the merge unit captures. -/
  | mergeCapture
  /-- MERGE_EMIT: the merge unit emits. -/
  | mergeEmit
  /-- QUEUE_PUSH: a producer pushes a word. -/
  | queuePush (q : QueueNo)
  /-- QUEUE_POP: a consumer pops. -/
  | queuePop (q : QueueNo)
  /-- MARK_GAP_LAND: a pending MARK GAP lands. -/
  | markGapLand (q : QueueNo)
  /-- POST_RESPONSE: a post unit receives a response. -/
  | postResponse (q : QueueNo)
  /-- MARK_REFUSED_LAND: MARK REFUSED lands in the RET queue. -/
  | markRefusedLand (q : QueueNo)
  /-- STREAM_SEND: an OUT NET queue sends its head word. -/
  | streamSend (q : QueueNo)
  /-- BUDGET_OVERRUN: budget cycle B ends without DONE. -/
  | budgetOverrun (p : EngineNo)
  /-- SLOT_EVENT: the SLOT event. -/
  | slotEvent (p : EngineNo)
  /-- FAULT: a FAULT. -/
  | engFault (p : EngineNo)
  /-- WATCHDOG: the engine watchdog expires. -/
  | watchdog (p : EngineNo)
  /-- HOLDOFF: a gang's hold-off or port deadline is exceeded. -/
  | holdoff (p : EngineNo)
  /-- IN_WAKE: an engine held on an empty queue resumes. -/
  | inWake (p : EngineNo)
  /-- OUT_WAKE: an engine held on a full queue resumes. -/
  | outWake (p : EngineNo)
  /-- DECLARE_DEAD: Crucible declares an engine dead. -/
  | declareDead (p : EngineNo)
  /-- SPARE_COPY_COMPLETE: a spare's memories are loaded and copied. -/
  | spareCopyComplete (p : EngineNo)
  /-- ENG_NOP: the engine fetches or runs a NOP. -/
  | engNop (p : EngineNo)
  /-- ILLEGAL_INSTRUCTION: a reserved encoding reaches stage D. -/
  | illegalInstruction (p : EngineNo)
  /-- BR: a cycle of the engine whose instruction is BR. -/
  | engBr (p : EngineNo)
  /-- CALL: a cycle of the engine whose instruction is CALL. -/
  | engCall (p : EngineNo)
  /-- RET: a cycle of the engine whose instruction is RET. -/
  | engRet (p : EngineNo)
  /-- REP: a cycle of the engine whose instruction is REP. -/
  | engRep (p : EngineNo)
  /-- LOOP: a cycle of the engine whose instruction is LOOP. -/
  | engLoop (p : EngineNo)
  /-- YIELD: a cycle of the engine whose instruction is YIELD. -/
  | engYield (p : EngineNo)
  /-- DONE: a cycle of the engine whose instruction is DONE. -/
  | engDone (p : EngineNo)
  /-- EVT: a cycle of the engine whose instruction is EVT. -/
  | engEvt (p : EngineNo)
  /-- SYNC: a cycle of the engine whose instruction is SYNC. -/
  | engSync (p : EngineNo)
  /-- IN: a cycle of the engine whose instruction is IN. -/
  | engIn (p : EngineNo)
  /-- OUT: a cycle of the engine whose instruction is OUT. -/
  | engOut (p : EngineNo)
  /-- SIGNAL: a cycle of the engine whose instruction is SIGNAL. -/
  | engSignal (p : EngineNo)
  /-- CLRF: a cycle of the engine whose instruction is CLRF. -/
  | engClrf (p : EngineNo)
  /-- POST: a cycle of the engine whose instruction is POST. -/
  | engPost (p : EngineNo)
  /-- ALU_ADD: a cycle of the engine whose instruction is ALU_ADD. -/
  | aluAdd (p : EngineNo)
  /-- ALU_SUB: a cycle of the engine whose instruction is ALU_SUB. -/
  | aluSub (p : EngineNo)
  /-- ALU_ADDS: a cycle of the engine whose instruction is ALU_ADDS. -/
  | aluAdds (p : EngineNo)
  /-- ALU_SUBS: a cycle of the engine whose instruction is ALU_SUBS. -/
  | aluSubs (p : EngineNo)
  /-- ALU_AND: a cycle of the engine whose instruction is ALU_AND. -/
  | aluAnd (p : EngineNo)
  /-- ALU_OR: a cycle of the engine whose instruction is ALU_OR. -/
  | aluOr (p : EngineNo)
  /-- ALU_XOR: a cycle of the engine whose instruction is ALU_XOR. -/
  | aluXor (p : EngineNo)
  /-- ALU_NOT: a cycle of the engine whose instruction is ALU_NOT. -/
  | aluNot (p : EngineNo)
  /-- ALU_NEG: a cycle of the engine whose instruction is ALU_NEG. -/
  | aluNeg (p : EngineNo)
  /-- ALU_ABS: a cycle of the engine whose instruction is ALU_ABS. -/
  | aluAbs (p : EngineNo)
  /-- ALU_MIN: a cycle of the engine whose instruction is ALU_MIN. -/
  | aluMin (p : EngineNo)
  /-- ALU_MAX: a cycle of the engine whose instruction is ALU_MAX. -/
  | aluMax (p : EngineNo)
  /-- ALU_CMP: a cycle of the engine whose instruction is ALU_CMP. -/
  | aluCmp (p : EngineNo)
  /-- ALU_TST: a cycle of the engine whose instruction is ALU_TST. -/
  | aluTst (p : EngineNo)
  /-- ALU_SHL: a cycle of the engine whose instruction is ALU_SHL. -/
  | aluShl (p : EngineNo)
  /-- ALU_SHR: a cycle of the engine whose instruction is ALU_SHR. -/
  | aluShr (p : EngineNo)
  /-- ALU_ASR: a cycle of the engine whose instruction is ALU_ASR. -/
  | aluAsr (p : EngineNo)
  /-- ALU_CNT: a cycle of the engine whose instruction is ALU_CNT. -/
  | aluCnt (p : EngineNo)
  /-- ALU_LDI: a cycle of the engine whose instruction is ALU_LDI. -/
  | aluLdi (p : EngineNo)
  /-- LDX: a cycle of the engine whose instruction is LDX. -/
  | engLdx (p : EngineNo)
  /-- LDY: a cycle of the engine whose instruction is LDY. -/
  | engLdy (p : EngineNo)
  /-- STX: a cycle of the engine whose instruction is STX. -/
  | engStx (p : EngineNo)
  /-- STY: a cycle of the engine whose instruction is STY. -/
  | engSty (p : EngineNo)
  /-- MOV: a cycle of the engine whose instruction is MOV. -/
  | engMov (p : EngineNo)
  /-- MAC: a cycle of the engine whose instruction is MAC. -/
  | engMac (p : EngineNo)
  /-- MSU: a cycle of the engine whose instruction is MSU. -/
  | engMsu (p : EngineNo)
  /-- MPY: a cycle of the engine whose instruction is MPY. -/
  | engMpy (p : EngineNo)
  /-- CLRMAC: a cycle of the engine whose instruction is CLRMAC. -/
  | engClrmac (p : EngineNo)
  /-- DISPATCHER_CYCLE: a DCLK cycle with the writes, posts and flag messages that arrive in it. -/
  | dispatcherCycle (cmds : List W32) (posts : Nat) (flags : Nat)
  /-- FLAG_SET_ARRIVAL: the oldest flag message of a source arrives. -/
  | flagSetArrival (src : FlagSrc)
  /-- ITEM_COPY_COMPLETE: the copy of an assigned item completes. -/
  | itemCopyComplete (p : EngineNo)
  /-- DISPATCH: an engine starts the item in its prefetch slot. -/
  | dispatch (p : EngineNo)
  /-- DPT_CANCEL: `DPT_CMD` CANCEL. -/
  | dptCancel (t : TaskNo)
  /-- DPT_RESUME: `DPT_CMD` RESUME. -/
  | dptResume (t : TaskNo)
  /-- DPT_DISABLE: `DPT_CMD` DISABLE. -/
  | dptDisable (t : TaskNo)
  /-- DPT_ENABLE: `DPT_CMD` ENABLE. -/
  | dptEnable (t : TaskNo)
  /-- DPT_DRAIN: `DPT_CMD` DRAIN. -/
  | dptDrain (t : TaskNo)
  /-- DPT_SIGNAL: `DPT_CMD` SIGNAL. -/
  | dptSignal (t : TaskNo) (f : Fin 32)
  /-- DPT_CLRF: `DPT_CMD` CLRF. -/
  | dptClrf (t : TaskNo) (f : Fin 32)
  /-- ENG_DISABLE: `DPT_CMD` ENG_DISABLE. -/
  | engDisable (p : BitVec 10)
  /-- ENG_ENABLE: `DPT_CMD` ENG_ENABLE. -/
  | engEnable (p : BitVec 10)
  /-- DISPATCHER_RESET: a dispatcher reset. -/
  | dispatcherReset
  /-- DISPATCHER_RESUME: the dispatcher runs again. -/
  | dispatcherResume
  /-- SILLAGE_WRITE: Sillage writes a buffered record. -/
  | sillageWrite
  /-- SILLAGE_RESTART: a write of `SLG_CMD.RESTART`. -/
  | sillageRestart
  /-- PACKET_OPEN: the fragment builder opens a packet. -/
  | packetOpen (k : SectorNo)
  /-- BUILDER_WORD: the builder writes a packet word. -/
  | builderWord (k : SectorNo)
  /-- PACKET_CLOSE: the builder closes its packet. -/
  | packetClose (k : SectorNo)
  /-- READER_TAKE_PACKET: the reader takes a closed packet. -/
  | readerTakePacket (d : DrzNo)
  /-- RPTR_WRITE: a network write of `RPTR`. -/
  | rptrWrite (d : DrzNo) (v : BitVec 15)
  /-- THROTTLE_PIN_EDGE: THROTTLE and BUSY change. -/
  | throttlePinEdge
  /-- ROUTER_HEADER: a header reaches a router input. -/
  | routerHeader (r : RouterNo) (port : Fin 9) (p : Packet)
  /-- AGE_INCREMENT: a header has been blocked for 32 cycles. -/
  | ageIncrement (r : RouterNo) (port : Fin 9) (p : Packet)
  /-- NOC_RD: an RD request reaches its endpoint. -/
  | nocRd (p : Packet)
  /-- NOC_WR: a WR request reaches its endpoint. -/
  | nocWr (p : Packet)
  /-- NOC_WRP: a WRP request reaches its endpoint. -/
  | nocWrp (p : Packet)
  /-- NOC_RDR: an RDR response reaches its requester. -/
  | nocRdr (p : Packet)
  /-- NOC_WRA: a WRA response reaches its requester. -/
  | nocWra (p : Packet)
  /-- NOC_CRET: a CRET reaches its requester. -/
  | nocCret (p : Packet)
  /-- NOC_POST: a POST request reaches the dispatcher. -/
  | nocPost (p : Packet)
  /-- NOC_PRSP: a PRSP response reaches its requester. -/
  | nocPrsp (p : Packet)
  /-- NOC_STRM: a STRM packet reaches a stream interface. -/
  | nocStrm (p : Packet)
  /-- NOC_RSTN: a restart notice reaches a stream interface. -/
  | nocRstn (p : Packet)
  /-- CRET_SEND: a pool sends a CRET. -/
  | cretSend (pool : BitVec 10) (req : BitVec 10)
  /-- REPLY_TIMEOUT: a reply timer expires. -/
  | replyTimeout (src : BitVec 10) (tag : Byte)
  /-- FENCE_BROADCAST: the routers apply the broadcast that is under way. -/
  | fenceBroadcast
  /-- ADMISSION_RUN: an admission begins. -/
  | admissionRun (period : Nat)
  /-- ADMISSION_COMPLETE: an admission completes. -/
  | admissionComplete
  /-- POWER_ON_RESET: VAON and VIO18 rise or RESET_N is held low. -/
  | powerOnReset (env : StartEnv)
  /-- WARM_RESTART: a warm restart. -/
  | warmRestart (env : StartEnv)
  /-- WAIT_LOCK: the WAIT_LOCK start step completes. -/
  | waitLock
  /-- RELEASE_OUTPUTS: the RELEASE_OUTPUTS start step. -/
  | releaseOutputs
  /-- RELEASE_SETRESET: the RELEASE_SETRESET start step. -/
  | releaseSetreset
  /-- ENABLE_WRITES: the ENABLE_WRITES start step. -/
  | enableWrites
  /-- WAIT_ALIGN: the WAIT_ALIGN start step completes. -/
  | waitAlign (timeout : Bool)
  /-- ADMIT: the ADMIT start step. -/
  | admitStep
  /-- RUN_START: RUN begins. -/
  | runStart
  /-- RECORD_COMMIT: Crucible commits a record to the flash. -/
  | recordCommit
  /-- BOOT_RESTART: a write of `BOOT_CMD.RESTART`. -/
  | bootRestart
  /-- BOOT_CLEAR_FAILS: a write of `BOOT_CMD.CLEAR_FAILS`. -/
  | bootClearFails
  /-- RELOAD_COMPLETE: a region's reload completes. -/
  | reloadComplete (k : RegionNo)
  /-- REGION_REJOIN: a region rejoins the fixed plane. -/
  | regionRejoin (k : RegionNo)
  /-- ACCORD_STAGING_COMPLETE: the staging of hot clusters completes. -/
  | accordStagingComplete
  /-- GLB_SWITCH: `GLB_ACCORD_CMD` SWITCH. -/
  | glbSwitch (n : Byte)
  /-- GLB_PREPARE: `GLB_ACCORD_CMD` PREPARE. -/
  | glbPrepare (n : Byte)
  /-- GLB_UNPREPARE: `GLB_ACCORD_CMD` UNPREPARE. -/
  | glbUnprepare (n : Byte)
  /-- SCRUB_READ: a scrubber reads its next row. -/
  | scrubRead (x : Scrubber)
  /-- SCRUB_REWRITE: a scrubber rewrites a corrected row. -/
  | scrubRewrite (x : Scrubber)
  /-- REPAIR_COPY_START: a hard row begins its copy. -/
  | repairCopyStart (m : BitVec 16)
  /-- REPAIR_COPY_COMPLETE: the spare row takes over. -/
  | repairCopyComplete (m : BitVec 16)
  /-- INJECTION_ARM: a write of `MEM_INJ_CTRL` with ARM. -/
  | injectionArm (w : W32)
  /-- RAIL_POLL: the PMBus host polls a rail. -/
  | railPoll (r : Fin 3) (v : RailReading)
  /-- SECTOR_POWER_GOOD: a sector regulator reports power-good. -/
  | sectorPowerGood (k : SectorNo)
  /-- SECTOR_POWER_TIMEOUT: a sector is not powered within 1 ms. -/
  | sectorPowerTimeout (k : SectorNo)
  /-- ORDERLY_DOWN_COMPLETE: an orderly power-down completes. -/
  | orderlyDownComplete (k : SectorNo)
  /-- SECTOR_OVERCURRENT: a sector regulator exceeds its limit. -/
  | sectorOvercurrent (k : SectorNo)
  /-- SENSOR_SAMPLE: a thermal sensor reading. -/
  | sensorSample (i : Fin 32) (v : BitVec 16)
  /-- THROTTLE_UPDATE: the throttle step. -/
  | throttleUpdate
  /-- THERMAL_TRIP: a trip comparator reaches its limit. -/
  | thermalTrip (i : Fin 32)
  /-- PWR_RETRY: `PWR_CMD` RETRY. -/
  | pwrRetry (mask : BitVec 16)
  /-- PWR_CLEAR: `PWR_CMD` CLEAR. -/
  | pwrClear
  /-- CHALLENGE: Hallmark CHALLENGE. -/
  | challenge
  /-- ATTEST: Hallmark ATTEST. -/
  | attest
  /-- CERT_READ: Hallmark CERT_READ. -/
  | certRead
  /-- CERT_STORE: Hallmark CERT_STORE. -/
  | certStore
  /-- KEY_SET: Hallmark KEY_SET. -/
  | keySet (vfuse : Bool)
  /-- KEY_REVOKE: Hallmark KEY_REVOKE. -/
  | keyRevoke (vfuse : Bool)
  /-- DEBUG_UNLOCK: Hallmark DEBUG_UNLOCK. -/
  | debugUnlock
  /-- DEBUG_LOCK: Hallmark DEBUG_LOCK. -/
  | debugLock
  /-- GENKEY: Hallmark GENKEY. -/
  | genkey (vfuse : Bool)
  /-- HALLMARK_OP_COMPLETE: a Hallmark operation completes. -/
  | hallmarkOpComplete (readBack : Bool)
  /-- MGMT_FRAME: an Ethernet frame arrives. -/
  | mgmtFrame (f : List Byte)
  /-- READ: the management READ at the head of the queue. -/
  | mgmtRead
  /-- WRITE: the management WRITE at the head of the queue. -/
  | mgmtWrite
  /-- STREAM_READ: the management STREAM_READ at the head of the queue. -/
  | streamRead
  /-- IMAGE_WRITE: the management IMAGE_WRITE at the head of the queue. -/
  | imageWrite (flashOk : Bool)
  /-- IMAGE_COMMIT: the management IMAGE_COMMIT at the head of the queue. -/
  | imageCommit (flashOk : Bool)
  /-- PING: the management PING at the head of the queue. -/
  | ping
  /-- ACCORD: the management ACCORD at the head of the queue. -/
  | accord
  /-- ENGINE_DEAD: the management ENGINE_DEAD at the head of the queue. -/
  | engineDead
  /-- I2C_READ: an I2C pointer read. -/
  | i2cRead (ptr : Byte)
  /-- I2C_RESTART: the I2C RESTART command. -/
  | i2cRestart (confirm : Byte) (pec : Byte)
  /-- I2C_CLEAR_FAILS: the I2C CLEAR_FAILS command. -/
  | i2cClearFails (confirm : Byte) (pec : Byte)
  /-- I2C_PWR_CLEAR: the I2C PWR_CLEAR command. -/
  | i2cPwrClear (confirm : Byte) (pec : Byte)
  /-- I2C_SECTOR_RETRY: the I2C SECTOR_RETRY command. -/
  | i2cSectorRetry (mask : BitVec 16) (confirm : Byte) (pec : Byte)
  /-- EXTEST: the JTAG EXTEST instruction. -/
  | extest
  /-- SAMPLE_PRELOAD: the JTAG SAMPLE/PRELOAD instruction. -/
  | samplePreload (pins : BitVec 101) (load : BitVec 101)
  /-- IDCODE: the JTAG IDCODE instruction. -/
  | idcode
  /-- CLAMP: the JTAG CLAMP instruction. -/
  | clamp
  /-- HIGHZ: the JTAG HIGHZ instruction. -/
  | highz
  /-- BYPASS: the JTAG BYPASS instruction. -/
  | bypass
  /-- JTAG_ACCESS_READ: a JTAG access read. -/
  | jtagAccessRead (a : BitVec 40)
  /-- JTAG_ACCESS_WRITE: a JTAG access write. -/
  | jtagAccessWrite (a : BitVec 40) (v : W32)
  /-- GLB_RESET_SECTOR: `GLB_RESET_CMD` SECTOR. -/
  | glbResetSector (mask : BitVec 16)
  /-- GLB_RESET_QUAD: `GLB_RESET_CMD` QUAD. -/
  | glbResetQuad (mask : BitVec 4)
  /-- REGISTER_WRITE: a write to a register. -/
  | registerWrite (a : BitVec 40) (v : W32)
  /-- POWER_REMOVAL: VAON or VIO18 leaves its range. -/
  | powerRemoval
  /-- VFUSE_FALL: VFUSE falls. -/
  | vfuseFall
  /-- SENSOR_NOT_UPDATED: a thermal sensor has not updated for 4 ms. -/
  | sensorNotUpdated (i : Fin 32)
  /-- LQCLK_LOCK: a quadrant's LQCLK locks. -/
  | lqclkLock (q : QuadNo)
  /-- MGT_LINK_CHANGE: the management port gains or loses block lock. -/
  | mgtLinkChange (up : Bool)
  /-- EMERGENCY_DOWN_COMPLETE: after an emergency down the regulator is off. -/
  | emergencyDownComplete (k : SectorNo)
deriving DecidableEq, Repr

end Sys2Proof
end

