-- ==== Sys2Proof/WellFormed.lean ====
section
/-!
DEFINITION. Sys2Proof/WellFormed.lean: which commands are well formed. Unit numbers are bounded by their types; what is
left is the size of what comes in from outside.
-/
namespace Sys2Proof

/-- `LENGTH` of a packet header (R326). -/
def Packet.length (p : Packet) : Nat := bitsOf p.hdr 94 90

/-- A packet has at most 16 data units, and as many as its header says (R326). -/
def Packet.wf (p : Packet) : Bool := decide (p.length ≤ 16) && decide (p.data.length = 16 * p.length)

/-- A start names the three rails that are sequenced (R428). -/
def StartEnv.wf (e : StartEnv) : Bool := decide (e.rails.length = 3)

/-- An Ethernet frame without its check sequence: a 14-byte header and at most 1,500 bytes (R457). -/
def frameWf (f : List Byte) : Bool := decide (14 ≤ f.length) && decide (f.length ≤ 1514)

/-- The number of blocks or characters a crossing can hold (R71). -/
def unitsWf (n : Nat) : Bool := decide (n ≤ 255)

/-- A raw crossing within R71. -/
def RawCrossing.wf : RawCrossing → Bool
  | .r64 b => unitsWf b.length
  | .r8 c => unitsWf c.length

/-- Well-formed commands. -/
def Instr.WellFormed : Instr → Bool
  | .mirpelFrame _ b _ => unitsWf b.length
  | .rawCrossing _ r _ => r.wf
  | .routerHeader _ _ p | .ageIncrement _ _ p => p.wf
  | .nocRd p | .nocWr p | .nocWrp p | .nocRdr p | .nocWra p | .nocCret p | .nocPost p | .nocPrsp p | .nocStrm p
  | .nocRstn p => p.wf
  | .powerOnReset e | .warmRestart e => e.wf
  | .mgmtFrame f => frameWf f
  | _ => true

end Sys2Proof
end

