-- ==== Sys2Proof/Decode.lean ====
section
/-!
DEFINITION. Sys2Proof/Decode.lean: the block has no command encoding: the spec's table gives no row any bits.
-/
namespace Sys2Proof

/-- The command that a word spells by the bits of the table. The table gives no row bits, so no word spells one. -/
def decodeTableWord (_nbits _w : Nat) : Option Instr := none

end Sys2Proof
end

