-- ==== Sys2Proof/Config.lean ====
section
/-!
DEFINITION. Sys2Proof/Config.lean: what one device fixes for good (its identity code) and the free values of the
model: constants without a body, so that no proof can see what they are.
-/
namespace Sys2Proof.Config

/-- Stepping of the device, IDCODE bits [31:28] (R470); free: the spec gives stepping 0 as an example only. -/
opaque stepping : BitVec 4

/-- The free values the spec leaves open, indexed by a counter of the state that each use advances. -/
opaque freeWord : Nat → BitVec 64

/-- Credits that the NETWORK section of the image grants a requester for a pool (R333), by the section's content; free:
the spec gives the grants no format. -/
opaque netGrant : List Byte → Nat → Nat → Nat

/-- The class that the NETWORK section sets for a requester (R332), by the section's content; free for the same reason. -/
opaque netClass : List Byte → Nat → BitVec 2

/-- Units of reply buffer of a requester (R335); free: the spec gives no number. -/
opaque replyUnits : Nat → Nat

/-- NCLK cycles since power-on at an FCLK slot of the model's count (R334); free: the two clocks have no fixed relation. -/
opaque nclkAt : Nat → Nat

/-- SLH-DSA of FIPS 205, as R380, R445 and R454 use it; the spec names the standard and does not write it out, so the model
knows nothing of its values. A signature over the digest of a message verifies under a public key: parameter set 128s. -/
opaque slhVerify : (pk digest sig : List Byte) → Bool
/-- PK.root of the device key, from its seeds: parameter set 128f. -/
opaque slhRoot : (seeds : List Byte) → List Byte
/-- A signature over a digest with the device key, from its seeds and what the signer draws: parameter set 128f. -/
opaque slhSign : (seeds digest : List Byte) → (drawn : BitVec 64) → List Byte
/-- The public key whose SHA-256 is a hash (R448: the key whose hash a vendor slot holds). -/
opaque keyOf : (hash : List Byte) → List Byte

/-- The fuse array without the seeds, as Hallmark reads it (R454), from the fields it holds; free: the spec gives the array no
layout. -/
opaque fuseArray : (fields : List Byte) → List Byte

end Sys2Proof.Config
end

