-- ==== Sys2Proof/Machine/RegMap.lean ====
section
/-!
DEFINITION. Sys2Proof/Machine/RegMap.lean: the register map (chapter 21): the address of every register, and for
each register its reset word and its access classes (R8), from the field tables of the chapters.
-/
namespace Sys2Proof.Machine

/-- What one register does on an access: its word after a device reset, and which of its bits are of the classes
RW, RW1C, RWL and WO of R8. A bit in none of the four is RO or reserved. -/
structure RegSpec where
  reset : W32 := 0
  rw : W32 := 0
  rw1c : W32 := 0
  rwl : W32 := 0
  wo : W32 := 0
deriving DecidableEq, Repr

/-- The mask of bits `[hi:lo]`. -/
def bm (hi lo : Nat) : W32 := BitVec.ofNat 32 ((2 ^ (hi + 1 - lo) - 1) * 2 ^ lo)

/-! ### Addresses -/
namespace Reg
/-- Offset in the global window (R486). -/
def glb (off : Nat) : Nat := 0xF000000000 + off
/-- B(s), the base of sector `s` (R339). -/
def secBase (s : Nat) : Nat := 0x1000000000 + s * 0x1000000
/-- Register of the sector window (R489). -/
def sec (s off : Nat) : Nat := secBase s + 0xF00000 + off

def glbId : Nat := glb 0x0
def glbSysid : Nat := glb 0x4
def glbFault : Nat := glb 0x10
def glbFaultEn : Nat := glb 0x14
def glbResetCmd : Nat := glb 0x18
def accordCmd : Nat := glb 0x20
def accordStatus : Nat := glb 0x24
def accordOrbitLo : Nat := glb 0x28
def accordOrbitHi : Nat := glb 0x2C
def accordCold : Nat := glb 0x30
def glbSecState (s : Nat) : Nat := glb (0x100 + 0x10 * s)
def glbSecLeave (s : Nat) : Nat := glb (0x104 + 0x10 * s)
def glbSecJoin (s : Nat) : Nat := glb (0x108 + 0x10 * s)
def glbCl (n : Nat) : Nat := glb (0x400 + 4 * n)

def tsbCtrl : Nat := glb 0x1000
def tsbStatus : Nat := glb 0x1004
def tsbCmd : Nat := glb 0x1008
def tsbGeom : Nat := glb 0x100C
def tsbGeomFreq : Nat := glb 0x1010
def tsbPhase : Nat := glb 0x1014
def tsbTlOffset : Nat := glb 0x1018
def tsbAcceptLat : Nat := glb 0x101C
def tsbFail : Nat := glb 0x1020
def tsbLockTimeout : Nat := glb 0x1024
def tsbHoldover : Nat := glb 0x1028
def tsbReturnQual : Nat := glb 0x102C
def tsbOrbitInit : Nat := glb 0x1030
def tsbNow : Nat := glb 0x1034
def tsbOrbitLo : Nat := glb 0x1038
def tsbOrbitHi : Nat := glb 0x103C
def tsbAbOffset : Nat := glb 0x1040
def tsbOrbitErrTime : Nat := glb 0x1044
def tsbSchedPerrIdx : Nat := glb 0x1048
def tsbSnapTimeLo : Nat := glb 0x104C
def tsbSnapTimeHi : Nat := glb 0x1050
/-- The seven Touchstone counters SUBST_CNT, CMD_LOST, AB_MISMATCH, CMD_UNKNOWN, ORBIT_ERR_CNT, ORBIT_MISS_CNT,
ORBIT_NUM_ERR in order; their snapshot copies stand 0x20 above. -/
def tsbCnt (i : Nat) : Nat := glb (0x1080 + 4 * i)
def tsbSubstCnt : Nat := tsbCnt 0
def tsbCmdLost : Nat := tsbCnt 1
def tsbAbMismatch : Nat := tsbCnt 2
def tsbCmdUnknown : Nat := tsbCnt 3
def tsbOrbitErrCnt : Nat := tsbCnt 4
def tsbOrbitMissCnt : Nat := tsbCnt 5
def tsbOrbitNumErr : Nat := tsbCnt 6
def tsbCntSnap (i : Nat) : Nat := glb (0x10A0 + 4 * i)
def tsbEvn : Nat := glb 0x10C0
/-- Schedule entry word (R61). -/
def sched (i w : Nat) : Nat := glb (0x10000 + 16 * i + 4 * w)

def bootStatus : Nat := glb 0x2000
def bootCmd : Nat := glb 0x2004
def bootHist (i : Nat) : Nat := glb (0x2020 + 4 * i)
def admStatus : Nat := glb 0x3000
def admObject : Nat := glb 0x3004
def admCount : Nat := glb 0x3008
def admDigest (i : Nat) : Nat := glb (0x3020 + 4 * i)

def memScrubCfg : Nat := glb 0x4000
def memStatus : Nat := glb 0x4004
def memCnt0 : Nat := glb 0x4008
def memCnt1 : Nat := glb 0x400C
def memCnt2 : Nat := glb 0x4010
def memLastUe0 : Nat := glb 0x4014
def memLastUe1 : Nat := glb 0x4018
def memNospare0 : Nat := glb 0x401C
def memNospare1 : Nat := glb 0x4020
def memInjId : Nat := glb 0x4024
def memInjCtrl : Nat := glb 0x4028
def memRptId (i : Nat) : Nat := glb (0x4100 + 8 * i)
def memRptRow (i : Nat) : Nat := glb (0x4104 + 8 * i)

def pwrCfg : Nat := glb 0x5000
def pwrTelCfg : Nat := glb 0x5004
def pwrStatus : Nat := glb 0x5008
def pwrSecState : Nat := glb 0x500C
def pwrOc : Nat := glb 0x5010
def pwrSensFail : Nat := glb 0x5014
def pwrCmd : Nat := glb 0x5018
def pwrRailCfg (r : Nat) : Nat := glb (0x5020 + 0x10 * r)
def pwrRailTel (r : Nat) : Nat := glb (0x5024 + 0x10 * r)
def pwrRailStat (r : Nat) : Nat := glb (0x5028 + 0x10 * r)
def pwrTemp (s : Nat) : Nat := glb (0x5080 + 4 * s)

def hlmCmd : Nat := glb 0x6000
def hlmStatus : Nat := glb 0x6004
def hlmUidLo : Nat := glb 0x6008
def hlmUidHi : Nat := glb 0x600C
def hlmDpk (i : Nat) : Nat := glb (0x6020 + 4 * i)
def hlmChal (i : Nat) : Nat := glb (0x6040 + 4 * i)

def mgtCfg : Nat := glb 0x7000
def mgtIp : Nat := glb 0x7004
def mgtMacLo : Nat := glb 0x7008
def mgtMacHi : Nat := glb 0x700C
def mgtStatus : Nat := glb 0x7010
def mgtCnt0 : Nat := glb 0x7014
def mgtCnt1 : Nat := glb 0x7018
def mgtAllowAddr (i : Nat) : Nat := glb (0x7040 + 8 * i)
def mgtAllowCtl (i : Nat) : Nat := glb (0x7044 + 8 * i)

def decCfg : Nat := glb 0x8000
def decStatus : Nat := glb 0x8004
def decBadcnt : Nat := glb 0x8008
def mrgCfg : Nat := glb 0x8010
def mrgCnt : Nat := glb 0x8014
def drzRt : Nat := glb 0x8020
def drzPins : Nat := glb 0x8024
def drzBmaskLo : Nat := glb 0x8028
def drzBmaskHi : Nat := glb 0x802C
def drzTmaskLo (n : Nat) : Nat := glb (0x8040 + 8 * n)
def drzTmaskHi (n : Nat) : Nat := glb (0x8044 + 8 * n)
def drzAccq (s : Nat) : Nat := glb (0x8080 + 4 * s)

def dptCfg : Nat := glb 0x9000
def dptStatus : Nat := glb 0x9004
def dptCmd : Nat := glb 0x9008
/-- DPT_ACC, REF, DISP, ABORT, DISC, RESET_DISC, EVT_DISC in order. -/
def dptCnt (i : Nat) : Nat := glb (0x9020 + 4 * i)
def dptAcc : Nat := dptCnt 0
def dptRef : Nat := dptCnt 1
def dptDisp : Nat := dptCnt 2
def dptAbort : Nat := dptCnt 3
def dptDisc : Nat := dptCnt 4
def dptResetDisc : Nat := dptCnt 5
def dptEvtDisc : Nat := dptCnt 6
def dptCntSnap (i : Nat) : Nat := glb (0x9040 + 4 * i)
def slgCfg : Nat := glb 0x9080
def slgStatus : Nat := glb 0x9084
def slgCmd : Nat := glb 0x9088
def slgLost : Nat := glb 0x908C

def nocCfg : Nat := glb 0xA000
def nocStatus : Nat := glb 0xA004
def nocCnt (i : Nat) : Nat := glb (0xA010 + 4 * i)
def nocCntSnap (i : Nat) : Nat := glb (0xA020 + 4 * i)
def nocFence (n : Nat) : Nat := glb (0xA400 + 4 * n)
def nocEdge (e : Nat) : Nat := glb (0xA800 + 4 * e)

def admReport : Nat := glb 0x400000
def hlmMailbox : Nat := glb 0x800000
def hlmOutput : Nat := glb 0x880000

/-- Base of the registers of lane `l` (R109). -/
def lan (l off : Nat) : Nat := 0x3000000000 + l * 0x1000 + off
def lanCfg (l : Nat) : Nat := lan l 0x00
def lanCtrl (l : Nat) : Nat := lan l 0x04
def lanStatus (l : Nat) : Nat := lan l 0x08
def lanEq (l : Nat) : Nat := lan l 0x0C
def lanLat (l : Nat) : Nat := lan l 0x10
def lanLatAdm (l : Nat) : Nat := lan l 0x14
def lanErrcnt (l : Nat) : Nat := lan l 0x18
def lanErrcntSnap (l : Nat) : Nat := lan l 0x1C
def lanEvtcnt (l : Nat) : Nat := lan l 0x20
def lanEvtcntSnap (l : Nat) : Nat := lan l 0x24
/-- The latest good report record of a system lane (R103). -/
def lanReport (l : Nat) : Nat := lan l 0x100

/-- Registers of timing lane `i` (R491). -/
def tlnStatus (i : Nat) : Nat := 0x30000F0000 + i * 0x1000
def tlnErrcnt (i : Nat) : Nat := 0x30000F0004 + i * 0x1000
def tlnErrcntSnap (i : Nat) : Nat := 0x30000F0008 + i * 0x1000

def secMapsel (s : Nat) : Nat := sec s 0x000
def secPerrCnt (s : Nat) : Nat := sec s 0x004
def secPerrLast (s : Nat) : Nat := sec s 0x008
def secQsum (s : Nat) : Nat := sec s 0x00C
def secEvtCnt (s : Nat) : Nat := sec s 0x010
def secEvtCntSnap (s : Nat) : Nat := sec s 0x014
def secEngCfg (s : Nat) : Nat := sec s 0x020
def secSpare (s : Nat) : Nat := sec s 0x024
def secEngCnt (s : Nat) : Nat := sec s 0x028
def secEngCntSnap (s : Nat) : Nat := sec s 0x02C
def srtCfg (s : Nat) : Nat := sec s 0x030
def srtStatus (s : Nat) : Nat := sec s 0x034
def srtCnt (s : Nat) : Nat := sec s 0x038
def roCfg0 (s : Nat) : Nat := sec s 0x040
def roCfg1 (s : Nat) : Nat := sec s 0x044
def roCnt (s : Nat) : Nat := sec s 0x048
def roCntSnap (s : Nat) : Nat := sec s 0x04C
def roCh (s ch : Nat) : Nat := sec s (0x080 + 4 * ch)
/-- Registers of derandomizer `d` (R489). -/
def drz (d off : Nat) : Nat := sec (d / 4) (0x100 + 0x20 * (d % 4) + off)
def drzCfg (d : Nat) : Nat := drz d 0x00
def drzCtrl (d : Nat) : Nat := drz d 0x04
def drzPtr (d : Nat) : Nat := drz d 0x08
def drzStatus (d : Nat) : Nat := drz d 0x0C
def drzCnt (d : Nat) : Nat := drz d 0x10
def drzCntSnap (d : Nat) : Nat := drz d 0x14
def engStatus (p : Nat) : Nat := sec (p / 34) (0x1000 + 8 * (p % 34))
def engStCopy (p : Nat) : Nat := sec (p / 34) (0x1004 + 8 * (p % 34))
/-- Word of the queue table entry of queue `q` (R197). -/
def que (q off : Nat) : Nat := secBase (q / 512) + 0xF80000 + 32 * (q % 512) + off
def queCfg (q : Nat) : Nat := que q 0x00
def queStatus (q : Nat) : Nat := que q 0x04
def queCnt0 (q : Nat) : Nat := que q 0x08
def queCnt1 (q : Nat) : Nat := que q 0x0C
def queCnt0Snap (q : Nat) : Nat := que q 0x10
def queCnt1Snap (q : Nat) : Nat := que q 0x14
/-- Word `w` of task descriptor `t` (R273). -/
def task (t w : Nat) : Nat := 0x2000000000 + 64 * t + 4 * w
end Reg

/-! ### What each register does -/

/-- A read-only register with the given reset word. -/
def roReg (r : W32 := 0) : RegSpec := { reset := r }

/-- GLB, TSB, BOOT, ADM registers at fixed offsets of the global window: chapter 20 Tables 3 and 4, chapter 15
Tables 6 to 8, chapter 21 Tables 3 and 4, chapter 2 Tables 9 and 10, chapter 14 Tables 9 to 11, chapter 13
Table 7. A dash in a Reset column takes the stated default, else 0 (R11). -/
def globalRegs1 : List (Nat × RegSpec) :=
  [ (0x0, {}), (0x4, { rwl := bm 5 0 }),
    (0x10, { rw1c := bm 12 0 }), (0x14, { reset := 0x9A2, rwl := bm 12 0 }),
    (0x18, { wo := bm 31 28 ||| bm 15 0 }),
    (0x20, { wo := bm 31 28 ||| bm 7 0 }), (0x24, {}), (0x28, {}), (0x2C, {}), (0x30, {}),
    (0x1000, { reset := 0x40, rwl := bm 8 6 ||| bm 1 0 }),
    (0x1004, { rw1c := bm 18 10 }),
    (0x1008, { wo := bm 31 30 ||| bm 6 0 }),
    (0x100C, { rwl := bm 31 16 ||| bm 7 0 }), (0x1010, { rwl := bm 31 0 }),
    (0x1014, { rwl := bm 9 0 }), (0x1018, { rwl := bm 4 0 }), (0x101C, { rwl := bm 15 0 }),
    (0x1020, { reset := 0x3083, rwl := bm 14 12 ||| bm 8 0 }),
    (0x1024, { reset := 200, rwl := bm 9 0 }), (0x1028, { reset := 64, rwl := bm 11 0 }),
    (0x102C, { reset := 1024, rwl := bm 15 0 }), (0x1030, { rwl := bm 31 0 }),
    (0x1034, {}), (0x1038, {}), (0x103C, {}), (0x1040, {}), (0x1044, {}), (0x1048, {}), (0x104C, {}),
    (0x1050, {}), (0x10C0, {}),
    (0x2000, { reset := 0x01000060 }), (0x2004, { wo := bm 1 0 }),
    (0x3000, {}), (0x3004, {}), (0x3008, {}) ]

/-- MEM, PWR, HLM, MGT registers at fixed offsets: chapter 16 Tables 5 to 12, chapter 17 Tables 5 to 11, chapter
18 Table 4, chapter 19 Tables 7 and 9. -/
def globalRegs2 : List (Nat × RegSpec) :=
  [ (0x4000, { reset := 0x88888, rwl := bm 19 0 }), (0x4004, { rw1c := bm 4 0 }),
    (0x4008, {}), (0x400C, {}), (0x4010, {}), (0x4014, {}), (0x4018, {}), (0x401C, {}), (0x4020, {}),
    (0x4024, { rw := bm 31 0 }), (0x4028, { wo := bm 31 30 ||| bm 28 0 }),
    (0x5000, { reset := 0x5A6430A0, rwl := bm 31 4 }),
    (0x5004, { reset := 0x000A031E, rwl := bm 31 0 }),
    (0x5008, { rw1c := bm 29 24 }), (0x500C, {}), (0x5010, {}), (0x5014, {}),
    (0x5018, { wo := bm 31 28 ||| bm 15 0 }),
    (0x5020, { reset := 0x40141CCD, rwl := bm 30 24 ||| bm 20 0 }),
    (0x5030, { reset := 0x41140E66, rwl := bm 30 24 ||| bm 20 0 }),
    (0x5040, { reset := 0x42141333, rwl := bm 30 24 ||| bm 20 0 }),
    (0x5024, {}), (0x5028, {}), (0x5034, {}), (0x5038, {}), (0x5044, {}), (0x5048, {}),
    (0x6000, { wo := bm 31 28 }), (0x6004, { reset := 7 }), (0x6008, {}), (0x600C, {}),
    (0x7000, { reset := 0x4E160000, rwl := bm 31 16 ||| bm 0 0 }), (0x7004, { rwl := bm 31 0 }),
    (0x7008, { rwl := bm 31 0 }), (0x700C, { rwl := bm 15 0 }), (0x7010, {}), (0x7014, {}), (0x7018, {}) ]

/-- DEC, MRG, DRZ, DPT, SLG, NOC registers at fixed offsets: chapter 5 Tables 10 to 12, chapter 6 Tables 7 and 8,
chapter 11 Table 12, chapter 10 Tables 7 to 12, chapter 12 Tables 9, 10 and 12. -/
def globalRegs3 : List (Nat × RegSpec) :=
  [ (0x8000, { rwl := bm 31 0 }), (0x8004, { reset := 0xFFFF }), (0x8008, {}),
    (0x8010, { rwl := bm 31 13 ||| bm 6 0 }), (0x8014, {}),
    (0x8020, { rwl := bm 31 0 }), (0x8024, { reset := 0x1F }), (0x8028, { rwl := bm 31 0 }),
    (0x802C, { rwl := bm 31 0 }),
    (0x9000, { rwl := bm 31 16 }), (0x9004, { rw1c := bm 4 0 }),
    (0x9008, { wo := bm 31 16 ||| bm 4 0 }),
    (0x9080, { reset := 0x800000FF, rw := bm 31 31 ||| bm 7 0, rwl := bm 30 30 }),
    (0x9084, {}), (0x9088, { wo := bm 0 0 }), (0x908C, {}),
    (0xA000, { reset := 64, rwl := bm 31 16 ||| bm 7 0 }), (0xA004, { rw1c := bm 4 0 }) ]

/-- A schedule entry word (chapter 2, Tables 3 to 5). -/
def schedSpec (w : Nat) : Option RegSpec :=
  if w = 0 then some { rwl := bm 31 27 ||| bm 22 0 }
  else if w = 1 ∨ w = 2 then some { rwl := bm 31 0 } else none

/-- Instances of the global window whose offset is a formula (R486, Table 2). -/
def globalArrays (off : Nat) : Option RegSpec :=
  if off % 4 ≠ 0 then none
  else if 0x100 ≤ off ∧ off < 0x200 then (if off % 16 < 12 then some {} else none)
  else if 0x400 ≤ off ∧ off < 0x800 then some { reset := 1 }
  else if 0x1080 ≤ off ∧ off < 0x109C then some {}
  else if 0x10A0 ≤ off ∧ off < 0x10BC then some {}
  else if 0x2020 ≤ off ∧ off < 0x2040 then some {}
  else if 0x3020 ≤ off ∧ off < 0x3040 then some {}
  else if 0x4100 ≤ off ∧ off < 0x4300 then some {}
  else if 0x5080 ≤ off ∧ off < 0x50C0 then some {}
  else if 0x6020 ≤ off ∧ off < 0x6060 then some {}
  else if 0x7040 ≤ off ∧ off < 0x70C0 then
    (if off % 8 = 0 then some { rwl := bm 31 0 } else some { rwl := bm 31 31 ||| bm 5 0 })
  else if 0x8040 ≤ off ∧ off < 0x8060 then some { rwl := bm 31 0 }
  else if 0x8080 ≤ off ∧ off < 0x80C0 then some {}
  else if 0x9020 ≤ off ∧ off < 0x903C then some {}
  else if 0x9040 ≤ off ∧ off < 0x905C then some {}
  else if 0xA010 ≤ off ∧ off < 0xA030 then some {}
  else if 0xA400 ≤ off ∧ off < 0xA800 then some {}
  else if 0xA800 ≤ off ∧ off < 0xA900 then some {}
  else if 0x10000 ≤ off ∧ off < 0x14000 then schedSpec (off % 16 / 4)
  else none

/-- A register of the global window. -/
def globalSpec (off : Nat) : Option RegSpec :=
  match globalRegs1.lookup off with
  | some r => some r
  | none => match globalRegs2.lookup off with
    | some r => some r
    | none => match globalRegs3.lookup off with
      | some r => some r
      | none => globalArrays off

/-- A register of the sector window at B(s) + 0xF0_0000 + `off` (chapter 21 Table 5; chapter 4 Tables 12 to 14;
chapter 8 Tables 11 to 14; chapter 6 Tables 4 to 6; chapter 11 Tables 8 to 11; chapter 7 Tables 6 to 8). -/
def sectorSpec (off : Nat) : Option RegSpec :=
  if off % 4 ≠ 0 then none
  else if off ≤ 0x14 then some {}
  else if off = 0x20 then some { rwl := bm 0 0 }
  else if off = 0x24 then some { reset := 0x3F3F }
  else if off = 0x28 ∨ off = 0x2C then some {}
  else if off = 0x30 then some { rwl := bm 15 13 ||| bm 6 0 }
  else if off = 0x34 ∨ off = 0x38 then some {}
  else if off = 0x40 then some { rwl := bm 31 10 ||| bm 7 0 }
  else if off = 0x44 then some { rwl := bm 31 31 ||| bm 5 0 }
  else if off = 0x48 ∨ off = 0x4C then some {}
  else if 0x80 ≤ off ∧ off < 0xBC then some { rwl := bm 17 0 }
  else if 0x100 ≤ off ∧ off < 0x180 then
    (let o := off % 0x20
     if o = 0x0 then some { rwl := bm 31 0 }
     else if o = 0x4 then some { rwl := bm 7 0 }
     else if o = 0x8 then some { rw := bm 14 0 }
     else if o = 0xC then some { rw1c := bm 28 27 }
     else if o = 0x10 ∨ o = 0x14 then some {} else none)
  else if 0x200 ≤ off ∧ off < 0x300 then some {}
  else if 0x1000 ≤ off ∧ off < 0x1110 then
    (if off % 8 = 0 then some { reset := if 0x1100 ≤ off then 0x40000000 else 0, rw1c := bm 13 12 }
     else some {})
  else if 0x80000 ≤ off ∧ off < 0x84000 then
    (let o := off % 0x20
     if o = 0 then some { rwl := bm 31 17 ||| bm 12 0 }
     else if o = 4 then some { reset := 0x410, rw1c := bm 9 6 }
     else if o < 0x18 then some {} else none)
  else none

/-- A register of a lane window (chapter 3 Tables 13 to 20). -/
def laneSpec (l off : Nat) : Option RegSpec :=
  if off = 0x00 then some { reset := BitVec.ofNat 32 (0x80 + l / 15 % 4 * 2 ^ 22 + l % 15 * 2 ^ 18), rwl := bm 31 27 ||| bm 25 18 ||| bm 15 0 }
  else if off = 0x04 then some { reset := 3, rwl := bm 25 16 ||| bm 13 8, rw := bm 2 0, wo := bm 4 3 }
  else if off = 0x08 then some { rw1c := bm 9 6 }
  else if off = 0x0C then some { rwl := bm 29 24 ||| bm 22 16 ||| bm 13 0 }
  else if off % 4 = 0 ∧ off ≤ 0x24 then some {}
  else none

/-- A word of a task descriptor (chapter 10 Table 1). -/
def taskSpec (w : Nat) : Option RegSpec :=
  if w = 0 then some { rwl := bm 31 29 ||| bm 26 16 }
  else if w = 1 ∨ w = 8 then some { rwl := bm 15 0 }
  else if w ≤ 7 then some { rwl := bm 31 0 }
  else if w ≤ 13 then some {} else none

/-- The register at an address of the 40-bit map; none where no template names one (R482). -/
def regSpec (a : Nat) : Option RegSpec :=
  if 0xF000000000 ≤ a then globalSpec (a - 0xF000000000)
  else if 0x3000000000 ≤ a ∧ a < 0x30000F0000 then laneSpec ((a - 0x3000000000) / 0x1000) ((a - 0x3000000000) % 0x1000)
  else if 0x30000F0000 ≤ a ∧ a < 0x30000F2000 then
    (if (a - 0x30000F0000) % 0x1000 ∈ [0, 4, 8] then some {} else none)
  else if 0x2000000000 ≤ a ∧ a < 0x2000040000 then
    (if a % 4 = 0 then taskSpec (a % 64 / 4) else none)
  else if 0x1000000000 ≤ a ∧ a < 0x1010000000 then
    (let off := (a - 0x1000000000) % 0x1000000
     if 0xF00000 ≤ off then sectorSpec (off - 0xF00000) else none)
  else none

/-- The word a register holds after a device reset. -/
def regReset (a : Nat) : W32 := match regSpec a with | some r => r.reset | none => 0

end Sys2Proof.Machine
end

