-- ==== Sys2Proof/Machine/State.lean ====
section
/-!
DEFINITION. Sys2Proof/Machine/State.lean: everything the spec gives the LN16K to hold, as plain data, the state right after
power-on reset, and the ways a step can stop.
-/
namespace Sys2Proof.Machine

/-! ### Touchstone (chapter 2) -/

/-- What a timing lane keeps of its words (R38, R44, R45, R47). -/
structure TLane where
  /-- Whether each of the last 16 words was bad, newest first (R44). -/
  hist : List Bool := []
  /-- Consecutive crossings without a comma at its position (R44). -/
  noComma : Nat := 0
  /-- Consecutive crossings, recovery locked and comma in place (R45). -/
  clean : Nat := 0
  /-- The last 8 decoded words, newest first: the crossing of each in the model's crossing count, and its command
  and payload bytes, none for a bad word (R47). -/
  words : List (Nat × Option (Byte × Byte)) := []
  /-- When the lane's latest ORBIT command arrived, by `State.laneTime` (R45). -/
  orbitAt : Option Nat := none
  /-- The lane has failed and has not qualified again (R44, R48). -/
  failed : Bool := false
deriving DecidableEq, Repr

/-- A pulse on the CAL pins: mask, the slot tick of its rise and of its fall (R40, R63). -/
structure CalPulse where
  mask : BitVec 4
  rise : Nat
  fall : Nat
deriving DecidableEq, Repr

/-- Steps of the return from LOST (R58). -/
inductive ReturnStep where
  | none | qualifying | locking | marker | confirm | admission | rejoin
deriving DecidableEq, Repr

/-- An entry of an accept queue (R303): the accepted crossing, the event number, the trigger class and type, and
the effect crossing in the model's crossing count. -/
structure AccEntry where
  orbit : BitVec 48
  crossing : Nat
  event : BitVec 24
  cls : BitVec 4
  typ : Byte
  effect : Nat
deriving DecidableEq, Repr

/-- Touchstone's own state beside its registers. -/
structure Tsb where
  /-- Orbit number, 48 bits (R35). -/
  orbit : BitVec 48 := 0
  /-- Crossing number, 0 to L − 1 (R35). -/
  crossing : Nat := 0
  /-- Slot number, 0 to M − 1 (R35). -/
  slot : Nat := 0
  /-- Crossings counted since reset: the model's own time base, which no count move touches. -/
  cx : Nat := 0
  /-- FCLK cycles counted since reset: the model's own time base. -/
  tick : Nat := 0
  /-- Words of the active timing lane that came while the count stood still (R45). -/
  pre : Nat := 0
  laneA : TLane := {}
  laneB : TLane := {}
  /-- The word decided for a crossing, by the model's crossing count (R39, R47). -/
  decided : List (Nat × (Byte × Byte)) := []
  /-- Crossings whose active word was bad and whose standby word has not come yet (R47). -/
  awaiting : List Nat := []
  /-- The command whose effect crossing this is, until its effect has come about (R39, R40). -/
  due : Option (Byte × Byte) := none
  /-- The crossing command word of the Touchstone border ports (R43). -/
  ccw : FWord := FWord.poison 2
  /-- An ORBIT command received: the crossing it marks and its payload (R39, R51). -/
  orbitDue : Option (Nat × Byte) := none
  /-- The crossing of the marker that established the count, while it is not confirmed (R51). -/
  est : Option Nat := none
  /-- Wrong distances measured by successive attempts, newest first (R51). -/
  wrong : List Nat := []
  /-- Runs of misplaced markers: crossing count, last orbit, number of consecutive orbits (R52). -/
  slips : List (Nat × BitVec 48 × Nat) := []
  /-- The next marker may move the count (R54). -/
  moveArmed : Bool := false
  /-- COUNTER_RESET with payload bit [0] waits for the next in-place marker (R67). -/
  orbitReset : Bool := false
  /-- Crossing in which a failover or swap was called for: it takes effect at the next crossing boundary (R46, R48). -/
  swapDue : Option Nat := none
  /-- Whole crossings that changes of the active lane have added to its offset (R39, R45, R46). -/
  offset : Int := 0
  /-- FCLK PLL is locked (R49). -/
  fclk : Bool := false
  /-- Crossing in which HOLDOVER began (R56). -/
  holdAt : Nat := 0
  /-- Crossing since which the returned clock has been good (R58). -/
  goodAt : Option Nat := none
  ret : ReturnStep := .none
  /-- The latest accept and the cycle of its offer: a sector that rejoins in that cycle takes it (R318). -/
  offered : Option (Nat × AccEntry) := none
  /-- CAL pulses not yet over. -/
  cal : List CalPulse := []
  /-- Levels of CAL[3:0]. -/
  calPins : BitVec 4 := 0
deriving DecidableEq, Repr

/-! ### Cells, links, ports (chapters 4 and 5) -/

/-- The scratch access an operation makes in its stage 2 (R123 to R125). -/
inductive Scratch where
  | read (w : Nat)
  | write (w : Nat) (v : FWord)
  /-- Base, length of the ring, the context whose ring pointer it uses, and the word to store. -/
  | delay (base n ctx : Nat) (v : FWord)
deriving DecidableEq, Repr

/-- An operation in its stage 1: what it makes of the operands it has sampled (R115, R116, R136). -/
structure Issue where
  /-- The cell field it was issued under (R129). -/
  field : BitVec 64
  res : FWord
  /-- The flag that Table 7 gives, none where the flag is unchanged. -/
  flag : Option Bool
  scr : Option Scratch
  evTask : Nat
  evFlag : Nat
deriving DecidableEq, Repr

/-- A result on its way to the output register and the visible flag (R115). -/
structure Done where
  out : Option FWord
  flag : Bool
  /-- It raises the tile event (R138): task and flag. -/
  event : Option (Nat × Nat)
deriving DecidableEq, Repr

/-- One cell (R114). -/
structure CellSt where
  /-- Output register as the tile sees it. -/
  out : FWord := FWord.zero
  /-- Output register as the cell's own next operation sees it (R116, Table 5). -/
  own : FWord := FWord.zero
  loc0 : FWord := FWord.zero
  loc1 : FWord := FWord.zero
  loc2 : FWord := FWord.zero
  loc3 : FWord := FWord.zero
  /-- Flag as the cell's own next operation sees it. -/
  flag : Bool := false
  /-- Flag as the other cells see it. -/
  flagVis : Bool := false
  /-- Ring pointers of DELAY, one for each context (R125). -/
  ptr : Vector Nat 8 := Vector.replicate 8 0
  /-- The operation issued in this slot. -/
  issued : Option Issue := none
  /-- The operation in its stage 2. -/
  stage2 : Option Done := none
  /-- The operation in its stage 3. -/
  stage3 : Option Done := none
deriving DecidableEq, Repr

/-- A word presented to a DEC attachment, or a departure of its sector: the tick it was presented, and the word,
none for a departure (R154). -/
structure DecPres where
  bit : Nat
  tick : Nat
  word : Option FWord
deriving DecidableEq, Repr

/-- A word on its way to a sorter input register (R152): the tick in which it is in the register. -/
structure SortWrite where
  sector : Nat
  /-- Input pair, with 64 added for the payload. -/
  reg : Nat
  tick : Nat
  word : FWord
deriving DecidableEq, Repr

/-- One rank entry: key and payload. -/
abbrev Rank := FWord × FWord

/-- A capture in flight: its emission tick and the ranks it will emit (R168). -/
structure Capture where
  tick : Nat
  ranks : List Rank
deriving DecidableEq, Repr

/-- One sector sorter, or the merge unit (R164 to R172). -/
structure Sorter where
  /-- Input registers: key of pair i at i, payload at 64 + i; none where the written bit is clear. -/
  inputs : Tbl (Option FWord) := []
  captures : List Capture := []
  /-- The latest emission. -/
  emitted : Option Capture := none
  /-- The sorter has emitted since its sector last left the plane, if it ever left (R172). -/
  live : Bool := true
deriving DecidableEq, Repr

/-! ### Stream queues (chapter 7) -/

/-- One stream queue beside its table entry (R179 to R195). -/
structure Queue where
  stages : List FWord := []
  /-- The last word delivered (R184). -/
  last : FWord := FWord.zero
  /-- The word at Pk until the slot after a pop (R177). -/
  prev : FWord := FWord.zero
  gap : Nat := 0
  pend : Bool := false
  resync : Bool := true
  /-- Words discarded since resync began (R187). -/
  disc : Nat := 0
  /-- The tick of the latest pop and of the latest push. -/
  popTick : Option Nat := none
  pushTick : Option Nat := none
  /-- The tick of the latest RESYNC: the pop of that cycle finds the queue empty (R188). -/
  resyncTick : Option Nat := none
  /-- The word a fixed producer presented in the slot before, to be pushed in this one (R177). -/
  offer : Option FWord := none
  /-- POST unit: the item being built, flow first (R194). -/
  item : Option (List W16) := none
  /-- POST unit: posts that await a response (R194). -/
  posts : Nat := 0
  /-- POST unit: responses that have come and are not yet counted (R195). -/
  responses : List (BitVec 16) := []
  /-- POST unit: refusals not yet sent as MARK REFUSED (R195). -/
  refusals : Nat := 0
  /-- NET: the stream interface's buffer and its credits (R191). -/
  buffer : List FWord := []
  credits : Nat := 8
deriving DecidableEq, Repr

/-! ### Signal engines (chapters 8 and 9) -/

/-- An active LOOP: first and last address of its body, and its counter (R262). -/
structure LoopSt where
  first : BitVec 11
  last : BitVec 11
  lc1 : Bool
deriving DecidableEq, Repr

/-- One register bank of an engine (R203). -/
structure Bank where
  d : Vector W16 8 := Vector.replicate 8 0
  ac0 : W40 := 0
  ac1 : W40 := 0
  cf0 : Bool := false
  cf1 : Bool := false
  ax : Vector (BitVec 12) 4 := Vector.replicate 4 0
  ay : Vector (BitVec 12) 4 := Vector.replicate 4 0
  mx : Vector W16 4 := Vector.replicate 4 0
  my : Vector W16 4 := Vector.replicate 4 0
  /-- BX0, BX1, BY0, BY1. -/
  base : Vector (BitVec 12) 4 := Vector.replicate 4 0
  /-- LX0, LX1, LY0, LY1. -/
  len : Vector (BitVec 12) 4 := Vector.replicate 4 0
  lc0 : W16 := 0
  lc1 : W16 := 0
  z : Bool := false
  n : Bool := false
  v : Bool := false
  loop : Option LoopSt := none
  /-- Active REP: the address and how many more copies are to be fetched (R261). -/
  rep : Option (BitVec 11 × Nat) := none
  /-- Addresses fetched and discarded by an interrupt, to be fetched again first, each with whether it is a copy
  made by REP (R227). -/
  again : List (BitVec 11 × Bool) := []
  /-- The next address to be fetched after those. -/
  next : BitVec 11 := 0
  /-- The last instruction that passed stage D, and the one before it, were transfers: the next is a delay slot
  (R243). -/
  xfer1 : Bool := false
  xfer2 : Bool := false
deriving DecidableEq, Repr

/-- An instruction in the pipeline: its word, its address, the bank it was fetched in, whether it is a copy made by
REP, and what it has read so far (R206). -/
structure PSlot where
  word : W32
  addr : BitVec 11
  shadow : Bool
  copy : Bool
  /-- Operands read in stage A. -/
  a : W16 := 0
  b : W16 := 0
  /-- Addresses of its X and Y accesses, read in stage A. -/
  xa : BitVec 12 := 0
  ya : BitVec 12 := 0
  /-- Words read from X and Y in stage R. -/
  xv : W16 := 0
  yv : W16 := 0
deriving DecidableEq, Repr

/-- What the engine is doing (RUN of ENG_STATUS, chapter 8 Table 11). -/
inductive EngRun where
  | reset | idle | running | handler | holding | loading | out
deriving DecidableEq, Repr

/-- Which handler runs in the shadow bank. -/
inductive Handler where
  | slot | fault | watchdog
deriving DecidableEq, Repr

/-- A post in stage W: offered and waiting, or answered (R268). -/
inductive PostSt where
  | none | waiting | answered (code : W16)
deriving DecidableEq, Repr

/-- One physical engine (R203, R205). -/
structure EngSt where
  fg : Bank := {}
  sh : Bank := {}
  /-- Sticky bits POI, UND, SAT, GOV, then GOVP and ITAG (R204). -/
  poi : Bool := false
  und : Bool := false
  sat : Bool := false
  gov : Bool := false
  govp : Bool := false
  itag : BitVec 2 := 0
  ev : W16 := 0
  tk : W32 := 0
  taint : Option FWord := none
  si : Vector FWord 4 := Vector.replicate 4 FWord.zero
  fresh : Vector Bool 4 := Vector.replicate 4 false
  so : Vector FWord 4 := Vector.replicate 4 FWord.zero
  /-- The SO words as the fabric still sees them in the slot of a write, with that tick (R217). -/
  soPrev : Vector FWord 4 := Vector.replicate 4 FWord.zero
  soTick : Nat := 0
  /-- Whether an OUT has written each SO port in this crossing (R234). -/
  soDone : Vector Bool 4 := Vector.replicate 4 false
  /-- Whether R224 or R230 has poisoned each SO port in this crossing. -/
  soPoi : Vector Bool 4 := Vector.replicate 4 false
  stD : Option PSlot := none
  stA : Option PSlot := none
  stR : Option PSlot := none
  stM : Option PSlot := none
  stW : Option PSlot := none
  run : EngRun := .reset
  /-- Fetching; false after DONE or YIELD has passed stage D. -/
  fetching : Bool := false
  handler : Option Handler := none
  /-- An interrupt visible and not yet taken (R227). -/
  irq : Option Handler := none
  /-- Cycles in which a visible SLOT event has been held off (R233). -/
  slotWait : Nat := 0
  /-- The ECLK cycle, by the model's slot tick, whose work is done. -/
  cycled : Option Nat := none
  /-- ECLK cycles of the run, for the watchdog (R226). -/
  wd : Nat := 0
  /-- The watchdog has expired since it last restarted. -/
  wdDone : Bool := false
  /-- The pinned run of this crossing has completed or been ended. -/
  ended : Bool := true
  post : PostSt := .none
  /-- CHECK faults since the sector's last reset (R235). -/
  checks : Nat := 0
  dead : Bool := false
  /-- Address after the YIELD that ended the last item, and its task (R265). -/
  yieldAt : Option (BitVec 11 × Nat) := none
  /-- A spare's copy is complete: the crossing from which it may rejoin (R236). -/
  rejoinAt : Option Nat := none
  /-- A spare that loads: the dead engine whose X and Y memory it copies (R236). -/
  copyFrom : Option Nat := none
  /-- While the engine is out of its plane: the crossing of the model's count and the slot in which it left (R149, R150). -/
  left : Option (Nat × Nat) := none
deriving DecidableEq, Repr
/-! ### Lanes (chapter 3) -/

/-- A received frame or raw crossing waiting for its delivery (R88). -/
structure RxFrame where
  /-- The crossing in which its delivery starts, in the model's crossing count. -/
  cx : Nat
  /-- The tick in which its check completed. -/
  tick : Nat
  /-- The row of Table 7 its own contents meet, 2 to 7. -/
  row : Nat
  /-- Its words as row 7 delivers them; raw modes poison single words. -/
  words : List FWord
  dark : Bool
  sreset : Bool
  /-- Delivered as MARK DARK by R91. -/
  lost : Bool := false
  /-- Checked while the lane was LIVE, before a loss: delivered as for a LIVE lane (R91). -/
  live : Bool := false
deriving DecidableEq, Repr

/-- A delivery in progress (R82). -/
structure Delivery where
  /-- Tick of slot DS. -/
  start : Nat
  /-- Absolute count of the crossing delivered. -/
  x : Nat
  words : List FWord
  dark : Bool
  sreset : Bool
deriving DecidableEq, Repr

/-- A readout frame whose assembly had begun as the sector of its derandomizer left: the crossing in which it is sent, in the model's
crossing count, its words and the index of its first length word (R315). -/
structure Assembled where
  cx : Nat
  words : List W16
  first : Option Nat
deriving DecidableEq, Repr

/-- One lane beside its registers. -/
structure LaneSt where
  /-- Scrambler states of the receiver and of the transmitter (R73). -/
  rxScr : BitVec 58 := 0
  txScr : BitVec 58 := 0
  /-- Whether each of the last 64 sync headers was invalid, newest first (R90). -/
  sync : List Bool := []
  /-- Consecutive good headers or markers while FRAMING (R78). -/
  good : Nat := 0
  /-- The lane is frame-locked (R78). -/
  locked : Bool := false
  /-- Consecutive frames whose header meets row 2 or 3 (R90). -/
  badHdr : Nat := 0
  /-- The crossing that the next frame is expected to carry, in the model's crossing count. -/
  next : Option Nat := none
  /-- Arrival latencies of the measurement under way (R78). -/
  meas : List Nat := []
  frames : List RxFrame := []
  deliver : Option Delivery := none
  /-- A write of RX_EN: the crossing from which the register governs deliveries, with the value written, and the value that governs
  before it (R96). Without one the register governs. -/
  rxEnNext : Option (Nat × Bool) := none
  rxEn : Bool := true
  /-- The tick of the latest write of RX_EN, and the value it replaced (R97). -/
  rxWrite : Option (Nat × Bool) := none
  /-- The tick in which the lane entered WAIT_JOIN, and that in which it last joined (R92, R97). -/
  joinSince : Nat := 0
  joinTick : Option Nat := none
  /-- A frame was not ready at the start of its delivery (R90). -/
  late : Bool := false
  /-- Clock recovery or block lock is lost (R90). -/
  unlocked : Bool := false
  /-- REALIGN was written: the crossing from whose start it acts (R93), and the tick of the write. -/
  realignAt : Option Nat := none
  realignTick : Option Nat := none
  /-- The ticks of the latest declared loss, and of the latest commanded one of an aligned lane (R97). -/
  lossTick : Option Nat := none
  goneTick : Option Nat := none
  /-- Report bytes received in order (R103), and the crossing of the latest good record. -/
  report : List Byte := []
  reportAt : Option Nat := none
  /-- Words pushed for output frames: crossing in the model's crossing count, word index, word (R155). -/
  fill : List (Nat × Nat × FWord) := []
  /-- The transmitter has left electrical idle (R388, R508). -/
  txOn : Bool := false
  /-- A readout frame sent as assembled after its sector left (R315). -/
  asm : Option Assembled := none
  /-- The crossing in which the latest frame was sent, in the model's crossing count. -/
  txAt : Option Nat := none
  /-- The latest frame sent, as blocks of sync header and scrambled payload. -/
  sent : List (BitVec 2 × BitVec 64) := []
deriving DecidableEq, Repr

/-! ### Dispatcher and Sillage (chapter 10) -/

/-- A post on its way to the dispatcher (R268, R272): its source as in the item tag, task, flow and 32 item words. -/
structure PostReq where
  src : W16
  task : Nat
  flow : W16
  words : List W16
  /-- The engine no longer waits for the response: its run was abandoned, or its handler discarded the POST (R510). -/
  stale : Bool := false
deriving DecidableEq, Repr

/-- An item in a task's ring, oldest first (R270, R271). -/
structure RingItem where
  slot : Nat
  flow : W16
  stamp : W32
  src : W16
  /-- In service (R276). -/
  serv : Bool
deriving DecidableEq, Repr

/-- What the dispatcher keeps of a task beside words 0 to 8 of its descriptor (R273). -/
structure TaskSt where
  flags : W32 := 0
  ring : List RingItem := []
  qhead : Nat := 0
  disabled : Bool := false
  parked : Bool := false
  ready : Bool := false
  last : Option Nat := none
  inserv : Nat := 0
  accepted : Nat := 0
  refused : Nat := 0
  aborted : Nat := 0
  /-- Stamp of a flag task: the crossing count when it last became dispatchable (R284). -/
  readyStamp : W32 := 0
deriving DecidableEq, Repr

/-- An item in an engine's prefetch slot or running (R285, R286, R294). -/
structure SvcItem where
  task : Nat
  flow : W16
  /-- Item slot; none for a flag task. -/
  slot : Option Nat
  stamp : W32
  win : Bool
  /-- The copy into the Y window has completed. -/
  copied : Bool
deriving DecidableEq, Repr

/-- What the dispatcher keeps of one physical engine. -/
structure EngDpt where
  running : Option SvcItem := none
  prefetch : Option SvcItem := none
  /-- The window of the item the engine last started (R285). -/
  lastWin : Option Bool := none
  /-- Parked by ENG_DISABLE (R290). -/
  parked : Bool := false
  /-- The dispatcher cycle since which the engine has been requesting (R284). -/
  since : Option Nat := none
deriving DecidableEq, Repr


/-- A flag set or clear on its way to the dispatcher. -/
structure FlagMsg where
  src : FlagSrc
  task : Nat
  flag : Nat
  set : Bool
deriving DecidableEq, Repr

/-- The dispatcher and Sillage's buffer beside their registers. -/
structure Dpt where
  tasks : Tbl TaskSt := []
  eng : Tbl EngDpt := []
  msgs : List FlagMsg := []
  posts : List PostReq := []
  /-- Responses on their way: source of the post and code (R268, R195). -/
  responses : List (W16 × W16) := []
  /-- Tasks whose state changed since readiness was last evaluated (step 5 of R281). -/
  dirty : List Nat := []
  /-- Flags set in the DCLK cycle that the next DISPATCHER_CYCLE ends: task and flag (R281, R282). -/
  fresh : List (Nat × Nat) := []
  /-- DCLK cycles of the dispatcher. -/
  cycle : Nat := 0
  /-- The reload after a dispatcher reset has completed (R293). -/
  reloaded : Bool := false
  /-- Sillage's buffer, oldest first: four words each (R296). -/
  slg : List (Vector W32 4) := []
  /-- A record was lost since the last one written (R296). -/
  slgLost : Bool := false
  /-- The time of the latest record, as one number: 128 × (65,536 × orbit + crossing) + slot. Timestamps never decrease
  (R295). -/
  slgTime : Nat := 0
deriving DecidableEq, Repr

/-! ### Readout (chapter 11) -/

/-- A packet being built (R305 to R309). -/
structure Build where
  entry : AccEntry
  drz : Nat
  /-- Position of the length slot. -/
  start : Nat
  /-- Words written or reserved so far, word 0 included. -/
  count : Nat
  miss : Nat
  srl : Bool := false
  late : Bool := false
  poison : Bool := false
  dark : Bool := false
  /-- Words 1 to the last written, word 5 held as zero, for the trailer. -/
  written : List W16 := []
  /-- Words ready to be written. -/
  out : List W16 := []
  /-- Next block: crossing offset and channel. -/
  xoff : Nat := 0
  ch : Nat := 0
  /-- No further block fits (R309). -/
  trunc : Bool := false
  /-- `RO_CH` of the channels as the packet was opened: a switch of `ZS` or `THR` governs later packets (R317). -/
  chans : List W32 := []
  /-- What the first read of the next block's status entry found: SRL, LATE (R308). -/
  first : Bool × Bool := (false, false)
  /-- The cycle of the opening, and the carry before it (R318). -/
  opened : Nat := 0
  carry : Nat := 0
deriving DecidableEq, Repr

/-- A sector's accept queue, carry and builder (R304, R305). -/
structure Readout where
  queue : List AccEntry := []
  carry : Nat := 0
  /-- How much has joined the carry in a cycle, and which: an opening in that cycle does not copy it (R304). -/
  joined : Nat × Nat := (0, 0)
  build : Option Build := none
  /-- When the builder last closed or gave up a packet: 128 × crossing count + slot. -/
  lastClose : Nat := 0
  /-- The queue held 16 entries at the last sample (R313). -/
  qfull : Bool := false
  /-- What a RESYNC took away: its cycle, the queue, the carry and the build (R318). -/
  resynced : Option (Nat × List AccEntry × Nat × Option Build) := none
deriving DecidableEq, Repr

/-- RPTR and the packets of a derandomizer before a write of RPTR in a cycle (R318). -/
structure DrzWas where
  tick : Nat
  rptr : Nat
  closed : List (Nat × Nat)
  sending : Option (Nat × Nat × Nat)
deriving DecidableEq, Repr

/-- A derandomizer beside its ring memory (R310 to R313). -/
structure Drz where
  wptr : Nat := 0
  rptr : Nat := 0
  /-- The sector whose packet is open and the position of its length slot. -/
  openBy : Option (Nat × Nat) := none
  /-- Closed packets the reader has not begun: position and length, oldest first. -/
  closed : List (Nat × Nat) := []
  /-- The packet the reader is sending: position, length, words sent. -/
  sending : Option (Nat × Nat × Nat) := none
  /-- The second copy of every length word (R312). -/
  lengths : Tbl W16 := []
  throttle : Bool := false
  full : Bool := false
  /-- The cycle in which the youngest packet closed: the reader takes it from the next one on (R311). -/
  closeTick : Nat := 0
  /-- RPTR and the packets before the latest write of RPTR, and its cycle: a RESYNC of that cycle puts them back (R318). -/
  undo : Option DrzWas := none
  /-- The cycle of the latest RESYNC, and whether it removed an open packet (R318). -/
  resynced : Option (Nat × Bool) := none
deriving DecidableEq, Repr
/-! ### Packet network (chapter 12) -/

/-- A packet in the mesh: what it carries, the route tag its entry router gave it, the router whose input it stands at
and the port by which it came in (R324, R325). Ports: 0 to 3 the mesh ports N, E, S, W, then 4 `T`, 5 `E0`, 6 `E1`,
7 `S`, 8 an edge port. -/
structure Transit where
  pkt : Packet
  tag : BitVec 11
  at_ : Nat
  port : Nat
  /-- It travels on the response channel (R328). -/
  resp : Bool := false
  /-- The router input that it left, where units of it may still stand (R325, R336). -/
  prev : Option (Nat × Nat) := none
deriving DecidableEq, Repr

/-- A request that awaits its response: requester, tag and target endpoint (R335, R337). -/
structure Await where
  src : Nat
  tag : Nat
  dest : Nat
  /-- Of a POST: its source as in the item tag. -/
  post : Option W16 := none
  /-- Units of the reply buffer that the requester has allocated for it (R335). -/
  units : Nat := 1
  /-- The POST that it answers was discarded at its engine (R510). -/
  stale : Bool := false
deriving DecidableEq, Repr

/-- A request completed at its requester: status of Table 5, data and the units that carry `PSN` (R330). -/
structure Completion where
  src : Nat
  tag : Nat
  status : Nat
  data : List Byte
  psn : BitVec 16
deriving DecidableEq, Repr

/-- A broadcast on its way to the routers: the new fence bits by router, and the new physical engine of logical
engines (R345, R347). -/
structure Broadcast where
  fences : List (Nat × W32)
  map : List (Nat × Nat)
deriving DecidableEq, Repr

/-- The packet network. -/
structure Net where
  /-- Packets sent by the endpoints of the device and not yet at a router. -/
  outbox : List Packet := []
  /-- Packets in the mesh, those at their destination router among them. -/
  transit : List Transit := []
  awaiting : List Await := []
  /-- Credits spent and not returned, by 1024 × requester + pool endpoint (R333). -/
  spent : Tbl Nat := []
  /-- The latest completion of each requester and tag. -/
  replies : List Completion := []
  /-- Return counts of the pools, by 1024 × pool endpoint + requester (R334). -/
  returns : Tbl Nat := []
  /-- The tick in which the first credit of such a count joined it. -/
  returnsAt : Tbl Nat := []
  /-- One more than the input that a router output granted last, by 16 × router + output (R332). -/
  granted : Tbl Nat := []
  /-- The routers' copy of the logical-to-physical map, by logical engine (R324). -/
  map : Tbl (Option Nat) := []
  bcast : List Broadcast := []
  /-- The orbit of the latest fenced-speaker record of a physical engine, plus one (R374). -/
  speakers : Tbl Nat := []
deriving DecidableEq, Repr

/-! ### Flash, start and boot (chapter 14) -/

/-- A committed record (R370). -/
structure Record where
  typ : Byte
  seq : W32
  time : W32
  payload : List Byte
deriving DecidableEq, Repr

/-- A record that Crucible has still to commit (R372). -/
structure RecordReq where
  typ : Byte
  payload : List Byte
deriving DecidableEq, Repr

/-- The attached flash. -/
structure Flash where
  /-- Records of the two directory halves, oldest first, and the half in use (R373). -/
  dir0 : List Record := []
  dir1 : List Record := []
  half1 : Bool := false
  /-- Log blocks that hold records, by block number, each with its records, oldest first (R372). -/
  log : Tbl (List Record) := []
  /-- The block now written. -/
  block : Nat := 0
  /-- The half and the block have been read at a start: the next record goes to the start of the next one (R372). -/
  dirRead : Bool := false
  logRead : Bool := false
  /-- Bytes of the image slots other than 0xFF: slot A from 0, slot B from 2^26. -/
  img : List Host.Cell := []
deriving DecidableEq, Repr

/-- A section kept in the keep store (R378, R381). -/
structure Section where
  id : Nat
  deflate : Bool
  koff : Nat
  slen : Nat
  ulen : Nat
deriving DecidableEq, Repr

/-- A step of the start list (R386). -/
structure StartStep where
  op : Nat
  tmo : Nat
  arg : W32
deriving DecidableEq, Repr

/-- What the start keeps beside the boot registers. -/
structure Boot where
  steps : List StartStep := []
  sections : List Section := []
  /-- Sectors released by RELEASE_SETRESET (R387). -/
  released : BitVec 16 := 0
  /-- DEC and CAL released, and the transmitters of the quadrants (R388). -/
  outDec : Bool := false
  outCal : Bool := false
  outTx : BitVec 4 := 0
  /-- LQCLK of the quadrants locked (R388). -/
  lqclk : BitVec 4 := 0
  /-- RUN has begun since the last device reset: the RWL fields are locked until the next one (R8, R389). -/
  ran : Bool := false
  /-- Management WRITE and COMMAND, I2C commands, image updates opened (R389). -/
  enable : BitVec 3 := 0
  /-- The fuse map of tiles as step 3 assigned it: clusters whose spare tile serves a logical tile, and which (R15). -/
  tileMap : List (Nat × Nat) := []
  /-- The ADMIT step has been admitted. -/
  admitted : Bool := false
  /-- A failed attempt or a keep-store error makes a warm restart: it is due. -/
  restart : Bool := false
  /-- Of the running image: IMGVER, key slot, signed digest, digest of FIRMWARE (R454). -/
  imgver : W32 := 0
  kslot : Option Nat := none
  imgdig : List Byte := []
  fwdig : List Byte := []
deriving DecidableEq, Repr

/-! ### Admission (chapter 13) -/

/-- What starts an admission (R351). -/
inductive AdmTrigger where
  | start | readmit | accord (n : Nat) (prepare : Bool) | adopt (lanes : List Nat)
deriving DecidableEq, Repr

/-- The snapshot of R352. -/
structure AdmSnap where
  period : Nat
  orbit : BitVec 48
  crossing : Nat
  slot : Nat
  tsb : Nat
  lanes : List (W32 × W32 × Nat)
  dead : List Nat
  map : List (Nat × Nat)
  reports : List (List Byte)
deriving DecidableEq, Repr

/-- The result of an admission (R358, R361 to R366). -/
structure AdmResult where
  result : Nat
  code : Nat
  object : W32
  dropsec : BitVec 16
  admitted : Nat
  /-- Paths that fail, dropped or charged, by 65536 × map + PATH. -/
  dropped : List Nat
  /-- Paths dropped: optional ones that fail (R358). -/
  ndrop : Nat := 0
  /-- End words of the dropped paths: DEC bits, and lane with word index (R360). -/
  ends : List (Nat × Nat)
  report : List Byte
  /-- UPLAT and UPFLOOR of the lanes on which admitted paths end (R161). -/
  up : List (Nat × Nat × Nat)
deriving DecidableEq, Repr

/-- An admission that runs. -/
structure AdmRun where
  trigger : AdmTrigger
  snap : AdmSnap
  res : AdmResult
deriving DecidableEq, Repr

/-- Admission's own state. -/
structure Adm where
  waiting : List AdmTrigger := []
  /-- A slot's number and the places in R353's order of the triggers that have arrived in it. -/
  fresh : Nat × List Nat := (0, [])
  running : Option AdmRun := none
  /-- Paths that fail and end words forced in the configuration in force (R361); a DEC bit b as (240, b). -/
  dropped : List Nat := []
  ends : List (Nat × Nat) := []
  /-- A result that takes effect at an orbit start. -/
  next : Option AdmResult := none
  /-- UPLAT and UPFLOOR of a lane: of the latest-arriving admitted path that ends on it (R103, R161). -/
  up : List (Nat × Nat × Nat) := []
  /-- The report of the latest admission (R365). -/
  report : List Byte := []
  /-- Sectors that admission has dropped (R362). -/
  dropsec : BitVec 16 := 0
deriving DecidableEq, Repr

/-! ### Accords (chapter 15) -/

/-- A switch in flight (R405). -/
structure Switch where
  num : Nat
  /-- 0 timing, 1 schedule, 2 management. -/
  source : Nat
  /-- The orbit that a timing command names. -/
  orbit : Option (BitVec 48)
  /-- 1 admitting, 2 staging, 3 due, 4 cold regions out. -/
  stage : Nat
  hot : List Nat := []
  /-- Cold regions: clusters n, sectors 256 + s. -/
  cold : List Nat := []
  /-- Effect orbit once due. -/
  effect : Option (BitVec 48) := none
  /-- The request came in this crossing of the model's count. -/
  since : Nat := 0
  /-- A preparation, not a switch (R406). -/
  prep : Bool := false
  /-- The admission's snapshot and result. -/
  snap : Option AdmSnap := none
  res : Option AdmResult := none
deriving DecidableEq, Repr

/-- A preparation held (R406). -/
structure Prepared where
  num : Nat
  snap : AdmSnap
  res : AdmResult
  hot : List Nat
  cold : List Nat
  staged : Bool
deriving DecidableEq, Repr

/-- Accord state beside its registers. -/
structure Acc where
  inflight : Option Switch := none
  prepared : Option Prepared := none
  /-- Pending map copies of hot clusters (R401): address and byte. -/
  maps : List Host.Cell := []
  /-- Words of contexts that a discarded preparation staged (R406). -/
  stale : List Nat := []
deriving DecidableEq, Repr

/-- A region that is being reloaded or waits to rejoin (R22, R402): the accord it reloads, whether the reload has
completed and in which crossing of the model's count. -/
structure Reload where
  accord : Nat
  doneAt : Option Nat
deriving DecidableEq, Repr

/-! ### Memory protection (chapter 16) -/

/-- An injection armed for a row (R425). -/
structure Inject where
  memid : Nat
  row : Nat
  bits : BitVec 72
deriving DecidableEq, Repr

/-- A repair copy that runs (R421). -/
structure RepairCopy where
  memid : Nat
  row : Nat
  spare : Nat
  bit : Nat
deriving DecidableEq, Repr

/-- Memory protection beside its registers. -/
structure Prot where
  /-- Stored bits of a row of 72 that differ from what was written, by 2^22 × `MEMID`[31:16] + row; only rows with a
  difference are listed. -/
  flips : Tbl (BitVec 72) := []
  /-- Stuck cells of the array: rows whose stored bits differ again after every write. -/
  stuck : Tbl (BitVec 72) := []
  /-- Spare rows assigned: row key to spare number (R421, R424). -/
  spares : Tbl (Option Nat) := []
  /-- Next row of each scrubber, by 4096 × group + unit (R417). -/
  scrub : Tbl Nat := []
  /-- Rewrites due: row keys, with whether another write has come since (R419). -/
  rewrite : List Nat := []
  /-- Rows of the repeat table written since their last correction, by row key, and the order of the entries, oldest
  first (R420). -/
  written : List Nat := []
  order : List Nat := []
  inject : Option Inject := none
  /-- Hard rows that wait for their copy (R421, R422). -/
  hard : List (Nat × Nat) := []
  copies : List RepairCopy := []
  /-- Owner domains to be reset for an uncorrectable error: 0 to 15 sectors, 16 dispatcher, 17 device (R414). -/
  owed : List Nat := []
deriving DecidableEq, Repr

/-! ### Power (chapter 17) -/

/-- Power manager state beside its registers. -/
structure Pwr where
  /-- Rails turned on. -/
  rails : BitVec 3 := 0
  /-- Consecutive bad polls of each rail (R431). -/
  bad : Vector Nat 3 := Vector.replicate 3 0
  /-- The global domain is powered (R434). -/
  globalOn : Bool := false
  /-- Quadrant lane domains powered: QPWR (R433). -/
  quads : BitVec 4 := 0
  /-- Sectors in a ramp up, an orderly or an emergency down (R435, R436). -/
  up : BitVec 16 := 0
  orderly : BitVec 16 := 0
  emergency : BitVec 16 := 0
  /-- A CLEAR_FAILS given in thermal off or rail-off, held (R469). -/
  heldClear : Bool := false
  /-- Retries that wait for an admission (R442). -/
  retry : BitVec 16 := 0
  /-- The throttle level that governs the present group of 8 ECLK cycles (R440), of sectors whose engines run at FCLK and of
  those at half of it. -/
  level : Nat := 0
  level2 : Nat := 0
  /-- PMBus commands sent to a rail, oldest first: rail, command code, data (R428). -/
  sent : List (Nat × Byte × W16) := []
deriving DecidableEq, Repr

/-! ### Hallmark (chapter 18) -/

/-- A key slot in the fuses (R444). -/
structure KeySlot where
  hash : List Byte := []
  prog : Bool := false
  rev : Bool := false
deriving DecidableEq, Repr

/-- The fuses (R444, R424, R429, R458). -/
structure Fuses where
  seeds : Option (List Byte) := none
  /-- GENKEY read-back failed: there can be no device key. -/
  spoilt : Bool := false
  uid : BitVec 64 := 0
  slots : Vector KeySlot 6 := Vector.replicate 6 {}
  /-- Board defaults of registers, by address: PWR_RAIL_CFG, WIN, MGT registers (R429, R458). -/
  defaults : List (Nat × W32) := []
  /-- Fuse repairs: MEMID[31:16], row, spare (R424). -/
  repairs : List (Nat × Nat × Nat) := []
  /-- Tiles that failed manufacturing test: cluster and the place of the tile in it, each replaced by the spare (R15). -/
  tiles : List (Nat × Nat) := []
deriving DecidableEq, Repr

/-- An operation that Hallmark runs: its OP and what it took in at acceptance (R454, R455). -/
structure HlmOp where
  op : Nat
  /-- The result already decided, none where the completion decides it. -/
  result : Option Nat
  body : List Byte := []
  target : Nat := 0
deriving DecidableEq, Repr

/-- Hallmark beside its registers. -/
structure Hlm where
  running : Option HlmOp := none
  /-- Reports made since power-on (R454). -/
  aseq : W32 := 0
deriving DecidableEq, Repr

/-! ### Management (chapter 19) -/

/-- A request in Crucible's queue: source addresses, header and data (R457, R459). -/
structure MgtReq where
  mac : List Byte
  ip : W32
  port : W16
  op : Byte
  status : Byte
  seq : W16
  arg : BitVec 64
  data : List Byte
deriving DecidableEq, Repr

/-- The last response to a source (R463). -/
structure Kept where
  ip : W32
  port : W16
  op : Byte
  seq : W16
  /-- Its status, and the frame as sent. -/
  status : Byte
  frame : List Byte
deriving DecidableEq, Repr

/-- The management port, the I2C target and the TAP. -/
structure Mgt where
  queue : List MgtReq := []
  /-- Sources answered, oldest first (R463). -/
  kept : List Kept := []
  /-- Write marks of slots A and B (R465). -/
  markA : Nat := 0
  markB : Nat := 0
  /-- Slots erased since their last IMAGE_COMMIT (R375). -/
  dirty : BitVec 2 := 0
  /-- Frames sent, oldest first. -/
  sent : List (List Byte) := []
  /-- I2C straps, the latest command and result, and the bytes of the latest read (R468). -/
  straps : BitVec 3 := 0
  i2cLast : W32 := 0
  i2cOut : List Byte := []
  /-- JTAG instruction, boundary register, access register and identification as captured (R470, R471). -/
  ir : Byte := 2
  boundary : BitVec 101 := 0
  update : BitVec 101 := 0
  accDone : Bool := false
  accStatus : Byte := 0
  accData : W32 := 0
  tdr : BitVec 32 := 0
  /-- Levels that EXTEST or CLAMP holds on the balls; none: the device drives them; HIGHZ holds them off. -/
  held : Option (BitVec 101) := none
  highz : Bool := false
  /-- The word that the latest register read on its own returned. -/
  read : W32 := 0
deriving DecidableEq, Repr
/-! ### Stops -/

/-- Why a step stops with a fault: the spec stops nothing, so there is no such reason. -/
inductive Fault where
deriving DecidableEq, Repr

/-- Why a step is refused. -/
inductive Refusal where
  /-- Raised by the dispatch of a command that has no meaning in the model yet. Safe: nothing is claimed of it. -/
  | notModelled (mnemonic : String)
deriving DecidableEq, Repr

/-! ### The device -/

/-- The memory ports in the slot that has the number `tick`: tiles whose cell read port and whose cell write port a cell uses, and
the bytes that a cell or an engine wrote in it and that the second port of an engine memory wrote in it, each with its value
before (R20, R124, R200); and the rows corrected in it, each with whether its scrubber did and whether the repeat table took nothing from
it (R420, R422). -/
structure Ports where
  tick : Nat := 0
  rd : List Nat := []
  wr : List Nat := []
  fixed : List (Nat × Byte) := []
  second : List (Nat × Byte) := []
  cor : List (Nat × Bool × Bool) := []
deriving DecidableEq, Repr

/-- Everything the spec gives the device to hold. -/
structure State where
  /-- Every register of the register map that differs from its word after a device reset, by address (R7, R482). -/
  regs : Tbl W32 := []
  /-- The registers, and the tasks of the dispatcher, as they stood when the current slot began: what has been set or counted since then
  belongs to this slot (R9, R66, R97). -/
  regs0 : Tbl W32 := []
  tasks0 : Tbl TaskSt := []
  /-- Every byte of the memory windows of the address map that is not 0x00, by address (R339). -/
  mem : List Host.Cell := []
  /-- What the memory ports did in the current slot (R20, R124, R200). -/
  ports : Ports := {}
  tsb : Tsb := {}
  cells : Tbl CellSt := []
  /-- The link, express and long-line words driven in the slot before, by 20 × tile + destination; none where nothing
  was driven (R142). -/
  link : Tbl (Option FWord) := []
  /-- The same of two slots before, for the border ports (R144). -/
  linkB : Tbl (Option FWord) := []
  /-- Long-line words driven one and two slots before, by 32 × sector + line (R146). -/
  line1 : Tbl FWord := []
  line2 : Tbl FWord := []
  /-- The last word seen on a border channel, by 20 × tile + input (R149). -/
  held : Tbl FWord := []
  /-- The crossing, in the model's crossing count, and the slot in which cluster n, at n, and sector s, at 256 + s, last left the
  plane (R149, R172). -/
  leaves : Tbl (Nat × Nat) := []
  dec : List DecPres := []
  /-- Levels driven on DEC[15:0]. -/
  decPins : BitVec 16 := 0
  sortWrites : List SortWrite := []
  sorters : Tbl Sorter := []
  merge : Sorter := {}
  lanes : Tbl LaneSt := []
  queues : Tbl Queue := []
  engines : Tbl EngSt := []
  dpt : Dpt := {}
  readout : Tbl Readout := []
  drz : Tbl Drz := []
  net : Net := {}
  flash : Flash := {}
  boot : Boot := {}
  /-- Records that Crucible has still to commit, oldest first (R372). -/
  commits : List RecordReq := []
  adm : Adm := {}
  acc : Acc := {}
  /-- Regions out for a reload: clusters n, sectors 256 + s. -/
  reloads : Tbl (Option Reload) := []
  /-- Sector resets that fall at the next slot boundary: sector and the cause of chapter 21 Table 3 (R476). -/
  sectorResets : List (Nat × Nat) := []
  prot : Prot := {}
  pwr : Pwr := {}
  fuses : Fuses := {}
  hlm : Hlm := {}
  mgt : Mgt := {}
  /-- VAON and VIO18 are in range; the device is not in manufacturing test (R499, R500). -/
  powered : Bool := true
  testMode : Bool := false
  /-- VFUSE is present (R444, R499). -/
  vfuse : Bool := false
  /-- How many free values have been used: the counter of Config.freeWord. -/
  free : Nat := 0
  /-- Commands waiting, oldest first: the model's own queue. -/
  pending : List Instr := []
deriving DecidableEq, Repr

/-- The device right after a power-on reset: every register at its reset word, memories clear, nothing waiting
(R473, R474). -/
def State.reset : State := {}

end Sys2Proof.Machine
end

