-- ==== Sys2Proof/Machine/Ops.lean ====
section
/-!
DEFINITION. Sys2Proof/Machine/Ops.lean: the named operations over registers, memory windows and the time base, and
who is in the fixed plane. Everything else is written over these.
-/
namespace Sys2Proof.Machine

/-! ### Registers -/

/-- The word a register holds. -/
def State.reg (s : State) (a : Nat) : W32 := Tbl.get (regReset a) s.regs a

/-- Write a register's word; the table keeps its canonical form. -/
def State.setReg (s : State) (a : Nat) (w : W32) : State :=
  { s with regs := Tbl.set (regReset a) s.regs a w }

/-- Change a register's word. -/
def State.modReg (s : State) (a : Nat) (f : W32 → W32) : State := s.setReg a (f (s.reg a))

/-- Field `[hi:lo]` of a register (R5). -/
def State.fld (s : State) (a hi lo : Nat) : Nat := bitsOf (s.reg a) hi lo

/-- Bit `i` of a register. -/
def State.rbit (s : State) (a i : Nat) : Bool := (s.reg a).getLsbD i

/-- Set field `[hi:lo]` of a register. -/
def State.setFld (s : State) (a hi lo v : Nat) : State := s.modReg a (fun w => putBits w hi lo v)

/-- Set one bit of a register. -/
def State.setBit (s : State) (a i : Nat) (b : Bool) : State := s.setFld a i i (if b then 1 else 0)

/-- Add to a saturating counter in field `[hi:lo]` of a register. -/
def State.count (s : State) (a hi lo : Nat) (k : Nat := 1) : State :=
  s.setFld a hi lo (satAdd (2 ^ (hi + 1 - lo) - 1) (s.fld a hi lo) k)

/-! ### Memory windows -/

/-- The byte at an address of a memory window. -/
def State.byte (s : State) (a : Nat) : Byte := Tbl.get 0 s.mem a

/-- Write one byte; the list keeps its canonical form. -/
def State.setByte (s : State) (a : Nat) (b : Byte) : State := { s with mem := Tbl.set 0 s.mem a b }

/-- `n` bytes from `a` on, little-endian, as a number. -/
def State.le (s : State) (a : Nat) : Nat → Nat
  | 0 => 0
  | n + 1 => (s.byte a).toNat + 256 * s.le (a + 1) n

/-- Write `n` bytes from `a` on, little-endian. -/
def State.setLe (s : State) (a : Nat) : Nat → Nat → State
  | 0, _ => s
  | n + 1, v => (s.setByte a (BitVec.ofNat 8 v)).setLe (a + 1) n (v / 256)

/-- A 16-bit little-endian word of a window. -/
def State.half (s : State) (a : Nat) : W16 := BitVec.ofNat 16 (s.le a 2)
/-- Write a 16-bit little-endian word. -/
def State.setHalf (s : State) (a : Nat) (v : W16) : State := s.setLe a 2 v.toNat

/-- Write a list of bytes from `a` on. -/
def State.setBytes (s : State) (a : Nat) : List Byte → State
  | [] => s
  | b :: bs => (s.setByte a b).setBytes (a + 1) bs

/-- The list of `n` bytes from `a` on. -/
def State.bytes (s : State) (a n : Nat) : List Byte := (List.range n).map (fun i => s.byte (a + i))

/-! ### Time (R2, R3, R35) -/

/-- Orbit length L. -/
def State.L (s : State) : Nat := s.fld Reg.tsbGeom 31 16
/-- Slot count M. -/
def State.M (s : State) : Nat := s.fld Reg.tsbGeom 7 0
/-- The absolute crossing count orbit × L + crossing (R271, R300). -/
def State.absCrossing (s : State) : Nat := s.tsb.orbit.toNat * s.L + s.tsb.crossing

/-- The orbit and crossing `n` crossings from a time, carried under R3. -/
def State.timePlus (s : State) (orbit : BitVec 48) (crossing : Nat) (n : Int) : BitVec 48 × Nat :=
  let x : Int := (crossing : Int) + n
  let l : Int := if s.L = 0 then 1 else s.L
  (orbit + BitVec.ofInt 48 (x.fdiv l), (x.fmod l).toNat)

/-- The orbit and crossing `n` crossings from the current one. -/
def State.crossingPlus (s : State) (n : Int) : BitVec 48 × Nat := s.timePlus s.tsb.orbit s.tsb.crossing n

/-- The absolute crossing count of an orbit and crossing (R300). -/
def State.absOf (s : State) (q : BitVec 48 × Nat) : Nat := q.1.toNat * s.L + q.2

/-- Touchstone states (chapter 2, Table 2). -/
inductive TsbState where
  | unlocked | locking | aligned | holdover | lost | returning
deriving DecidableEq, Repr

/-- `TSB_STATUS.STATE`. -/
def State.tsbState (s : State) : TsbState :=
  match s.fld Reg.tsbStatus 2 0 with
  | 1 => .locking | 2 => .aligned | 3 => .holdover | 4 => .lost | 5 => .returning | _ => .unlocked

/-- Code of a Touchstone state. -/
def TsbState.code : TsbState → Nat
  | .unlocked => 0 | .locking => 1 | .aligned => 2 | .holdover => 3 | .lost => 4 | .returning => 5

/-- Set `TSB_STATUS.STATE`. -/
def State.setTsbState (s : State) (t : TsbState) : State := s.setFld Reg.tsbStatus 2 0 t.code

/-- FCLK runs and the count with it. -/
def State.counting (s : State) : Bool := decide (s.tsbState ≠ .unlocked) && decide (1 ≤ s.M)

/-- A slot begins: the registers and the tasks' counters as they stand now are kept. -/
def State.slotBegins (s : State) : State := { s with regs0 := s.regs, tasks0 := s.dpt.tasks }

/-- The word a register held when the current slot began; while no slot runs, the word it holds. -/
def State.reg0 (s : State) (a : Nat) : W32 := if s.counting then Tbl.get (regReset a) s.regs0 a else s.reg a

/-- Touchstone runs the fixed plane: ALIGNED or HOLDOVER. -/
def State.planeRuns (s : State) : Bool := s.tsbState = .aligned || s.tsbState = .holdover

/-! ### Phases and regions -/

/-- `BOOT_STATUS.PHASE`. -/
def State.phase (s : State) : Nat := s.fld Reg.bootStatus 31 28
/-- The device is in RUN. -/
def State.inRun (s : State) : Bool := s.phase = 4
/-- RUN begins in the current slot: the step list has ended, and an orbit begins (R60, R389). -/
def State.runBegins (s : State) : Bool :=
  decide (s.phase = 3 ∧ s.tsb.crossing = 0 ∧ s.tsb.slot = 0) && !s.boot.restart && s.planeRuns
/-- RWL fields and the windows that a run closes are locked: from the slot in which RUN begins until the next device reset (R8, R389,
R467). -/
def State.locked (s : State) : Bool := s.inRun || s.boot.ran || s.runBegins

/-- Sector `k` is in the fixed plane (`GLB_SEC.PLANE`, R487). -/
def State.secIn (s : State) (k : Nat) : Bool := s.fld (Reg.glbSecState k) 31 30 = 1
/-- Cluster `n` is in the fixed plane (`GLB_CL.OUT`). -/
def State.clIn (s : State) (n : Nat) : Bool := !(s.rbit (Reg.glbCl n) 0)
/-- The sectors in the fixed plane. -/
def State.secsIn (s : State) : List Nat := (List.range 16).filter (fun k => s.secIn k)

/-- `PWR_SEC_STATE` of a sector: 0 OFF, 1 CHANGING, 2 OUT, 3 IN (R435). -/
def State.secPower (s : State) (k : Nat) : Nat := s.fld Reg.pwrSecState (2 * k + 1) (2 * k)
def State.setSecPower (s : State) (k v : Nat) : State := s.setFld Reg.pwrSecState (2 * k + 1) (2 * k) v
/-- The sector is powered: OUT or IN. -/
def State.secPowered (s : State) (k : Nat) : Bool := decide (2 ≤ s.secPower k)

/-- Set a bit of `GLB_FAULT` (chapter 20, Table 4). -/
def State.fault (s : State) (i : Nat) : State := s.setBit Reg.glbFault i true

/-- Level of the FAULT_N pin: low in base-note mode, in thermal off, while a rail fault is handled and in rail-off, and while
an enabled fault bit is set (R479). -/
def State.faultN (s : State) : Bool :=
  decide (s.phase ≠ 5) && decide (s.fld Reg.pwrStatus 31 30 < 2) && s.reg Reg.glbFault &&& s.reg Reg.glbFaultEn == 0

/-! ### Free values -/

/-- A value the spec leaves open: the next one of `Config.freeWord`. -/
def State.draw (s : State) : BitVec 64 × State := (Config.freeWord s.free, { s with free := s.free + 1 })

/-! ### Units -/

/-- Home index k of a physical engine that a spare serves, read from `SEC_SPARE` (chapter 8, Table 13). -/
def State.spareOf (s : State) (sec : Nat) (k : Nat) : Option Nat :=
  if s.fld (Reg.secSpare sec) 5 0 = k then some (34 * sec + 32)
  else if s.fld (Reg.secSpare sec) 13 8 = k then some (34 * sec + 33) else none

/-- The physical engine that serves logical engine `e` (R16, R236). -/
def State.physOf (s : State) (e : Nat) : Nat :=
  match s.spareOf (e / 32) (e % 32) with
  | some p => p
  | none => 34 * (e / 32) + e % 32

/-- The logical engine that physical engine `p` serves, if any (R16, R236). -/
def State.logOf (s : State) (p : Nat) : Option Nat :=
  let sec := p / 34
  let k := p % 34
  if k = 32 then
    (let h := s.fld (Reg.secSpare sec) 5 0
     if h = 63 then none else some (32 * sec + h))
  else if k = 33 then
    (let h := s.fld (Reg.secSpare sec) 13 8
     if h = 63 then none else some (32 * sec + h))
  else if (s.spareOf sec k).isSome then none else some (32 * sec + k)

def CellSt.dflt : CellSt := {}
def Queue.dflt : Queue := {}
def EngSt.dflt : EngSt := {}
def TaskSt.dflt : TaskSt := {}
def EngDpt.dflt : EngDpt := {}
def Sorter.dflt : Sorter := {}
def Readout.dflt : Readout := {}
def Drz.dflt : Drz := {}

def State.cell (s : State) (c : Nat) : CellSt := Tbl.get CellSt.dflt s.cells c
def State.setCell (s : State) (c : Nat) (v : CellSt) : State := { s with cells := Tbl.set CellSt.dflt s.cells c v }
def State.queue (s : State) (q : Nat) : Queue := Tbl.get Queue.dflt s.queues q
def State.setQueue (s : State) (q : Nat) (v : Queue) : State := { s with queues := Tbl.set Queue.dflt s.queues q v }
def State.eng (s : State) (p : Nat) : EngSt := Tbl.get EngSt.dflt s.engines p
def State.setEng (s : State) (p : Nat) (v : EngSt) : State := { s with engines := Tbl.set EngSt.dflt s.engines p v }
def State.task (s : State) (t : Nat) : TaskSt := Tbl.get TaskSt.dflt s.dpt.tasks t
/-- A task as the current slot began. -/
def State.task0 (s : State) (t : Nat) : TaskSt := if s.counting then Tbl.get TaskSt.dflt s.tasks0 t else s.task t
def State.setTask (s : State) (t : Nat) (v : TaskSt) : State :=
  { s with dpt := { s.dpt with tasks := Tbl.set TaskSt.dflt s.dpt.tasks t v } }
def State.engDpt (s : State) (p : Nat) : EngDpt := Tbl.get EngDpt.dflt s.dpt.eng p
def State.setEngDpt (s : State) (p : Nat) (v : EngDpt) : State :=
  { s with dpt := { s.dpt with eng := Tbl.set EngDpt.dflt s.dpt.eng p v } }
def State.sorter (s : State) (k : Nat) : Sorter := Tbl.get Sorter.dflt s.sorters k
def State.setSorter (s : State) (k : Nat) (v : Sorter) : State := { s with sorters := Tbl.set Sorter.dflt s.sorters k v }
def State.ro (s : State) (k : Nat) : Readout := Tbl.get Readout.dflt s.readout k
def State.setRo (s : State) (k : Nat) (v : Readout) : State := { s with readout := Tbl.set Readout.dflt s.readout k v }
def State.drzOf (s : State) (d : Nat) : Drz := Tbl.get Drz.dflt s.drz d
def State.setDrz (s : State) (d : Nat) (v : Drz) : State := { s with drz := Tbl.set Drz.dflt s.drz d v }

def LaneSt.dflt : LaneSt := {}
def State.lane (s : State) (l : Nat) : LaneSt := Tbl.get LaneSt.dflt s.lanes l
def State.setLane (s : State) (l : Nat) (v : LaneSt) : State := { s with lanes := Tbl.set LaneSt.dflt s.lanes l v }

/-- A domain rejoins: the credits of its requesters are reset to their grants and its pools are empty (R343). -/
def State.creditsReset (s : State) (f : Nat → Bool) : State :=
  { s with net := { s.net with spent := s.net.spent.filter (fun e => !f (e.1 / 1024)),
                               returns := s.net.returns.filter (fun e => !f (e.1 / 1024)) } }

/-- Place of a trigger in the order of those that arrive in one cycle: start, re-admission, accord switch, `ADOPT` (R353). -/
def AdmTrigger.rank : AdmTrigger → Nat
  | .start => 0 | .readmit => 1 | .accord _ _ => 2 | .adopt _ => 3

/-- The waiting triggers with a new one in its place: the last, but before those of this cycle that R353 runs after it. -/
def State.placed (s : State) (t : AdmTrigger) : List AdmTrigger :=
  let later (x : AdmTrigger) : Bool :=
    s.adm.fresh.1 == s.tsb.tick && s.adm.fresh.2.contains x.rank && decide (t.rank < x.rank)
  s.adm.waiting.takeWhile (fun x => !later x) ++ t :: s.adm.waiting.dropWhile (fun x => !later x)

/-- The triggers of this cycle with one more. -/
def State.freshWith (s : State) (t : AdmTrigger) : Nat × List Nat :=
  (s.tsb.tick, t.rank :: (if s.adm.fresh.1 = s.tsb.tick then s.adm.fresh.2 else []))

/-- An admission trigger arrives: re-admissions join, and so do ADOPT writes (R353, R354). -/
def State.trigger (s : State) (t : AdmTrigger) : State :=
  let w := s.adm.waiting
  let isAdopt (x : AdmTrigger) : Bool := match x with | .adopt _ => true | _ => false
  let w' := match t with
    | .adopt ls =>
      if w.any isAdopt then
        w.map (fun x => match x with | .adopt l => .adopt (l ++ ls.filter (fun i => !decide (i ∈ l))) | y => y)
      else s.placed t
    | .readmit => if w.contains .readmit then w else s.placed t
    | _ => s.placed t
  let s1 := s.setFld Reg.admStatus 26 24 w'.length
  { s1 with adm := { s1.adm with waiting := w', fresh := if w.length < w'.length then s.freshWith t else s.adm.fresh } }

/-- The next state of a command. -/
def State.go (s : State) : Host.Outcome State Fault Refusal := .next s

end Sys2Proof.Machine
end

