-- ==== Sys2Proof/Machine/Prot.lean ====
section
/-!
DEFINITION. Sys2Proof/Machine/Prot.lean: memory protection: which row of which memory an address lies in, what reads and
writes do to rows with bits in error, the repeat table, and error injection (chapter 16). `State.mem` holds what was
written; `Prot.flips` holds which stored bits differ from it, so a corrected read returns `State.mem`.
-/
namespace Sys2Proof.Machine

/-! ### Memories and rows (R409, R410) -/

/-- `MEMID`[31:16] and row of an address, none for an address of no protected memory (R410). -/
def rowOf (a : Nat) : Option (Nat × Nat) :=
  if a < 0x2000000 then some (0x9000 + a / 0x100 % 16, (a / 0x1000 * 0x100 + a % 0x100) / 8)
  else if 0x1000000000 ≤ a ∧ a < 0x1010000000 then
    (let s := (a - 0x1000000000) / 0x1000000
     let o := (a - 0x1000000000) % 0x1000000
     if o < 0x100000 ∨ (0x180000 ≤ o ∧ o < 0x200000) then some (0xB000 + s, o / 8)
     else if o < 0x140000 then some (0xC000 + 4 * s + (o - 0x100000) / 0x10000, o % 0x10000 / 8)
     else if 0x200000 ≤ o ∧ o < 0x240000 then some (0x2000 + 256 * s + (o - 0x200000) / 0x400, o % 0x400 / 8)
     else if 0x300000 ≤ o ∧ o < 0x308000 then some (0x3000 + 256 * s + (o - 0x300000) / 0x80, o % 0x80 / 8)
     else if 0x400000 ≤ o ∧ o < 0x400000 + 34 * 0x8000 then
       (let p := 34 * s + (o - 0x400000) / 0x8000
        let w := o % 0x8000
        if w < 0x2000 then some (0x4000 + p, w / 8)
        else if w < 0x4000 then some (0x5000 + p, (w - 0x2000) / 8)
        else if w < 0x6000 then some (0x6000 + p, (w - 0x4000) / 8)
        else if w < 0x6040 then some (0x7000 + p, (w - 0x6000) / 8) else none)
     else if 0x800000 ≤ o ∧ o < 0x840000 ∧ o % 0x400 < 0x2B0 then
       some (0x1000 + 256 * s + (o - 0x800000) / 0x400, o % 0x400 / 8)
     else none)
  else if 0x2000000000 ≤ a ∧ a < 0x2000040000 then some (0x8000, (a - 0x2000000000) / 8)
  else if 0x2000400000 ≤ a ∧ a < 0x2000800000 then some (0xD000, (a - 0x2000400000) / 8)
  else if 0x2800000000 ≤ a ∧ a < 0x2800200000 then some (0xE000, (a - 0x2800000000) / 8)
  else none

/-- The first address of a row whose memory has a window. -/
def rowAddr (m row : Nat) : Nat :=
  let u := m % 0x1000
  let k := m / 0x1000
  if k = 1 then Reg.secBase (u / 256) + 0x800000 + (u % 256) * 0x400 + 8 * row
  else if k = 2 then Reg.secBase (u / 256) + 0x200000 + (u % 256) * 0x400 + 8 * row
  else if k = 3 then Reg.secBase (u / 256) + 0x300000 + (u % 256) * 0x80 + 8 * row
  else if k = 4 ∨ k = 5 ∨ k = 6 ∨ k = 7 then
    Reg.secBase (u / 34) + 0x400000 + (u % 34) * 0x8000 + 0x2000 * (k - 4) + 8 * row
  else if k = 8 then 0x2000000000 + 8 * row
  else if k = 9 then row / 32 * 0x1000 + u * 0x100 + row % 32 * 8
  else if k = 0xB then Reg.secBase u + 8 * row
  else if k = 0xC then Reg.secBase (u / 4) + 0x100000 + (u % 4) * 0x10000 + 8 * row
  else if k = 0xD then 0x2000400000 + 8 * row
  else 0x2800000000 + 8 * row

/-- Key of a row in the tables of `Prot`. -/
def rowKey (m row : Nat) : Nat := m * 2 ^ 22 + row
/-- `MEMID`[31:16] of a key. -/
def keyMem (k : Nat) : Nat := k / 2 ^ 22
/-- Row of a key. -/
def keyRow (k : Nat) : Nat := k % 2 ^ 22

/-- Persistent memories are kinds 1 to 10 (Tables 1 and 2). -/
def persistent (m : Nat) : Bool := decide (m / 0x1000 ≤ 0xA)

/-- Owner domain of a persistent memory: sectors 0 to 15, dispatcher 16, device 17 (Table 1). -/
def ownerOf (m : Nat) : Nat :=
  let u := m % 0x1000
  let k := m / 0x1000
  if k ≤ 3 then u / 256 else if k ≤ 7 then u / 34 else if k = 8 then 16 else 17

/-- Spare rows of an instance (Table 1). -/
def spareRows (m : Nat) : Nat :=
  match m / 0x1000 with
  | 1 | 2 => 2 | 3 => 1 | 4 | 5 | 6 => 4 | 7 => 1 | 8 => 32 | 9 => 64 | 10 => 128 | _ => 0

/-- Rows of an instance that its scrubber visits (Table 1 and the windows of R339). The number of rows of the
control-complex memory is not given; it has no window and the model gives it none. -/
def rowCount (m : Nat) : Nat :=
  match m / 0x1000 with
  | 1 => 0x2B0 / 8 | 2 => 128 | 3 => 16 | 4 | 5 | 6 => 1024 | 7 => 8 | 8 => 0x40000 / 8 | 9 => 262144 | _ => 0

/-- Stored bits of a row that are in error. -/
def State.flips (s : State) (k : Nat) : BitVec 72 := Tbl.get 0 s.prot.flips k
def State.setFlips (s : State) (k : Nat) (b : BitVec 72) : State :=
  { s with prot := { s.prot with flips := Tbl.set 0 s.prot.flips k b } }

/-- The lowest bit set in a row's error pattern. -/
def lowBit (b : BitVec 72) : Nat := ((List.range 72).find? (fun i => b.getLsbD i)).getD 0

/-! ### The repeat table (R420) -/

/-- Index of the repeat-table entry of a row. -/
def State.rptFind (s : State) (k : Nat) : Option Nat :=
  (List.range 64).find? (fun i => s.rbit (Reg.memRptRow i) 31 && s.fld (Reg.memRptId i) 31 16 == keyMem k &&
    s.fld (Reg.memRptRow i) 21 0 == keyRow k)

/-- Place an entry with count 0. -/
def State.rptPlace (s : State) (i k b : Nat) : State :=
  let s1 := (s.setReg (Reg.memRptId i) (BitVec.ofNat 32 (keyMem k * 2 ^ 16))).setReg (Reg.memRptRow i)
    (BitVec.ofNat 32 (2 ^ 31 + b * 2 ^ 22 + keyRow k))
  { s1 with prot := { s1.prot with order := (s1.prot.order.filter (· != i)) ++ [i],
                                   written := s1.prot.written.filter (· != k) } }

/-- The entry that a new one replaces in a full table: lowest count, the oldest of those (R420). -/
def State.rptVictim (s : State) : Nat :=
  let cnt (i : Nat) : Nat := s.fld (Reg.memRptRow i) 30 29
  (s.prot.order.foldl (fun best i => match best with
    | none => some i
    | some b => if cnt i < cnt b then some i else some b) none).getD 0

/-- A rewrite of the row falls due (R419). -/
def State.rewriteDue (s : State) (k : Nat) : State :=
  if k ∈ s.prot.rewrite then s else { s with prot := { s.prot with rewrite := s.prot.rewrite ++ [k] } }

/-- A correction in a persistent memory is offered to the repeat table (R420). Corrections of a row whose copy runs
do not change its entry (R421). -/
def State.rptOffer (s : State) (k b : Nat) : State :=
  if s.prot.copies.any (fun c => rowKey c.memid c.row == k) then s
  else match s.rptFind k with
    | none =>
      let s1 := match (List.range 64).find? (fun i => !s.rbit (Reg.memRptRow i) 31) with
        | some i => s.rptPlace i k b
        | none => ((s.rptPlace s.rptVictim k b).count Reg.memCnt2 7 0).setBit Reg.memStatus 4 true
      s1.rewriteDue k
    | some i =>
      if k ∈ s.prot.written then
        (let c := s.fld (Reg.memRptRow i) 30 29
         let s1 := (s.setFld (Reg.memRptRow i) 28 22 b).rewriteDue k
         let s2 : State := { s1 with prot := { s1.prot with written := s1.prot.written.filter (· != k) } }
         if 3 ≤ c then s2
         else if c = 2 then
           { s2 with prot := { s2.prot with hard := if (keyMem k, keyRow k) ∈ s2.prot.hard then s2.prot.hard
                                                   else s2.prot.hard ++ [(keyMem k, keyRow k)] } }
         else
           let s3 := s2.setFld (Reg.memRptRow i) 30 29 (c + 1)
           if c + 1 = 2 then { s3 with prot := { s3.prot with hard := s3.prot.hard ++ [(keyMem k, keyRow k)] } } else s3)
      else s

/-! ### What a read finds (R411 to R414) -/

/-- What the ports did in the current slot. -/
def State.portsNow (s : State) : Ports := if s.ports.tick = s.tsb.tick then s.ports else { tick := s.tsb.tick }

/-- How an error was found: the codes of `MEM_LAST_UE1.FOUND`. -/
inductive Found where
  | readPath | scrubber | merge | spareCopy
deriving DecidableEq, Repr
def Found.code : Found → Nat
  | .readPath => 0 | .scrubber => 1 | .merge => 2 | .spareCopy => 3

/-- A single-bit error is corrected (R411). -/
def State.corrected (s : State) (k : Nat) : State :=
  let s1 := s.setBit Reg.memStatus 0 true
  if persistent (keyMem k) then (s1.count Reg.memCnt0 31 16).rptOffer k (lowBit (s.flips k))
  else s1.count Reg.memCnt0 15 0

/-- A correction of a row, as it stands among those of the slot: one by its scrubber and one in a reader's path count once. That of a merge
comes with the merge's own write (R422). -/
def State.correctedBy (s : State) (k : Nat) (f : Found) : State :=
  let c := s.portsNow.cor
  if f = .merge then s.corrected k
  else if c.any (fun e => e.1 == k && e.2.1 != (f == .scrubber)) then s
  else
    let idle := (s.rptFind k).isSome && !decide (k ∈ s.prot.written) && !s.prot.copies.any (fun c => rowKey c.memid c.row == k)
    { s.corrected k with ports := { s.portsNow with cor := c ++ [(k, f == .scrubber, idle)] } }

/-- An uncorrectable error is found (R413, R414); a persistent memory's owner domain is owed a reset, except in the
copy to a spare engine (R416). A copy of the row is abandoned (R422). Before RUN the reset ends the attempt (R392). -/
def State.uncorrectable (s : State) (k : Nat) (f : Found) : State :=
  let s1 := s.setBit Reg.memStatus 1 true
  if persistent (keyMem k) then
    (let s2 := (((s1.count Reg.memCnt1 31 16).setReg Reg.memLastUe0 (BitVec.ofNat 32 (keyMem k * 2 ^ 16))).setReg
        Reg.memLastUe1 (BitVec.ofNat 32 (f.code * 2 ^ 30 + keyRow k)))
     if f = .spareCopy then s2
     else
       let o := ownerOf (keyMem k)
       let s3 := s2.fault 7
       { s3 with prot := { s3.prot with owed := if o ∈ s3.prot.owed then s3.prot.owed else s3.prot.owed ++ [o],
                                        copies := s3.prot.copies.filter (fun c => rowKey c.memid c.row != k) },
                 boot := if o = 17 ∨ s3.phase < 4 then { s3.boot with restart := true } else s3.boot })
  else s1.count Reg.memCnt1 15 0

/-- One row is read: corrected, or uncorrectable (true). -/
def State.readRow (s : State) (k : Nat) (f : Found) : State × Bool :=
  let b := s.flips k
  if b = 0 then (s, false)
  else if popCount b = 1 then (s.correctedBy k f, false)
  else (s.uncorrectable k f, true)

/-- The keys of the rows that `n` bytes from `a` on touch. -/
def rowsOf (a n : Nat) : List Nat :=
  ((List.range ((a % 8 + n + 7) / 8)).map (fun i => rowOf (a - a % 8 + 8 * i))).filterMap
    (fun r => r.map (fun p => rowKey p.1 p.2))

/-- `n` bytes from `a` on are read by a reader: the state after the corrections, and whether a row was
uncorrectable. -/
def State.read (s : State) (a n : Nat) (f : Found := .readPath) : State × Bool :=
  if s.prot.flips = [] then (s, false)
  else (rowsOf a n).foldl (fun r k => let q := r.1.readRow k f; (q.1, r.2 || q.2)) (s, false)

/-- Whether a read of these bytes would find an uncorrectable error. -/
def State.ueAt (s : State) (a n : Nat) : Bool :=
  !(s.prot.flips.isEmpty) && (rowsOf a n).any (fun k => decide (1 < popCount (s.flips k)))

/-- A byte as it stands in the array, errors included: what a read with an uncorrectable error returns. -/
def State.stored (s : State) (a : Nat) : Byte :=
  match rowOf a with
  | none => s.byte a
  | some (m, r) => s.byte a ^^^ BitVec.ofNat 8 ((s.flips (rowKey m r)).toNat / 2 ^ (8 * (a % 8)))

/-! ### Writes (R412, R425) -/

/-- A row's stored bits after a write: an armed injection and failing cells disturb them. What a failing cell stores is
a free value. -/
def State.afterWrite (s : State) (k : Nat) : State :=
  let bad := Tbl.get 0 s.prot.stuck k
  let q : BitVec 72 × State :=
    if bad = 0 then (0, s) else (let d := s.draw; (d.1.setWidth 72 ||| (d.1.setWidth 72 <<< 60), d.2))
  let w := q.1
  let s1 := q.2
  let inj : BitVec 72 := match s1.prot.inject with
    | some i => if rowKey i.memid i.row = k then i.bits else 0
    | none => 0
  let s2 := s1.setFlips k ((w &&& bad) ^^^ inj)
  { s2 with prot := { s2.prot with
      inject := if inj = 0 then s2.prot.inject else none,
      written := if (s2.rptFind k).isSome ∧ k ∉ s2.prot.written then s2.prot.written ++ [k] else s2.prot.written,
      rewrite := s2.prot.rewrite.filter (· != k) } }

/-- A row is written. A correction of it in the same slot counts as following the write (R422). -/
def State.rowWritten (s : State) (k : Nat) : State :=
  match s.portsNow.cor.find? (fun e => e.1 == k) with
  | none => s.afterWrite k
  | some (_, scr, idle) =>
    let s1 := s.afterWrite k
    let w := s1.prot.written.filter (· != k)
    let s2 : State := { s1 with ports := { s.portsNow with cor := s.portsNow.cor.filter (fun e => e.1 != k) ++ [(k, scr, false)] },
                                prot := { s1.prot with written := if idle then w ++ [k] else w } }
    if idle then s2.rptOffer k (lowBit (s.flips k)) else s2

/-- Memory protection has nothing to do on a write: no row in error, none failing, no injection, no repeat entry. -/
def State.protIdle (s : State) : Bool :=
  s.prot.flips.isEmpty && s.prot.stuck.isEmpty && s.prot.inject.isNone && s.prot.order.isEmpty

/-- A write of `bytes` that lie in one row, at `a`: a write of the whole row computes fresh check bits, a smaller one is
merged (R412). A merge that finds an uncorrectable error does not write a persistent memory, and leaves a streaming row
uncorrectable. -/
def State.storeRow (s : State) (a : Nat) (bytes : List Byte) : State :=
  match rowOf a with
  | none => s.setBytes a bytes
  | some (m, r) =>
    let k := rowKey m r
    if bytes.length = 8 then (s.setBytes a bytes).rowWritten k
    else
      let q := s.readRow k .merge
      if q.2 && persistent m then q.1
      else if q.2 then (q.1.setBytes a bytes).setFlips k (3 <<< 64)
      else (q.1.setBytes a bytes).rowWritten k

/-- The part of a byte list that falls into each row in turn. -/
def rowPieces : Nat → Nat → List Byte → List (Nat × List Byte)
  | 0, _, _ => []
  | n + 1, a, bs =>
    if bs.isEmpty then []
    else
      let k := 8 - a % 8
      (a, bs.take k) :: rowPieces n (a + k) (bs.drop k)

/-- Write bytes to a memory window from `a` on. -/
def State.store (s : State) (a : Nat) (bytes : List Byte) : State :=
  if s.protIdle then s.setBytes a bytes
  else (rowPieces (bytes.length + 1) a bytes).foldl (fun s p => s.storeRow p.1 p.2) s

/-- The bytes of a number, little-endian. -/
def bytesLe : Nat → Nat → List Byte
  | 0, _ => []
  | n + 1, v => BitVec.ofNat 8 v :: bytesLe n (v / 256)

/-- Write `n` bytes of a number, little-endian. -/
def State.storeLe (s : State) (a n v : Nat) : State := s.store a (bytesLe n v)
/-- Write a 16-bit word. -/
def State.storeHalf (s : State) (a : Nat) (v : W16) : State := s.store a (bytesLe 2 v.toNat)

/-! ### Two ports on one memory (R20, R124, R200) -/

/-- The current bytes of a range, for the note of a write that comes. -/
def State.before_ (s : State) (a n : Nat) : List (Nat × Byte) := (List.range n).map (fun i => (a + i, s.byte (a + i)))

/-- A cell or an engine is about to write `n` bytes at `a`. -/
def State.noteFixed (s : State) (a n : Nat) : State :=
  { s with ports := { s.portsNow with fixed := s.portsNow.fixed ++ s.before_ a n } }
/-- The second port of an engine memory is about to write `n` bytes at `a`. -/
def State.noteSecond (s : State) (a n : Nat) : State :=
  { s with ports := { s.portsNow with second := s.portsNow.second ++ s.before_ a n } }
/-- A cell uses the read port, or the write port, of its tile's scratch in this slot. -/
def State.noteRead (s : State) (t : Nat) : State := { s with ports := { s.portsNow with rd := t :: s.portsNow.rd } }
def State.noteWrite (s : State) (t : Nat) : State := { s with ports := { s.portsNow with wr := t :: s.portsNow.wr } }

/-- A byte as the second port reads it: before what a cell or an engine writes in the same cycle. -/
def State.seenByte (s : State) (a : Nat) : Byte :=
  match s.portsNow.fixed.find? (fun e => e.1 == a) with
  | some e => e.2
  | none => s.byte a

/-- A word as an engine reads it: before what the second port writes in the same cycle. -/
def State.seenHalf (s : State) (a : Nat) : W16 :=
  let b (x : Nat) : Byte := match s.portsNow.second.find? (fun e => e.1 == x) with
    | some e => e.2
    | none => s.byte x
  BitVec.ofNat 16 ((b a).toNat + 256 * (b (a + 1)).toNat)

/-- An engine's store of a word: a byte that the second port writes in the same cycle keeps what that port wrote. -/
def State.storeFirst (s : State) (a : Nat) (v : W16) : State :=
  let b (x : Nat) (y : Byte) : Byte := if s.portsNow.second.any (fun e => e.1 == x) then s.byte x else y
  (s.noteFixed a 2).store a [b a (BitVec.ofNat 8 v.toNat), b (a + 1) (BitVec.ofNat 8 (v.toNat / 256))]

/-- INJECTION_ARM: a write of `MEM_INJ_CTRL` (R425). Accepted before RUN, and from RUN with debug unlocked; `BIT` out of
range leaves the injection unarmed. -/
def injectOpen (s : State) : Bool := !s.locked || s.rbit Reg.hlmStatus 22

/-- What such a write arms. -/
def State.injArm (s : State) (w : W32) : State :=
  let b := bitsOf w 28 22
  let two := w.getLsbD 30
  if !w.getLsbD 31 || !injectOpen s then s
  else if (if two then 70 else 71) < b then s
  else
    let m : BitVec 72 := BitVec.ofNat 72 (if two then 3 * 2 ^ b else 2 ^ b)
    { s with prot := { s.prot with inject := some { memid := s.fld Reg.memInjId 31 16, row := bitsOf w 21 0, bits := m } } }

def execInjectionArm (w : W32) (s : State) : Host.Outcome State Fault Refusal := (s.injArm w).go

/-! ### Records for the flash -/

/-- An event record: its code, the current time and the object (chapter 14, Table 3), waits for Crucible. -/
def State.event (s : State) (ecode object : Nat) : State :=
  let pay := bytesLe 2 ecode ++ bytesLe 2 0 ++ bytesLe 6 s.tsb.orbit.toNat ++ bytesLe 2 s.tsb.crossing ++
    bytesLe 1 s.tsb.slot ++ bytesLe 1 0 ++ bytesLe 2 object
  { s with commits := s.commits ++ [{ typ := 0x30, payload := pay }] }

end Sys2Proof.Machine
end

