-- ==== Sys2Proof/Machine/Flags.lean ====
section
/-!
DEFINITION. Sys2Proof/Machine/Flags.lean: the arithmetic of the cells (R118 to R122) and of the engines (R209 to R214,
R252), each result with its flags.
-/
namespace Sys2Proof.Machine

/-! ### Cell operations: result and flag, on data alone (R118, R119) -/

/-- The 16-bit word of an integer. -/
def w16 (i : Int) : W16 := BitVec.ofInt 16 i

/-- Clamp an integer. -/
def clampInt (lo hi i : Int) : Int := if i < lo then lo else if hi < i then hi else i

/-- ADD: sum and carry out of bit 15. -/
def cellAdd (a b : W16) : W16 × Bool := (a + b, decide (2 ^ 16 ≤ a.toNat + b.toNat))
/-- SUB: difference and borrow. -/
def cellSub (a b : W16) : W16 × Bool := (a - b, decide (a.toNat < b.toNat))
/-- ADDS: clamped sum, and whether it was clamped; signed when `sg`. -/
def cellAdds (sg : Bool) (a b : W16) : W16 × Bool :=
  let r : Int := if sg then a.toInt + b.toInt else (a.toNat : Int) + b.toNat
  let c : Int := if sg then clampInt (-32768) 32767 r else clampInt 0 65535 r
  (w16 c, decide (c ≠ r))
/-- Signed or unsigned comparison a < b. -/
def ltBy (sg : Bool) (a b : W16) : Bool := if sg then decide (a.toInt < b.toInt) else decide (a.toNat < b.toNat)
/-- MIN: the smaller, A on a tie; the flag says that B is taken. -/
def cellMin (sg : Bool) (a b : W16) : W16 × Bool := if ltBy sg b a then (b, true) else (a, false)
/-- MAX: the larger, A on a tie; the flag says that B is taken. -/
def cellMax (sg : Bool) (a b : W16) : W16 × Bool := if ltBy sg a b then (b, true) else (a, false)
/-- ABS: absolute value, −32,768 giving 32,767; the flag says that A is negative. -/
def cellAbs (a : W16) : W16 × Bool :=
  (if a = 0x8000 then 0x7FFF else if a.toInt < 0 then -a else a, decide (a.toInt < 0))
/-- The CMP condition of chapter 4 Table 8. -/
def cellCond (md : BitVec 3) (a b : W16) : Bool :=
  if md = 0 then decide (a = b) else if md = 1 then decide (a ≠ b)
  else if md = 2 then decide (a.toNat < b.toNat) else if md = 3 then decide (b.toNat ≤ a.toNat)
  else if md = 4 then decide (a.toInt < b.toInt) else if md = 5 then decide (b.toInt ≤ a.toInt)
  else if md = 6 then decide (b.toInt < a.toInt) else decide (a.toInt ≤ b.toInt)
/-- CMP: 1 or 0, and the condition. -/
def cellCmp (md : BitVec 3) (a b : W16) : W16 × Bool :=
  let c := cellCond md a b
  (if c then 1 else 0, c)
/-- THR (R119): A, A − IMM or IMMB, and whether A ≥ IMM. -/
def cellThr (md : BitVec 3) (imm immb a : W16) : W16 × Bool :=
  let sg := md.getLsbD 0
  let ge := !(ltBy sg a imm)
  let diff : W16 := if sg then w16 (clampInt (-32768) 32767 (a.toInt - imm.toInt)) else a - imm
  (if ge then (if md.getLsbD 1 then diff else a) else immb, ge)
/-- A bitwise result and whether it is not 0. -/
def cellLogic (r : W16) : W16 × Bool := (r, decide (r ≠ 0))
/-- SHL: the flag is the last bit shifted out, 0 for a shift of 0. -/
def cellShl (a b : W16) : W16 × Bool :=
  let n := b.toNat % 16
  (a <<< n, decide (n ≠ 0) && a.getLsbD (16 - n))
/-- SHR: logical shift right. -/
def cellShr (a b : W16) : W16 × Bool :=
  let n := b.toNat % 16
  (a >>> n, decide (n ≠ 0) && a.getLsbD (n - 1))
/-- ASR: arithmetic shift right. -/
def cellAsr (a b : W16) : W16 × Bool :=
  let n := b.toNat % 16
  (a.sshiftRight n, decide (n ≠ 0) && a.getLsbD (n - 1))
/-- MUL8: the product of the low bytes, signed when `sg`. -/
def cellMul8 (sg : Bool) (a b : W16) : W16 :=
  let x : BitVec 8 := a.setWidth 8
  let y : BitVec 8 := b.setWidth 8
  if sg then w16 (x.toInt * y.toInt) else w16 ((x.toNat : Int) * y.toNat)
/-- LUT4: the bit of IMM indexed by F3 F2 F1 F0. -/
def cellLut4 (imm : W16) (flags : BitVec 4) : Bool := imm.getLsbD flags.toNat
/-- CNT: the number of 1 bits of A & IMM. -/
def cellCnt (imm a : W16) : W16 × Bool :=
  let n := popCount (a &&& imm)
  (BitVec.ofNat 16 n, decide (n ≠ 0))
/-- ACC (Table 7): A, or Ld + A, clamped when MOD[1] = 1; the flag is carry or clamp of this step. -/
def cellAcc (md : BitVec 3) (ld a : W16) : W16 × Bool :=
  if md.getLsbD 0 then (a, false)
  else
    let full := decide (2 ^ 16 ≤ ld.toNat + a.toNat)
    (if md.getLsbD 1 && full then 0xFFFF else ld + a, full)

/-- The class of an examined operand (R120). -/
inductive OpClass where
  | poison (cause : W16) | mark (d : W16) | frame (d : W16) | data (d : W16)
deriving DecidableEq, Repr

/-- Class an operand: parity first, then POISON, MARK unless MKZ, FRAME, DATA (R120). -/
def classify (mkz : Bool) (w : FWord) : OpClass :=
  if w.bad then .poison 1
  else match w.tag with
    | .poison => .poison w.d
    | .mark => if mkz then .data 0 else .mark w.d
    | .frame => .frame w.d
    | .data => .data w.d

/-- The data of a class. -/
def OpClass.d : OpClass → W16
  | .poison d | .mark d | .frame d | .data d => d

/-- First POISON among the examined operands. -/
def firstPoison : List OpClass → Option W16
  | [] => none
  | .poison c :: _ => some c
  | _ :: t => firstPoison t
/-- First MARK among the examined operands. -/
def firstMark : List OpClass → Option W16
  | [] => none
  | .mark d :: _ => some d
  | _ :: t => firstMark t
/-- Some examined operand is a FRAME. -/
def anyFrame (l : List OpClass) : Bool := l.any (fun c => match c with | .frame _ => true | _ => false)

/-- The result word of an operation over its examined operands (R120), given what it computes on data. -/
def tagged (fp : Bool) (ops : List OpClass) (d : W16) : FWord :=
  match firstPoison ops with
  | some c => FWord.poison c
  | none => match firstMark ops with
    | some m => { tag := .mark, d := m }
    | none => if fp && anyFrame ops then FWord.frame d else FWord.data d

/-- The verbatim handling of R121. -/
def verbatim (mkz : Bool) (w : FWord) : FWord :=
  if w.bad then FWord.poison 1
  else if mkz && decide (w.tag = .mark) then FWord.zero else w

/-- The flag after an operation (R122): mode, the flag before, what Table 7 gives (none: unchanged), the result. -/
def flagAfter (fm : BitVec 2) (old : Bool) (produced : Option Bool) (result : FWord) : Bool :=
  if fm = 0 then
    (match produced with
     | none => old
     | some f => if result.tag = .poison ∨ result.tag = .mark then false else f)
  else if fm = 1 then old else decide (fm = 3)

/-! ### Engine arithmetic -/

/-- The three condition bits. -/
structure Cond where
  z : Bool
  n : Bool
  v : Bool
deriving DecidableEq, Repr

/-- Condition bits of a 16-bit result (R252). -/
def cond16 (r : W16) (v : Bool) : Cond := { z := decide (r = 0), n := r.getLsbD 15, v := v }

/-- The result of an ALU operation and its condition bits; a result of none writes no register, conditions of none
are not written (R252, Table 7). -/
def aluOp (op : Nat) (a b : W16) : Option W16 × Option Cond :=
  let both (r : W16) (v : Bool) : Option W16 × Option Cond := (some r, some (cond16 r v))
  let sum := a.toInt + b.toInt
  let dif := a.toInt - b.toInt
  let wide (i : Int) : Bool := decide (i < -32768 ∨ 32767 < i)
  let n := b.toNat % 16
  if op = 0x00 then both (a + b) (wide sum)
  else if op = 0x01 then both (a - b) (wide dif)
  else if op = 0x02 then both (w16 (clampInt (-32768) 32767 sum)) (wide sum)
  else if op = 0x03 then both (w16 (clampInt (-32768) 32767 dif)) (wide dif)
  else if op = 0x04 then both (a &&& b) false
  else if op = 0x05 then both (a ||| b) false
  else if op = 0x06 then both (a ^^^ b) false
  else if op = 0x07 then both (~~~a) false
  else if op = 0x08 then both (-a) (decide (a = 0x8000))
  else if op = 0x09 then both (if a = 0x8000 then 0x7FFF else if a.toInt < 0 then -a else a) (decide (a = 0x8000))
  else if op = 0x0A then both (if b.toInt < a.toInt then b else a) false
  else if op = 0x0B then both (if a.toInt < b.toInt then b else a) false
  else if op = 0x0C then (none, some (cond16 (a - b) (wide dif)))
  else if op = 0x0D then (none, some (cond16 (a &&& b) false))
  else if op = 0x0E then both (a <<< n) false
  else if op = 0x0F then both (a >>> n) false
  else if op = 0x10 then both (a.sshiftRight n) false
  else if op = 0x11 then both (BitVec.ofNat 16 (popCount a)) false
  else if op = 0x12 then (some b, none)
  else (none, none)

/-- Largest and smallest accumulator values (R209). -/
def acMax : Int := 2 ^ 39 - 1
def acMin : Int := -(2 ^ 39)

/-- The accumulator after a MAC-class operation: value, whether it clamped (R209). `op` is 0 MAC, 1 MSU, 2 MPY,
3 CLRMAC. -/
def macOp (op : Nat) (ac : W40) (x y : W16) : W40 × Bool :=
  let p : Int := x.toInt * y.toInt
  let s : Int := if op = 0 then ac.toInt + p else if op = 1 then ac.toInt - p else if op = 2 then p else 0
  if acMax < s then (BitVec.ofInt 40 acMax, true)
  else if s < acMin then (BitVec.ofInt 40 acMin, true)
  else (BitVec.ofInt 40 s, false)

/-- Condition bits of an accumulator (R209). -/
def condAc (ac : W40) : Cond :=
  let top := ac.toNat / 2 ^ 31
  { z := decide (ac = 0), n := ac.getLsbD 39, v := !(decide (top = 0) || decide (top = 511)) }

/-- The 16-bit value of an accumulator through the store path with shift n, and whether it saturated (R211). -/
def acStore (ac : W40) (n : Nat) : W16 × Bool :=
  let w : Int := (ac.toInt * 2 ^ n).fdiv (2 ^ 16)
  if 32767 < w then (0x7FFF, true) else if w < -32768 then (0x8000, true) else (w16 w, false)

/-- Post-modify of an address register: linear where the length is 0, else circular (R213). -/
def postModify (addr base len : BitVec 12) (m : W16) : BitVec 12 :=
  if len = 0 then BitVec.ofInt 12 ((addr.toNat : Int) + m.toInt)
  else BitVec.ofInt 12 ((base.toNat : Int) + (((addr.toNat : Int) - base.toNat + m.toInt).fmod len.toNat))

/-- A branch condition on the condition bits and the tag of the latest IN (chapter 9, Table 9); the two DEC
conditions are on the counter as decremented. -/
def branchCond (c : Nat) (f : Cond) (itag : BitVec 2) (lc0 lc1 : W16) : Bool :=
  if c = 0x0 then true
  else if c = 0x1 then f.z else if c = 0x2 then !f.z
  else if c = 0x3 then f.n else if c = 0x4 then !f.n
  else if c = 0x5 then f.v else if c = 0x6 then !f.v
  else if c = 0x7 then f.n != f.v else if c = 0x8 then f.n == f.v
  else if c = 0x9 then !f.z && (f.n == f.v) else if c = 0xA then f.z || (f.n != f.v)
  else if c = 0xB then decide (lc0 - 1 ≠ 0) else if c = 0xC then decide (lc1 - 1 ≠ 0)
  else if c = 0xD then itag.getLsbD 1 else false

end Sys2Proof.Machine
end

