-- ==== Sys2Proof/Machine/Operands.lean ====
section
/-!
DEFINITION. Sys2Proof/Machine/Operands.lean: where a word of the fixed plane comes from: the contexts and maps of a
tile, its link inputs with the border policies, its port inputs, and the source codes of its cells and its switch
(R117, R128 to R133, R141 to R152).
-/
namespace Sys2Proof.Machine

/-! ### Tiles, contexts and maps -/

/-- Device column of a tile (R141). -/
def tileX (t : Nat) : Nat := 16 * (t / 256 % 4) + 4 * (t / 16 % 4) + t % 4
/-- Device row of a tile (R141). -/
def tileY (t : Nat) : Nat := 16 * (t / 1024) + 4 * (t / 64 % 4) + t / 4 % 4
/-- The tile at device coordinates, none beyond the edge (R145). -/
def tileAt (x y : Int) : Option Nat :=
  if x < 0 ∨ 63 < x ∨ y < 0 ∨ 63 < y then none
  else
    let x := x.toNat
    let y := y.toNat
    let sec := 4 * (y / 16) + x / 16
    let k := 4 * (y / 4 % 4) + x / 4 % 4
    some (256 * sec + 16 * k + 4 * (y % 4) + x % 4)

/-- Base of the context window of tile `t` (R137). -/
def tileWin (t : Nat) : Nat := Reg.secBase (t / 256) + 0x800000 + (t % 256) * 0x400
/-- Word `w` of the scratch data of tile `t` (R126). -/
def scratchAddr (t w : Nat) : Nat := Reg.secBase (t / 256) + 0x200000 + (t % 256) * 0x400 + 2 * w
/-- Byte of the scratch tags that holds the tag of word `w` (R126). -/
def scratchTagAddr (t w : Nat) : Nat := Reg.secBase (t / 256) + 0x300000 + (t % 256) * 0x80 + w / 4

/-- The map entry of a tile for a slot: HOLD and the context (R132, R135). -/
def State.mapEntry (s : State) (t slot : Nat) : Bool × Nat :=
  let m := s.fld (Reg.secMapsel (t / 256)) 0 0
  let b := (s.byte (tileWin t + 0x200 + 0x40 * m + slot / 2)).toNat
  let e := if slot % 2 = 0 then b % 16 else b / 16
  (decide (8 ≤ e), e % 8)

/-- The context that governs the current slot of a tile. -/
def State.curCtx (s : State) (t : Nat) : Nat := (s.mapEntry t s.tsb.slot).2
/-- The current slot of a tile is a HOLD slot. -/
def State.curHold (s : State) (t : Nat) : Bool := (s.mapEntry t s.tsb.slot).1

/-- Bits `[lo+n-1:lo]` of context `c` of tile `t` (R128). -/
def State.ctxBits (s : State) (t c lo n : Nat) : Nat :=
  (s.le (tileWin t + 64 * c + lo / 8) ((lo % 8 + n + 7) / 8)) / 2 ^ (lo % 8) % 2 ^ n

/-- Cell field `m` of context `c` (R129). -/
def State.cellField (s : State) (t c m : Nat) : BitVec 64 := BitVec.ofNat 64 (s.ctxBits t c (64 * m) 64)
/-- Link destination `d` of context `c` (R130). -/
def State.linkDest (s : State) (t c d : Nat) : Nat := s.ctxBits t c (256 + 5 * d) 5
/-- Port output field `Qk` of context `c` (R130). -/
def State.portField (s : State) (t c k : Nat) : Nat := s.ctxBits t c (366 + 6 * k) 6
/-- POP bits of context `c`. -/
def State.popBits (s : State) (t c : Nat) : Nat := s.ctxBits t c 390 4

/-! ### Attachments -/

/-- Attachment entry of port `p` of tile `t` (R151). -/
def State.attach (s : State) (t p : Nat) : BitVec 32 := BitVec.ofNat 32 (s.le (tileWin t + 0x280 + 4 * p) 4)

/-- Kinds of attachment (chapter 5, Table 4). -/
inductive AttKind where
  | none | lane | tsb | qpop | qpush | engso | engsi | sortin | sortout | mrgout | olp | dec
deriving DecidableEq, Repr

/-- Kind of an attachment entry; a reserved kind is refused at load and behaves as NONE. -/
def attKind (e : BitVec 32) : AttKind :=
  match bitsOf e 31 28 with
  | 1 => .lane | 2 => .tsb | 3 => .qpop | 4 => .qpush | 5 => .engso | 6 => .engsi | 7 => .sortin
  | 8 => .sortout | 9 => .mrgout | 10 => .olp | 11 => .dec | _ => .none

/-! ### Lanes at the port -/

/-- W, the words of a frame or raw crossing of lane `l` (R76, R106). -/
def State.laneW (s : State) (l : Nat) : Nat :=
  let blk := s.fld (Reg.lanCfg l) 15 8
  if s.fld (Reg.lanCfg l) 31 30 = 3 then (blk - 1) / 2 else 4 * (blk - 1)

/-- Words a lane delivers in a slot (`WPS`). -/
def State.laneWps (s : State) (l : Nat) : Nat := 2 ^ s.fld (Reg.lanCfg l) 25 24

/-- Receive lane that feeds channel `ch` of sector `sec` (R86). -/
def State.laneFeeding (s : State) (sec ch : Nat) : Option Nat :=
  ((List.range 60).map (fun i => 60 * (sec / 4) + i)).find? (fun l =>
    s.fld (Reg.lanCfg l) 31 30 ≠ 0 && s.fld (Reg.lanCfg l) 23 22 == sec % 4 && s.fld (Reg.lanCfg l) 21 18 == ch)

/-- `TXMODE` of a lane. -/
def State.txMode (s : State) (l : Nat) : Nat := s.fld (Reg.lanCfg l) 29 28
/-- W of a transmit lane (R98). -/
def State.laneTxW (s : State) (l : Nat) : Nat := 4 * (s.fld (Reg.lanCfg l) 15 8 - 1)

/-- Transmit lanes of output channel `ch` of sector `sec`: any number of them may take their words from one channel (R86). -/
def State.lanesDriven (s : State) (sec ch : Nat) : List Nat :=
  ((List.range 60).map (fun i => 60 * (sec / 4) + i)).filter (fun l =>
    (s.fld (Reg.lanCfg l) 29 28 == 1 || s.fld (Reg.lanCfg l) 29 28 == 2) &&
      s.fld (Reg.lanCfg l) 23 22 == sec % 4 && s.fld (Reg.lanCfg l) 21 18 == ch)

/-- The words a lane puts on its port in the current slot. -/
def State.laneSlot (s : State) (l : Nat) : List FWord :=
  match (s.lane l).deliver with
  | none => []
  | some d =>
    if s.tsb.tick < d.start then []
    else (d.words.drop (s.laneWps l * (s.tsb.tick - d.start))).take (s.laneWps l)

/-- The word a LANE attachment reads (R152, R87). -/
def State.laneWord (s : State) (sec ch w : Nat) : FWord :=
  match s.laneFeeding sec ch with
  | none => FWord.dark 0x1FF
  | some l => (s.laneSlot l).getD w FWord.zero

/-! ### Other port inputs -/

/-- The word a QPOP attachment shows: the last word popped before this slot (R177). -/
def State.queueSeen (s : State) (q : Nat) : FWord :=
  let u := s.queue q
  if u.popTick = some s.tsb.tick then u.prev else u.last

/-- A pinned engine that serves no run because it is out of the fixed plane (R150, R236). -/
def State.engOut (s : State) (p : Nat) : Bool :=
  let e := s.eng p
  e.dead || decide (e.run = .out) || decide (e.run = .loading) || decide (e.run = .reset)

/-- The word an ENGSO attachment reads from port `k` of logical engine `e` (R152, R150). An engine that is out follows R149
with the DARK policy: a word driven before the departure is still seen in its slot, POISON follows to the end of the crossing
when the engine left after slot 0, and then MARK DARK. -/
def State.engSo (s : State) (e k : Nat) : FWord :=
  let p := s.physOf e
  let g := s.eng p
  let seen := decide (g.soTick = s.tsb.tick)
  if s.engOut p then
    (match g.left with
     | none => FWord.dark (0x200 + e)
     | some d =>
       if seen then g.soPrev.toArray.getD k FWord.zero
       else if d.1 = s.tsb.cx ∧ 0 < d.2 then FWord.poison 6
       else FWord.dark (0x200 + e))
  else if seen then g.soPrev.toArray.getD k FWord.zero else g.so.toArray.getD k FWord.zero

/-- Rank entry `r` of an emission seen `d` slots after it (R152). -/
def rankSeen (c : Option Capture) (tick d r : Nat) (payload : Bool) : FWord :=
  match c with
  | none => FWord.zero
  | some c =>
    if c.tick + d = tick then
      (let e := c.ranks.getD r (FWord.zero, FWord.zero)
       if payload then e.2 else e.1)
    else FWord.zero

/-- The word at port input `p` of tile `t` (R152, Table 5 of chapter 5). -/
def State.portIn (s : State) (t p : Nat) : FWord :=
  let e := s.attach t p
  let n := t / 16
  match attKind e with
  | .lane => s.laneWord (t / 256) (bitsOf e 3 0) (bitsOf e 5 4)
  | .tsb => s.tsb.ccw
  | .qpop => s.queueSeen (32 * n + bitsOf e 4 0)
  | .engso => s.engSo (2 * n + bitsOf e 0 0) (bitsOf e 3 2)
  | .sortout => rankSeen (s.sorter (t / 256)).emitted s.tsb.tick 2 (bitsOf e 3 0) (e.getLsbD 4)
  | .mrgout => rankSeen s.merge.emitted s.tsb.tick 4 (bitsOf e 3 0) (e.getLsbD 4)
  | _ => FWord.zero

/-! ### Link inputs and borders -/

/-- What drives link input `i` of tile `t` (source code 4 + i): the driving tile and its destination (R142, R143). -/
def linkDriver (t i : Nat) : Option (Nat × Nat) :=
  let x : Int := tileX t
  let y : Int := tileY t
  let from_ (o : Option Nat) (d : Nat) : Option (Nat × Nat) := o.map (fun u => (u, d))
  if i < 4 then from_ (tileAt x (y - 1)) (8 + i)
  else if i < 8 then from_ (tileAt (x + 1) y) (12 + (i - 4))
  else if i < 12 then from_ (tileAt x (y + 1)) (i - 8)
  else if i < 16 then from_ (tileAt (x - 1) y) (4 + (i - 12))
  else if i = 16 then from_ (tileAt x (y - 4)) 18
  else if i = 17 then from_ (tileAt (x + 4) y) 19
  else if i = 18 then from_ (tileAt x (y + 4)) 16
  else from_ (tileAt (x - 4) y) 17

/-- Hold policy of link input `i` of tile `t` (R148): 0 DARK, 1 HOLD_LAST, 2 CONST. -/
def State.policy (s : State) (t i : Nat) : Nat :=
  if i < 16 then s.le (tileWin t + 0x2A0) 4 / 4 ^ i % 4 else s.le (tileWin t + 0x2A4) 4 / 4 ^ (i - 16) % 4

/-- What a border channel presents while its region drives nothing (R149, steps 2 and 3). -/
def State.borderHold (s : State) (t i drv : Nat) : FWord :=
  let n := drv / 16
  let (cx, v) := Tbl.get (0, 0) s.leaves n
  if v ≠ 0 ∧ cx = s.tsb.cx then FWord.poison 6
  else match s.policy t i with
    | 1 => Tbl.get FWord.zero s.held (20 * t + i)
    | 2 => FWord.data (s.half (tileWin t + 0x2A8))
    | _ => FWord.dark n

/-- The word at link input `i` of tile `t` (R142 to R149). -/
def State.linkIn (s : State) (t i : Nat) : FWord :=
  match linkDriver t i with
  | none => FWord.zero
  | some (u, d) =>
    let table := if u / 256 = t / 256 then s.link else s.linkB
    match Tbl.get none table (20 * u + d) with
    | some w => w
    | none => if u / 16 = t / 16 then FWord.zero else s.borderHold t i u

/-- Long line of a tile: its row line for tap 0, its column line for tap 1 (R146). -/
def longLine (t tap : Nat) : Nat :=
  32 * (t / 256) + (if tap = 0 then tileY t % 16 else 16 + tileX t % 16)

/-- The word at a long-line tap (R146). -/
def State.longTap (s : State) (t tap : Nat) : FWord := Tbl.get FWord.zero s.line2 (longLine t tap)

/-! ### Source codes (R117, Table 6 of chapter 4) -/

/-- The word of a source code of the tile switch in the current slot; `own` is the cell that asks, if one does. A code that
names the asking cell's own output register gives the result still in flight, from slot s + 1 on (Table 5 of chapter 4; DESIGN
CHOICE: the text of R116 names only the own local registers and flag). -/
def State.source (s : State) (t : Nat) (own : Option Nat) (code : Nat) : FWord :=
  if code < 4 then
    (if own = some code then (s.cell (4 * t + code)).own else (s.cell (4 * t + code)).out)
  else if code < 0x18 then s.linkIn t (code - 4)
  else if code < 0x1A then s.longTap t (code - 0x18)
  else if code < 0x1E then s.portIn t (code - 0x1A)
  else FWord.zero

/-- Local register `i` of a cell. -/
def CellSt.loc (c : CellSt) (i : Nat) : FWord :=
  if i = 0 then c.loc0 else if i = 1 then c.loc1 else if i = 2 then c.loc2 else c.loc3
/-- Write local register `i`. -/
def CellSt.setLoc (c : CellSt) (i : Nat) (w : FWord) : CellSt :=
  if i = 0 then { c with loc0 := w } else if i = 1 then { c with loc1 := w }
  else if i = 2 then { c with loc2 := w } else { c with loc3 := w }

/-- An operand of a cell in the current slot, under its field's two immediates (R117). -/
def State.operand (s : State) (c : Nat) (field : BitVec 64) (code : Nat) : FWord :=
  let t := c / 4
  if code < 0x20 then s.source t (some (c % 4)) code
  else if code < 0x24 then (s.cell c).loc (code - 0x20)
  else if code = 0x24 then FWord.data (BitVec.ofNat 16 (bitsOf field 15 0))
  else if code = 0x25 then FWord.data (BitVec.ofNat 16 (bitsOf field 63 48))
  else FWord.zero

/-- Flags F3 to F0 of a tile as a cell sees them: its own as left by every earlier operation (R116). -/
def State.flagsSeen (s : State) (c : Nat) : BitVec 4 :=
  let t := c / 4
  let f (m : Nat) : Nat :=
    let k := s.cell (4 * t + m)
    if (if m = c % 4 then k.flag else k.flagVis) then 2 ^ m else 0
  BitVec.ofNat 4 (f 0 + f 1 + f 2 + f 3)

end Sys2Proof.Machine
end

