-- ==== Sys2Proof/Machine/Queues.lean ====
section
/-!
DEFINITION. Sys2Proof/Machine/Queues.lean: the stream queues: push, pop, markers, resync, the post units and the
stream interfaces (chapter 7).

Within a slot the parts of one queue cycle (R181) come in the order pop, push, marker: a pop is not due in a slot in
which the queue has been pushed already, and each part happens at most once in a slot.
-/
namespace Sys2Proof.Machine

/-- Direction of a queue: 0 off, 1 OUT, 2 IN (R175). -/
def State.qDir (s : State) (q : Nat) : Nat := s.fld (Reg.queCfg q) 31 30
/-- Best-effort end: 0 ENG, 1 POST, 2 NET, 3 RET (R176). -/
def State.qFar (s : State) (q : Nat) : Nat := s.fld (Reg.queCfg q) 29 28
/-- `FARID`. -/
def State.qFarId (s : State) (q : Nat) : Nat := s.fld (Reg.queCfg q) 12 0
/-- The domain of a queue is not held in reset, so the queue accepts pushes and gives pops (R189): its cluster is in the
fixed plane, or its sector is out only because Touchstone is LOST or RETURNING (R57). -/
def State.qRuns (s : State) (q : Nat) : Bool :=
  s.clIn (q / 32) || (decide (s.fld (Reg.glbSecState (q / 512)) 31 30 = 3) && !s.rbit (Reg.glbCl (q / 32)) 1)

/-- The queue is in resync; a RET queue never is (R187). What a queue is follows from its configuration, which a reload may change. -/
def State.inResync (s : State) (q : Nat) : Bool := (s.queue q).resync && !decide (s.qFar q = 3 ∧ s.qDir q = 2)

/-- A queue as emptied by a reset of its domain (R187). -/
def Queue.clear (q : Queue) : Queue :=
  { q with stages := [], gap := 0, pend := false, last := FWord.zero, prev := FWord.zero, resync := true,
           disc := 0, offer := none, item := none, posts := 0, responses := [], refusals := 0, popTick := none,
           pushTick := none, resyncTick := none, buffer := [], credits := 8 }

/-- A reset of the queue's domain reaches the queue (R187, R193): an OUT NET queue sends one restart notice to its
partner. -/
def State.queueReset (s : State) (q : Nat) : State :=
  s.setQueue q (s.queue q).clear

/-- The stream interface of a queue whose region is out discards its words (R193). -/
def State.queueDrop (s : State) (q : Nat) : State := s.setQueue q { s.queue q with buffer := [] }

/-- Land a word in the lowest empty stage (R179). -/
def Queue.land (q : Queue) (w : FWord) : Queue := { q with stages := q.stages ++ [w] }

/-- Land the pending marker when a stage is free (R181). -/
def Queue.landMarker (q : Queue) : Queue :=
  if q.pend ∧ q.stages.length < 8 then
    { q with stages := q.stages ++ [FWord.gap q.gap], pend := false, gap := 0 }
  else q

/-- A marker that an earlier cycle freed a stage for has landed by now (R181). -/
def Queue.settle (q : Queue) (tick : Nat) : Queue := if q.popTick = some tick then q else q.landMarker

/-- What a pop of this cycle finds: nothing where a RESYNC has emptied the queue in it (R188). -/
def Queue.waits (q : Queue) (tick : Nat) : List FWord := if q.resyncTick = some tick then [] else q.stages

/-- The pop part of a queue cycle (R181, R184, R185): the queue after it, and the word delivered. -/
def Queue.pop (q : Queue) (tick : Nat) : Queue × FWord :=
  match q.waits tick with
  | [] => ({ q with prev := q.last, popTick := some tick }, q.last)
  | w :: t =>
    let d : FWord := if w.bad then { w with tag := .poison } else w
    ({ q with stages := t, prev := q.last, last := d, popTick := some tick }, d)

/-- Pop a queue, with its events and counters (R184, R185). -/
def State.queuePop (s : State) (q : Nat) : State × FWord :=
  let u := (s.queue q).settle s.tsb.tick
  let r := u.pop s.tsb.tick
  let s1 := s.setQueue q r.1
  match u.waits s.tsb.tick with
  | [] => ((s1.setBit (Reg.queStatus q) 7 true).count (Reg.queCnt1 q) 15 8, r.2)
  | w :: _ => if w.bad then ((s1.setBit (Reg.queStatus q) 6 true).count (Reg.queCnt1 q) 7 0, r.2) else (s1, r.2)

/-- The push part of a queue cycle outside resync: accepted behind a pending marker, or dropped (R181). -/
def Queue.push (q : Queue) (tick : Nat) (w : FWord) : Queue × Bool :=
  let q := { q with pushTick := some tick }
  if q.stages.length + (if q.pend then 1 else 0) < 8 then (q.landMarker.land w, true)
  else ({ q with gap := min (q.gap + 1) 4095, pend := true }, false)

/-- Push a word, with resync, drops and their counters (R181, R187). The marker and the FRAME that end resync find two free stages:
resync begins on an emptied queue, and a stream interface waits for them. -/
def State.queuePush (s : State) (q : Nat) (w : FWord) : State :=
  let u := (s.queue q).settle s.tsb.tick
  if s.inResync q then
    (if w.tag = .frame ∧ u.stages.length ≤ 6 then
      s.setQueue q { (u.land (FWord.gap u.disc)).land w with resync := false, disc := 0, pushTick := some s.tsb.tick }
     else
      (s.setQueue q { u with disc := u.disc + 1, pushTick := some s.tsb.tick }).count (Reg.queCnt0 q) 15 0)
  else
    let r := u.push s.tsb.tick w
    let s1 := s.setQueue q r.1
    if r.2 then s1 else (s1.setBit (Reg.queStatus q) 8 true).count (Reg.queCnt0 q) 31 16

/-- The queue has a free stage for a best-effort producer (R180). -/
def Queue.free (q : Queue) : Bool := decide (q.stages.length + (if q.pend then 1 else 0) < 8)

/-! ### Post units (R194, R195) -/

/-- The item a post unit posts: ILEN words, zeros, and the flow in word 31 (R272). -/
def postWords (item : List W16) : W16 × List W16 :=
  match item with
  | [] => (0, [])
  | f :: ws => (f, (ws ++ List.replicate 31 0).take 31 ++ [f])

/-- Post a complete item: the dispatcher has it on its way (R194, R271). -/
def State.postItem (s : State) (q : Nat) (item : List W16) : State :=
  let p := postWords item
  { s with dpt := { s.dpt with posts := s.dpt.posts ++
      [{ src := BitVec.ofNat 16 (0x8000 + q), task := s.qFarId q % 4096, flow := p.1, words := p.2 }] } }

/-- A post unit takes a popped word (R194). -/
def State.postUnit (s : State) (q : Nat) (w : FWord) : State :=
  let u := s.queue q
  let ilen := s.fld (Reg.queCfg q) 27 23
  let discard (k : Nat) (item : Option (List W16)) (s : State) : State :=
    (s.setQueue q { s.queue q with item := item }).count (Reg.queCnt0 q) 15 0 k
  let keep (item : List W16) (s : State) : State :=
    if item.length = ilen + 1 then
      (s.setQueue q { s.queue q with item := none, posts := (s.queue q).posts + 1 }).postItem q item
    else s.setQueue q { s.queue q with item := some item }
  match u.item with
  | none =>
    if w.bad ∨ w.tag ≠ .frame then discard 1 none s else keep [w.d] s
  | some it =>
    if w.bad then discard (it.length + 1) none s
    else match w.tag with
      | .data => keep (it ++ [w.d]) s
      | .frame => keep [w.d] (discard it.length none s)
      | _ => discard (it.length + 1) none s

/-! ### The commands -/

/-- QUEUE_PUSH: the word a fixed producer presented in the slot before, or the word the stream interface holds for an
IN queue, is pushed (R177, R180, R181, R191). A word takes a credit, a word discarded in resync none, and the marker that ends
resync one of its own: it stands in a stage until it is popped. -/
def execQueuePush (q : QueueNo) (s : State) : Host.Outcome State Fault Refusal :=
  let u := s.queue q
  if !s.qRuns q || decide (u.pushTick = some s.tsb.tick) then s.go
  else match u.offer with
    | some w => ((s.setQueue q { u with offer := none }).queuePush q w).go
    | none =>
      match u.buffer with
      | w :: rest =>
        let need : Nat := if s.inResync q then (if w.tag = .frame then 2 else 0) else 1
        if s.qDir q = 2 ∧ s.qFar q = 2 ∧ 0 < u.credits ∧ need ≤ u.credits ∧ u.stages.length + need ≤ 8 then
          ((s.setQueue q { u with buffer := rest, credits := u.credits - need }).queuePush q w).go
        else s.go
      | [] => s.go

/-- The tile of a cluster whose QPOP attachment names queue index `i`, and the port (R175). -/
def State.qpopAt (s : State) (n i : Nat) : Option (Nat × Nat) :=
  (((List.range 16).map (fun j => 16 * n + j)).flatMap (fun t => (List.range 4).map (fun p => (t, p)))).find?
    (fun tp => decide (attKind (s.attach tp.1 tp.2) = .qpop) && bitsOf (s.attach tp.1 tp.2) 4 0 == i)

/-- A fixed consumer pops queue `q` in this slot: the context of its tile sets the POP bit of its port (R177). -/
def State.popsNow (s : State) (q : Nat) : Bool :=
  match s.qpopAt (q / 32) (q % 32) with
  | none => false
  | some (t, p) => (s.popBits t (s.curCtx t) / 2 ^ p) % 2 == 1

/-- QUEUE_POP: a fixed consumer pops an IN queue, or a post unit pops an OUT POST queue (R177, R181, R194). -/
def execQueuePop (q : QueueNo) (s : State) : Host.Outcome State Fault Refusal :=
  let u := s.queue q
  let t := some s.tsb.tick
  if !s.qRuns q || decide (u.popTick = t) || decide (u.pushTick = t) then s.go
  else if s.qDir q = 2 ∧ s.clIn (q.val / 32) ∧ s.popsNow q then
    (let r := s.queuePop q
     let v := r.1.queue q
     (if s.qFar q = 2 ∧ u.waits s.tsb.tick ≠ [] then r.1.setQueue q { v with credits := min 8 (v.credits + 1) } else r.1).go)
  else if s.qDir q = 1 ∧ s.qFar q = 1 ∧ u.waits s.tsb.tick ≠ [] ∧ u.posts < 4 then
    (let r := s.queuePop q
     (r.1.postUnit q r.2).go)
  else s.go

/-- MARK_GAP_LAND: a pending MARK GAP lands in the first cycle that frees a stage (R181). -/
def execMarkGapLand (q : QueueNo) (s : State) : Host.Outcome State Fault Refusal :=
  if s.qRuns q then (s.setQueue q (s.queue q).landMarker).go else s.go

/-- POST_RESPONSE: a response reaches the post unit; REFUSED, DISABLED and DOWN count as refused (R195). -/
def execPostResponse (q : QueueNo) (s : State) : Host.Outcome State Fault Refusal :=
  let src : W16 := BitVec.ofNat 16 (0x8000 + q)
  match s.dpt.responses.find? (fun r => r.1 == src) with
  | none => s.go
  | some r =>
    let s1 : State := { s with dpt := { s.dpt with responses := s.dpt.responses.erase r } }
    let u := s1.queue q
    let refused : Bool := r.2 == 1 || r.2 == 2 || r.2 == 4
    let kept : Nat := if (refused && s.rbit (Reg.queCfg q) 17) = true then u.refusals + 1 else u.refusals
    let s2 := s1.setQueue q { u with posts := u.posts - 1, refusals := kept }
    (if refused then (s2.setBit (Reg.queStatus q) 9 true).count (Reg.queCnt1 q) 31 16 else s2).go

/-- MARK_REFUSED_LAND: the return count of the post unit of queue `q` lands in its RET queue once that queue has a
free stage (R195). -/
def execMarkRefusedLand (q : QueueNo) (s : State) : Host.Outcome State Fault Refusal :=
  let u := s.queue q
  let ret := 32 * (q.val / 32) + s.fld (Reg.queCfg q) 22 18
  let s1 := s.setQueue q { u with refusals := 0 }
  let v := (s1.queue ret).settle s.tsb.tick
  if s.qRuns q ∧ s.rbit (Reg.queCfg q) 17 ∧ 0 < u.refusals ∧ v.pushTick ≠ some s.tsb.tick then
    (if v.free then s1.setQueue ret { (v.land (FWord.refused u.refusals)) with pushTick := some s.tsb.tick } else s).go
  else s.go

/-- STREAM_SEND: an OUT NET queue sends its head word to the stream interface against a credit, which counts as its pop
(R191). -/
def execStreamSend (q : QueueNo) (s : State) : Host.Outcome State Fault Refusal :=
  let u := s.queue q
  let t := some s.tsb.tick
  if s.qRuns q ∧ s.qDir q = 1 ∧ s.qFar q = 2 ∧ u.waits s.tsb.tick ≠ [] ∧ 0 < u.credits ∧ u.popTick ≠ t ∧ u.pushTick ≠ t then
    (let r := s.queuePop q
     let v := r.1.queue q
     (r.1.setQueue q { v with credits := v.credits - 1, buffer := v.buffer ++ [r.2] }).go)
  else s.go

/-! ### RESYNC (R188) -/

/-- A RESYNC command reaches a queue: emptied, the last word kept, MARK RESYNC in stage 0, resync entered; a RET queue
is emptied and takes no marker. Emptied words of an IN NET queue return their credits (R193); the marker holds one. -/
def State.queueResync (s : State) (q : Nat) : State :=
  let u := s.queue q
  let ret := decide (s.qFar q = 3 ∧ s.qDir q = 2)
  let back := if s.qDir q = 2 ∧ s.qFar q = 2 then 7 else u.credits
  s.setQueue q { u with stages := if ret then [] else [FWord.resync], gap := 0, pend := false, resync := true, disc := 0,
                        credits := back, resyncTick := some s.tsb.tick }

/-- `QUE[q]_STATUS` as read: the RW1C bits stand in the register, the rest follows from the queue (chapter 7, Table 7). -/
def State.queStatusRead (s : State) (q : Nat) : W32 :=
  let u := s.queue q
  (s.reg (Reg.queStatus q) &&& bm 9 6) |||
    BitVec.ofNat 32 (u.gap * 2 ^ 12 + (if u.pend then 2 ^ 11 else 0) +
      (if s.inResync q then 2 ^ 10 else 0) +
      (if u.stages = [] then 2 ^ 4 else 0) + u.stages.length)

end Sys2Proof.Machine
end

