-- ==== Sys2Proof/Machine/Dispatcher.lean ====
section
/-!
DEFINITION. Sys2Proof/Machine/Dispatcher.lean: tasks, items, the dispatcher cycle, its commands, and the Sillage trace
(chapter 10). Commands on the dispatcher that act alone make the part of the cycle of R281 they name, and the
readiness step; DISPATCHER_CYCLE makes a whole cycle.
-/
namespace Sys2Proof.Machine

/-! ### Sillage -/

/-- Record types (chapter 10, Table 4). -/
inductive SlgType where
  | ready | dispatch | prefetch | complete | refuse | cancel | migrate | spare
deriving DecidableEq, Repr
/-- `TYPE`. -/
def SlgType.code : SlgType → Nat
  | .ready => 0 | .dispatch => 1 | .prefetch => 2 | .complete => 3 | .refuse => 4 | .cancel => 5 | .migrate => 6
  | .spare => 7

/-- Reason bits (chapter 10, Table 5). -/
def reasonEng : Nat := 0x8000
def reasonLost : Nat := 0x4000
def reasonDrain : Nat := 0x2000
def reasonAll : Nat := 0x1000
def reasonSrcEng : Nat := 0x800
def reasonNotask : Nat := 0x400
def reasonDisabled : Nat := 0x200
def reasonFull : Nat := 0x100
def reasonDown : Nat := 0x80
def reasonPoison : Nat := 0x40
def reasonAbort : Nat := 0x20
def reasonYield : Nat := 0x10
def reasonReadySupp : Nat := 0x8
def reasonAged : Nat := 0x4

/-- ENGINE field for none. -/
def noEngine : Nat := 0x3FF

/-- The time of a record as one number, with 16 bits of crossing and 7 of slot: the current time, or that of the latest record
where the count has gone back since (R295: timestamps never decrease). -/
def State.slgNow (s : State) : Nat :=
  max s.dpt.slgTime ((s.tsb.orbit.toNat * 2 ^ 16 + s.tsb.crossing) * 2 ^ 7 + s.tsb.slot)

/-- Offer a record to Sillage (R295, R296): the words of Table 3. -/
def State.record (s : State) (ty : SlgType) (task engine flow reason : Nat) : State :=
  if !s.rbit Reg.slgCfg 31 || !s.rbit Reg.slgCfg ty.code || s.rbit Reg.slgStatus 31 then s
  else if 64 ≤ s.dpt.slg.length then
    { (s.count Reg.slgLost 31 0) with dpt := { s.dpt with slgLost := true } }
  else
    let now := s.slgNow
    let o := now / 2 ^ 23
    let rec4 : Vector W32 4 := #v[BitVec.ofNat 32 o, BitVec.ofNat 32 (o / 2 ^ 32 * 2 ^ 16 + now / 2 ^ 7 % 2 ^ 16),
      BitVec.ofNat 32 (now % 2 ^ 7 * 2 ^ 25 + ty.code * 2 ^ 22 + task * 2 ^ 10 + engine),
      BitVec.ofNat 32 (flow * 2 ^ 16 + reason)]
    { s with dpt := { s.dpt with slg := s.dpt.slg ++ [rec4], slgTime := now } }

/-- Address of Sillage record `r` (R295). -/
def slgAddr (r : Nat) : Nat := 0x2800000000 + 16 * r

/-- SILLAGE_WRITE: one buffered record goes to the ring; the ring wraps, or stops after its last record (R296, R297). -/
def execSillageWrite (s : State) : Host.Outcome State Fault Refusal :=
  match s.dpt.slg with
  | [] => s.go
  | r :: rest =>
    if s.rbit Reg.slgStatus 31 then { s with dpt := { s.dpt with slg := [] } }.go
    else
      let i := s.fld Reg.slgStatus 16 0
      let w3 := if s.dpt.slgLost then r[3] ||| BitVec.ofNat 32 reasonLost else r[3]
      let s1 := s.store (slgAddr i) ([r[0], r[1], r[2], w3].flatMap (fun w => bytesLe 4 w.toNat))
      let s2 : State := { s1 with dpt := { s1.dpt with slg := rest, slgLost := false } }
      if i = 131071 then
        (if s.rbit Reg.slgCfg 30 then (s2.setBit Reg.slgStatus 31 true).go
         else ((s2.setFld Reg.slgStatus 16 0 0).setBit Reg.slgStatus 30 true).go)
      else (s2.setFld Reg.slgStatus 16 0 (i + 1)).go

/-- SILLAGE_RESTART: write pointer 0, STOPPED and WRAPPED clear (R297). -/
def State.slgRestart (s : State) : State := s.setReg Reg.slgStatus 0

def execSillageRestart (s : State) : Host.Outcome State Fault Refusal := s.slgRestart.go

/-! ### Tasks -/

/-- `VALID` of a task. -/
def State.tValid (s : State) (t : Nat) : Bool := s.rbit (Reg.task t 0) 31
/-- `FMODE`. -/
def State.tMode (s : State) (t : Nat) : Nat := s.fld (Reg.task t 0) 30 29
/-- `QCAP`; 0 makes a flag task. -/
def State.tCap (s : State) (t : Nat) : Nat := s.fld (Reg.task t 7) 31 16
/-- `QBASE`. -/
def State.tBase (s : State) (t : Nat) : Nat := s.fld (Reg.task t 7) 15 0

/-- The dispatcher runs (`DPT_STATUS.STATE` = 0b01). -/
def State.dptRuns (s : State) : Bool := s.fld Reg.dptStatus 31 30 = 1

/-- A task whose state changed (step 5 of R281). -/
def State.touch (s : State) (t : Nat) : State :=
  if t ∈ s.dpt.dirty then s else { s with dpt := { s.dpt with dirty := s.dpt.dirty ++ [t] } }

/-- Base of an item slot in the item memory (R274). -/
def itemAddr (slot : Nat) : Nat := 0x2000400000 + 64 * slot

/-- The current crossing count modulo 2^32, the post stamp (R271). -/
def State.stamp (s : State) : W32 := BitVec.ofNat 32 s.absCrossing

/-- A flow of a task is free (R276). -/
def flowFree (ring : List RingItem) (f : W16) : Bool := !(ring.any (fun i => i.serv && i.flow == f))

/-- The candidate of a task: the oldest of its 16 oldest items that is not in service and whose flow the flow mode
lets start (R276). -/
def State.candidate (s : State) (t : Nat) : Option RingItem :=
  let k := s.task t
  (k.ring.take 16).find? (fun i => !i.serv &&
    (if s.tMode t = 1 then flowFree k.ring i.flow else if s.tMode t = 2 then decide (k.inserv = 0) else true))

/-- The flags of a task are satisfied (R277). -/
def State.flagsOk (s : State) (t : Nat) : Bool :=
  let f := (s.task t).flags
  let all := s.reg (Reg.task t 3)
  let any := s.reg (Reg.task t 4)
  decide (f &&& all = all) && (decide (any = 0) || decide (f &&& any ≠ 0))

/-- A task is dispatchable (R277). -/
def State.dispatchable (s : State) (t : Nat) : Bool :=
  let k := s.task t
  s.tValid t && !k.disabled && !k.parked && s.flagsOk t &&
    (if s.tCap t = 0 then decide (k.inserv = 0) else (s.candidate t).isSome)

/-- Readiness of one task, with its READY record on a transition (step 5 of R281). -/
def State.evalReady (s : State) (t : Nat) : State :=
  let k := s.task t
  let r := s.dispatchable t
  let s1 := s.setTask t { k with ready := r, readyStamp := if r && !k.ready then s.stamp else k.readyStamp }
  if r && !k.ready then s1.record .ready t noEngine 0 0 else s1

/-- Step 5: readiness of every task whose state changed (R281). A dispatcher in reset evaluates none (R293). -/
def State.readiness (s : State) : State :=
  if !s.dptRuns then s
  else
  let s1 := (s.dpt.dirty).foldl State.evalReady s
  { s1 with dpt := { s1.dpt with dirty := [] } }

/-! ### Flags (R279, R280) -/

/-- Flags that the present cycle sets: an auto-clear of step 6 leaves them set (R281, R282). -/
def State.fresh (s : State) (fs : List (Nat × Nat)) : State := { s with dpt := { s.dpt with fresh := s.dpt.fresh ++ fs } }

/-- A set or clear of a flag is applied; one that names an unconfigured task is discarded and counted. A set of the same
cycle beats a clear (R281, R282). -/
def State.applyFlag (s : State) (t f : Nat) (set : Bool) : State :=
  if s.tValid t then
    (let k := s.task t
     let m : W32 := BitVec.ofNat 32 (2 ^ f)
     if !set && decide ((t, f) ∈ s.dpt.fresh) then s
     else ((s.setTask t { k with flags := if set then k.flags ||| m else k.flags &&& ~~~m }).fresh (if set then [(t, f)] else [])).touch t)
  else (s.count Reg.dptEvtDisc 31 0).setBit Reg.dptStatus 0 true

/-- A flag set or clear sets out for the dispatcher. -/
def State.sendFlag (s : State) (m : FlagMsg) : State := { s with dpt := { s.dpt with msgs := s.dpt.msgs ++ [m] } }

/-- A flag message arrives; discarded while the dispatcher is in reset or waits (R293). -/
def State.flagArrives (s : State) (m : FlagMsg) : State :=
  if s.dptRuns then s.applyFlag m.task m.flag m.set else s

/-- FLAG_SET_ARRIVAL: the oldest flag set or clear on its way from a source reaches the dispatcher (R279). -/
def execFlagSetArrival (src : FlagSrc) (s : State) : Host.Outcome State Fault Refusal :=
  match s.dpt.msgs.find? (fun m => decide (m.src = src)) with
  | none => s.go
  | some m =>
    let s1 : State := { s with dpt := { s.dpt with msgs := s.dpt.msgs.erase m } }
    ((s1.flagArrives m).readiness).go

/-! ### Posts (step 3 of R281) -/

/-- The first free slot of a ring going forward from the slot after the newest item (R270). -/
def freeSlot (base cap : Nat) (ring : List RingItem) (head : Nat) : Nat :=
  match ring.getLast? with
  | none => head
  | some i =>
    let start := i.slot - base
    ((((List.range cap).map (fun j => base + (start + 1 + j) % cap))).find?
      (fun x => !(ring.any (fun r => r.slot == x)))).getD head

/-- Write an item's 32 words to its slot. -/
def State.writeItem (s : State) (slot : Nat) (words : List W16) : State :=
  s.store (itemAddr slot) (words.flatMap (fun w => [BitVec.ofNat 8 w.toNat, BitVec.ofNat 8 (w.toNat / 256)]))

/-- Reason bits of a refused post: who posted, and why. -/
def refuseRecord (s : State) (p : PostReq) (why : Nat) : State :=
  let fromEng := decide (p.src.toNat < 0x8000)
  s.record .refuse p.task (if fromEng then s.physOf p.src.toNat else noEngine) p.flow.toNat
    (why + if fromEng then reasonSrcEng else 0)

/-- A response sets out to the poster. -/
def State.respond (s : State) (p : PostReq) (code : W16) : State :=
  { s with dpt := { s.dpt with responses := s.dpt.responses ++ [(p.src, code)] } }

/-- A post is accepted or refused (step 3 of R281, R292). -/
def State.post (s : State) (p : PostReq) : State :=
  let t := p.task
  let k := s.task t
  if !s.dptRuns then s.respond p 4
  else if !s.tValid t then
    ((refuseRecord ((s.count Reg.dptRef 31 0).setBit Reg.dptStatus 1 true) p reasonNotask)).respond p 3
  else if k.disabled then
    ((refuseRecord (((s.setTask t { k with refused := satAdd 65535 k.refused 1 }).count Reg.dptRef 31 0).setBit
      Reg.dptStatus 1 true) p reasonDisabled)).respond p 2
  else if s.tCap t ≤ k.ring.length then
    ((refuseRecord (((s.setTask t { k with refused := satAdd 65535 k.refused 1 }).count Reg.dptRef 31 0).setBit
      Reg.dptStatus 1 true) p reasonFull)).respond p 1
  else
    let slot := freeSlot (s.tBase t) (s.tCap t) k.ring k.qhead
    let ring := k.ring ++ [{ slot := slot, flow := p.flow, stamp := s.stamp, src := p.src, serv := false }]
    let wm := s.fld (Reg.task t 8) 15 0
    let fl := k.flags ||| 1 ||| (if wm ≠ 0 ∧ ring.length = wm then 2 else 0)
    let k1 := { k with ring := ring, flags := fl, accepted := satAdd (2 ^ 32 - 1) k.accepted 1,
                       qhead := if k.ring = [] then slot else k.qhead }
    let set := if wm ≠ 0 ∧ ring.length = wm then [(t, 0), (t, 1)] else [(t, 0)]
    (((((s.writeItem slot p.words).setTask t k1).fresh set).count Reg.dptAcc 31 0).touch t).respond p 0

/-! ### Ending, returning, starting items -/

/-- The engine's logical number, for the fields that name it. -/
def State.logNo (s : State) (p : Nat) : Nat := (s.logOf p).getD 0

/-- An item leaves its ring: QHEAD moves when the oldest leaves (R270). -/
def TaskSt.removeSlot (k : TaskSt) (base cap slot : Nat) : TaskSt :=
  let ring := k.ring.filter (fun i => !(i.slot == slot))
  { k with ring := ring,
           qhead := match ring with
             | [] => base + (slot - base + 1) % (if cap = 0 then 1 else cap)
             | i :: _ => i.slot }

/-- A service ends: in-service entry freed, item removed from its ring (step 1 of R281). -/
def State.leaveService (s : State) (v : SvcItem) : State :=
  let k := s.task v.task
  let k1 := { k with inserv := k.inserv - 1 }
  let k2 := match v.slot with
    | none => k1
    | some sl => k1.removeSlot (s.tBase v.task) (s.tCap v.task) sl
  (s.setTask v.task k2).touch v.task

/-- The engine waits no longer for the response of a POST that it made: the POST is served all the same, and its response will
be discarded at the engine's endpoint (R510). -/
def State.dropPost (s : State) (p : Nat) : State :=
  match s.logOf p with
  | none => s
  | some e =>
    let f (r : PostReq) : PostReq := if r.src = BitVec.ofNat 16 e then { r with stale := true } else r
    let g (w : Await) : Await := if w.post = some (BitVec.ofNat 16 e) then { w with stale := true } else w
    { s with dpt := { s.dpt with posts := s.dpt.posts.map f }, net := { s.net with awaiting := s.net.awaiting.map g } }

/-- ITEM_END and ITEM_ABORT: the running item of a physical engine ends, with its COMPLETE record (R287). -/
def State.itemEnd (s : State) (p reason : Nat) : State :=
  match (s.engDpt p).running with
  | none => s
  | some v =>
    let s1 := s.setEngDpt p { s.engDpt p with running := none }
    if !s.dptRuns then s1
    else
      let s2 := s1.leaveService v
      let k := s2.task v.task
      let aborted := decide (reason / reasonAbort % 2 = 1)
      let s3 := if aborted then
          ((s2.setTask v.task { k with aborted := satAdd 65535 k.aborted 1 }).count Reg.dptAbort 31 0).setBit Reg.dptStatus 2 true
        else s2
      s3.record .complete v.task p v.flow.toNat reason

/-- A prefetched item returns to its ring with a MIGRATE record and keeps its place (R288, R291). -/
def State.returnPrefetch (s : State) (p reason : Nat) : State :=
  match (s.engDpt p).prefetch with
  | none => s
  | some v =>
    let s1 := s.setEngDpt p { s.engDpt p with prefetch := none, since := none }
    let k := s1.task v.task
    let ring := k.ring.map (fun i => if some i.slot = v.slot then { i with serv := false } else i)
    ((s1.setTask v.task { k with ring := ring, inserv := k.inserv - 1 }).touch v.task).record .migrate v.task p
      v.flow.toNat reason

/-- A prefetched item is discarded: its copy met an uncorrectable error (R285). -/
def State.discardPrefetch (s : State) (p : Nat) : State :=
  match (s.engDpt p).prefetch with
  | none => s
  | some v =>
    let s1 := s.setEngDpt p { s.engDpt p with prefetch := none, since := none }
    (((s1.leaveService v).count Reg.dptDisc 31 0)).record .complete v.task p v.flow.toNat reasonPoison

/-- An engine starts the item in its prefetch slot: LAST and the DISPATCH record (R286). -/
def State.itemStart (s : State) (p : Nat) : State :=
  match (s.engDpt p).prefetch with
  | none => s
  | some v =>
    let d := s.engDpt p
    let s1 := s.setEngDpt p { d with running := some v, prefetch := none, lastWin := some v.win, since := none }
    let k := s1.task v.task
    (((s1.setTask v.task { k with last := some (s.logNo p) }).touch v.task).count Reg.dptDisp 31 0).record
      .dispatch v.task p v.flow.toNat 0

/-! ### Assignment (R283 to R285, step 6 of R281) -/

/-- Base of the window of physical engine `p` (R199). -/
def engWin (p : Nat) : Nat := Reg.secBase (p / 34) + 0x400000 + (p % 34) * 0x8000
/-- Descriptor word of an engine (R201). -/
def State.engDesc (s : State) (p w : Nat) : BitVec 32 := BitVec.ofNat 32 (s.le (engWin p + 0x6000 + 4 * w) 4)
/-- `ROLE`: pooled. -/
def State.pooled (s : State) (p : Nat) : Bool := (s.engDesc p 0).getLsbD 0
/-- Gang size (R201). -/
def State.gangSize (s : State) (p : Nat) : Nat := 2 ^ bitsOf (s.engDesc p 0) 2 1
/-- The physical engines of the gang of `p`, leader first (R231). -/
def State.gang (s : State) (p : Nat) : List Nat :=
  match s.logOf p with
  | none => [p]
  | some e =>
    let g := s.gangSize p
    (List.range g).map (fun j => s.physOf (e / g * g + j))
/-- The engine leads its gang. -/
def State.leads (s : State) (p : Nat) : Bool := (s.gang p).head? == some p

/-- The engine is in its plane: not out, dead, loading or in reset. -/
def State.engIn (s : State) (p : Nat) : Bool := !s.engOut p && (s.logOf p).isSome

/-- An engine requests work (R283). -/
def State.requests (s : State) (p : Nat) : Bool :=
  s.pooled p && s.leads p && s.engIn p && !(s.engDpt p).parked && (s.engDpt p).prefetch.isNone

/-- Task `t` lists logical engine `e` (R284). -/
def State.lists (s : State) (t e : Nat) : Bool :=
  s.rbit (Reg.task t 1) (e / 32) && s.rbit (Reg.task t 2) (e % 32)

/-- Tier of task `t` for logical engine `e` (R284). -/
def State.tier (s : State) (t e : Nat) : Nat :=
  match (s.task t).last with
  | none => 3
  | some l => if l = e then 0 else if l / 2 = e / 2 then 1 else if l / 32 = e / 32 then 2 else 3

/-- The stamp of a task's candidate (R284). -/
def State.candStamp (s : State) (t : Nat) : W32 :=
  match s.candidate t with
  | some i => i.stamp
  | none => (s.task t).readyStamp

/-- Age of a stamp: the crossing count since, modulo 2^32. -/
def State.ageOf (s : State) (st : W32) : Nat := (s.stamp - st).toNat

/-- A candidate is aged (R284). -/
def State.aged (s : State) (t : Nat) : Bool :=
  let lim := s.fld Reg.dptCfg 31 16
  decide (lim ≠ 0) && decide (lim < s.ageOf (s.candStamp t))

/-- The better of two candidate tasks for an engine: aged before not aged; then the lower tier unless aged; then the
older stamp; then the lower task number (R284). -/
def State.better (s : State) (e : Nat) (a b : Nat) : Nat :=
  let aa := s.aged a
  let ab := s.aged b
  let ta := if aa then 0 else s.tier a e
  let tb := if ab then 0 else s.tier b e
  if aa ≠ ab then (if aa then a else b)
  else if ta ≠ tb then (if ta < tb then a else b)
  else
    let ga := s.ageOf (s.candStamp a)
    let gb := s.ageOf (s.candStamp b)
    if ga ≠ gb then (if gb < ga then a else b) else min a b

/-- The tasks the dispatcher holds as ready. -/
def State.readyTasks (s : State) : List Nat := (s.dpt.tasks.filter (fun e => e.2.ready)).map (·.1)

/-- The task chosen for an engine, if a candidate exists (R284). -/
def State.choose (s : State) (p : Nat) : Option Nat :=
  match s.logOf p with
  | none => none
  | some e =>
    match s.readyTasks.filter (fun t => s.lists t e) with
    | [] => none
    | t :: ts => some (ts.foldl (s.better e) t)

/-- The engine runs an item: one that the dispatcher knows of, or one that was running at a dispatcher reset (R293). -/
def State.engBusy (s : State) (p : Nat) : Bool :=
  (s.engDpt p).running.isSome || decide ((s.eng p).run = .running) || decide ((s.eng p).run = .handler) ||
    decide ((s.eng p).run = .holding)

/-- Order of the requesting engines: idle first, then the longest wait, then the lower number (R284). -/
def State.before (s : State) (p q : Nat) : Bool :=
  let ip := !s.engBusy p
  let iq := !s.engBusy q
  if ip ≠ iq then ip
  else
    let wp := (s.engDpt p).since.getD s.dpt.cycle
    let wq := (s.engDpt q).since.getD s.dpt.cycle
    if wp ≠ wq then decide (wp < wq) else decide (p < q)

/-- The requesting engines, in the order in which they are served. -/
def State.requesters (s : State) : List Nat :=
  ((List.range 544).filter (fun p => s.requests p)).foldr
    (fun p l => (l.takeWhile (fun q => s.before q p)) ++ [p] ++ (l.dropWhile (fun q => s.before q p))) []

/-- Assign a task's candidate to an engine's prefetch slot (R285). `keep` are the flags set in this cycle. -/
def State.assign (s : State) (p t : Nat) (keep : W32) : State :=
  let k := s.task t
  let d := s.engDpt p
  let win := match d.lastWin with | some w => !w | none => false
  let ag := s.aged t
  let reason := if ag then reasonAged else s.tier t (s.logNo p)
  let cand := s.candidate t
  let flow : W16 := match cand with | some i => i.flow | none => 0
  let slot := cand.map (·.slot)
  let ring := k.ring.map (fun i => if some i.slot = slot then { i with serv := true } else i)
  let clr := s.reg (Reg.task t 5) &&& ~~~keep
  let k1 := { k with ring := ring, inserv := k.inserv + 1, flags := k.flags &&& ~~~clr }
  let v : SvcItem := { task := t, flow := flow, slot := slot, stamp := s.candStamp t, win := win, copied := false }
  ((((s.setTask t k1).setEngDpt p { d with prefetch := some v, since := none }).touch t)).record .prefetch t p
    flow.toNat reason

/-- Engines whose wait begins in this cycle: the first in which every condition of R283 held since the prefetch slot became
empty, or since the engine rejoined or left reset. It ends at an assignment, not where a condition fails (R284). -/
def State.startWaits (s : State) : State :=
  (List.range 544).foldl (fun s p =>
    let d := s.engDpt p
    if s.requests p && d.since.isNone then s.setEngDpt p { d with since := some s.dpt.cycle } else s) s

/-- A wait ends as the engine leaves its plane or is reset; a reset also takes the next assignment back to window 0, unless the
engine goes on with its item (R284, R285, R293). -/
def EngDpt.leave (d : EngDpt) (reset : Bool) : EngDpt :=
  { d with since := none, lastWin := if reset then none else d.lastWin }

/-- Step 6: at most one assignment (R281, R284). -/
def State.assignOne (s : State) (kept : Nat → W32) : State :=
  match s.requesters.findSome? (fun p => (s.choose p).map (fun t => (p, t))) with
  | none => s
  | some (p, t) => s.assign p t (kept t)

/-! ### Commands (step 2 of R281) -/

/-- The prefetched items of a task that have not started return to its ring. -/
def State.returnTask (s : State) (t : Nat) : State :=
  (s.dpt.eng.filter (fun e => match e.2.prefetch with | some v => v.task == t | none => false)).foldl
    (fun s e => s.returnPrefetch e.1 0) s

/-- Park a task (R288), with its CANCEL record. -/
def State.parkTask (s : State) (t : Nat) (dis : Bool) (supp : Bool) : State :=
  let k := s.task t
  let s1 := (s.setTask t { k with parked := true, disabled := k.disabled || dis, ready := false }).returnTask t
  (s1.record .cancel t noEngine 0 ((if dis then reasonDisabled else 0) + if supp then reasonReadySupp else 0)).touch t

/-- A command that names an unconfigured task (R280). -/
def State.evtDiscard (s : State) : State := (s.count Reg.dptEvtDisc 31 0).setBit Reg.dptStatus 0 true

/-- CANCEL (R288). `supp`: a ready transition of this cycle is suppressed. -/
def State.cmdCancel (s : State) (t : Nat) (supp : Bool) : State :=
  if !s.tValid t then s.evtDiscard
  else if (s.task t).parked || (s.task t).disabled then s else s.parkTask t false supp
/-- RESUME (R288). -/
def State.cmdResume (s : State) (t : Nat) : State :=
  if !s.tValid t then s.evtDiscard
  else if (s.task t).disabled || !(s.task t).parked then s
  else (s.setTask t { s.task t with parked := false }).touch t
/-- DISABLE (R289). -/
def State.cmdDisable (s : State) (t : Nat) (supp : Bool) : State :=
  if !s.tValid t then s.evtDiscard
  else if (s.task t).disabled then s else s.parkTask t true supp
/-- ENABLE (R289). -/
def State.cmdEnable (s : State) (t : Nat) : State :=
  if !s.tValid t then s.evtDiscard
  else if !(s.task t).disabled then s
  else (s.setTask t { s.task t with disabled := false, parked := false }).touch t
/-- DRAIN (R289). -/
def State.cmdDrain (s : State) (t : Nat) : State :=
  if !s.tValid t then s.evtDiscard
  else if !(s.task t).disabled then s.setBit Reg.dptStatus 4 true
  else
    let k := s.task t
    let gone := k.ring.filter (fun i => !i.serv)
    let ring := k.ring.filter (fun i => i.serv)
    let qh := match ring, k.ring.getLast? with
      | i :: _, _ => i.slot
      | [], some l => s.tBase t + (l.slot - s.tBase t + 1) % (if s.tCap t = 0 then 1 else s.tCap t)
      | [], none => k.qhead
    let s1 := gone.foldl (fun s i => s.record .complete t noEngine i.flow.toNat reasonDrain) s
    (((s1.setTask t { k with ring := ring, qhead := qh }).count Reg.dptDisc 31 0 gone.length).record .cancel t noEngine 0
      reasonDrain).touch t
/-- An engine on which ENG_DISABLE and ENG_ENABLE can act (R290). -/
def State.engCmdOk (s : State) (p : Nat) : Bool := decide (p < 544) && s.pooled p && (s.logOf p).isSome
/-- ENG_DISABLE (R290). -/
def State.cmdEngDisable (s : State) (p : Nat) : State :=
  if !s.engCmdOk p then s.setBit Reg.dptStatus 4 true
  else
    let s1 := s.returnPrefetch p 0
    (s1.setEngDpt p { s1.engDpt p with parked := true }).record .cancel 0 p 0 reasonEng
/-- ENG_ENABLE (R290). -/
def State.cmdEngEnable (s : State) (p : Nat) : State :=
  if !s.engCmdOk p then s.setBit Reg.dptStatus 4 true
  else (s.setEngDpt p { s.engDpt p with parked := false }).record .cancel 0 p 0 reasonEng

/-- A `DPT_CMD` write while the dispatcher is not running is ignored and sets CMD_ERR (R293). -/
def State.dptCmd (s : State) (f : State → State) : State := if s.dptRuns then f s else s.setBit Reg.dptStatus 4 true

/-- DPT_CANCEL. -/
def execDptCancel (t : TaskNo) (s : State) : Host.Outcome State Fault Refusal :=
  ((s.dptCmd (fun s => s.cmdCancel t false)).readiness).go
/-- DPT_RESUME. -/
def execDptResume (t : TaskNo) (s : State) : Host.Outcome State Fault Refusal :=
  ((s.dptCmd (fun s => s.cmdResume t)).readiness).go
/-- DPT_DISABLE. -/
def execDptDisable (t : TaskNo) (s : State) : Host.Outcome State Fault Refusal :=
  ((s.dptCmd (fun s => s.cmdDisable t false)).readiness).go
/-- DPT_ENABLE. -/
def execDptEnable (t : TaskNo) (s : State) : Host.Outcome State Fault Refusal :=
  ((s.dptCmd (fun s => s.cmdEnable t)).readiness).go
/-- DPT_DRAIN. -/
def execDptDrain (t : TaskNo) (s : State) : Host.Outcome State Fault Refusal :=
  ((s.dptCmd (fun s => s.cmdDrain t)).readiness).go
/-- DPT_SIGNAL: applied in the cycle in which the write arrives (R279). -/
def execDptSignal (t : TaskNo) (f : Fin 32) (s : State) : Host.Outcome State Fault Refusal :=
  ((s.dptCmd (fun s => s.applyFlag t f true)).readiness).go
/-- DPT_CLRF. -/
def execDptClrf (t : TaskNo) (f : Fin 32) (s : State) : Host.Outcome State Fault Refusal :=
  ((s.dptCmd (fun s => s.applyFlag t f false)).readiness).go
/-- ENG_DISABLE: `p` is the 10-bit number of TARGET[9:0]. -/
def execEngDisable (p : BitVec 10) (s : State) : Host.Outcome State Fault Refusal :=
  ((s.dptCmd (fun s => s.cmdEngDisable p.toNat)).readiness).go
/-- ENG_ENABLE. -/
def execEngEnable (p : BitVec 10) (s : State) : Host.Outcome State Fault Refusal :=
  ((s.dptCmd (fun s => s.cmdEngEnable p.toNat)).readiness).go

/-! ### The whole cycle -/

/-- Step 2 for one `DPT_CMD` word; SIGNAL and CLRF belong to step 4, and the dispatcher reset is `reset`. `later`: tasks that
this cycle's posts and flags would make dispatchable in a state, for READY_SUPP (R282). -/
def State.cycleCmd (reset : State → State) (later : State → Nat → Bool) (s : State) (w : W32) : State :=
  let t := bitsOf w 27 16
  if bitsOf w 31 28 = 15 then reset s
  else s.dptCmd (fun s => match bitsOf w 31 28 with
    | 1 => s.cmdCancel t (later s t)
    | 2 => s.cmdResume t
    | 3 => s.cmdDisable t (later s t)
    | 4 => s.cmdEnable t
    | 5 => s.cmdDrain t
    | 8 => s.cmdEngDisable (bitsOf w 25 16)
    | 9 => s.cmdEngEnable (bitsOf w 25 16)
    | 6 | 7 => s
    | _ => s.setBit Reg.dptStatus 4 true)

/-- Step 4: the clears first, then the sets, so that a set beats a clear of the same flag (R281); nothing while the dispatcher
is in reset (R293). -/
def State.cycleFlags (s : State) (ms : List FlagMsg) (cmds : List W32) : State :=
  let cm := cmds.filterMap (fun w => if bitsOf w 31 28 = 6 ∨ bitsOf w 31 28 = 7 then
    some ({ src := .schedule, task := bitsOf w 27 16, flag := bitsOf w 4 0, set := decide (bitsOf w 31 28 = 6) } : FlagMsg)
    else none)
  let all := ms ++ cm
  let s1 := (all.filter (fun m => !m.set)).foldl State.flagArrives s
  (all.filter (fun m => m.set)).foldl State.flagArrives s1

/-- Flags of a task that steps 3 and 4 of the cycle set (step 6 of R281). -/
def Dpt.kept (d : Dpt) (t : Nat) : W32 :=
  (d.fresh.filter (fun e => e.1 == t)).foldl (fun a e => a ||| BitVec.ofNat 32 (2 ^ e.2)) 0

/-- One DCLK cycle in which the given `DPT_CMD` words, as many posts and as many flag messages arrive, oldest first (R281).
What the commands since the last such cycle did belongs to steps 1 to 4 of this one: starts and ends, `DPT_CMD` writes, posts
and flags that arrived one by one. Step 6 leaves the chosen task to step 5 of the next cycle. In reset the dispatcher answers
DOWN, refuses commands, discards flags, and assigns nothing (R293). -/
def State.dptCycle (s : State) (reset : State → State) (cmds : List W32) (posts flags : Nat) : State :=
  let ps := s.dpt.posts.take posts
  let ms := s.dpt.msgs.take flags
  let s0 : State := { s with dpt := { s.dpt with posts := s.dpt.posts.drop posts, msgs := s.dpt.msgs.drop flags, cycle := s.dpt.cycle + 1 } }
  let later (s : State) (t : Nat) : Bool :=
    !(s0.task t).ready && ((ps.foldl State.post s).cycleFlags ms cmds).dispatchable t
  let s2 := cmds.foldl (State.cycleCmd reset later) s0
  let s3 := ps.foldl State.post s2
  let s5 := (s3.cycleFlags ms cmds).readiness
  let s6 := if s5.dptRuns then (s5.startWaits).assignOne s5.dpt.kept else s5
  { s6 with dpt := { s6.dpt with fresh := [] } }

/-- ITEM_COPY_COMPLETE: the copy of the assigned item into the Y window of the engine, and of every member of its
gang, completes; an uncorrectable error in the item memory discards the item (R283, R285). -/
def State.copyItem (s : State) (p : Nat) : State :=
  match (s.engDpt p).prefetch with
  | none => s
  | some v =>
    let bytes := match v.slot with
      | some sl => s.bytes (itemAddr sl) 64
      | none => List.replicate 64 0
    let s1 := (s.gang p).foldl (fun s g =>
      let a := engWin g + 0x4000 + 2 * (if v.win then 0xFE0 else 0xFC0)
      (s.noteSecond a 64).store a bytes) s
    s1.setEngDpt p { s1.engDpt p with prefetch := some { v with copied := true } }

/-- ITEM_COPY_COMPLETE. -/
def execItemCopyComplete (p : EngineNo) (s : State) : Host.Outcome State Fault Refusal :=
  match (s.engDpt p).prefetch with
  | none => s.go
  | some v =>
    if v.copied || !s.dptRuns then s.go
    else match v.slot with
      | none => (s.copyItem p).go
      | some sl =>
        let r := s.read (itemAddr sl) 64
        if r.2 then ((r.1.discardPrefetch p).readiness).go else (r.1.copyItem p).go

/-! ### Reset and resume (R293) -/

/-- The dispatcher's own part of a descriptor load: flags and head of every task (Table 1), whose readiness, if it is valid, the
next cycle evaluates (step 5 of R281). -/
def State.dptLoad (s : State) : State :=
  (List.range 4096).foldl (fun s t =>
    let s1 := s.setTask t { flags := s.reg (Reg.task t 6), qhead := s.tBase t }
    if s.tValid t then s1.touch t else s1)
    { s with dpt := { s.dpt with tasks := [] } }

/-- What the dispatcher holds of tasks, items and messages goes; its repair copies stop (R293, R424). An engine that goes on with
its item keeps the note of its window. -/
def State.dptWipe (s : State) : State :=
  { s with
    dpt := { s.dpt with
      eng := s.dpt.eng.filterMap (fun e =>
        let d : EngDpt := { e.2 with prefetch := none, running := none, since := none,
                                     lastWin := if s.engBusy e.1 then e.2.lastWin else none }
        if d = EngDpt.dflt then none else some (e.1, d))
      tasks := [], msgs := [], dirty := [], fresh := [], reloaded := false }
    prot := { s.prot with copies := s.prot.copies.filter (fun c => c.memid / 0x1000 != 8) } }

/-- A dispatcher reset (R293): items that are not running are discarded and counted, prefetch slots become empty, the
in-service table is cleared, one CANCEL record with ALL. The reload comes from the keep store: `reload`. -/
def State.dispatcherReset (s : State) (reload : State → State) : State :=
  let queued := (s.dpt.tasks.map (fun e => (e.2.ring.filter (fun i => !i.serv)).length)).foldl (· + ·) 0
  let pre := (s.dpt.eng.filter (fun e => e.2.prefetch.isSome)).length
  let s1 := s.count Reg.dptResetDisc 31 0 (queued + pre)
  let s2 := (s1.setFld Reg.dptStatus 31 30 2).setBit Reg.dptStatus 3 true
  let s4 := (reload s2.dptWipe).dptLoad
  let s5 : State := { s4 with dpt := { s4.dpt with reloaded := true } }
  (s5.record .cancel 0 noEngine 0 reasonAll).setFld Reg.dptStatus 31 30 3

/-- DISPATCHER_RESUME: at an orbit start after the reload the dispatcher runs again (R293). -/
def execDispatcherResume (s : State) : Host.Outcome State Fault Refusal :=
  if s.fld Reg.dptStatus 31 30 = 3 ∧ s.dpt.reloaded ∧ s.tsb.crossing = 0 ∧ s.tsb.slot = 0 then
    ((s.creditsReset (fun d => decide (0x330 ≤ d ∧ d < 0x338))).setFld Reg.dptStatus 31 30 1).go
  else s.go

/-- Words 9 to 13 of a task descriptor as read (R273). -/
def State.taskRead (s : State) (t w : Nat) : W32 :=
  let k := s.task t
  if w = 9 then k.flags
  else if w = 10 then BitVec.ofNat 32 (k.qhead * 2 ^ 16 + k.ring.length)
  else if w = 11 then BitVec.ofNat 32 ((if k.disabled then 2 ^ 31 else 0) + (if k.parked then 2 ^ 30 else 0) +
    (if k.ready then 2 ^ 29 else 0) + (match k.last with | some e => e * 2 ^ 20 + 2 ^ 19 | none => 0) + k.inserv)
  else if w = 12 then BitVec.ofNat 32 k.accepted
  else BitVec.ofNat 32 (k.refused * 2 ^ 16 + k.aborted)

/-- An entry of the in-service table as read (R294). -/
def State.inServiceRead (s : State) (i : Nat) : BitVec 64 :=
  let d := s.engDpt (i / 2)
  match (if i % 2 = 0 then d.running else d.prefetch) with
  | none => 0
  | some v => BitVec.ofNat 64 (2 ^ 63 + (if v.win then 2 ^ 62 else 0) + v.task * 2 ^ 48 + v.flow.toNat * 2 ^ 32 +
      (v.slot.getD 0xFFFF) * 2 ^ 16 + v.stamp.toNat % 2 ^ 16)

end Sys2Proof.Machine
end

