-- ==== Sys2Proof/Machine/Codes.lean ====
section
/-!
DEFINITION. Sys2Proof/Machine/Codes.lean: the codes the device computes over what it receives, keeps and sends: the
CRCs (R38, R75, R326, R370), SHA-256 (FIPS 180-4), DEFLATE (RFC 1951) and the CLAUSE 49 scrambler (R73).
-/
namespace Sys2Proof.Machine

/-! ### CRCs -/

/-- One bit into a CRC register of width `w`, first bit into the top. -/
def crcStep (w poly reg : Nat) (b : Bool) : Nat :=
  let fb := decide (reg / 2 ^ (w - 1) % 2 = 1) != b
  let r := reg * 2 % 2 ^ w
  if fb then r ^^^ poly else r
/-- The register after a list of bits. -/
def crcBits (w poly init : Nat) (l : List Bool) : Nat := l.foldl (crcStep w poly) init
/-- Bits of a byte, most significant first. -/
def bitsMsb (b : Byte) : List Bool := (List.range 8).map (fun i => b.getLsbD (7 - i))
/-- Bits of a byte, least significant first. -/
def bitsLsb (b : Byte) : List Bool := (List.range 8).map (fun i => b.getLsbD i)
/-- The `n` lowest bits of a word, bit 0 first. -/
def bitsUp {w : Nat} (x : BitVec w) (n : Nat) : List Bool := (List.range n).map (fun i => x.getLsbD i)
/-- CRC-8 over bytes, most significant bit first: polynomial 0x07, initial value 0xFF (R38). -/
def crc8 (l : List Byte) : Byte := BitVec.ofNat 8 (crcBits 8 0x07 0xFF (l.flatMap bitsMsb))
/-- The packet error code of SMBus: polynomial 0x07, initial value 0 (R468). -/
def pecOf (l : List Byte) : Byte := BitVec.ofNat 8 (crcBits 8 0x07 0 (l.flatMap bitsMsb))
/-- HCRC of a header of R326: over bits [127:8] from bit 127 down, `AGE` taken as 0. -/
def nocHcrc (h : BitVec 128) : Byte :=
  let g := putBits h 87 82 0
  BitVec.ofNat 8 (crcBits 8 0x07 0xFF ((List.range 120).map (fun i => g.getLsbD (127 - i))))
/-- HCRC of a Mirpel header: bits [55:0], bit 0 first (R75). -/
def mirHcrc (h : BitVec 64) : Nat := crcBits 8 0x07 0xFF (bitsUp h 56)
/-- FCRC over descrambled payload blocks, each bit 0 first (R75). -/
def mirFcrc (l : List (BitVec 64)) : Nat := crcBits 16 0x1021 0xFFFF (l.flatMap (fun b => bitsUp b 64))
/-- RCRC of a report record: over bytes taken least significant bit first (R103). -/
def rcrc (l : List Byte) : Nat := crcBits 16 0x1021 0xFFFF (l.flatMap bitsLsb)
/-- CRC-32 of IEEE 802.3 (R370). -/
def crc32 (l : List Byte) : W32 :=
  let r := BitVec.ofNat 32 (crcBits 32 0x04C11DB7 0xFFFFFFFF (l.flatMap bitsLsb))
  ~~~ r.reverse

/-! ### SHA-256 -/

/-- The `n` low binary digits of the largest `r` with `r ^ e ≤ v`, above the digits `r` already found. -/
def rootDigits (e v : Nat) : Nat → Nat → Nat
  | 0, r => r
  | n + 1, r => rootDigits e v n (if (r + 2 ^ n) ^ e ≤ v then r + 2 ^ n else r)

/-- The first 32 bits of the fractional part of the `e`-th root of `p`. -/
def rootFraction (e p : Nat) : W32 := BitVec.ofNat 32 (rootDigits e (p * 2 ^ (32 * e)) 40 0)

/-- A number from 2 upward that no smaller one from 2 upward divides. -/
def isPrime (n : Nat) : Bool := decide (2 ≤ n) && (List.range n).all (fun d => decide (d < 2) || n % d != 0)

/-- The primes below 312: there are 64 of them. -/
def shaPrimes : List Nat := (List.range 312).filter isPrime

/-- The round constants (FIPS 180-4): from the cube roots of the first 64 primes. -/
def shaK : List W32 := shaPrimes.map (rootFraction 3)
/-- The initial hash (FIPS 180-4): from the square roots of the first 8 primes. -/
def shaH : List W32 := (shaPrimes.take 8).map (rootFraction 2)

def ror (x : W32) (n : Nat) : W32 := x.rotateRight n

/-- Message schedule: 16 words grown to 64; kept newest first. -/
def shaSchedule : Nat → List W32 → List W32
  | 0, w => w
  | n + 1, w =>
    let g (i : Nat) : W32 := w.getD (i - 1) 0
    let s0 := ror (g 15) 7 ^^^ ror (g 15) 18 ^^^ (g 15 >>> 3)
    let s1 := ror (g 2) 17 ^^^ ror (g 2) 19 ^^^ (g 2 >>> 10)
    shaSchedule n ((g 16 + s0 + g 7 + s1) :: w)

/-- One round. -/
def shaRound (h : List W32) (kw : W32 × W32) : List W32 :=
  match h with
  | [a, b, c, d, e, f, g, x] =>
    let t1 := x + (ror e 6 ^^^ ror e 11 ^^^ ror e 25) + ((e &&& f) ^^^ (~~~e &&& g)) + kw.1 + kw.2
    let t2 := (ror a 2 ^^^ ror a 13 ^^^ ror a 22) + ((a &&& b) ^^^ (a &&& c) ^^^ (b &&& c))
    [t1 + t2, a, b, c, d + t1, e, f, g]
  | _ => h

/-- Bytes taken big-endian in fours. -/
def beWords : Nat → List Byte → List W32
  | 0, _ => []
  | n + 1, l =>
    let v := (l.take 4).foldl (fun a b => a * 256 + b.toNat) 0
    BitVec.ofNat 32 v :: beWords n (l.drop 4)

/-- One block of 64 bytes. -/
def shaBlock (h : List W32) (blk : List Byte) : List W32 :=
  let w := (shaSchedule 48 (beWords 16 blk).reverse).reverse
  let r := (shaK.zip w).foldl shaRound h
  List.zipWith (· + ·) h r

/-- Blocks in turn. -/
def shaBlocks : Nat → List W32 → List Byte → List W32
  | 0, h, _ => h
  | n + 1, h, l => shaBlocks n (shaBlock h (l.take 64)) (l.drop 64)

/-- The `n` bytes of a number, big-endian. -/
def bytesBe (n v : Nat) : List Byte := (bytesLe n v).reverse

/-- SHA-256: 32 bytes. -/
def sha256 (m : List Byte) : List Byte :=
  let z := (119 - m.length % 64) % 64
  let p := m ++ [0x80] ++ List.replicate z 0 ++ bytesBe 8 (8 * m.length)
  (shaBlocks (p.length / 64) shaH p).flatMap (fun w => bytesBe 4 w.toNat)

/-! ### DEFLATE -/

/-- `n` bits, least significant first. -/
def getBits : Nat → List Bool → Option (Nat × List Bool)
  | 0, l => some (0, l)
  | _ + 1, [] => none
  | n + 1, b :: l => (getBits n l).map (fun r => ((if b then 1 else 0) + 2 * r.1, r.2))

/-- Symbols of one code length, ascending. -/
def symsOf (lens : List Nat) (k : Nat) : List Nat :=
  ((List.range lens.length).filter (fun i => lens.getD i 0 == k))

/-- A canonical code is neither over-subscribed nor incomplete; a single code of one bit may stand alone. -/
def codeOk (lens : List Nat) : Bool :=
  let used := (List.range 15).foldl (fun n k => n + (symsOf lens (k + 1)).length * 2 ^ (14 - k)) 0
  decide (used = 2 ^ 15) || (decide ((lens.filter (· ≠ 0)).length ≤ 1) && decide (used ≤ 2 ^ 14))

/-- One symbol of a canonical code: `k` the length reached, `code`, `first`. -/
def getSym (lens : List Nat) : Nat → Nat → Nat → Nat → List Bool → Option (Nat × List Bool)
  | 0, _, _, _, _ => none
  | _ + 1, _, _, _, [] => none
  | n + 1, k, code, first, b :: l =>
    let c := code * 2 + (if b then 1 else 0)
    let ss := symsOf lens k
    if c < first + ss.length then (if first ≤ c then some (ss.getD (c - first) 0, l) else none)
    else getSym lens n (k + 1) c ((first + ss.length) * 2) l

def sym (lens : List Nat) (l : List Bool) : Option (Nat × List Bool) := getSym lens 15 1 0 0 l

/-- Base and extra bits of a length symbol 257 to 285. -/
def lenBase (y : Nat) : Nat × Nat :=
  if y < 265 then (y - 254, 0)
  else if y = 285 then (258, 0)
  else let e := (y - 261) / 4; (3 + (4 + (y - 261) % 4) * 2 ^ e, e)
/-- Base and extra bits of a distance symbol 0 to 29. -/
def distBase (y : Nat) : Nat × Nat :=
  if y < 4 then (y + 1, 0) else let e := (y - 2) / 2; (1 + (2 + y % 2) * 2 ^ e, e)

/-- Copy `n` bytes from `d` back; output newest first. -/
def copyBack : Nat → Nat → List Byte → List Byte
  | 0, _, out => out
  | n + 1, d, out => copyBack n d (out.getD (d - 1) 0 :: out)

/-- The symbols of one compressed block, up to its end; an error gives the number of bytes put out before it. -/
def blockSyms (ll dl : List Nat) : Nat → List Bool → List Byte → Except Nat (List Bool × List Byte)
  | 0, _, out => .error out.length
  | n + 1, l, out =>
    match sym ll l with
    | none => .error out.length
    | some (y, l) =>
      if y < 256 then blockSyms ll dl n l (BitVec.ofNat 8 y :: out)
      else if y = 256 then .ok (l, out)
      else if 285 < y then .error out.length
      else match getBits (lenBase y).2 l with
        | none => .error out.length
        | some (x, l) => match sym dl l with
          | none => .error out.length
          | some (z, l) =>
            if 29 < z then .error out.length
            else match getBits (distBase z).2 l with
              | none => .error out.length
              | some (w, l) =>
                let d := (distBase z).1 + w
                if out.length < d then .error out.length else blockSyms ll dl n l (copyBack ((lenBase y).1 + x) d out)

def fixedLens : List Nat :=
  List.replicate 144 8 ++ List.replicate 112 9 ++ List.replicate 24 7 ++ List.replicate 8 8

/-- Code lengths of a dynamic block, newest first. -/
def codeLens (cl : List Nat) (total : Nat) : Nat → List Bool → List Nat → Option (List Nat × List Bool)
  | 0, _, _ => none
  | n + 1, l, acc =>
    if total ≤ acc.length then (if acc.length = total then some (acc.reverse, l) else none)
    else match sym cl l with
      | none => none
      | some (y, l) =>
        if y < 16 then codeLens cl total n l (y :: acc)
        else if y = 16 then
          (match acc, getBits 2 l with
           | p :: _, some (x, l) => codeLens cl total n l (List.replicate (3 + x) p ++ acc)
           | _, _ => none)
        else match getBits (if y = 17 then 3 else 7) l with
          | none => none
          | some (x, l) => codeLens cl total n l (List.replicate ((if y = 17 then 3 else 11) + x) 0 ++ acc)

def clOrder : List Nat := [16, 17, 18, 0, 8, 7, 9, 6, 10, 5, 11, 4, 12, 3, 13, 2, 14, 1, 15]

/-- The 3-bit lengths of the code-length code. -/
def get3s : Nat → List Bool → Option (List Nat × List Bool)
  | 0, l => some ([], l)
  | n + 1, l => match getBits 3 l with
    | none => none
    | some (x, l) => (get3s n l).map (fun r => (x :: r.1, r.2))

/-- The two codes of a dynamic block. -/
def dynCodes (l : List Bool) : Option (List Nat × List Nat × List Bool) :=
  match getBits 14 l with
  | none => none
  | some (h, l) =>
    let nl := h % 32 + 257
    let nd := h / 32 % 32 + 1
    let nc := h / 1024 + 4
    match get3s nc l with
    | none => none
    | some (xs, l) =>
      let cl := (List.range 19).map (fun i => ((clOrder.zip xs).lookup i).getD 0)
      if !codeOk cl || 286 < nl || 30 < nd then none
      else match codeLens cl (nl + nd) (nl + nd + 1) l [] with
        | none => none
        | some (ls, l) =>
          let ll := ls.take nl
          let dl := ls.drop nl
          if codeOk ll && codeOk dl && decide (ll.getD 256 0 ≠ 0) then some (ll, dl, l) else none

/-- Bytes of a bit list, eight at a time. -/
def takeBytes : Nat → List Bool → Option (List Byte × List Bool)
  | 0, l => some ([], l)
  | n + 1, l => match getBits 8 l with
    | none => none
    | some (x, l) => (takeBytes n l).map (fun r => (BitVec.ofNat 8 x :: r.1, r.2))

/-- Blocks up to the last; `total` is the number of bits at the start, for the byte boundary of stored blocks. An error gives the number of
bytes put out before it. -/
def inflateBits (total : Nat) : Nat → List Bool → List Byte → Except Nat (List Byte)
  | 0, _, out => .error out.length
  | n + 1, l, out =>
    match getBits 3 l with
    | none => .error out.length
    | some (h, l) =>
      let fin := decide (h % 2 = 1)
      let next (r : Except Nat (List Bool × List Byte)) : Except Nat (List Byte) := match r with
        | .error e => .error e
        | .ok (l, out) => if fin then .ok out.reverse else inflateBits total n l out
      match h / 2 with
      | 0 =>
        let l := l.drop (l.length % 8)
        (match getBits 16 l with
         | none => .error out.length
         | some (k, l) => match getBits 16 l with
           | none => .error out.length
           | some (c, l) =>
             if k + c ≠ 65535 then .error out.length
             else match takeBytes k l with
               | none => .error (out.length + l.length / 8)
               | some r => next (.ok (r.2, r.1.reverse ++ out)))
      | 1 => next (blockSyms fixedLens (List.replicate 30 5) (l.length + 1) l out)
      | 2 => (match dynCodes l with
          | none => .error out.length
          | some (ll, dl, l) => next (blockSyms ll dl (l.length + 1) l out))
      | _ => .error out.length

/-- Raw DEFLATE data decompressed (R378); where the stream is invalid, the number of bytes put out before that shows (R385). -/
def inflateTo (m : List Byte) : Except Nat (List Byte) :=
  let l := m.flatMap bitsLsb
  inflateBits l.length (l.length + 1) l []

/-- Raw DEFLATE data decompressed; none where the stream is invalid. -/
def inflate (m : List Byte) : Option (List Byte) := match inflateTo m with
  | .ok l => some l
  | .error _ => none

/-! ### The scrambler of clause 49 (R73) -/

/-- One bit into the descrambler: bit k of the state is the bit received k + 1 bits ago. -/
def descramble1 (st : BitVec 58) (b : Bool) : BitVec 58 × Bool :=
  ((st <<< 1) ||| b2w 58 b, b != (st.getLsbD 38 != st.getLsbD 57))
/-- One bit into the scrambler. -/
def scramble1 (st : BitVec 58) (b : Bool) : BitVec 58 × Bool :=
  let o := b != (st.getLsbD 38 != st.getLsbD 57)
  ((st <<< 1) ||| b2w 58 o, o)
/-- A 64-bit payload through either, bit 0 first. -/
def scr64 (f : BitVec 58 → Bool → BitVec 58 × Bool) (st : BitVec 58) (x : BitVec 64) : BitVec 58 × BitVec 64 :=
  (List.range 64).foldl (fun r i =>
    let q := f r.1 (x.getLsbD i)
    (q.1, if q.2 then r.2 ||| BitVec.ofNat 64 (2 ^ i) else r.2)) (st, 0)

end Sys2Proof.Machine
end

