-- ==== Sys2Proof/Machine/Readout.lean ====
section
/-!
DEFINITION. Sys2Proof/Machine/Readout.lean: the pipeline rings, the accept queues, the fragment builders, the
derandomizers and the throttle pins (chapter 11).
-/
namespace Sys2Proof.Machine

/-! ### Rings (R300 to R302) -/

/-- Ring depth P of a sector. -/
def State.ringP (s : State) (k : Nat) : Nat := s.fld (Reg.roCfg0 k) 31 20
/-- Words R of a ring entry. -/
def State.ringR (s : State) (k : Nat) : Nat := s.fld (Reg.roCfg0 k) 19 10
/-- Ring word of word `j` of the frame of absolute crossing `x` on channel `ch`. -/
def State.ringWord (s : State) (k ch x j : Nat) : Nat :=
  ch * s.ringP k * s.ringR k + (x % s.ringP k) * s.ringR k + j
/-- Status entry of the frame. -/
def State.ringEntry (s : State) (k ch x : Nat) : Nat := ch * s.ringP k + x % s.ringP k
def ringDataAddr (k w : Nat) : Nat := Reg.secBase k + 2 * w
def ringTagAddr (k w : Nat) : Nat := Reg.secBase k + 0x180000 + w / 4
def ringStatAddr (k e : Nat) : Nat := Reg.secBase k + 0x1C0000 + 4 * e

/-- Put a 2-bit tag at place `w` mod 4 of a byte (R126). -/
def putTag (b : Byte) (w : Nat) (t : Tag) : Byte := putBits b (2 * (w % 4) + 1) (2 * (w % 4)) t.bits.toNat
/-- The tag at place `w` mod 4 of a byte. -/
def getTag (b : Byte) (w : Nat) : Tag := Tag.ofBits (BitVec.ofNat 2 (bitsOf b (2 * (w % 4) + 1) (2 * (w % 4))))

/-- RING_WRITE: a delivered word goes into its ring, and with word 0 the status entry (R83, R301). -/
def State.ringWrite (s : State) (k ch x j : Nat) (w : FWord) (dark sreset : Bool) : State :=
  if s.ringP k = 0 ∨ s.ringR k ≤ j then s
  else
    let i := s.ringWord k ch x j
    let s1 := (s.storeHalf (ringDataAddr k i) w.d).store (ringTagAddr k i) [putTag (s.byte (ringTagAddr k i)) i w.tag]
    if j = 0 then
      s1.storeLe (ringStatAddr k (s.ringEntry k ch x)) 4
        ((if dark then 2 ^ 18 else 0) + (if sreset then 2 ^ 17 else 0) + 2 ^ 16 + x % 2 ^ 16)
    else s1

/-- The word of a ring as a reader takes it: POISON 3 where its row is uncorrectable (R302). -/
def State.ringRead (s : State) (k i : Nat) : FWord :=
  if s.ueAt (ringDataAddr k i) 2 || s.ueAt (ringTagAddr k i) 1 then FWord.poison 3
  else { tag := getTag (s.byte (ringTagAddr k i)) i, d := s.half (ringDataAddr k i) }

/-- A reset of the sector's domain clears every VALID bit and leaves data and tags (R301). -/
def State.ringsInvalid (s : State) (k : Nat) : State :=
  { s with mem := s.mem.filterMap (fun e =>
      let o := e.1 - Reg.secBase k
      if Reg.secBase k ≤ e.1 ∧ 0x1C0000 ≤ o ∧ o < 0x200000 ∧ o % 4 = 2 then
        (let b : Byte := e.2 &&& 0xFE
         if b = 0 then none else some (e.1, b))
      else some e) }

/-! ### Accepts (R303, R304) -/

/-- Target derandomizer of a sector's builder. -/
def State.target (s : State) (k : Nat) : Nat := s.fld (Reg.roCfg1 k) 5 0
/-- A derandomizer's sector is in the fixed plane. -/
def State.drzIn (s : State) (d : Nat) : Bool := s.secIn (d / 4)

/-- How much of a carry joined it in the cycle `t` (R304). -/
def Readout.joinedIn (r : Readout) (t : Nat) : Nat := if r.joined.1 = t then r.joined.2 else 0

/-- `n` events that a sector has lost join its carry in this cycle (R304, R305). -/
def State.carryOn (s : State) (k n : Nat) : State :=
  let r := s.ro k
  if n = 0 then s else s.setRo k { r with carry := r.carry + n, joined := (s.tsb.tick, r.joinedIn s.tsb.tick + n) }

/-- ACCEPT_MISS: `n` entries are missed (R304). -/
def State.missed (s : State) (k n : Nat) : State := (s.carryOn k n).count (Reg.drzAccq k) 15 0 n

/-- The entry is offered to one sector: taken or missed (R304). -/
def State.offer (e : AccEntry) (s : State) (k : Nat) : State :=
  if !s.rbit (Reg.roCfg1 k) 31 then s
  else
    let r := s.ro k
    if r.queue.length < 16 ∧ s.secIn k ∧ s.drzIn (s.target k) then
      s.setRo k { r with queue := r.queue ++ [e] }
    else s.missed k 1

/-- An ACCEPT at its effect crossing takes an event number and is offered to every sector (R303). -/
def State.acceptAt (s : State) (cls : BitVec 4) (typ : Byte) : State :=
  let n := s.fld Reg.tsbEvn 23 0
  let c := s.crossingPlus (-(s.fld Reg.tsbAcceptLat 15 0 : Int))
  let e : AccEntry := { orbit := c.1, crossing := c.2, event := BitVec.ofNat 24 n, cls := cls, typ := typ, effect := s.tsb.cx }
  let s1 := s.setFld Reg.tsbEvn 23 0 (n + 1)
  (List.range 16).foldl (State.offer e) { s1 with tsb := { s1.tsb with offered := some (s.tsb.tick, e) } }

/-- A sector rejoins in the cycle of an offer: it takes the entry that it has just missed, and so does one whose target lies in it
(R318). -/
def State.reoffer (s : State) (k : Nat) : State :=
  match s.tsb.offered with
  | some (t, e) =>
    if t ≠ s.tsb.tick then s
    else (List.range 16).foldl (fun s j =>
      let r := s.ro j
      if s.rbit (Reg.roCfg1 j) 31 ∧ s.secIn j ∧ s.drzIn (s.target j) ∧ (j = k ∨ s.target j / 4 = k) ∧ r.queue.length < 16 ∧
          r.joined.1 = t ∧ 1 ≤ r.joined.2 ∧ e ∉ r.queue ∧ !r.build.any (fun b => b.entry == e) then
        (s.setRo j { r with queue := r.queue ++ [e], carry := r.carry - 1, joined := (t, r.joined.2 - 1) }).setFld (Reg.drzAccq j) 15 0
          (if s.reg0 (Reg.drzAccq j) &&& 0xFFFF = 0xFFFF then 0xFFFF else s.fld (Reg.drzAccq j) 15 0 - 1)
      else s) s
  | none => s

/-! ### Derandomizers (R310) -/

def drzAddr (d w : Nat) : Nat := Reg.secBase (d / 4) + 0x100000 + (d % 4) * 0x10000 + 2 * (w % 32768)
/-- Occupancy. -/
def Drz.occ (z : Drz) : Nat := (z.wptr + 32768 - z.rptr) % 32768

/-- Write a word of the ring. -/
def State.drzPut (s : State) (d w : Nat) (v : W16) : State := s.storeHalf (drzAddr d w) v

/-- `PTR` as read. -/
def State.drzPtrRead (s : State) (d : Nat) : W32 :=
  let z := s.drzOf d
  BitVec.ofNat 32 (z.wptr * 2 ^ 16 + z.rptr)
/-- `STATUS` as read. -/
def State.drzStatusRead (s : State) (d : Nat) : W32 :=
  let z := s.drzOf d
  (s.reg (Reg.drzStatus d) &&& bm 28 27) ||| BitVec.ofNat 32 ((if z.throttle then 2 ^ 31 else 0) +
    (if z.full then 2 ^ 30 else 0) + (if z.openBy.isSome then 2 ^ 29 else 0) + z.occ)

/-! ### The fragment builder (R305 to R309) -/

/-- 128 × crossing count + slot. -/
def State.now (s : State) : Nat := 128 * s.tsb.cx + s.tsb.slot

/-- When the builder of a sector became ready to open its next packet, while none is open. -/
def State.roReady (s : State) (k : Nat) : Option Nat :=
  let r := s.ro k
  match r.build, r.queue with
  | none, e :: _ => some (max (128 * (e.effect + 1)) r.lastClose)
  | _, _ => none

/-- Another builder that waits for the same derandomizer goes first (R305). -/
def State.roBehind (s : State) (k d t : Nat) : Bool :=
  (List.range 16).any (fun j => j != k && s.secIn j && s.target j == d &&
    (match s.roReady j with
     | some u => decide (u ≤ s.now) && (decide (u < t) || (decide (u = t) && decide (j < k)))
     | none => false))

/-- PACKET_OPEN: the builder opens the packet of its next entry, or abandons the entry (R304, R305). -/
def execPacketOpen (k : SectorNo) (s : State) : Host.Outcome State Fault Refusal :=
  match s.roReady k, (s.ro k).queue with
  | some t, e :: rest =>
    let r := s.ro k
    let d := s.target k
    if !s.secIn k || decide (s.now < t) then s.go
    else if !s.drzIn d then
      (((s.setRo k { r with queue := rest }).carryOn k 1).count (Reg.roCnt k) 7 0).go
    else
      let z := s.drzOf d
      if z.openBy.isSome || s.roBehind k d t || decide (32765 < z.occ) then s.go
      else
        let now := r.joinedIn s.tsb.tick
        let b : Build := { entry := e, drz := d, start := z.wptr, count := 1, miss := min (r.carry - now) 15,
                           chans := (List.range 15).map (fun c => s.reg (Reg.roCh k c)), opened := s.tsb.tick, carry := r.carry - now }
        (((s.setRo k { r with queue := rest, carry := now, build := some b }).setDrz d
          { z with openBy := some (k, z.wptr), wptr := (z.wptr + 1) % 32768 }).drzPut d z.wptr 0).go
  | _, _ => s.go

/-- Word 5 of a packet (Table 2). -/
def Build.word5 (b : Build) (k : Nat) : W16 :=
  BitVec.ofNat 16 (b.entry.cls.toNat * 4096 + k * 256 + b.miss * 16 + (if b.srl then 8 else 0) + (if b.late then 4 else 0))

/-- Words 1 to 4 (Table 2). -/
def Build.word (b : Build) (i : Nat) : W16 :=
  let e := b.entry
  if i = 1 then BitVec.ofNat 16 e.event.toNat
  else if i = 2 then BitVec.ofNat 16 (e.typ.toNat * 256 + e.event.toNat / 2 ^ 16)
  else if i = 3 then BitVec.ofNat 16 e.crossing
  else BitVec.ofNat 16 e.orbit.toNat

/-- Absolute count of the crossing at offset `o` of the window. -/
def State.winX (s : State) (k : Nat) (b : Build) (o : Nat) : Nat :=
  s.absOf (s.timePlus b.entry.orbit b.entry.crossing ((o : Int) - s.fld (Reg.roCfg0 k) 7 4))
/-- Number of crossings of the window. -/
def State.winN (s : State) (k : Nat) : Nat := s.fld (Reg.roCfg0 k) 7 4 + s.fld (Reg.roCfg0 k) 3 0 + 1

/-- `RO_CH` of a channel as the packet was opened. -/
def Build.chan (b : Build) (ch : Nat) : W32 := b.chans.getD ch 0

/-- The next block at or after a place: offset and channel, channels that are OFF left out. -/
def State.nextBlock (s : State) (k : Nat) (b : Build) : Option (Nat × Nat) :=
  ((List.range (s.winN k)).flatMap (fun o => (List.range 15).map (fun c => (o, c)))).find? (fun p =>
    (decide (b.xoff < p.1) || (decide (p.1 = b.xoff) && decide (b.ch ≤ p.2))) &&
      decide (bitsOf (b.chan p.2) 17 16 ≠ 0))

/-- Words of the frames of channel `ch` of sector `k`. -/
def State.chanW (s : State) (k ch : Nat) : Nat :=
  match s.laneFeeding k ch with
  | some l => s.laneW l
  | none => 0

/-- A word is kept by zero suppression (rule 5 of R308). -/
def kept (zs : Nat) (thr d : W16) : Bool :=
  if zs = 2 then decide (thr.toNat ≤ d.toNat)
  else decide (thr.toNat ≤ d.toInt.natAbs)

/-- Mask words of a kept list, 16 at a time. -/
def maskWords : Nat → List Bool → List W16
  | 0, _ => []
  | n + 1, l =>
    if l.isEmpty then []
    else BitVec.ofNat 16 (((l.take 16).zip (List.range 16)).foldl (fun a p => if p.1 then a + 2 ^ p.2 else a) 0) ::
      maskWords n (l.drop 16)

/-- A block: what it adds to SRL, LATE, BAD and DARK, and its words, header first (R307, R308). -/
structure Block where
  srl : Bool := false
  late : Bool := false
  bad : Bool := false
  dark : Bool := false
  words : List W16
deriving DecidableEq, Repr

/-- What a read of a status entry shows: invalid, or of another crossing; an uncorrectable entry shows neither (R308). -/
def State.entryGone (s : State) (k ch x : Nat) : Bool × Bool :=
  let st := s.le (ringStatAddr k (s.ringEntry k ch x)) 4
  if s.ueAt (ringStatAddr k (s.ringEntry k ch x)) 4 then (false, false)
  else if st / 2 ^ 16 % 2 = 0 then (true, false) else (false, decide (st % 2 ^ 16 ≠ x % 2 ^ 16))

/-- The block of a frame as it stands in the ring when its words have been read; the first read of its entry is in `b.first`. -/
def State.block (s : State) (k : Nat) (b : Build) (o ch : Nat) : Block :=
  let x := s.winX k b o
  let st := s.le (ringStatAddr k (s.ringEntry k ch x)) 4
  let head (f : Nat) : W16 := BitVec.ofNat 16 (ch * 4096 + o * 256 + f)
  let ue := s.ueAt (ringStatAddr k (s.ringEntry k ch x)) 4
  let g := s.entryGone k ch x
  if b.first.1 || b.first.2 || g.1 || g.2 then { srl := b.first.1 || g.1, late := b.first.2 || g.2, words := [head 0x10] }
  else
    let sr := if st / 2 ^ 17 % 2 = 1 then 0x40 else 0
    let ws := (List.range (s.chanW k ch)).map (fun j => s.ringRead k (s.ringWord k ch x j))
    let isDark (w : FWord) : Bool := decide (w.tag = .mark) && decide (bitsOf w.d 15 12 = 1)
    if ws.any isDark then { dark := true, words := [head (0x80 + sr)] }
    else if ue || ws.any (fun w => w.bad || decide (w.tag = .poison) || decide (w.tag = .mark)) then
      { bad := true, words := [head (0x20 + sr)] }
    else
      let zs := bitsOf (b.chan ch) 17 16
      let thr : W16 := BitVec.ofNat 16 (bitsOf (b.chan ch) 15 0)
      if zs = 1 then { words := head (4 + sr) :: ws.map (·.d) }
      else
        let m := ws.map (fun w => kept zs thr w.d)
        if m.any id then
          { words := head (8 + sr) :: (maskWords ws.length m ++ (ws.filter (fun w => kept zs thr w.d)).map (·.d)) }
        else { words := [head sr] }

/-- The rows a block reads, with their corrections and errors counted; a GONE block reads no words (R308). -/
def State.blockReads (s : State) (k : Nat) (b : Build) (o ch : Nat) : State :=
  let x := s.winX k b o
  let i := s.ringWord k ch x 0
  let n := s.chanW k ch
  let s1 := (s.read (ringStatAddr k (s.ringEntry k ch x)) 4).1
  let g := s.entryGone k ch x
  if b.first.1 || b.first.2 || g.1 || g.2 then s1
  else ((s1.read (ringDataAddr k i) (2 * n)).1.read (ringTagAddr k i) ((i % 4 + n + 3) / 4)).1

/-- The builder has reached its next block: the first read of its status entry (R308). -/
def State.reachBlock (s : State) (k : Nat) (b : Build) : State :=
  if b.count < 6 ∨ b.out ≠ [] ∨ b.trunc then s
  else match s.nextBlock k b with
    | none => s
    | some (o, ch) =>
      let x := s.winX k b o
      let s1 := (s.read (ringStatAddr k (s.ringEntry k ch x)) 4).1
      s1.setRo k { s1.ro k with build := some { b with first := s.entryGone k ch x } }

/-- Write the next packet word. -/
def State.packetPut (s : State) (k : Nat) (b : Build) (v : W16) : State :=
  let z := s.drzOf b.drz
  let b1 : Build := { b with count := b.count + 1, written := b.written ++ [v] }
  (((s.setDrz b.drz { z with wptr := (z.wptr + 1) % 32768 }).drzPut b.drz z.wptr v).setRo k
    { s.ro k with build := some b1 }).reachBlock k b1

/-- BUILDER_WORD: the builder writes or reserves its next word when the derandomizer has a free one (R306 to R310). -/
def execBuilderWord (k : SectorNo) (s : State) : Host.Outcome State Fault Refusal :=
  match (s.ro k).build with
  | none => s.go
  | some b =>
    if 32765 < (s.drzOf b.drz).occ then s.go
    else if b.count < 5 then (s.packetPut k b (b.word b.count)).go
    else if b.count = 5 then (s.packetPut k b 0).go
    else match b.out with
      | w :: rest => (s.packetPut k { b with out := rest } w).go
      | [] =>
        if b.trunc then s.go
        else match s.nextBlock k b with
          | none => s.go
          | some (o, ch) =>
            let blk := s.block k b o ch
            let s1 := s.blockReads k b o ch
            let b1 : Build := { b with srl := b.srl || blk.srl, late := b.late || blk.late, poison := b.poison || blk.bad,
                                       dark := b.dark || blk.dark, xoff := o, ch := ch + 1, first := (false, false) }
            if 4095 < b.count + blk.words.length + 1 then
              (s1.setRo k { s1.ro k with build := some { b with trunc := true } }).go
            else match blk.words with
              | [] => s1.go
              | h :: t => (s1.packetPut k { b1 with out := t } h).go

/-- The trailer over words 1 on (R309). -/
def packetCrc (l : List W16) : W16 := BitVec.ofNat 16 (crcBits 16 0x1021 0xFFFF (l.flatMap (fun w => bitsUp w 16)))

/-- The words that the trailer covers: word 5, once reached, at the value written at close. -/
def Build.covered (b : Build) (k : Nat) : List W16 := if 6 ≤ b.count then b.written.set 4 (b.word5 k) else b.written

/-- The length word. -/
def Build.lengthWord (b : Build) (trunc : Bool) : W16 :=
  BitVec.ofNat 16 ((if trunc then 2 ^ 15 else 0) + (if b.poison then 2 ^ 14 else 0) + (if b.dark then 2 ^ 13 else 0) +
    (b.count + 1))

/-- Close the open packet: trailer, word 5 if reached, then the length word with its copy (R306, R309, R312). -/
def State.closePacket (s : State) (k : Nat) (b : Build) (trunc : Bool) : State :=
  let d := b.drz
  let z := s.drzOf d
  let s1 := s.drzPut d z.wptr (packetCrc (b.covered k))
  let s2 := if 6 ≤ b.count then s1.drzPut d (b.start + 5) (b.word5 k) else s1
  let lw := b.lengthWord trunc
  let s3 := s2.drzPut d b.start lw
  let s4 := s3.setDrz d { z with wptr := (z.wptr + 1) % 32768, openBy := none,
                                 closed := z.closed ++ [(b.start, b.count + 1)],
                                 lengths := Tbl.set 0 z.lengths b.start lw, closeTick := s.tsb.tick }
  (s4.count (Reg.drzCnt d) 31 16).setRo k { s4.ro k with build := none, lastClose := s.now }

/-- Nothing of a packet is left to be written but its trailer, word 5 and length word. -/
def State.closable (s : State) (k : Nat) (b : Build) : Bool :=
  decide (6 ≤ b.count) && b.out.isEmpty && (b.trunc || (s.nextBlock k b).isNone)

/-- The builder counts a packet it has closed (Table 9). -/
def State.countClose (s : State) (k : Nat) (b : Build) : State :=
  let s1 := s.count (Reg.roCnt k) 31 16
  if b.trunc then s1.count (Reg.roCnt k) 15 8 else s1

/-- PACKET_CLOSE: no further block follows, so the builder writes trailer, word 5 and length word (R309). A packet that closes in the cycle
of a RESYNC is discarded (R318). -/
def execPacketClose (k : SectorNo) (s : State) : Host.Outcome State Fault Refusal :=
  match (s.ro k).build, (s.ro k).resynced with
  | some b, _ =>
    if s.closable k b ∧ (s.drzOf b.drz).occ ≤ 32766 then ((s.closePacket k b b.trunc).countClose k b).go else s.go
  | none, some (t, q, c, some b) =>
    if t = s.tsb.tick ∧ s.closable k b then
      ((((s.setRo k { s.ro k with resynced := some (t, q, c, none) }).countClose k b).count (Reg.drzCnt b.drz) 31 16).count
        (Reg.drzCnt b.drz) 7 0).go
    else s.go
  | none, _ => s.go

/-- A builder gives up its packet: the packet is removed and WPTR returns to its length slot (R315, R316). -/
def State.dropBuild (s : State) (k : Nat) : State :=
  match (s.ro k).build with
  | none => s
  | some b =>
    let z := s.drzOf b.drz
    (s.setDrz b.drz { z with openBy := none, wptr := b.start }).setRo k { s.ro k with build := none, lastClose := s.now }

/-! ### Readers (R311, R312) -/

/-- The reader takes the oldest closed packet from the cycle after its close; a length word that
cannot be read is replaced by its copy (R311, R312). -/
def State.takePacket (s : State) (d : Nat) : State :=
  let z := s.drzOf d
  match z.sending, z.closed with
  | none, (pos, len) :: rest =>
    if z.closeTick = s.tsb.tick ∧ rest = [] then s
    else
      let r := s.read (drzAddr d pos) 2
      let s1 := if r.2 then r.1.setBit (Reg.drzStatus d) 27 true else r.1
      let w := if r.2 then Tbl.get 0 z.lengths pos else s.half (drzAddr d pos)
      let n := bitsOf w 11 0
      s1.setDrz d { z with closed := rest, sending := some (pos, if n = 0 then len else n, 0) }
  | _, _ => s

/-- READER_TAKE_PACKET. -/
def execReaderTakePacket (d : DrzNo) (s : State) : Host.Outcome State Fault Refusal :=
  if s.drzIn d then (s.takePacket d).go else s.go

/-- The furthest value RPTR may take, as a distance from RPTR: the oldest packet that is not closed, or WPTR (R311). -/
def Drz.reach (z : Drz) : Nat :=
  match z.openBy with
  | some (_, pos) => (pos + 32768 - z.rptr) % 32768
  | none => z.occ

/-- The packets once RPTR has moved on by `k` words: those it has passed are gone, one that it stands in has been begun (R311, R316). -/
def Drz.pass (z : Drz) (k : Nat) : Drz :=
  let all : List (Nat × Nat × Nat) := (match z.sending with | some p => [p] | none => []) ++ z.closed.map (fun p => (p.1, p.2, 0))
  let dist (p : Nat × Nat × Nat) : Nat := (p.1 + p.2.2 + 32768 - z.rptr) % 32768
  let left := all.filter (fun p => decide (k < dist p + (p.2.1 - p.2.2)))
  { z with
    sending := (left.find? (fun p => decide (dist p < k) || decide (0 < p.2.2) || z.sending == some p)).map
      (fun p => (p.1, p.2.1, p.2.2 + (k - dist p)))
    closed := (left.filter (fun p => !(decide (dist p < k) || decide (0 < p.2.2) || z.sending == some p))).map (fun p => (p.1, p.2.1)) }

/-- RPTR_WRITE (R311): taken within the allowed range under network drain, else ignored with RPTR_ERR; ignored in the cycle of a RESYNC
(R318). -/
def State.rptrWrite (s : State) (d v : Nat) : State :=
  let z := s.drzOf d
  let k := (v + 32768 - z.rptr) % 32768
  if z.resynced.any (fun r => r.1 == s.tsb.tick) then s
  else if s.fld (Reg.drzCtrl d) 7 0 = 0xFF ∧ k ≤ z.reach then
    s.setDrz d { z.pass k with rptr := v, undo := if z.undo.any (fun u => u.tick == s.tsb.tick) then z.undo
                                                  else some ⟨s.tsb.tick, z.rptr, z.closed, z.sending⟩ }
  else s.setBit (Reg.drzStatus d) 28 true

def execRptrWrite (d : DrzNo) (v : BitVec 15) (s : State) : Host.Outcome State Fault Refusal := (s.rptrWrite d v.toNat).go

/-- The next words of the packet in transmission, and the state after they are sent: at most `n` (R101). -/
def State.drzSend (s : State) (d : Nat) : Nat → State × List W16
  | 0 => (s, [])
  | n + 1 =>
    let z := s.drzOf d
    match z.sending with
    | none => (s, [])
    | some (pos, len, k) =>
      let r := s.read (drzAddr d (pos + k)) 2
      let v : W16 :=
        if k = 0 then (if r.2 then Tbl.get 0 z.lengths pos else s.half (drzAddr d pos))
        else if r.2 then BitVec.ofNat 16 ((s.stored (drzAddr d (pos + k))).toNat + 256 * (s.stored (drzAddr d (pos + k) + 1)).toNat)
        else s.half (drzAddr d (pos + k))
      let s1 := if r.2 then r.1.setBit (Reg.drzStatus d) 27 true else r.1
      let s2 := s1.setDrz d { z with rptr := (z.rptr + 1) % 32768,
                                     sending := if k + 1 < len then some (pos, len, k + 1) else none }
      let q := s2.drzSend d n
      (q.1, v :: q.2)

/-- The derandomizer whose reader a readout lane is (R311). -/
def State.laneDrz (s : State) (l : Nat) : Option Nat :=
  ((List.range 16).map (fun i => 16 * (l / 60) + i)).find? (fun d => s.fld (Reg.drzCtrl d) 7 0 == l)

/-- `n` payload words of a readout frame: packet words without a break, a closed packet begun where one ends, idle words
otherwise; and the index of the first length word (R101). -/
def State.readoutWords (s : State) (d : Nat) : Nat → Nat → Option Nat → State × List W16 × Option Nat
  | 0, _, first => (s, [], first)
  | n + 1, i, first =>
    let s1 := s.takePacket d
    match (s1.drzOf d).sending with
    | none => (s1, List.replicate (n + 1) 0, first)
    | some (_, _, k) =>
      let r := s1.drzSend d 1
      let f := if k = 0 then some (first.getD i) else first
      let q := r.1.readoutWords d n (i + 1) f
      (q.1, r.2 ++ q.2.1, q.2.2)

/-- The frames of readout lanes whose assembly from derandomizer `d` has begun, 6 slots or fewer before their first bit, are assembled from
what it holds (R315). -/
def State.assemble (s : State) (d : Nat) : State :=
  let l := s.fld (Reg.drzCtrl d) 7 0
  let p := s.fld (Reg.lanCtrl l) 25 16 / 8
  let now := decide (s.tsb.slot ≤ p) && (s.lane l).txAt != some s.tsb.cx
  if l < 240 ∧ s.txMode l = 3 ∧ (s.lane l).txOn ∧ s.rbit (Reg.lanCtrl l) 1 ∧
      (if now then p else p + s.M) ≤ s.tsb.slot + 6 then
    (let r := s.readoutWords d (s.laneTxW l) 0 none
     r.1.setLane l { r.1.lane l with asm := some { cx := if now then s.tsb.cx else s.tsb.cx + 1, words := r.2.1, first := r.2.2 } })
  else s

/-! ### Network readers of the ring (R311, R312) -/

/-- The derandomizer and the word of its ring at an address, where a network reader drains it. -/
def State.drained (s : State) (a : Nat) : Option (Nat × Nat) :=
  let o := a % 0x1000000
  let d := 4 * ((a - 0x1000000000) / 0x1000000) + (o - 0x100000) / 0x10000
  if 0x1000000000 ≤ a ∧ a < 0x1010000000 ∧ 0x100000 ≤ o ∧ o < 0x140000 ∧ s.fld (Reg.drzCtrl d) 7 0 = 0xFF then
    some (d, o % 0x10000 / 2) else none

/-- A byte of a length word that a network reader meets with an uncorrectable error: that of its copy. -/
def State.lengthByte (s : State) (a : Nat) : Option Byte :=
  match s.drained a with
  | none => none
  | some (d, w) =>
    let z := s.drzOf d
    if z.closed.any (fun p => p.1 == w) || (match z.sending with | some p => p.1 == w | none => false) then
      some (BitVec.ofNat 8 ((Tbl.get 0 z.lengths w).toNat / (if a % 2 = 0 then 1 else 256)))
    else none

/-- The error is noted in `UE_EVT`. -/
def State.drainError (s : State) (a : Nat) : State :=
  match s.drained a with
  | some (d, _) => s.setBit (Reg.drzStatus d) 27 true
  | none => s

/-! ### THROTTLE and BUSY (R313) -/

/-- THROTTLE_SAMPLE at the end of slot M − 1. -/
def State.throttleSample (s : State) : State :=
  let s1 := (List.range 64).foldl (fun s d =>
    let z := s.drzOf d
    let hi := s.fld (Reg.drzCfg d) 31 16
    let lo := s.fld (Reg.drzCfg d) 15 0
    s.setDrz d { z with throttle := if hi ≤ z.occ then true else if z.occ ≤ lo then false else z.throttle,
                        full := decide (28672 < z.occ) }) s
  (List.range 16).foldl (fun s k =>
    let r := s.ro k
    let f := decide (16 ≤ r.queue.length)
    if r.qfull = f then s else s.setRo k { r with qfull := f }) s1

/-- Levels of BUSY and THROTTLE[3:0] that the states call for. -/
def State.pinLevels (s : State) : Nat :=
  if !s.inRun || decide (s.tsbState = .lost) then 0x1F
  else
    let on (lo hi : W32) (f : Drz → Bool) : Bool := (List.range 64).any (fun d =>
      (if d < 32 then lo.getLsbD d else hi.getLsbD (d - 32)) && s.drzIn d && f (s.drzOf d))
    let t (n : Nat) : Nat := if on (s.reg (Reg.drzTmaskLo n)) (s.reg (Reg.drzTmaskHi n)) (·.throttle) then 2 ^ n else 0
    let busy := on (s.reg Reg.drzBmaskLo) (s.reg Reg.drzBmaskHi) (·.full) ||
      (List.range 16).any (fun k => s.rbit (Reg.roCfg1 k) 31 && (s.ro k).qfull)
    t 0 + t 1 + t 2 + t 3 + (if busy then 16 else 0)

/-- THROTTLE_PIN_EDGE: the pins change at slot 2. -/
def execThrottlePinEdge (s : State) : Host.Outcome State Fault Refusal :=
  if s.tsb.slot = 2 then (s.setFld Reg.drzPins 4 0 s.pinLevels).go else s.go

/-! ### Departures and RESYNC (R315, R316) -/

/-- Packets in a derandomizer, one among them that a RESYNC of the cycle `t` has removed. -/
def Drz.packets (z : Drz) (t : Nat) : Nat :=
  z.closed.length + (if z.sending.isSome then 1 else 0) + (if z.openBy.isSome ∨ z.resynced = some (t, true) then 1 else 0)

/-- A derandomizer empties; another sector's open packet in it is abandoned (Table 4). A packet opened in the cycle of the departure was
not opened: its event is abandoned, and the carry stands (R318). -/
def State.drzEmpty (s : State) (own d : Nat) : State :=
  let z := s.drzOf d
  let fresh := z.openBy.any (fun o => (s.ro o.1).build.any (fun b => b.opened == s.tsb.tick))
  let s1 := match z.openBy with
    | some (b, _) =>
      if b = own then s
      else
        let r := s.ro b
        let back := match r.build with | some x => if x.opened = s.tsb.tick then x.carry else 0 | none => 0
        ((s.setRo b { r with build := none, carry := r.carry + back, lastClose := s.now }).carryOn b 1).count (Reg.roCnt b) 7 0
    | none => s
  (s1.setDrz d { throttle := z.throttle, full := z.full }).count (Reg.drzCnt d) 7 0 (z.packets s.tsb.tick - if fresh then 1 else 0)

/-- The entries still queued for a sector that leaves the fixed plane are missed (R304). -/
def State.queueMissed (s : State) (k : Nat) : State :=
  let n := (s.ro k).queue.length
  (s.setRo k { s.ro k with queue := [] }).missed k n

/-- A sector leaves in the cycle of a RESYNC: the departure governs for it (R318). What the RESYNC took of its queue and carry stands
again; a build that it dropped was closed or emptied by the departure, and its packet discarded. -/
def State.unresync (s : State) (k : Nat) : State :=
  match (s.ro k).resynced with
  | some (t, q, c, b) =>
    if t ≠ s.tsb.tick then s
    else
      let s1 := s.setRo k { s.ro k with queue := q, carry := c, resynced := none }
      (match b with
       | some b => if b.drz / 4 ≠ k ∧ s.drzIn b.drz then
           (((s1.count (Reg.drzCnt b.drz) 31 16).count (Reg.drzCnt b.drz) 15 8).count (Reg.drzCnt b.drz) 7 0) else s1
       | none => s1)
  | none => s

/-- The sector left in the current slot. -/
def State.leftNow (s : State) (k : Nat) : Bool := decide ((256 + k, (s.tsb.cx, s.tsb.slot)) ∈ s.leaves) && !s.secIn k

/-- A sector leaves the fixed plane by a reset, a reload or a cold accord: frames under assembly, its builder, queue,
derandomizers and rings (Table 4). -/
def State.readoutLeave (s0 : State) (k : Nat) : State :=
  let ds := [4 * k, 4 * k + 1, 4 * k + 2, 4 * k + 3]
  let s := (if s0.leftNow k then ds.foldl State.assemble s0 else s0).unresync k
  let s1 := match (s.ro k).build with
    | none => s
    | some b =>
      if b.drz / 4 ≠ k ∧ s.drzIn b.drz then (s.closePacket k b true).count (Reg.drzCnt b.drz) 15 8
      else s.setRo k { s.ro k with build := none, lastClose := s.now }
  let s2 := s1.queueMissed k
  let s3 := ds.foldl (fun s d => s.drzEmpty k d) s2
  s3.ringsInvalid k

/-- READOUT_RESYNC (R316, R318): a sector that leaves in this slot keeps what its departure gave it. -/
def State.readoutResync (s : State) : State :=
  let s1 := (List.range 16).foldl (fun s k =>
    let r0 := s.ro k
    let t := s.dropBuild k
    let r := t.ro k
    if r0 = Readout.dflt ∨ s.leftNow k then t
    else t.setRo k { r with queue := [], carry := 0, resynced := some (s.tsb.tick, r0.queue, r0.carry, r0.build) }) s
  let s2 := (List.range 64).foldl (fun t d =>
    let z0 := t.drzOf d
    if z0 = Drz.dflt then t
    else
      let z := match z0.undo with
        | some u => if u.tick = s.tsb.tick then { z0 with rptr := u.rptr, closed := u.closed, sending := u.sending } else z0
        | none => z0
      let w := match z.sending with
        | some (pos, len, _) => (pos + len) % 32768
        | none => z.rptr
      (t.setDrz d { z with closed := [], wptr := w, undo := none,
                           resynced := some (s.tsb.tick, (s.drzOf d).openBy.isSome) }).count (Reg.drzCnt d) 7 0 z.closed.length) s1
  s2.setFld Reg.tsbEvn 23 0 0

end Sys2Proof.Machine
end

