-- ==== Sys2Proof/Machine/Image.lean ====
section
/-!
DEFINITION. Sys2Proof/Machine/Image.lean: the image's sections as the keep store holds them, their load records and
targets, and loading a region from them (R377 to R381, R385, R396 to R398, R402).
-/
namespace Sys2Proof.Machine

/-- A little-endian number at an offset of a byte list. -/
def leAt (l : List Byte) (o n : Nat) : Nat := ((l.drop o).take n).foldr (fun b a => b.toNat + 256 * a) 0

/-- A load record: address and data (R379). -/
abbrev LoadRec := Nat × List Byte

/-- Load records one after another; an error gives the offset of the record that is malformed (R379, R385). -/
def parseLoads : Nat → Nat → List Byte → Except Nat (List LoadRec)
  | 0, o, _ => .error o
  | n + 1, o, l =>
    if l.isEmpty then .ok []
    else
      let k := leAt l 6 2
      if l.length < 8 ∨ leAt l 5 1 ≠ 0 ∨ k = 0 ∨ k % 4 ≠ 0 ∨ l.length < 8 + k then .error o
      else match parseLoads n (o + 8 + k) (l.drop (8 + k)) with
        | .error e => .error e
        | .ok r => .ok ((leAt l 0 5, (l.drop 8).take k) :: r)

/-! ### Targets (R379, Table 6) -/

/-- Sector and offset of an address of the sector windows. -/
def secOff (a : Nat) : Option (Nat × Nat) :=
  if 0x1000000000 ≤ a ∧ a < 0x1010000000 then
    some ((a - 0x1000000000) / 0x1000000, (a - 0x1000000000) % 0x1000000) else none
/-- Sector of an address of the sector windows. -/
def targetSector (a : Nat) : Option Nat := (secOff a).map (·.1)
/-- Offset of an address of the global window. -/
def glbOff (a : Nat) : Option Nat := if 0xF000000000 ≤ a ∧ a < 0xF001000000 then some (a - 0xF000000000) else none

def isLane (a : Nat) : Bool := decide (0x3000000000 ≤ a ∧ a < 0x30000F2000)
def isFabric (a : Nat) : Bool := match secOff a with
  | some (_, o) => decide ((0x800000 ≤ o ∧ o < 0x840000) ∨ (0x200000 ≤ o ∧ o < 0x240000) ∨ (0x300000 ≤ o ∧ o < 0x308000))
  | none => false
def isSorter (a : Nat) : Bool := (match secOff a with
  | some (_, o) => decide (0xF00030 ≤ o ∧ o < 0xF0003C)
  | none => false) || glbOff a == some 0x8010 || glbOff a == some 0x8014
def isQueue (a : Nat) : Bool := match secOff a with
  | some (_, o) => decide (0xF80000 ≤ o ∧ o < 0xF84000)
  | none => false
def isEngine (a : Nat) : Bool := match secOff a with
  | some (_, o) => decide (0x400000 ≤ o ∧ o < 0x400000 + 34 * 0x8000)
  | none => false
def isDispatch (a : Nat) : Bool :=
  decide (0x2000000000 ≤ a ∧ a < 0x2000040000) || glbOff a == some 0x9000 || glbOff a == some 0x9080
def isTsb (a : Nat) : Bool := match glbOff a with
  | some o => decide ((0x1000 ≤ o ∧ o < 0x10C4) ∨ (0x10000 ≤ o ∧ o < 0x14000))
  | none => false
def isReadout (a : Nat) : Bool := (match secOff a with
  | some (_, o) => decide ((0xF00040 ≤ o ∧ o < 0xF000BC) ∨ (0xF00100 ≤ o ∧ o < 0xF00180))
  | none => false) || (match glbOff a with
  | some o => decide (0x8020 ≤ o ∧ o < 0x8060 ∨ o = 0x101C)
  | none => false)
def isPower (a : Nat) : Bool := match glbOff a with
  | some o => decide (0x5000 ≤ o ∧ o < 0x50C0)
  | none => false
def isNet (a : Nat) : Bool := glbOff a == some 0xA000
def isEngCfg (a : Nat) : Bool := match secOff a with
  | some (_, o) => decide (o = 0xF00020)
  | none => false
/-- Global clock registers: the crossing-clock source, geometry, frequency and phase of Touchstone. PRESUMED: the spec
names no other register of a clock. -/
def isClock (a : Nat) : Bool := match glbOff a with
  | some o => decide (o = 0x1000 ∨ o = 0x100C ∨ o = 0x1010 ∨ o = 0x1014)
  | none => false

/-- A word of a section's load records may go to this address (Table 6). -/
def sectionTarget (id a : Nat) : Bool :=
  match id with
  | 2 => isClock a || isEngCfg a
  | 3 => isLane a
  | 4 => isFabric a
  | 5 => isSorter a
  | 6 => isQueue a
  | 7 => isEngine a
  | 8 => isDispatch a
  | 9 => isTsb a
  | 10 => isReadout a
  | 11 => isNet a
  | 12 => isPower a
  | 15 => !(isLane a || isFabric a || isSorter a || isQueue a || isEngine a || isDispatch a || isTsb a || isReadout a ||
      isPower a || isNet a || isEngCfg a) &&
      (match regSpec a with | some r => decide (r.rw ||| r.rwl ≠ 0) | none => false)
  | _ => false

/-- Every word of a record lies in its section's targets. -/
def recOk (id : Nat) (r : LoadRec) : Bool :=
  (List.range (r.2.length / 4)).all (fun i => sectionTarget id (r.1 + 4 * i))

/-- The offset of the first record, of records that begin at an offset, for which `bad` holds. -/
def recordAt (bad : LoadRec → Bool) : Nat → List LoadRec → Option Nat
  | _, [] => none
  | o, r :: rs => if bad r then some o else recordAt bad (o + 8 + r.2.length) rs

/-! ### Writing targets -/

/-- The schedule entry whose word lies at an address. -/
def schedEntry (a : Nat) : Option Nat := match glbOff a with
  | some o => if 0x10000 ≤ o ∧ o < 0x14000 then some ((o - 0x10000) / 16) else none
  | none => none

/-- The 1 bits of a schedule entry, `PAR` among them and reserved bits left out, are even in number (R65). -/
def State.schedParOk (s : State) (i : Nat) : Bool :=
  (popCount (s.reg (Reg.sched i 0) &&& 0xFC7FFFFF) + popCount (s.reg (Reg.sched i 1)) + popCount (s.reg (Reg.sched i 2))) % 2 == 0

/-- `PAR` is computed whenever a word of the entry is written (R65). -/
def State.schedPar (s : State) (i : Nat) : State :=
  let s1 := s.setBit (Reg.sched i 0) 26 false
  if s1.schedParOk i then s1 else s1.setBit (Reg.sched i 0) 26 true

/-- One word written to a target: a register takes its RW and RWL fields, a memory the bytes. -/
def State.loadWord (s : State) (a : Nat) (b : List Byte) : State :=
  match regSpec a with
  | some r =>
    let m := r.rw ||| r.rwl
    let s1 := s.modReg a (fun w => (w &&& ~~~m) ||| (BitVec.ofNat 32 (leAt b 0 4) &&& m))
    (match schedEntry a with | some i => s1.schedPar i | none => s1)
  | none =>
    match rowOf a with
    | some (m, _) => if m / 0x1000 ≤ 7 then s.store a b else s
    | none => s

/-- Words of a record in turn. -/
def State.loadWords (s : State) : Nat → Nat → List Byte → State
  | 0, _, _ => s
  | n + 1, a, l => (s.loadWord a (l.take 4)).loadWords n (a + 4) (l.drop 4)

/-- The place in the address map where a record of a home engine's window goes: the window of the physical engine that
serves it (R398). -/
def State.engPlace (s : State) (a : Nat) : Nat :=
  match secOff a with
  | none => a
  | some (k, o) =>
    if 0x400000 ≤ o ∧ o < 0x400000 + 32 * 0x8000 then
      (let i := (o - 0x400000) / 0x8000
       let p := s.physOf (32 * k + i)
       a - i * 0x8000 + (p % 34) * 0x8000)
    else a

/-- Apply the part of some load records that lies at addresses for which `f` holds. -/
def State.applyLoads (s : State) (f : Nat → Bool) (l : List LoadRec) : State :=
  l.foldl (fun s r =>
    (List.range (r.2.length / 4)).foldl (fun s i =>
      let a := r.1 + 4 * i
      if f a then s.loadWord (s.engPlace a) ((r.2.drop (4 * i)).take 4) else s) s) s

/-! ### Sections in the keep store (R381) -/

/-- The stored bytes of a section in the keep store. -/
def State.sectionStored (s : State) (x : Section) : List Byte := s.bytes x.koff x.slen
/-- The uncompressed content of a section. -/
def State.sectionOf (s : State) (id : Nat) : Option (List Byte) :=
  match s.boot.sections.find? (fun x => x.id == id) with
  | none => none
  | some x => if x.deflate then inflate (s.sectionStored x) else some (s.sectionStored x)

/-- Load records of a section that was checked when it was first loaded. -/
def State.sectionLoads (s : State) (id : Nat) : List LoadRec :=
  match s.sectionOf id with
  | none => []
  | some l => match parseLoads (l.length + 1) 0 l with
    | .ok r => r
    | .error _ => []

/-- Sections whose content is load records. -/
def loadSections : List Nat := [2, 3, 4, 5, 6, 7, 8, 9, 10, 11, 12, 15]

/-! ### Accords (R396, R397) -/

/-- A region entry: region and load records, with the offsets of the entry and of its records. -/
structure AccRegion where
  region : Nat
  recs : List LoadRec
  off : Nat := 0
  orecs : Nat := 0
deriving DecidableEq, Repr

/-- An accord entry, with its offset. -/
structure AccEntry' where
  num : Nat
  regions : List AccRegion
  cert : List Byte
  off : Nat := 0
deriving DecidableEq, Repr

/-- One region entry at an offset of the ACCORDS content; an error gives an offset (Table 3). -/
def parseRegion (l : List Byte) (o : Nat) : Except Nat AccRegion :=
  let rs := leAt l (o + 4) 4
  let n := leAt l (o + 8) 4
  if l.length < o + 16 ∨ leAt l (o + 2) 2 ≠ 0 ∨ leAt l (o + 12) 4 ≠ 0 ∨ l.length < rs + n then .error o
  else match parseLoads (n + 1) rs ((l.drop rs).take n) with
    | .error e => .error e
    | .ok r => .ok { region := leAt l o 2, recs := r, off := o, orecs := rs }

/-- `n` entries in turn. -/
def parseMany {α : Type} (f : Nat → Except Nat α) (step : Nat) : Nat → Nat → Except Nat (List α)
  | 0, _ => .ok []
  | n + 1, o => match f o with
    | .error e => .error e
    | .ok x => match parseMany f step n (o + step) with
      | .error e => .error e
      | .ok r => .ok (x :: r)

/-- One accord entry (Table 2). -/
def parseAccord (l : List Byte) (o : Nat) : Except Nat AccEntry' :=
  let num := leAt l o 1
  let oc := leAt l (o + 24) 4
  let n := leAt l (o + 28) 4
  if l.length < o + 32 ∨ num = 0 ∨ leAt l (o + 1) 1 ≠ 0 ∨ 273 < leAt l (o + 2) 2 ∨ l.length < oc + n then .error o
  else match parseMany (parseRegion l) 16 (leAt l (o + 2) 2) (leAt l (o + 20) 4) with
    | .error e => .error e
    | .ok r => .ok { num := num, regions := r, cert := (l.drop oc).take n, off := o }

/-- The ACCORDS content (Table 1). -/
def parseAccords (l : List Byte) : Except Nat (List AccEntry') :=
  if l.length < 16 ∨ leAt l 0 2 ≠ 1 ∨ 255 < leAt l 2 2 ∨ leAt l 4 4 % 4 ≠ 0 ∨ leAt l 8 8 ≠ 0 then .error 0
  else parseMany (parseAccord l) 32 (leAt l 2 2) (leAt l 4 4)

/-- The declared accords. -/
def State.accords (s : State) : List AccEntry' :=
  match s.sectionOf 13 with
  | none => []
  | some l => match parseAccords l with
    | .ok r => r
    | .error _ => []

/-- The accord with a number; accord 0 is the base configuration. -/
def State.accordOf (s : State) (n : Nat) : Option AccEntry' :=
  if n = 0 then some { num := 0, regions := [], cert := (s.sectionOf 14).getD [] }
  else s.accords.find? (fun a => a.num == n)

/-- The load records of an accord, all regions together. -/
def State.accordLoads (s : State) (n : Nat) : List LoadRec :=
  match s.accordOf n with
  | none => []
  | some a => a.regions.flatMap (·.recs)

/-! ### Regions (R397, R398) -/

/-- Targets of cluster `n` (Table 4), without the engine windows of spares. -/
def clusterTarget (n a : Nat) : Bool :=
  match secOff a with
  | none => false
  | some (k, o) =>
    decide (k = n / 16) &&
      (let j := n % 16
       (decide (0x800000 ≤ o ∧ o < 0x840000) && (o - 0x800000) / 0x4000 == j) ||
       (decide (0x200000 ≤ o ∧ o < 0x240000) && (o - 0x200000) / 0x4000 == j) ||
       (decide (0x300000 ≤ o ∧ o < 0x308000) && (o - 0x300000) / 0x800 == j) ||
       (decide (0x400000 ≤ o ∧ o < 0x400000 + 32 * 0x8000) && (o - 0x400000) / 0x10000 == j) ||
       (decide (0xF80000 ≤ o ∧ o < 0xF84000) && o % 32 == 0 && (o - 0xF80000) / 0x400 == j))

/-- Register targets of sector `k` of Table 4 beside those of its clusters. -/
def sectorRegTarget (k a : Nat) : Bool :=
  match secOff a with
  | none => false
  | some (j, o) => decide (j = k) && (decide (o = 0xF00030 ∨ o = 0xF00020 ∨ (0xF00040 ≤ o ∧ o < 0xF000BC)) ||
      (decide (0xF00100 ≤ o ∧ o < 0xF00180) && decide (o % 0x20 = 0 ∨ o % 0x20 = 4)))

/-- Everything of a sector's window that a reload writes. -/
def sectorTarget (k a : Nat) : Bool :=
  match secOff a with
  | some (j, _) => j == k
  | none => false

/-- Targets of a region. -/
def regionTarget (r a : Nat) : Bool := if r < 256 then clusterTarget r a else sectorTarget (r - 256) a

/-- Registers of a region that a reload writes: they are at their reset fields before their records are applied. -/
def regionReg (r a : Nat) : Bool :=
  if r < 256 then clusterTarget r a && (regSpec a).isSome
  else sectorRegTarget (r - 256) a || (match secOff a with
    | some (k, o) => decide (k = r - 256) && (decide (0xF80000 ≤ o ∧ o < 0xF84000) && o % 32 == 0)
    | none => false)

/-- The RW and RWL fields of a register at their reset values. -/
def State.regFresh (s : State) (a : Nat) : State := match regSpec a with
  | some r => s.modReg a (fun w => (w &&& ~~~(r.rw ||| r.rwl)) ||| (r.reset &&& (r.rw ||| r.rwl)))
  | none => s

/-- The home place of an address in the window of the physical engine that serves a logical one: the inverse of `State.engPlace`; 0 in a
window that serves none. -/
def State.engHome (s : State) (a : Nat) : Nat :=
  match secOff a with
  | none => a
  | some (k, o) =>
    if 0x400000 ≤ o ∧ o < 0x400000 + 34 * 0x8000 then
      (let i := (o - 0x400000) / 0x8000
       match s.logOf (34 * k + i) with
       | some e => a - i * 0x8000 + e % 32 * 0x8000
       | none => 0)
    else a

/-- Targets of a region cleared before a reload: contexts, scratch, engine windows and registers are loaded afresh; of a cluster the
windows of the engines that serve it. -/
def State.regionClear (s0 : State) (r : Nat) : State :=
  let s := ((s0.regs.map (·.1)).filter (regionReg r)).foldl State.regFresh s0
  let mine (a : Nat) : Bool := regionTarget r (if r < 256 then s.engHome a else a)
  let f (a : Nat) : Bool := mine a && (match rowOf a with | some (m, _) => decide (m / 0x1000 ≤ 7) | none => false)
  let g (k : Nat) : Bool := decide (keyMem k / 0x1000 ≤ 7) && mine (rowAddr (keyMem k) (keyRow k))
  { s with mem := s.mem.filter (fun e => !f e.1),
           prot := { s.prot with flips := s.prot.flips.filter (fun e => !g e.1) } }

/-- A keep-store read of a reload meets an uncorrectable error (R415). -/
def State.keepUe (s : State) : Bool := s.boot.sections.any (fun x => s.ueAt x.koff x.slen)

/-- Reload a region from the base sections, then the records of an accord (R402). -/
def State.reloadRegion (s : State) (r acc : Nat) : State :=
  let base := loadSections.flatMap s.sectionLoads
  let s0 := s.regionClear r
  let s1 : State := { s0 with acc := { s0.acc with stale := s0.acc.stale.filter (fun a => !regionTarget r a) } }
  (s1.applyLoads (regionTarget r) base).applyLoads (regionTarget r) (s.accordLoads acc)

/-- Reload of the dispatcher: the DISPATCHER section (R293). -/
def State.reloadDispatcher (s : State) : State :=
  let f (a : Nat) : Bool := decide (0x2000000000 ≤ a ∧ a < 0x2000040000)
  ({ s with regs := s.regs.filter (fun e => !f e.1),
            prot := { s.prot with flips := s.prot.flips.filter (fun e => keyMem e.1 != 0x8000) } }).applyLoads f
    (s.sectionLoads 8)

/-- The accord in force. -/
def State.accordNow (s : State) : Nat := s.fld Reg.accordStatus 7 0

/-- DISPATCHER_RESET: a dispatcher reset by an uncorrectable error in its tables (R293, R414). -/
def State.dispatcherResetNow (s : State) : State := s.dispatcherReset State.reloadDispatcher

def execDispatcherReset (s : State) : Host.Outcome State Fault Refusal :=
  ({ s with prot := { s.prot with owed := s.prot.owed.filter (· != 16) } } : State).dispatcherResetNow.go

/-- DISPATCHER_CYCLE: one DCLK cycle of the dispatcher (R281). -/
def execDispatcherCycle (cmds : List W32) (posts flags : Nat) (s : State) : Host.Outcome State Fault Refusal :=
  (s.dptCycle State.dispatcherResetNow cmds posts flags).go

/-- A dispatcher reset that an uncorrectable error calls for comes at once (R414). -/
def State.payDispatcher (s : State) : State :=
  if 16 ∈ s.prot.owed then
    ({ s with prot := { s.prot with owed := s.prot.owed.filter (· != 16) } }).dispatcherResetNow
  else s

end Sys2Proof.Machine
end

