-- ==== Sys2Proof/Machine/Cells.lean ====
section
/-!
DEFINITION. Sys2Proof/Machine/Cells.lean: the cell operations: what an operation makes of its operands in the slot in
which it issues, and its stages 2 and 3 (chapter 4).
-/
namespace Sys2Proof.Machine

/-! ### Fields of a cell field (R129) -/

def cfImmb (f : BitVec 64) : W16 := BitVec.ofNat 16 (bitsOf f 63 48)
def cfOp (f : BitVec 64) : Nat := bitsOf f 47 43
def cfSrcA (f : BitVec 64) : Nat := bitsOf f 42 37
def cfSrcB (f : BitVec 64) : Nat := bitsOf f 36 31
def cfDst (f : BitVec 64) : Option Nat := if f.getLsbD 30 then some (bitsOf f 29 28) else none
def cfOuth (f : BitVec 64) : Bool := f.getLsbD 27
def cfMkz (f : BitVec 64) : Bool := f.getLsbD 26
def cfFp (f : BitVec 64) : Bool := f.getLsbD 25
def cfFm (f : BitVec 64) : BitVec 2 := BitVec.ofNat 2 (bitsOf f 24 23)
def cfMod (f : BitVec 64) : BitVec 3 := BitVec.ofNat 3 (bitsOf f 22 20)
def cfEvt (f : BitVec 64) : Bool := f.getLsbD 19
def cfImm (f : BitVec 64) : W16 := BitVec.ofNat 16 (bitsOf f 15 0)

/-- What an operation makes: its result, the flag of Table 7, the scratch access of stage 2, and the operands it
examined, whose parity is checked. -/
structure CellRes where
  res : FWord
  flag : Option Bool := none
  scr : Option Scratch := none
  seen : List FWord := []
deriving DecidableEq, Repr

/-- Operand A. -/
def State.opA (s : State) (c : Nat) (f : BitVec 64) : FWord := s.operand c f (cfSrcA f)
/-- Operand B. -/
def State.opB (s : State) (c : Nat) (f : BitVec 64) : FWord := s.operand c f (cfSrcB f)

/-- An operation on A and B under R120. -/
def cell2 (f : BitVec 64) (a b : FWord) (op : W16 → W16 → W16 × Bool) : CellRes :=
  let x := classify (cfMkz f) a
  let y := classify (cfMkz f) b
  let r := op x.d y.d
  { res := tagged (cfFp f) [x, y] r.1, flag := some r.2, seen := [a, b] }

/-- An operation on A alone under R120. -/
def cell1 (f : BitVec 64) (a : FWord) (op : W16 → W16 × Bool) : CellRes :=
  let x := classify (cfMkz f) a
  let r := op x.d
  { res := tagged (cfFp f) [x] r.1, flag := some r.2, seen := [a] }

/-- The scratch word that SRD and SWR address (R123). -/
def scratchWord (f : BitVec 64) (b : W16) : Nat := (bitsOf (cfImm f) 8 0 + bitsOf b 8 0) % 512

/-! ### Issue -/

/-- A parity failure found by a cell (R111, R140). -/
def State.perr (s : State) (c : Nat) : State :=
  let t := c / 4
  (s.count (Reg.secPerrCnt (t / 256)) 31 0).setReg (Reg.secPerrLast (t / 256))
    (BitVec.ofNat 32 ((t % 256) * 2 ^ 9 + (c % 4) * 2 ^ 7 + s.tsb.slot))

/-- The bytes of the map entry and of the context that govern tile `t` in the current slot, read with their
corrections; true where one cannot be read, so that the slot runs as a HOLD slot (R415). -/
def State.readCtx (s : State) (t : Nat) : State × Bool :=
  let m := s.fld (Reg.secMapsel (t / 256)) 0 0
  let r := s.read (tileWin t + 0x200 + 0x40 * m + s.tsb.slot / 2) 1
  let q := r.1.read (tileWin t + 64 * s.curCtx t) 64
  (q.1, r.2 || q.2)

/-- The map entry or the context of the current slot cannot be read (R415). -/
def State.ctxUe (s : State) (t : Nat) : Bool :=
  s.ueAt (tileWin t + 0x200 + 0x40 * s.fld (Reg.secMapsel (t / 256)) 0 0 + s.tsb.slot / 2) 1 ||
    s.ueAt (tileWin t + 64 * s.curCtx t) 64

/-- A cell issues its operation in the current slot: its tile is in the fixed plane, the slot is no HOLD slot, the
context in force gives the cell this operation, and it has not issued in this slot (R114, R134). -/
def State.cellDue (s : State) (c op : Nat) : Bool :=
  let t := c / 4
  s.planeRuns && s.clIn (t / 16) && !s.curHold t && !s.ctxUe t && (s.cell c).issued.isNone &&
    cfOp (s.cellField t (s.curCtx t) (c % 4)) == op

/-- Issue an operation: it samples its operands and examines their parity (R111, R115). -/
def State.issue (s : State) (c op : Nat) (g : State → BitVec 64 → CellRes) : Host.Outcome State Fault Refusal :=
  if !s.cellDue c op then s.go
  else
    let t := c / 4
    let k := s.curCtx t
    let f := s.cellField t k (c % 4)
    let r := g s f
    let s1 := (r.seen.filter (·.bad)).foldl (fun s _ => s.perr c) s
    let i : Issue := { field := f, res := r.res, flag := r.flag, scr := r.scr, evTask := s.ctxBits t k 394 12,
                       evFlag := s.ctxBits t k 406 5 }
    (s1.setCell c { s1.cell c with issued := some i }).go

/-- CELL_NOP: no operation is issued, the output register is held. -/
def execCellNop (_c : CellNo) (s : State) : Host.Outcome State Fault Refusal := s.go

/-- CELL_PASS (R121). -/
def execCellPass (c : CellNo) (s : State) : Host.Outcome State Fault Refusal :=
  s.issue c 0x01 (fun s f => let a := s.opA c f; { res := verbatim (cfMkz f) a, seen := [a] })
/-- CELL_CONST. -/
def execCellConst (c : CellNo) (s : State) : Host.Outcome State Fault Refusal :=
  s.issue c 0x02 (fun _ f => { res := FWord.data (cfImm f) })
/-- CELL_ADD. -/
def execCellAdd (c : CellNo) (s : State) : Host.Outcome State Fault Refusal :=
  s.issue c 0x03 (fun s f => cell2 f (s.opA c f) (s.opB c f) cellAdd)
/-- CELL_SUB. -/
def execCellSub (c : CellNo) (s : State) : Host.Outcome State Fault Refusal :=
  s.issue c 0x04 (fun s f => cell2 f (s.opA c f) (s.opB c f) cellSub)
/-- CELL_ADDS. -/
def execCellAdds (c : CellNo) (s : State) : Host.Outcome State Fault Refusal :=
  s.issue c 0x05 (fun s f => cell2 f (s.opA c f) (s.opB c f) (cellAdds ((cfMod f).getLsbD 0)))
/-- CELL_MIN. -/
def execCellMin (c : CellNo) (s : State) : Host.Outcome State Fault Refusal :=
  s.issue c 0x06 (fun s f => cell2 f (s.opA c f) (s.opB c f) (cellMin ((cfMod f).getLsbD 0)))
/-- CELL_MAX. -/
def execCellMax (c : CellNo) (s : State) : Host.Outcome State Fault Refusal :=
  s.issue c 0x07 (fun s f => cell2 f (s.opA c f) (s.opB c f) (cellMax ((cfMod f).getLsbD 0)))
/-- CELL_ABS. -/
def execCellAbs (c : CellNo) (s : State) : Host.Outcome State Fault Refusal :=
  s.issue c 0x08 (fun s f => cell1 f (s.opA c f) cellAbs)
/-- CELL_CMP. -/
def execCellCmp (c : CellNo) (s : State) : Host.Outcome State Fault Refusal :=
  s.issue c 0x09 (fun s f => cell2 f (s.opA c f) (s.opB c f) (cellCmp (cfMod f)))
/-- CELL_THR (R119). -/
def execCellThr (c : CellNo) (s : State) : Host.Outcome State Fault Refusal :=
  s.issue c 0x0A (fun s f => cell1 f (s.opA c f) (cellThr (cfMod f) (cfImm f) (cfImmb f)))
/-- CELL_AND. -/
def execCellAnd (c : CellNo) (s : State) : Host.Outcome State Fault Refusal :=
  s.issue c 0x0B (fun s f => cell2 f (s.opA c f) (s.opB c f) (fun a b => cellLogic (a &&& b)))
/-- CELL_OR. -/
def execCellOr (c : CellNo) (s : State) : Host.Outcome State Fault Refusal :=
  s.issue c 0x0C (fun s f => cell2 f (s.opA c f) (s.opB c f) (fun a b => cellLogic (a ||| b)))
/-- CELL_XOR. -/
def execCellXor (c : CellNo) (s : State) : Host.Outcome State Fault Refusal :=
  s.issue c 0x0D (fun s f => cell2 f (s.opA c f) (s.opB c f) (fun a b => cellLogic (a ^^^ b)))
/-- CELL_NOT. -/
def execCellNot (c : CellNo) (s : State) : Host.Outcome State Fault Refusal :=
  s.issue c 0x0E (fun s f => cell1 f (s.opA c f) (fun a => cellLogic (~~~a)))
/-- CELL_SHL. -/
def execCellShl (c : CellNo) (s : State) : Host.Outcome State Fault Refusal :=
  s.issue c 0x0F (fun s f => cell2 f (s.opA c f) (s.opB c f) cellShl)
/-- CELL_SHR. -/
def execCellShr (c : CellNo) (s : State) : Host.Outcome State Fault Refusal :=
  s.issue c 0x10 (fun s f => cell2 f (s.opA c f) (s.opB c f) cellShr)
/-- CELL_ASR. -/
def execCellAsr (c : CellNo) (s : State) : Host.Outcome State Fault Refusal :=
  s.issue c 0x11 (fun s f => cell2 f (s.opA c f) (s.opB c f) cellAsr)
/-- CELL_MUL8: the flag is unchanged. -/
def execCellMul8 (c : CellNo) (s : State) : Host.Outcome State Fault Refusal :=
  s.issue c 0x12 (fun s f =>
    { cell2 f (s.opA c f) (s.opB c f) (fun a b => (cellMul8 ((cfMod f).getLsbD 0) a b, false)) with flag := none })
/-- CELL_SEL: only the selected operand is examined (R119). -/
def execCellSel (c : CellNo) (s : State) : Host.Outcome State Fault Refusal :=
  s.issue c 0x13 (fun s f =>
    let w := if (s.flagsSeen c).getLsbD (bitsOf (cfMod f) 1 0) then s.opA c f else s.opB c f
    { res := verbatim (cfMkz f) w, seen := [w] })
/-- CELL_LUT4: the result is the looked-up bit, the flag follows FM (R119). -/
def execCellLut4 (c : CellNo) (s : State) : Host.Outcome State Fault Refusal :=
  s.issue c 0x14 (fun s f =>
    let b := cellLut4 (cfImm f) (s.flagsSeen c)
    { res := FWord.data (if b then 1 else 0), flag := some b })
/-- CELL_CNT. -/
def execCellCnt (c : CellNo) (s : State) : Host.Outcome State Fault Refusal :=
  s.issue c 0x15 (fun s f => cell1 f (s.opA c f) (cellCnt (cfImm f)))
/-- CELL_ACC: with MOD[0] = 1 the local register is not examined (R119). -/
def execCellAcc (c : CellNo) (s : State) : Host.Outcome State Fault Refusal :=
  s.issue c 0x16 (fun s f =>
    let a := s.opA c f
    let ld := (s.cell c).loc ((cfDst f).getD 0)
    let x := classify (cfMkz f) a
    let y := classify (cfMkz f) ld
    let r := cellAcc (cfMod f) y.d x.d
    if (cfMod f).getLsbD 0 then { res := tagged (cfFp f) [x] r.1, flag := some r.2, seen := [a] }
    else { res := tagged (cfFp f) [x, y] r.1, flag := some r.2, seen := [a, ld] })
/-- CELL_DELAY (R125): the result is read in stage 2. -/
def execCellDelay (c : CellNo) (s : State) : Host.Outcome State Fault Refusal :=
  s.issue c 0x17 (fun s f =>
    let a := s.opA c f
    { res := FWord.zero, seen := [a],
      scr := some (.delay (bitsOf (cfImm f) 8 0) (bitsOf (cfImm f) 15 9 + 1) (s.curCtx (c.val / 4)) (verbatim (cfMkz f) a)) })
/-- CELL_SRD: a POISON or MARK address makes no read (Table 9). -/
def execCellSrd (c : CellNo) (s : State) : Host.Outcome State Fault Refusal :=
  s.issue c 0x18 (fun s f =>
    let b := s.opB c f
    match classify (cfMkz f) b with
    | .poison d => { res := FWord.poison d, seen := [b] }
    | .mark d => { res := { tag := .mark, d := d }, seen := [b] }
    | .frame d => { res := FWord.zero, seen := [b], scr := some (.read (scratchWord f d)) }
    | .data d => { res := FWord.zero, seen := [b], scr := some (.read (scratchWord f d)) })
/-- CELL_SWR: a POISON or MARK address makes no write (Table 9). -/
def execCellSwr (c : CellNo) (s : State) : Host.Outcome State Fault Refusal :=
  s.issue c 0x19 (fun s f =>
    let a := s.opA c f
    let b := s.opB c f
    let v := verbatim (cfMkz f) a
    match classify (cfMkz f) b with
    | .poison d => { res := FWord.poison d, seen := [b, a] }
    | .mark d => { res := { tag := .mark, d := d }, seen := [b, a] }
    | .frame d => { res := v, seen := [b, a], scr := some (.write (scratchWord f d) v) }
    | .data d => { res := v, seen := [b, a], scr := some (.write (scratchWord f d) v) })

/-! ### Stages 2 and 3 (R115, R124, R138) -/

/-- A scratch word with its tag; an uncorrectable row reads as POISON 3 (R415). -/
def State.scratchRead (s : State) (t w : Nat) : State × FWord :=
  let r := s.read (scratchAddr t w) 2
  let q := r.1.read (scratchTagAddr t w) 1
  if r.2 || q.2 then (q.1, FWord.poison 3)
  else (q.1, { tag := getTag (s.byte (scratchTagAddr t w)) w, d := s.half (scratchAddr t w) })

/-- Store a scratch word with its tag, by the cell write port. -/
def State.scratchWrite (s0 : State) (t w : Nat) (v : FWord) : State :=
  let s := ((s0.noteWrite t).noteFixed (scratchAddr t w) 2).noteFixed (scratchTagAddr t w) 1
  (s.storeHalf (scratchAddr t w) v.d).store (scratchTagAddr t w) [putTag (s.byte (scratchTagAddr t w)) w v.tag]

/-- The read part of stage 2 of a cell: the result with what scratch gives. -/
def State.stage2Read (s : State) (c : Nat) : State :=
  let k := s.cell c
  match k.issued with
  | none => s
  | some i =>
    match i.scr with
    | some (.read w) =>
      let r := (s.noteRead (c / 4)).scratchRead (c / 4) w
      r.1.setCell c { r.1.cell c with issued := some { i with res := r.2, scr := none } }
    | some (.delay base _ ctx _) =>
      let r := (s.noteRead (c / 4)).scratchRead (c / 4) ((base + k.ptr.toArray.getD ctx 0) % 512)
      r.1.setCell c { r.1.cell c with issued := some { i with res := r.2 } }
    | _ => s

/-- The write part of stage 2. -/
def State.stage2Write (s : State) (c : Nat) : State :=
  let k := s.cell c
  match k.issued with
  | none => s
  | some i =>
    match i.scr with
    | some (.write w v) => s.scratchWrite (c / 4) w v
    | some (.delay base n ctx v) =>
      let p := k.ptr.toArray.getD ctx 0
      (s.scratchWrite (c / 4) ((base + p) % 512) v).setCell c
        { k with ptr := k.ptr.setIfInBounds ctx ((p + 1) % n) }
    | _ => s

/-- A cell moves one stage on: what stage 3 held is written, stage 2 goes to stage 3, and the issued operation executes,
its local register, flag and output seen by the cell itself from now on (R115, R116). -/
def CellSt.advance (k : CellSt) : CellSt :=
  let k1 := match k.stage3 with
    | none => k
    | some d => { k with out := match d.out with | some w => w | none => k.out, flagVis := d.flag }
  match k.issued with
  | none => { k1 with stage3 := k.stage2, stage2 := none }
  | some i =>
    let f := i.field
    let res := { i.res with bad := false }
    let fl := flagAfter (cfFm f) k.flag i.flag res
    let out := if cfOuth f then none else some res
    let k2 := match cfDst f with
      | some d => k1.setLoc d res
      | none => k1
    { k2 with issued := none, flag := fl, own := match out with | some w => w | none => k1.own,
              stage3 := k.stage2,
              stage2 := some { out := out, flag := fl, event := if cfEvt f && fl then some (i.evTask, i.evFlag) else none } }

/-- The tile events that cells raise in their stage 3, each tile's first cell that raises one standing for the OR of its
four: tile, task, flag (R138). -/
def State.tileEvents (s : State) : List (Nat × Nat × Nat) :=
  s.cells.foldl (fun l e =>
    match e.2.stage3 with
    | some { event := some (t, f), .. } => if l.any (fun x => x.1 == e.1 / 4) then l else l ++ [(e.1 / 4, t, f)]
    | _ => l) []

/-- The events of a slot: each counts in `SEC[s]_EVT_CNT`, and a sector sends one set for those of one task and flag
(R138, R280). -/
def State.cellEvents (s : State) : State :=
  let evs := s.tileEvents
  let s1 := evs.foldl (fun s e => s.count (Reg.secEvtCnt (e.1 / 256)) 31 0) s
  ((evs.map (fun e => (e.1 / 256, e.2))).eraseDups).foldl (fun s e =>
    s.sendFlag { src := .sector e.1, task := e.2.1, flag := e.2.2, set := true }) s1

/-- All cells move one stage on; reads of the scratch come before writes (R124). -/
def State.cellsAdvance (s : State) : State :=
  let busy := (s.cells.filter (fun e => e.2.issued.isSome || e.2.stage2.isSome || e.2.stage3.isSome)).map (·.1)
  let s1 := busy.foldl State.stage2Read s
  let s2 := busy.foldl State.stage2Write s1
  let s3 := busy.foldl (fun s c => s.setCell c (s.cell c).advance) s2
  s3.cellEvents

/-- The cells of a tile right after a reset of their domain (R139). -/
def State.tileReset (s : State) (t : Nat) : State := { s with cells := s.cells.filter (fun e => e.1 / 4 != t) }

end Sys2Proof.Machine
end

