-- ==== Sys2Proof/Machine/Routing.lean ====
section
/-!
DEFINITION. Sys2Proof/Machine/Routing.lean: what the switch sections of the tiles drive onto links, long lines and
ports in a slot, the DEC outputs, and the reads of the contexts that govern a slot (chapter 5).
-/
namespace Sys2Proof.Machine

/-- The tiles in the fixed plane, in ascending order. -/
def State.tilesIn (s : State) : List Nat :=
  ((List.range 256).filter (fun n => s.clIn n)).flatMap (fun n => (List.range 16).map (fun j => 16 * n + j))

/-- A word that a block passes on: failing parity forces the tag to POISON and still fails (R111). -/
def passOn (w : FWord) : FWord := if w.bad then { w with tag := .poison } else w

/-- The words that tile `t` drives onto its links in the current slot (R130, R142). -/
def State.linksOf (s : State) (t : Nat) : Tbl (Option FWord) :=
  let k := s.curCtx t
  (List.range 20).map (fun d => (20 * t + d, some (passOn (s.source t none (s.linkDest t k d)))))

/-- The words that tile `t` drives onto its long lines in the current slot (R146). -/
def State.linesOf (s : State) (t : Nat) : List (Nat × FWord) :=
  let k := s.curCtx t
  ([0, 1].filter (fun i => s.linkDest t k (20 + i) ≠ 0x1F)).map
    (fun i => (longLine t i, passOn (s.source t none (s.linkDest t k (20 + i)))))

/-- Channels that have a driving tile in another cluster and carry a word in this slot: the last word seen is kept for
HOLD_LAST (R149). -/
def State.heldNow (s : State) (ts : List Nat) : Tbl FWord :=
  ts.foldl (fun h t => (List.range 20).foldl (fun h i =>
    match linkDriver t i with
    | none => h
    | some (u, d) =>
      if u / 16 = t / 16 then h
      else match Tbl.get none (if u / 256 = t / 256 then s.link else s.linkB) (20 * u + d) with
        | some w => Tbl.set FWord.zero h (20 * t + i) w
        | none => h) h) s.held

/-! ### Port outputs (R152, R155) -/

/-- A word pushed for lane `l` becomes a word of each of its output frames in whose fill span the current slot lies: slot F + j carries into
the following crossings (R3, R155). An end word of a dropped path carries MARK DARK of its sector (R361). -/
def State.lanePush (s : State) (sec l w f : Nat) (v : FWord) : State :=
  let wps := s.laneWps l
  let n := (s.laneTxW l + wps - 1) / wps
  let put (s : State) (x j : Nat) : State :=
    let k := s.lane l
    if wps * j + w < s.laneTxW l then
      let v := if (l, wps * j + w) ∈ s.adm.ends then FWord.dark (0x400 + sec) else v
      s.setLane l { k with fill := (k.fill.filter (fun e => e.1 != x || e.2.1 != wps * j + w)) ++ [(x, wps * j + w, v)] }
    else s
  (List.range ((f + n) / s.M + 1)).foldl (fun s q =>
    let u := q * s.M + s.tsb.slot
    if f ≤ u ∧ u - f < n ∧ q ≤ s.tsb.cx then put s (s.tsb.cx - q) (u - f) else s) s

/-- A word pushed on an output lane port: every lane that takes its words from the channel gets it (R86, R155). -/
def State.olpPush (s : State) (sec ch w f : Nat) (v : FWord) : State :=
  (s.lanesDriven sec ch).foldl (fun s l => s.lanePush sec l w f v) s

/-- A tile presents a word on port output `k` in the current slot (R152, Table 5). -/
def State.present (s : State) (t k : Nat) (w : FWord) : State :=
  let e := s.attach t (4 + k)
  let n := t / 16
  match attKind e with
  | .qpush =>
    let q := 32 * n + bitsOf e 4 0
    s.setQueue q { s.queue q with offer := some w }
  | .engsi =>
    let p := s.physOf (2 * n + bitsOf e 0 0)
    let g := s.eng p
    if s.engOut p then s
    else s.setEng p { g with si := g.si.setIfInBounds (bitsOf e 3 2) w, fresh := g.fresh.setIfInBounds (bitsOf e 3 2) true }
  | .sortin =>
    { s with sortWrites := s.sortWrites ++ [{ sector := t / 256, reg := 64 * bitsOf e 6 6 + bitsOf e 5 0,
                                              tick := s.tsb.tick + 2, word := w }] }
  | .olp => s.olpPush (t / 256) (bitsOf e 3 0) (bitsOf e 5 4) (bitsOf e 14 8) w
  | .dec =>
    let v := if (240, bitsOf e 3 0) ∈ s.adm.ends then FWord.dark (0x400 + t / 256) else w
    { s with dec := s.dec ++ [{ bit := bitsOf e 3 0, tick := s.tsb.tick, word := some v }] }
  | _ => s

/-- What tile `t` presents on its four port outputs in the current slot (R130). -/
def State.presents (s : State) (t : Nat) : List (Nat × Nat × FWord) :=
  let c := s.curCtx t
  ((List.range 4).filter (fun k => 32 ≤ s.portField t c k)).map
    (fun k => (t, k, passOn (s.source t none (s.portField t c k % 32))))

/-- The end of a slot: every switch in the plane drives its wires and ports, all sources taken as they stand in the slot
(R142, R146, R152). -/
def State.switchRoute (s : State) : State :=
  let ts := s.tilesIn
  let lines := ts.flatMap s.linesOf
  let s1 : State := { s with
    link := ts.flatMap s.linksOf
    linkB := s.link
    line1 := lines.foldl (fun l e => Tbl.set FWord.zero l e.1 e.2) []
    line2 := s.line1
    held := s.heldNow ts }
  (ts.flatMap s.presents).foldl (fun s p => s.present p.1 p.2.1 p.2.2) s1

/-! ### Context reads (R133, R415) -/

/-- The tiles in the plane read the map entry and the context of the slot that begins: corrections are counted, and an
uncorrectable row makes the slot a HOLD slot. -/
def State.readContexts (s : State) : State :=
  if s.prot.flips.isEmpty then s else s.tilesIn.foldl (fun s t => (s.readCtx t).1) s

/-! ### DEC (R154) -/

/-- The DEC bits that the port attachments of some tiles name. -/
def State.decBits (s : State) (ts : List Nat) : List Nat :=
  (ts.flatMap (fun t => (List.range 4).map (fun p => s.attach t (4 + p)))).filterMap
    (fun e => if attKind e = .dec then some (bitsOf e 3 0) else none)

/-- The level that a word gives a DEC bit, none for its safe level. -/
def State.decLevel (s : State) (b : Nat) (w : FWord) : Option Bool :=
  match w.taken.tag with
  | .data | .frame => some (if s.rbit Reg.decCfg (16 + b) then decide (w.d ≠ 0) else w.d.getLsbD 0)
  | _ => none

/-- Drive a DEC ball and say whether it is held at its safe level by rule. -/
def State.decDrive (s : State) (b : Nat) (lvl : Option Bool) : State :=
  let v := lvl.getD (s.rbit Reg.decCfg b)
  let s1 := s.setBit Reg.decStatus b lvl.isNone
  { s1 with decPins := if v then s1.decPins ||| BitVec.ofNat 16 (2 ^ b) else s1.decPins &&& ~~~(BitVec.ofNat 16 (2 ^ b)) }

/-- DEC_EDGE: 850 ps into slot u + 4 the ball follows the word presented, or the departure, of slot u. A POISON or MARK
word counts in `DEC_BADCNT`. Before the outputs are released the ball stays as it is (R388). -/
def execDecEdge (b : Fin 16) (s : State) : Host.Outcome State Fault Refusal :=
  match s.dec.find? (fun p => p.bit == b.val && p.tick + 4 == s.tsb.tick) with
  | none => s.go
  | some p =>
    let s1 : State := { s with dec := s.dec.erase p }
    let lvl := p.word.bind (s.decLevel b)
    let s2 := if p.word.isSome && lvl.isNone then s1.count Reg.decBadcnt 31 0 else s1
    (if s2.boot.outDec then s2.decDrive b lvl else s2).go

end Sys2Proof.Machine
end

