-- ==== Sys2Proof/Machine/Sorters.lean ====
section
/-!
DEFINITION. Sys2Proof/Machine/Sorters.lean: the sector sorters and the merge unit (chapter 6).
-/
namespace Sys2Proof.Machine

/-- Class of a captured pair (R166). -/
inductive KeyClass where
  | empty | bad | good
deriving DecidableEq, Repr

/-- Class a key word; none is a key that was not written. -/
def keyClass (w : Option FWord) : KeyClass :=
  match w with
  | none => .empty
  | some w =>
    let v := w.taken
    match v.tag with
    | .poison | .mark => .bad
    | .data | .frame => if v.d = 0 then .empty else .good

/-- Put a good pair behind every pair of a greater or equal key: equal keys keep their order. -/
def rankInsert (e : Rank) : List Rank → List Rank
  | [] => [e]
  | x :: t => if x.1.d.toNat < e.1.d.toNat then e :: x :: t else x :: rankInsert e t

/-- Good pairs by descending key, ties in the order given (R167). -/
def rankGood (l : List Rank) : List Rank := l.foldl (fun r e => rankInsert e r) []

/-- The words of a captured pair as they travel: failing parity makes POISON 1, an unwritten payload is DATA 0. -/
def travel (k : Option FWord) (p : Option FWord) : Rank := ((k.getD FWord.zero).taken, (p.getD FWord.zero).taken)

/-- The outcome of one ranking. -/
structure Ranking where
  ranks : List Rank
  good : Nat
  bad : Nat
  cut : Nat
deriving DecidableEq, Repr

/-- Rank pairs given in their tie order (R167, R169): `br` is 0 BOTTOM, 1 TOP, 2 DROP. -/
def rankPairs (br : Nat) (l : List (Option FWord × Option FWord)) : Ranking :=
  let good := (l.filter (fun e => decide (keyClass e.1 = .good))).map (fun e => travel e.1 e.2)
  let bad := (l.filter (fun e => decide (keyClass e.1 = .bad))).map (fun e => travel e.1 e.2)
  let g := rankGood good
  let all := if br = 1 then bad ++ g else if br = 2 then g else g ++ bad
  { ranks := (all ++ List.replicate 16 (FWord.zero, FWord.zero)).take 16
    good := good.length, bad := bad.length, cut := all.length - 16 }

/-- The writes to sorter registers that have landed by the end of a slot (R164): at the start of the next one. -/
def State.sortLand (s : State) : State :=
  let due := s.sortWrites.filter (fun w => decide (w.tick < s.tsb.tick))
  let s1 : State := { s with sortWrites := s.sortWrites.filter (fun w => !decide (w.tick < s.tsb.tick)) }
  due.foldl (fun s w =>
    let k := s.sorter w.sector
    s.setSorter w.sector { k with inputs := Tbl.set none k.inputs w.reg (some w.word) }) s1

/-- The sorter of a sector runs: `SRT[s]_CFG.EN`. -/
def State.srtOn (s : State) (k : Nat) : Bool := s.rbit (Reg.srtCfg k) 13

/-- SORTER_CAPTURE: at the sample slot the sorter takes its registers and clears the written bits (R165 to R169). -/
def execSorterCapture (k : SectorNo) (s : State) : Host.Outcome State Fault Refusal :=
  let z := s.sorter k
  let at_ := s.tsb.tick + 24
  if !s.planeRuns || !s.secIn k || !s.srtOn k || s.fld (Reg.srtCfg k) 6 0 != s.tsb.slot ||
      z.captures.any (fun c => c.tick == at_) then s.go
  else
    let r := rankPairs (s.fld (Reg.srtCfg k) 15 14)
      ((List.range 64).map (fun i => (Tbl.get none z.inputs i, Tbl.get none z.inputs (64 + i))))
    let s1 := s.setSorter k { z with inputs := [], captures := z.captures ++ [{ tick := at_, ranks := r.ranks }] }
    let s2 := (s1.setFld (Reg.srtStatus k) 22 16 r.bad).setFld (Reg.srtStatus k) 14 8 r.good
    ((s2.count (Reg.srtCnt k) 31 16 r.cut).count (Reg.srtCnt k) 15 0 r.bad).go

/-- Take the capture due in the current slot into the emission. -/
def Sorter.emit (z : Sorter) (tick : Nat) : Sorter :=
  match z.captures.find? (fun c => c.tick == tick) with
  | none => z
  | some c => { z with captures := z.captures.filter (fun c => c.tick != tick), emitted := some c, live := true }

/-- SORTER_EMIT: 24 slots after a capture its ranks are emitted (R168). -/
def execSorterEmit (k : SectorNo) (s : State) : Host.Outcome State Fault Refusal :=
  if s.planeRuns && s.secIn k then (s.setSorter k ((s.sorter k).emit s.tsb.tick)).go else s.go

/-- Sixteen entries of one word, key and payload alike (R172). -/
def allOf (w : FWord) : List Rank := List.replicate 16 (w, w)

/-- List `k` as the merge unit takes it in the current slot (R170, R172). -/
def State.mergeList (s : State) (k : Nat) : List Rank :=
  let z := (s.sorter k).emit s.tsb.tick
  if s.secIn k then
    (if z.live then
      match z.emitted with
      | some c => if c.tick = s.tsb.tick then c.ranks else allOf FWord.zero
      | none => allOf FWord.zero
     else allOf (FWord.dark (0x400 + k)))
  else if s.fld (Reg.glbSecState k) 29 26 ≠ 0 ∧ (Tbl.get (0, 0) s.leaves (256 + k)).1 = s.tsb.cx then allOf (FWord.poison 6)
  else allOf (FWord.dark (0x400 + k))

/-- MERGE_CAPTURE: at slot Sm the merge unit ranks the lists of `MRG_CFG.LMASK` (R170). -/
def execMergeCapture (s : State) : Host.Outcome State Fault Refusal :=
  let at_ := s.tsb.tick + 12
  if !s.planeRuns || !s.rbit Reg.mrgCfg 13 || s.fld Reg.mrgCfg 6 0 != s.tsb.slot ||
      s.merge.captures.any (fun c => c.tick == at_) then s.go
  else
    let ls := (maskList (s.reg Reg.mrgCfg >>> 16) 16).flatMap s.mergeList
    let r := rankPairs (s.fld Reg.mrgCfg 15 14) (ls.map (fun e => (some e.1, some e.2)))
    let s1 : State := { s with merge := { s.merge with captures := s.merge.captures ++ [{ tick := at_, ranks := r.ranks }] } }
    ((s1.count Reg.mrgCnt 31 16 r.cut).count Reg.mrgCnt 15 0 r.bad).go

/-- MERGE_EMIT: 12 slots after its capture the device list is emitted (R170). -/
def execMergeEmit (s : State) : Host.Outcome State Fault Refusal :=
  if s.planeRuns then ({ s with merge := s.merge.emit s.tsb.tick } : State).go else s.go

/-- A reset of the sector discards every capture in flight and clears the input registers (R172). -/
def State.sorterReset (s : State) (k : Nat) : State :=
  { (s.setSorter k { live := (s.sorter k).live }).setReg (Reg.srtStatus k) 0 with sortWrites := s.sortWrites.filter (fun w => w.sector != k) }

end Sys2Proof.Machine
end

