-- ==== Sys2Proof/Machine/EngineCore.lean ====
section
/-!
DEFINITION. Sys2Proof/Machine/EngineCore.lean: the engine's instruction words, its registers and what each pipeline
stage of one engine does (chapters 8 and 9).
-/
namespace Sys2Proof.Machine

/-! ### Instruction words (R242 to R268) -/

/-- The instructions; `alu` carries `AOP`, `mac` carries `OP`. -/
inductive EngOp where
  | nop | br | call | ret | rep | loop | yield | done | evt | sync | inp | out | signal | clrf | post
  | alu (op : Nat) | ldx | ldy | stx | sty | mov | mac (op : Nat) | illegal
deriving DecidableEq, Repr

/-- Register codes that a MOV, a store (and, for D and the store path, OUT) may read (Table 2). -/
def readable (c : Nat) : Bool := decide (c ≤ 0x0A ∨ (0x0C ≤ c ∧ c ≤ 0x0E) ∨ (0x10 ≤ c ∧ c ≤ 0x2D) ∨ c = 0x30 ∨ c = 0x31)
/-- Register codes that a load may write. -/
def loadable (c : Nat) : Bool := decide (c ≤ 0x0A ∨ (0x0C ≤ c ∧ c ≤ 0x0E) ∨ (0x10 ≤ c ∧ c ≤ 0x29))
/-- Register codes that a MOV may write. -/
def movable (c : Nat) : Bool := loadable c || decide (c = 0x2A ∨ c = 0x2B)
/-- A legal `SH` for a source code (R245). -/
def shiftOk (src sh : Nat) : Bool := if src = 0x30 ∨ src = 0x31 then decide (sh ≤ 8) else decide (sh = 0)

/-- ALU operations with a register form, and with an immediate form (Table 7). -/
def aluReg (op : Nat) : Bool := decide (op ≤ 0x11)
def aluImm (op : Nat) : Bool := decide (op ≤ 0x06 ∨ (0x0A ≤ op ∧ op ≤ 0x10) ∨ op = 0x12)

/-- The instruction of a word that stands at an address; reserved encodings of the word itself are `illegal`. -/
def engOp (w : W32) (addr : BitVec 11) : EngOp :=
  let f (hi lo : Nat) : Nat := bitsOf w hi lo
  let ok (b : Bool) (o : EngOp) : EngOp := if b then o else .illegal
  match f 31 28 with
  | 0x0 => ok (w == 0) .nop
  | 0x1 =>
    let b := decide (f 25 22 < 0xE ∧ f 21 11 = 0)
    (match f 27 26 with
     | 0 => ok b .br
     | 1 => ok b .call
     | 2 => ok (b && f 10 0 == 0) .ret
     | _ => .illegal)
  | 0x2 =>
    if f 27 27 = 0 then ok (f 26 16 == 0) .rep
    else ok (f 24 14 != addr.toNat && (f 25 25 == 0 || f 13 3 == 0)) .loop
  | 0x3 =>
    (match f 27 25 with
     | 0 => ok (f 24 0 == 0) .yield
     | 1 => ok (f 24 0 == 0) .done
     | 2 => ok (f 24 0 == 0) .evt
     | 3 => ok (f 14 0 == 0) .sync
     | _ => .illegal)
  | 0x4 =>
    if f 27 27 = 0 then ok (decide (f 24 19 ≤ 7 ∧ f 18 0 = 0)) .inp
    else ok (decide ((f 24 19 ≤ 7 ∨ f 24 19 = 0x30 ∨ f 24 19 = 0x31) ∧ f 13 0 = 0) && shiftOk (f 24 19) (f 18 15)) .out
  | 0x5 =>
    let b := f 21 17 == 0 && (if f 25 25 = 1 then f 11 0 == 0 else f 24 22 == 0)
    (match f 27 26 with
     | 0 => ok b .signal
     | 1 => ok b .clrf
     | 2 => ok (f 17 12 == 0) .post
     | _ => .illegal)
  | 0x8 =>
    let op := f 27 23
    ok (aluReg op && f 3 0 == 0 && (f 13 13 == 1 || f 12 4 == 0) &&
      (!decide (op = 0x0C ∨ op = 0x0D) || f 22 20 == 0) &&
      (!decide (op = 0x07 ∨ op = 0x08 ∨ op = 0x09 ∨ op = 0x11) || f 16 14 == 0)) (.alu op)
  | 0x9 =>
    let op := f 27 23
    ok (aluImm op && f 16 16 == 0 && (!decide (op = 0x0C ∨ op = 0x0D) || f 22 20 == 0) &&
      (!decide (op = 0x12) || f 19 17 == 0)) (.alu op)
  | 0xA =>
    let m := f 27 26
    let pad := if f 25 25 = 0 then f 10 0 == 0 else f 2 0 == 0
    if m < 2 then ok (pad && loadable (f 24 19) && f 18 15 == 0) (if m = 0 then .ldx else .ldy)
    else ok (pad && readable (f 24 19) && shiftOk (f 24 19) (f 18 15)) (if m = 2 then .stx else .sty)
  | 0xB => ok (f 11 0 == 0 && movable (f 27 22) && readable (f 21 16) && shiftOk (f 21 16) (f 15 12)) .mov
  | 0xC | 0xD | 0xE | 0xF =>
    let op := f 29 28
    let xs := f 26 23
    let ys := f 22 19
    ok (f 0 0 == 0 && decide (xs ≤ 8 ∧ ys ≤ 8) && (f 18 18 == 1 || f 17 10 == 0) && (f 9 9 == 1 || f 8 1 == 0) &&
      (xs != 8 || f 18 18 == 1) && (ys != 8 || f 9 9 == 1) && (op != 3 || (xs == 0 && ys == 0)) &&
      !(f 17 17 == 1 && f 8 8 == 1 && f 16 14 == f 7 5)) (.mac op)
  | _ => .illegal

/-- Instruction of a pipeline slot. -/
def PSlot.op (k : PSlot) : EngOp := engOp k.word k.addr
/-- Field of a pipeline slot's word. -/
def PSlot.f (k : PSlot) (hi lo : Nat) : Nat := bitsOf k.word hi lo

/-- BR, CALL and RET. -/
def EngOp.transfer : EngOp → Bool
  | .br | .call | .ret => true
  | _ => false

/-! ### Registers (R203, R204, R244, R245) -/

def EngSt.bank (g : EngSt) (sh : Bool) : Bank := if sh then g.sh else g.fg
def EngSt.setBank (g : EngSt) (sh : Bool) (b : Bank) : EngSt := if sh then { g with sh := b } else { g with fg := b }

def Bank.D (b : Bank) (i : Nat) : W16 := b.d.toArray.getD i 0
def Bank.setD (b : Bank) (i : Nat) (v : W16) : Bank := { b with d := b.d.setIfInBounds i v }
def Bank.ac (b : Bank) (i : Nat) : W40 := if i = 0 then b.ac0 else b.ac1
def Bank.cf (b : Bank) (i : Nat) : Bool := if i = 0 then b.cf0 else b.cf1
def Bank.setAc (b : Bank) (i : Nat) (v : W40) (cf : Bool) : Bank :=
  if i = 0 then { b with ac0 := v, cf0 := cf } else { b with ac1 := v, cf1 := cf }
def Bank.lc (b : Bank) (i : Nat) : W16 := if i = 0 then b.lc0 else b.lc1
def Bank.setLc (b : Bank) (i : Nat) (v : W16) : Bank := if i = 0 then { b with lc0 := v } else { b with lc1 := v }
def Bank.cond (b : Bank) : Cond := { z := b.z, n := b.n, v := b.v }
def Bank.setCond (b : Bank) (c : Cond) : Bank := { b with z := c.z, n := c.n, v := c.v }

/-- `ST` of the engine with the condition bits of a bank (Table 4). -/
def EngSt.stWord (g : EngSt) (sh : Bool) : W16 :=
  let b := g.bank sh
  let k (x : Bool) (i : Nat) : Nat := if x then 2 ^ i else 0
  BitVec.ofNat 16 (g.itag.toNat * 256 + k g.govp 7 + k g.poi 6 + k g.und 5 + k g.sat 4 + k g.gov 3 + k b.v 2 + k b.n 1 +
    k b.z 0)

/-- A register as a 16-bit word (R245); the store path is read apart. -/
def EngSt.readReg (g : EngSt) (sh : Bool) (c : Nat) : W16 :=
  let b := g.bank sh
  let part (a : W40) (i : Nat) : W16 :=
    if i = 0 then a.setWidth 16 else if i = 1 then (a >>> 16).setWidth 16 else (BitVec.ofNat 8 (bitsOf a 39 32)).signExtend 16
  if c < 8 then b.D c
  else if c < 0x0C then part b.ac0 (c - 8)
  else if c < 0x10 then part b.ac1 (c - 0x0C)
  else if c < 0x14 then (b.ax.toArray.getD (c - 0x10) 0).setWidth 16
  else if c < 0x18 then (b.ay.toArray.getD (c - 0x14) 0).setWidth 16
  else if c < 0x1C then b.mx.toArray.getD (c - 0x18) 0
  else if c < 0x20 then b.my.toArray.getD (c - 0x1C) 0
  else if c < 0x24 then (b.base.toArray.getD (c - 0x20) 0).setWidth 16
  else if c < 0x28 then (b.len.toArray.getD (c - 0x24) 0).setWidth 16
  else if c < 0x2A then b.lc (c - 0x28)
  else if c = 0x2A then g.stWord sh
  else if c = 0x2B then g.ev
  else if c = 0x2C then g.tk.setWidth 16
  else (g.tk >>> 16).setWidth 16

/-- Write a register from a 16-bit word (R245). A write to a part of an accumulator clears its `CF`; a write to `ST`
leaves `ITAG`. `EV` keeps its reserved bits 0. -/
def EngSt.writeReg (g : EngSt) (sh : Bool) (c : Nat) (v : W16) : EngSt :=
  let b := g.bank sh
  let part (i k : Nat) : EngSt :=
    let a := b.ac i
    let a' := if k = 0 then putBits a 15 0 v.toNat else if k = 1 then putBits a 31 16 v.toNat else putBits a 39 32 v.toNat
    g.setBank sh (b.setAc i a' false)
  if c < 8 then g.setBank sh (b.setD c v)
  else if c < 0x0B then part 0 (c - 8)
  else if 0x0C ≤ c ∧ c < 0x0F then part 1 (c - 0x0C)
  else if c < 0x10 then g
  else if c < 0x14 then g.setBank sh { b with ax := b.ax.setIfInBounds (c - 0x10) (v.setWidth 12) }
  else if c < 0x18 then g.setBank sh { b with ay := b.ay.setIfInBounds (c - 0x14) (v.setWidth 12) }
  else if c < 0x1C then g.setBank sh { b with mx := b.mx.setIfInBounds (c - 0x18) v }
  else if c < 0x20 then g.setBank sh { b with my := b.my.setIfInBounds (c - 0x1C) v }
  else if c < 0x24 then g.setBank sh { b with base := b.base.setIfInBounds (c - 0x20) (v.setWidth 12) }
  else if c < 0x28 then g.setBank sh { b with len := b.len.setIfInBounds (c - 0x24) (v.setWidth 12) }
  else if c < 0x2A then g.setBank sh (b.setLc (c - 0x28) v)
  else if c = 0x2A then
    { g.setBank sh (b.setCond { z := v.getLsbD 0, n := v.getLsbD 1, v := v.getLsbD 2 }) with
      gov := v.getLsbD 3, sat := v.getLsbD 4, und := v.getLsbD 5, poi := v.getLsbD 6, govp := v.getLsbD 7 }
  else if c = 0x2B then { g with ev := v &&& 7 }
  else g

/-- Codes of an accumulator or a part of one: read at the start of stage W (Table 3). -/
def accCode (c : Nat) : Bool := decide ((0x08 ≤ c ∧ c ≤ 0x0E) ∨ c = 0x30 ∨ c = 0x31)

/-- A source read at the start of stage W: its word, and whether the store path saturated (R211). -/
def EngSt.accRead (g : EngSt) (sh : Bool) (c n : Nat) : W16 × Bool :=
  if c = 0x30 ∨ c = 0x31 then acStore ((g.bank sh).ac (c - 0x30)) n else (g.readReg sh c, false)

/-! ### Stage A (R206, R213) -/

/-- The X address of an access, and the bank with its address register post-modified. -/
def Bank.useX (b : Bank) (i m : Nat) : BitVec 12 × Bank :=
  let a := b.ax.toArray.getD i 0
  let l := if i < 2 then b.len.toArray.getD i 0 else 0
  (a, { b with ax := b.ax.setIfInBounds i (postModify a (b.base.toArray.getD i 0) l (b.mx.toArray.getD m 0)) })
/-- The Y address of an access, and the bank with its address register post-modified. -/
def Bank.useY (b : Bank) (i m : Nat) : BitVec 12 × Bank :=
  let a := b.ay.toArray.getD i 0
  let l := if i < 2 then b.len.toArray.getD (2 + i) 0 else 0
  (a, { b with ay := b.ay.setIfInBounds i (postModify a (b.base.toArray.getD (2 + i) 0) l (b.my.toArray.getD m 0)) })

/-- What stage A reads: the slot with its operands, from the engine as it stands at the start of the cycle; `src` is the
member that a SYNC copies from. -/
def PSlot.readA (k : PSlot) (g src : EngSt) : PSlot :=
  let b := g.bank k.shadow
  match k.op with
  | .mac _ => { k with a := b.D (k.f 26 23), b := b.D (k.f 22 19), xa := (b.useX (k.f 13 12) (k.f 11 10)).1,
                       ya := (b.useY (k.f 4 3) (k.f 2 1)).1 }
  | .alu _ =>
    if k.f 31 28 = 9 then { k with a := b.D (k.f 19 17), b := BitVec.ofNat 16 (k.f 15 0) }
    else { k with a := b.D (k.f 19 17), b := b.D (k.f 16 14), xa := (b.useX (k.f 7 6) (k.f 5 4)).1,
                  ya := (b.useY (k.f 7 6) (k.f 5 4)).1, xv := b.D (k.f 10 8) }
  | .ldx | .ldy | .stx | .sty =>
    if k.f 25 25 = 1 then { k with a := g.readReg k.shadow (k.f 24 19), xa := BitVec.ofNat 12 (k.f 14 3),
                                   ya := BitVec.ofNat 12 (k.f 14 3) }
    else { k with a := g.readReg k.shadow (k.f 24 19), xa := (b.useX (k.f 14 13) (k.f 12 11)).1,
                  ya := (b.useY (k.f 14 13) (k.f 12 11)).1 }
  | .mov => { k with a := g.readReg k.shadow (k.f 21 16) }
  | .out => { k with a := g.readReg k.shadow (k.f 24 19) }
  | .signal | .clrf => { k with a := b.D (k.f 24 22) }
  | .post => { k with a := b.D (k.f 23 21), xa := b.ax.toArray.getD (k.f 25 24) 0 }
  | .sync => { k with a := (src.bank k.shadow).D (k.f 21 19) }
  | .ret => { k with a := b.D 7 }
  | _ => k

/-- What stage A writes at its end: address registers, the counter of a DEC condition, `D7` of a CALL. `old` is the engine
at the start of the cycle. -/
def PSlot.writeA (k : PSlot) (old g : EngSt) : EngSt :=
  let o := old.bank k.shadow
  let b := g.bank k.shadow
  let dec (b : Bank) : Bank :=
    if k.f 25 22 = 0xB then b.setLc 0 (o.lc 0 - 1) else if k.f 25 22 = 0xC then b.setLc 1 (o.lc 1 - 1) else b
  let takeX (i m : Nat) (b : Bank) : Bank :=
    { b with ax := b.ax.setIfInBounds i ((o.useX i m).2.ax.toArray.getD i 0) }
  let takeY (i m : Nat) (b : Bank) : Bank :=
    { b with ay := b.ay.setIfInBounds i ((o.useY i m).2.ay.toArray.getD i 0) }
  match k.op with
  | .mac _ =>
    let b1 := if k.f 18 18 = 1 then takeX (k.f 13 12) (k.f 11 10) b else b
    g.setBank k.shadow (if k.f 9 9 = 1 then takeY (k.f 4 3) (k.f 2 1) b1 else b1)
  | .alu _ =>
    if k.f 31 28 = 8 ∧ k.f 13 13 = 1 then
      g.setBank k.shadow (if k.f 12 12 = 0 then takeX (k.f 7 6) (k.f 5 4) b else takeY (k.f 7 6) (k.f 5 4) b)
    else g
  | .ldx | .stx => if k.f 25 25 = 0 then g.setBank k.shadow (takeX (k.f 14 13) (k.f 12 11) b) else g
  | .ldy | .sty => if k.f 25 25 = 0 then g.setBank k.shadow (takeY (k.f 14 13) (k.f 12 11) b) else g
  | .br | .ret => g.setBank k.shadow (dec b)
  | .call => g.setBank k.shadow ((dec b).setD 7 ((k.addr + 3).setWidth 16))
  | _ => g

/-! ### Stage R -/

/-- The slot reads X memory in stage R. -/
def PSlot.readsX (k : PSlot) : Bool := match k.op with
  | .mac _ => k.f 18 18 == 1
  | .alu _ => k.f 31 28 == 8 && k.f 13 13 == 1 && k.f 12 12 == 0 && k.f 11 11 == 0
  | .ldx => true
  | _ => false
/-- The slot reads Y memory in stage R. -/
def PSlot.readsY (k : PSlot) : Bool := match k.op with
  | .mac _ => k.f 9 9 == 1
  | .alu _ => k.f 31 28 == 8 && k.f 13 13 == 1 && k.f 12 12 == 1 && k.f 11 11 == 0
  | .ldy => true
  | _ => false

/-- What loads write at the end of stage R. -/
def PSlot.writeR (k : PSlot) (g : EngSt) : EngSt :=
  let b := g.bank k.shadow
  match k.op with
  | .mac _ =>
    let b1 := if k.f 17 17 = 1 then b.setD (k.f 16 14) k.xv else b
    g.setBank k.shadow (if k.f 8 8 = 1 then b1.setD (k.f 7 5) k.yv else b1)
  | .alu _ =>
    if k.readsX then g.setBank k.shadow (b.setD (k.f 10 8) k.xv)
    else if k.readsY then g.setBank k.shadow (b.setD (k.f 10 8) k.yv) else g
  | .ldx => g.writeReg k.shadow (k.f 24 19) k.xv
  | .ldy => g.writeReg k.shadow (k.f 24 19) k.yv
  | _ => g

/-! ### Stage M -/

/-- What stage M writes: ALU results, moves that read no accumulator, SYNC. -/
def PSlot.writeM (k : PSlot) (g : EngSt) : EngSt :=
  let b := g.bank k.shadow
  match k.op with
  | .alu op =>
    let r := aluOp op k.a k.b
    let b1 := match r.1 with
      | some v => b.setD (k.f 22 20) v
      | none => b
    g.setBank k.shadow (match r.2 with
      | some c => b1.setCond c
      | none => b1)
  | .mov => if accCode (k.f 21 16) then g else g.writeReg k.shadow (k.f 27 22) k.a
  | .sync => g.setBank k.shadow (b.setD (k.f 24 22) k.a)
  | _ => g

/-! ### Stage W -/

/-- The accumulation of a MAC-class instruction (R209); `old` is the engine at the start of stage W. -/
def PSlot.mac (k : PSlot) (op : Nat) (old g : EngSt) : EngSt :=
  let i := k.f 27 27
  let o := old.bank k.shadow
  let x := if k.f 26 23 = 8 then k.xv else k.a
  let y := if k.f 22 19 = 8 then k.yv else k.b
  let r := macOp op (o.ac i) x y
  let cf := if r.2 then true else if op < 2 then o.cf i else false
  { g.setBank k.shadow (((g.bank k.shadow).setAc i r.1 cf).setCond (condAc r.1)) with gov := g.gov || r.2 }

/-- The value an instruction stores, moves or puts out in stage W: from the accumulator at its start, or as stage A read
it, and whether the store path saturated. -/
def PSlot.value (k : PSlot) (old : EngSt) (code sh : Nat) : W16 × Bool :=
  if accCode code then old.accRead k.shadow code sh else (k.a, false)

/-- The fabric word of an OUT (R212, R221, R222, R257). -/
def PSlot.outWord (k : PSlot) (old : EngSt) : FWord :=
  let code := k.f 24 19
  let v := (k.value old code (k.f 18 15)).1
  let own : FWord := { tag := if k.f 14 14 = 1 then .frame else .data, d := v }
  let govp := old.govp && decide (code = 0x30 ∨ code = 0x31) && (old.bank k.shadow).cf (code - 0x30)
  match old.taint with
  | some t => if govp then (if t.tag = .poison then t else FWord.poison 5) else t
  | none => if govp then FWord.poison 5 else own

/-- What stage W writes into the engine itself. -/
def PSlot.writeW (k : PSlot) (old g : EngSt) : EngSt :=
  match k.op with
  | .mac op => k.mac op old g
  | .mov =>
    if accCode (k.f 21 16) then
      (let v := old.accRead k.shadow (k.f 21 16) (k.f 15 12)
       let g1 : EngSt := { g with sat := g.sat || v.2 }
       g1.writeReg k.shadow (k.f 27 22) v.1)
    else g
  | .stx | .sty | .out =>
    { g with sat := g.sat || (k.value old (k.f 24 19) (k.f 18 15)).2 }
  | _ => g

/-- The memory store of stage W: true for X, the word address and the value. -/
def PSlot.storeW (k : PSlot) (old : EngSt) : Option (Bool × BitVec 12 × W16) :=
  match k.op with
  | .stx => some (true, k.xa, (k.value old (k.f 24 19) (k.f 18 15)).1)
  | .sty => some (false, k.ya, (k.value old (k.f 24 19) (k.f 18 15)).1)
  | .alu _ =>
    if k.f 31 28 = 8 ∧ k.f 13 13 = 1 ∧ k.f 11 11 = 1 then
      (if k.f 12 12 = 0 then some (true, k.xa, k.xv) else some (false, k.ya, k.xv))
    else none
  | _ => none

/-- The slot writes loop counter `i` in this cycle: a load in R, a move in M, a move from an accumulator in W. -/
def writesLc (r m w : Option PSlot) (sh : Bool) (i : Nat) : Bool :=
  let c := 0x28 + i
  (match r with
   | some k => k.shadow == sh && decide ((k.op = .ldx ∨ k.op = .ldy) ∧ k.f 24 19 = c)
   | none => false) ||
  (match m with
   | some k => k.shadow == sh && decide (k.op = .mov ∧ k.f 27 22 = c) && !accCode (k.f 21 16)
   | none => false) ||
  (match w with
   | some k => k.shadow == sh && decide (k.op = .mov ∧ k.f 27 22 = c) && accCode (k.f 21 16)
   | none => false)

end Sys2Proof.Machine
end

