-- ==== Sys2Proof/Machine/EnginePipe.lean ====
section
/-!
DEFINITION. Sys2Proof/Machine/EnginePipe.lean: one `ECLK` cycle of an engine or of a gang in lockstep: holds, the six
stages, fetching with REP and LOOP, interrupts, faults and the end of a run (chapters 8 and 9).

The slots of `EngSt` hold the instructions that stand in stages D to W in the coming cycle. A member of a gang holds the
same instructions as its leader, with its own operands; what is fetched next stands in the leader's banks.
-/
namespace Sys2Proof.Machine

/-! ### Clock (R202, R440) -/

/-- FCLK cycles of one ECLK cycle. -/
def State.ediv (s : State) (p : Nat) : Nat := if s.rbit (Reg.secEngCfg (p / 34)) 0 then 2 else 1
/-- The ECLK cycle of the crossing. -/
def State.ecycle (s : State) (p : Nat) : Nat := s.tsb.slot / s.ediv p
/-- The current slot is the last of its ECLK cycle. -/
def State.eclkEdge (s : State) (p : Nat) : Bool := s.tsb.slot % s.ediv p == s.ediv p - 1
/-- The throttle gates this ECLK cycle of a pooled engine. -/
def State.gated (s : State) (p : Nat) : Bool :=
  s.pooled p && decide (s.tsb.tick / s.ediv p % 8 < (if s.ediv p = 1 then s.pwr.level else s.pwr.level2))

/-- Descriptor fields (R201). -/
def State.engBudget (s : State) (p : Nat) : Nat := bitsOf (s.engDesc p 1) 7 0
def State.engSlotEv (s : State) (p : Nat) : Nat := bitsOf (s.engDesc p 1) 14 8
def State.engWdog (s : State) (p : Nat) : Nat := 64 * bitsOf (s.engDesc p 1) 31 16
def State.engHoldoff (s : State) (p : Nat) : Nat := bitsOf (s.engDesc p 0) 15 8
def State.engTaint (s : State) (p : Nat) : Bool := (s.engDesc p 0).getLsbD 4
def State.engWaits (s : State) (p k : Nat) : Bool := (s.engDesc p 2).getLsbD k

/-! ### Ports (R215 to R222) -/

/-- The stream queue at port `k` of a pooled engine: the OUT queue that feeds `SIk`, or the IN queue that `SOk` feeds. -/
def State.engQueue (s : State) (p k : Nat) (si : Bool) : Option Nat :=
  match s.logOf p with
  | none => none
  | some e =>
    ((List.range 32).map (fun i => 32 * (e / 2) + i)).find? (fun q =>
      s.qDir q == (if si then 1 else 2) && s.qFar q == 0 && s.qFarId q % 2 == e % 2 && s.qFarId q / 4 % 4 == k)

/-- A word stands in the queue that was there before this cycle's push. -/
def State.qHas (s : State) (q : Nat) : Bool :=
  let u := (s.queue q).settle s.tsb.tick
  decide ((if u.pushTick = some s.tsb.tick then 1 else 0) < (u.waits s.tsb.tick).length)

/-- An IN of this slot must wait (R218). -/
def State.inBlocked (s : State) (p : Nat) (k : PSlot) : Bool :=
  k.op == .inp && s.pooled p && s.engWaits p (k.f 26 25) &&
    (match s.engQueue p (k.f 26 25) true with
     | some q => !s.qHas q
     | none => false)
/-- An OUT of this slot must wait. -/
def State.outBlocked (s : State) (p : Nat) (k : PSlot) : Bool :=
  k.op == .out && s.pooled p &&
    (match s.engQueue p (k.f 26 25) false with
     | some q => !((s.queue q).settle s.tsb.tick).free
     | none => false)

/-- The pop of an IN (R177, R184): the word, and whether the queue was empty. -/
def State.engPop (s : State) (q : Nat) : State × FWord × Bool :=
  if s.qHas q then (let r := s.queuePop q; (r.1, r.2, false))
  else
    let u := (s.queue q).settle s.tsb.tick
    let s1 := s.setQueue q { u with prev := u.last, popTick := some s.tsb.tick }
    ((s1.setBit (Reg.queStatus q) 7 true).count (Reg.queCnt1 q) 15 8, u.last, true)

/-- The taint word after an IN (R221). -/
def taintIn (t : Option FWord) (w : FWord) (und : Bool) : Option FWord :=
  let poisoned : Bool := match t with
    | some x => decide (x.tag = .poison)
    | none => false
  if w.tag = .poison then (if poisoned then t else some w)
  else if t.isSome then t
  else if w.tag = .mark then some w
  else if und then some (FWord.gap 1) else none

/-- An IN takes its word in stage R (R216, R218, R220, R258). -/
def State.engIn_ (s : State) (p : Nat) (k : PSlot) : State :=
  let i := k.f 26 25
  let got : State × FWord × Bool :=
    if s.pooled p then
      (match s.engQueue p i true with
       | some q => s.engPop q
       | none => (s, FWord.zero, true))
    else
      let g := s.eng p
      (s.setEng p { g with fresh := g.fresh.setIfInBounds i false }, g.si.toArray.getD i FWord.zero,
        !(g.fresh.toArray.getD i false))
  let w := got.2.1.taken
  let und := got.2.2
  let g := got.1.eng p
  let g1 := g.setBank k.shadow ((g.bank k.shadow).setD (k.f 24 19) w.d)
  got.1.setEng p { g1 with itag := w.tag.bits, poi := g.poi || decide (w.tag = .poison), und := g.und || und,
                           taint := if s.engTaint p then taintIn g.taint w und else none }

/-- An OUT writes its port (R217, R218). A port that R224 has poisoned keeps its POISON to the end of the crossing. -/
def State.engSet (s : State) (p i : Nat) (w : FWord) : State :=
  let g := s.eng p
  let prev := if g.soTick = s.tsb.tick then g.soPrev else g.so
  s.setEng p { g with so := g.so.setIfInBounds i w, soPrev := prev, soTick := s.tsb.tick }
def State.engOut_ (s : State) (p i : Nat) (w : FWord) : State :=
  if s.pooled p then
    (match s.engQueue p i false with
     | some q => s.queuePush q w
     | none => s)
  else if (s.eng p).soPoi.toArray.getD i false then s
  else
    let s1 := s.engSet p i w
    s1.setEng p { s1.eng p with soDone := (s1.eng p).soDone.setIfInBounds i true }

/-- An ENGSO attachment reads port `k` of logical engine `e`. -/
def State.engsoRead (s : State) (e k : Nat) : Bool :=
  ((List.range 16).flatMap (fun j => (List.range 4).map (fun q => s.attach (16 * (e / 2) + j) q))).any
    (fun a => decide (attKind a = .engso) && bitsOf a 0 0 == e % 2 && bitsOf a 3 2 == k)

/-- The ports of a pinned engine that are read through ENGSO present POISON to the end of the crossing (R224, R230). -/
def State.engPoison (s : State) (p : Nat) (cause : W16) : State :=
  if s.pooled p then s
  else
    let e := s.logNo p
    ((List.range 4).filter (fun k => s.engsoRead e k && !((s.eng p).soPoi.toArray.getD k false))).foldl
      (fun s k =>
        let s1 := s.engSet p k (FWord.poison cause)
        s1.setEng p { s1.eng p with soPoi := (s1.eng p).soPoi.setIfInBounds k true }) s

/-! ### Runs, faults and interrupts (R226 to R230) -/

/-- `ST` as the engine now has it, copied into its register (R225, R241). -/
def State.copySt (s : State) (p : Nat) : State :=
  let g := s.eng p
  s.setReg (Reg.engStCopy p) ((g.stWord g.handler.isSome).setWidth 32)

/-- A run is in progress. -/
def EngSt.inRun (g : EngSt) : Bool := decide (g.run = .running ∨ g.run = .handler ∨ g.run = .holding)
/-- A FAULT or WATCHDOG handler runs. -/
def EngSt.inFault (g : EngSt) : Bool := decide (g.handler = some .fault ∨ g.handler = some .watchdog)

/-- Every instruction in flight is discarded. -/
def EngSt.flush (g : EngSt) : EngSt :=
  { g with stD := none, stA := none, stR := none, stM := none, stW := none, post := .none }

/-- The sticky bits are cleared (R204). -/
def EngSt.unstick (g : EngSt) : EngSt := { g with poi := false, und := false, sat := false, gov := false }

/-- A bank at a start: no loop, no repetition, nothing to be fetched again (R263). -/
def Bank.start (b : Bank) (at_ : BitVec 11) : Bank :=
  { b with loop := none, rep := none, again := [], next := at_, xfer1 := false, xfer2 := false }

/-- A bank as a handler enters it (R227): its first fetch is at the vector; what else the bank holds stands. -/
def Bank.enter (b : Bank) (at_ : BitVec 11) : Bank :=
  { b with rep := none, again := [], next := at_, xfer1 := false, xfer2 := false }

/-- A SLOT event is discarded: SLOT_MISS of every member (R227, R229, R232). -/
def State.slotMiss (s : State) (p : Nat) : State := (s.gang p).foldl (fun s q => s.setBit (Reg.engStatus q) 13 true) s

/-- Apply a change to every member of a gang. -/
def State.onGang (s : State) (p : Nat) (f : EngSt → EngSt) : State :=
  (s.gang p).foldl (fun s q => s.setEng q (f (s.eng q))) s

/-- A FAULT or WATCHDOG starts its handler: its enable bit is set and no such handler runs (R226, R228). -/
def EngSt.handles (g : EngSt) (h : Handler) : Bool :=
  g.inRun && (if h = .watchdog then g.ev.getLsbD 2 else g.ev.getLsbD 0) && !g.inFault

/-- A fault is raised by member `p` of a gang (R228 to R230, R232): causes, `FAULT_EVT`, `ST_COPY`, counters; the leader
has a FAULT, or for cause 8 a WATCHDOG, to take. The ports of a pinned engine are poisoned at once by OVERRUN and HOLDOFF
(R224, R234) and where no handler runs, the run then being over; otherwise the run ends after its handler, and they are
poisoned then. In an OVERRUN or HOLDOFF of a gang member `p` records the cause and the others GANG, and the ports of every member
take the poison word of `p`'s cause, 0x0004 (DESIGN CHOICE: R230 and R232 do not say which word a member that records GANG then
takes; R224 poisons the ports of every member). -/
def State.raise (s : State) (p cause : Nat) : State :=
  let ps := s.gang p
  let ld := ps.headD p
  let c := if (s.eng ld).inFault then 5 else cause
  let late := decide (cause = 1 ∨ cause = 2)
  let ends := !(s.eng ld).handles (if cause = 8 then .watchdog else .fault)
  let s1 := ps.foldl (fun s q =>
    ((s.setFld (Reg.engStatus q) 11 8 (if q = p then c else 6)).setBit (Reg.engStatus q) 12 true).copySt q) s
  let sec := Reg.secEngCnt (p / 34)
  let s2 := if cause = 1 then s1.count sec 31 24 else if cause = 2 then s1.count sec 23 16
    else if cause = 8 then s1.count sec 15 8 else if cause = 3 then s1.count sec 7 0 else s1
  let s3 := if late || ends then ps.foldl (fun s q => s.engPoison q (if late then 4 else 1)) s2 else s2
  let s4 := if (s.eng ld).irq = some .slot then s3.slotMiss ld else s3
  let s5 := if cause = 3 then s4.setEng p { s4.eng p with checks := (s4.eng p).checks + 1 } else s4
  let s6 := if cause = 1 || ends then s5.onGang ld (fun g => { g with ended := true }) else s5
  s6.setEng ld { s6.eng ld with irq := some (if cause = 8 then .watchdog else .fault), slotWait := 0 }

/-- The run is abandoned (R228): a pinned engine's ports are poisoned (R230) and it idles until the next CROSS, a pooled one
ends its item as aborted. -/
def State.abandon (s : State) (ld : Nat) : State :=
  let s0 := (s.gang ld).foldl (fun s q => s.engPoison q 1) s
  let s1 := s0.onGang ld (fun g =>
    { g with fetching := false, handler := none, irq := none, run := .idle, ended := true, yieldAt := none })
  if s.pooled ld then s1.itemEnd ld reasonAbort else s1

/-- FAULT or WATCHDOG is taken at the end of a cycle (R227, R228, R510). Its handler starts in the shadow bank, and the
instructions in F and D are discarded, all of them under a hold; or the run is abandoned at once with all that is in flight. -/
def State.takeFault (s : State) (ld : Nat) (h : Handler) : State :=
  let g := s.eng ld
  let vec : BitVec 11 := if h = .watchdog then 0x7F0 else 0x7F8
  let on := g.handles h
  let s1 := ((s.gang ld).foldl State.dropPost s).onGang ld (fun g =>
    let g1 := if g.run = .holding || !on then g.flush else { g with stD := none, stA := none }
    { g1 with irq := none, slotWait := 0, post := .none })
  if on then
    s1.onGang ld (fun g => { g with handler := some h, run := .handler, fetching := true, sh := g.sh.enter vec,
                                    wd := if s.pooled ld then g.wd else 0, wdDone := s.pooled ld && g.wdDone })
  else s1.abandon ld

/-- SLOT is taken (R227): the SLOT handler is fetched next, in the shadow bank, and the foreground's pending fetches are
kept. -/
def State.slotTake (s : State) (ld : Nat) (pending : List (BitVec 11 × Bool)) : State :=
  let s1 := s.onGang ld (fun g =>
    { g with handler := some .slot, run := .handler, irq := none, slotWait := 0,
             sh := g.sh.enter 0x7E8 })
  let g := s1.eng ld
  s1.setEng ld { g with fg := { g.fg with again := pending ++ g.fg.again } }

/-- The SLOT event becomes visible (R227, R229, R510). In cycle 0 of a crossing, which fetches nothing (R223), it is taken at
once, so that its handler's first fetch falls in cycle 1. -/
def State.raiseSlot (s : State) (ld : Nat) : State :=
  let g := s.eng ld
  let miss := s.slotMiss ld
  if !g.ev.getLsbD 1 || !g.inRun then s
  else if g.handler.isSome then miss
  else if !g.fetching then s
  else match g.irq with
    | some _ => miss
    | none => if !s.pooled ld && s.ecycle ld == 0 && g.stD.isNone then s.slotTake ld []
        else s.setEng ld { g with irq := some .slot, slotWait := 0 }

/-- The coming cycle is cycle B of a pinned run, and DONE does not complete in it (R224). -/
def State.overruns (s : State) (ld : Nat) : Bool :=
  let done := match (s.eng ld).stW with
    | some k => k.op == .done
    | none => false
  !s.pooled ld && !(s.eng ld).ended && s.ecycle ld == s.engBudget ld && !done

/-- A visible SLOT can be taken in the coming cycle: not one that the FAULT of an overrun joins (R229); and a gang of 4 or 8
holds it off while a delay slot is pending or a REP is active (R233). -/
def State.slotFree (s : State) (ld : Nat) : Bool :=
  let g := s.eng ld
  let isX (o : Option PSlot) : Bool := match o with
    | some k => k.op.transfer
    | none => false
  let isCopy (o : Option PSlot) : Bool := match o with
    | some k => k.copy
    | none => false
  !s.overruns ld && (s.gangSize ld < 4 || !(isX g.stD || isX g.stA || g.fg.rep.isSome || isCopy g.stD))

/-! ### Decoding in stage D (R242, R243) -/

/-- The instruction in stage D is a reserved encoding where it stands. -/
def State.illegalD (s : State) (ld : Nat) : Bool :=
  let g := s.eng ld
  match g.stD with
  | none => false
  | some k =>
    let b := g.bank k.shadow
    let op := k.op
    let near (n : Nat) : Bool := match b.loop with
      | some l => decide ((l.last - k.addr).toNat ≤ n)
      | none => false
    let block := decide (op = .rep ∨ op = .loop ∨ op = .yield ∨ op = .done ∨ op = .evt)
    decide (op = .illegal) || (block && (b.xfer1 || b.xfer2)) ||
      (k.copy && (op.transfer || block || decide (op = .post))) ||
      (op.transfer && near 2) || (decide (op = .rep) && near 1) ||
      (!s.pooled ld && decide (op = .yield ∨ op = .post)) ||
      (decide (op = .evt) && g.handler.isNone) || (decide (op = .yield ∨ op = .done) && g.handler.isSome)

/-! ### The stages over a gang -/

/-- Addresses of X and Y words of a physical engine (R199). -/
def xAddr (p : Nat) (a : BitVec 12) : Nat := engWin p + 0x2000 + 2 * a.toNat
def yAddr (p : Nat) (a : BitVec 12) : Nat := engWin p + 0x4000 + 2 * a.toNat

/-- The 32 words of X memory that a POST offers (R268). -/
def State.postItemOf (s : State) (p : Nat) (a : BitVec 12) : List W16 :=
  (List.range 32).map (fun i => s.half (xAddr p (a + BitVec.ofNat 12 i)))

/-- Stage W of one member. -/
def State.stageW (old s : State) (p : Nat) : State :=
  let o := old.eng p
  match o.stW with
  | none => s
  | some k =>
    let s1 := s.setEng p (k.writeW o (s.eng p))
    let s2 := match k.storeW o with
      | some (x, a, v) => s1.storeFirst (if x then xAddr p a else yAddr p a) v
      | none => s1
    let task := if k.f 25 25 = 1 then bitsOf k.a 11 0 else k.f 11 0
    match k.op with
    | .out => s2.engOut_ p (k.f 26 25) (k.outWord o)
    | .signal => s2.sendFlag { src := .engine p, task := task, flag := k.f 16 12, set := true }
    | .clrf => s2.sendFlag { src := .engine p, task := task, flag := k.f 16 12, set := false }
    | .post =>
      (match o.post with
       | .answered code =>
         let g := s2.eng p
         s2.setEng p { g.setBank k.shadow ((g.bank k.shadow).setD (k.f 20 18) code) with post := .none }
       | _ => s2)
    | _ => s2

/-- Stage M of one member. -/
def State.stageM (old s : State) (p : Nat) : State :=
  match (old.eng p).stM with
  | none => s
  | some k => s.setEng p (k.writeM (s.eng p))

/-- Stage R of one member: the state, the slot with what it read, and whether a read met an uncorrectable error. -/
def State.stageR (old s : State) (p : Nat) : State × Option PSlot × Bool :=
  match (old.eng p).stR with
  | none => (s, none, false)
  | some k =>
    let rx : State × Bool := if k.readsX then s.read (xAddr p k.xa) 2 else (s, false)
    let ry : State × Bool := if k.readsY then rx.1.read (yAddr p k.ya) 2 else (rx.1, false)
    let k1 := if k.readsX then { k with xv := old.seenHalf (xAddr p k.xa) } else k
    let k2 := if k.readsY then { k1 with yv := old.seenHalf (yAddr p k.ya) } else k1
    let s1 := ry.1.setEng p (k2.writeR (ry.1.eng p))
    (if k.op = .inp then s1.engIn_ p k else s1, some k2, rx.2 || ry.2)

/-- Stage A of one member: the state and the slot with its operands. -/
def State.stageA (old s : State) (ps : List Nat) (p : Nat) : State × Option PSlot :=
  match (old.eng p).stA with
  | none => (s, none)
  | some k =>
    let j := if k.f 15 15 = 1 then 0 else (ps.idxOf p + k.f 18 16) % ps.length
    let k1 := k.readA (old.eng p) (old.eng (ps.getD j p))
    (s.setEng p (k1.writeA (old.eng p) (s.eng p)), some k1)

/-! ### Fetching and control (R259 to R266) -/

/-- Outcome of the fetch and of what the instructions in D and A do to it. -/
structure Flow where
  /-- The word fetched, none where it is discarded or nothing was fetched. -/
  fetched : Option PSlot := none
  /-- The instruction in stage D goes on to stage A. -/
  keepD : Bool := true
  /-- The memory read of the fetch met an uncorrectable error. -/
  ue : Bool := false
  /-- A FAULT or WATCHDOG handler ended. -/
  handlerEnd : Bool := false
deriving DecidableEq, Repr

/-- Change the running bank of every member. -/
def State.onBanks (s : State) (ld : Nat) (sh : Bool) (f : Bank → Bank) : State :=
  s.onGang ld (fun g => g.setBank sh (f (g.bank sh)))

/-- The decrement at an `END` fetch (R262, R263): lost to a move or load into the counter, unless a DEC condition writes it
in the same cycle. -/
def EngSt.endFetch (old : EngSt) (sh : Bool) (i : Nat) (b : Bank) : Bank :=
  let dec := match old.stA with
    | some k => k.shadow == sh && decide (k.op.transfer ∧ k.f 25 22 = 0xB + i)
    | none => false
  if writesLc old.stR old.stM old.stW sh i && !dec then b else b.setLc i (b.lc i - 1)

/-- Stage F (R205, R227, R261, R262): the word fetched, and the leader's banks with the next address. At `END` the loop turns
unless the counter as it stood in the cycle, less 1, is 0, whatever else writes the counter in the cycle (R263). -/
def State.fetch (old s : State) (ld : Nat) : State × Flow :=
  let g := s.eng ld
  let sh := g.handler.isSome
  let b := g.bank sh
  if !g.fetching then (s, {})
  else
    let take (s : State) (a : BitVec 11) (copy : Bool) : State × Flow :=
      let r := s.read (engWin ld + 4 * a.toNat) 4
      (r.1, { fetched := some { word := BitVec.ofNat 32 (s.le (engWin ld + 4 * a.toNat) 4), addr := a, shadow := sh,
                                copy := copy }, ue := r.2 })
    match b.again with
    | (a, c) :: t => take (s.setEng ld (g.setBank sh { b with again := t })) a c
    | [] =>
      match b.rep with
      | some (a, n) => take (s.setEng ld (g.setBank sh { b with rep := if n ≤ 1 then none else some (a, n - 1) })) a true
      | none =>
        let plain : State := s.setEng ld (g.setBank sh { b with next := b.next + 1 })
        match b.loop with
        | none => take plain b.next false
        | some l =>
          if b.next ≠ l.last then take plain b.next false
          else
            let i := if l.lc1 then 1 else 0
            let s1 := (s.gang ld).foldl (fun s q =>
              s.setEng q ((s.eng q).setBank sh ((old.eng q).endFetch sh i ((s.eng q).bank sh)))) s
            let b1 := (s1.eng ld).bank sh
            let b2 : Bank := if ((old.eng ld).bank sh).lc i - 1 ≠ 0 then { b1 with next := l.first } else { b1 with next := l.last + 1, loop := none }
            take (s1.setEng ld ((s1.eng ld).setBank sh b2)) b.next false

/-- The address lies in the body of a loop. -/
def LoopSt.has (l : LoopSt) (a : BitVec 11) : Bool := decide ((a - l.first).toNat ≤ (l.last - l.first).toNat)

/-- LOOP acts (R262): the counter and the loop state, and the next fetch. `count` gives each member, by its
number, its count. -/
def State.loopStart (s : State) (ld : Nat) (k : PSlot) (count : Nat → W16) : State :=
  let i := k.f 26 26
  let last : BitVec 11 := BitVec.ofNat 11 (k.f 24 14)
  let s1 := (s.gang ld).foldl (fun s q => s.setEng q ((s.eng q).setBank k.shadow (((s.eng q).bank k.shadow).setLc i (count q)))) s
  let g := s1.eng ld
  let b := g.bank k.shadow
  let b1 : Bank := if count ld = 0 then { b with loop := none, next := last + 1, again := [] }
    else { b with loop := some { first := k.addr + 1, last := last, lc1 := decide (i = 1) }, next := k.addr + 1, again := [] }
  s1.setEng ld (g.setBank k.shadow b1)

/-- What the instruction in stage A does to the fetching: a taken transfer, a LOOP with a count from a register (R260,
R262). -/
def State.controlA (old s : State) (ld : Nat) (w : Flow) : State × Flow :=
  let o := old.eng ld
  match o.stA with
  | none => (s, w)
  | some k =>
    let ob := o.bank k.shadow
    if k.op.transfer then
      (if branchCond (k.f 25 22) ob.cond o.itag ob.lc0 ob.lc1 then
        (let t : BitVec 11 := if k.op = .ret then (ob.D 7).setWidth 11 else BitVec.ofNat 11 (k.f 10 0)
         let g := s.eng ld
         let b := g.bank k.shadow
         let lp := match b.loop with
           | some l => if l.has t then b.loop else none
           | none => none
         (s.setEng ld (g.setBank k.shadow { b with next := t, loop := lp }), w))
       else (s, w))
    else if k.op = .loop ∧ k.f 25 25 = 1 then
      (s.loopStart ld k (fun q => ((old.eng q).bank k.shadow).D (k.f 2 0)), { w with fetched := none, keepD := false })
    else (s, w)

/-- What the instruction in stage D does to the fetching (R261 to R266). -/
def State.controlD (s : State) (ld : Nat) (k : PSlot) (w : Flow) : State × Flow :=
  let g := s.eng ld
  let b := g.bank k.shadow
  let passed : State := s.setEng ld (g.setBank k.shadow { b with xfer1 := k.op.transfer, xfer2 := b.xfer1 })
  match k.op with
  | .rep =>
    let n := k.f 15 0
    if n = 0 then (passed, { w with fetched := none })
    else
      (passed.setEng ld (g.setBank k.shadow
        { b with xfer1 := false, xfer2 := b.xfer1, rep := if n = 1 then none else some (k.addr + 1, n - 1) }),
       { w with fetched := w.fetched.map (fun x => { x with copy := true }) })
  | .loop => if k.f 25 25 = 0 then (passed.loopStart ld k (fun _ => BitVec.ofNat 16 (k.f 13 0)), { w with fetched := none })
             else (passed, w)
  | .done | .yield =>
    (s.onGang ld (fun g => { g.setBank k.shadow { g.bank k.shadow with loop := none, rep := none, again := [] } with
                             fetching := false }), { w with fetched := none })
  | .evt =>
    if g.handler = some .slot then
      (s.onGang ld (fun g => { g with handler := none, run := .running }), { w with fetched := none })
    else (s, { w with fetched := none, handlerEnd := true })
  | _ => (passed, w)

/-- A read of program, X or Y memory met an uncorrectable error: the run ends in this cycle (R415). -/
def State.engFail (s : State) (ld : Nat) : State :=
  s.onGang ld (fun g => { g.flush with fetching := false, handler := none, irq := none, run := .idle, ended := true })

/-- What DONE or YIELD does at the end of its stage W (R264, R265). -/
def State.runEnd (s : State) (ld : Nat) (k : PSlot) : State :=
  if s.pooled ld then
    (let s1 := (s.gang ld).foldl State.copySt s
     let tk := bitsOf (s.eng ld).tk 27 16
     let s2 := s1.onGang ld (fun g => { g with run := .idle, wd := 0, wdDone := false,
                                               yieldAt := if k.op = .yield then some (k.addr + 1, tk) else none })
     s2.itemEnd ld (if k.op = .yield then reasonYield else 0))
  else s.onGang ld (fun g => { g with run := .idle, ended := true })

/-- The cycle in which a reserved encoding reaches stage D of a run whose FAULT has no handler: the run ends at once, and
nothing in flight is written (R228, R229), the writes due in stage W of that same cycle among it (DESIGN CHOICE: R228 says only
that the run is abandoned at once). -/
def State.engIllegal (s : State) (ld : Nat) : State :=
  (s.onGang ld (fun g => { g.flush with cycled := some s.tsb.tick })).raise ld 4

/-- `ST` of each member as the cycle found it, copied at a fault of the cycle (R241). -/
def State.copyOldSt (old s : State) (ld : Nat) : State :=
  (old.gang ld).foldl (fun s q => s.setReg (Reg.engStCopy q) ((old.copySt q).reg (Reg.engStCopy q))) s

/-- One ECLK cycle of a gang whose pipeline moves, no fault without a handler in it. -/
def State.engMove (s : State) (ld : Nat) : State :=
  let ps := s.gang ld
  let g0 := s.eng ld
  let bad := s.illegalD ld
  let take := decide (g0.irq = some .slot) && s.slotFree ld && !bad
  let s1 := ps.foldl (State.stageW s) s
  let s2 := ps.foldl (State.stageM s) s1
  let rr := ps.foldl (fun (a : State × List (Nat × Option PSlot) × Bool) p =>
    let r := State.stageR s a.1 p
    (r.1, a.2.1 ++ [(p, r.2.1)], a.2.2 || r.2.2)) (s2, [], false)
  let ra := ps.foldl (fun (a : State × List (Nat × Option PSlot)) p =>
    let r := State.stageA s a.1 ps p
    (r.1, a.2 ++ [(p, r.2)])) (rr.1, [])
  let f := State.fetch s ra.1 ld
  let fa := State.controlA s f.1 ld f.2
  let fd : State × Flow := match g0.stD with
    | some k => if bad || take || !fa.2.keepD then fa else fa.1.controlD ld k fa.2
    | none => fa
  let flow := fd.2
  if rr.2.2 || flow.ue then (fd.1.engFail ld)
  else
    let dSlot := if flow.keepD then g0.stD else none
    let s3 := ps.foldl (fun s p =>
      let g := s.eng p
      s.setEng p { g with
        stW := (s.eng p).stM, stM := (rr.2.1.lookup p).getD none, stR := (ra.2.lookup p).getD none
        stA := if bad || take then none else dSlot
        stD := if bad || take then none else flow.fetched
        cycled := some s.tsb.tick
        run := if g.run = .holding then (if g.handler.isSome then .handler else .running) else g.run }) fd.1
    let s4 := match g0.stW with
      | some k => if k.op = .done ∨ k.op = .yield then s3.runEnd ld k else s3
      | none => s3
    let s5 := if flow.handlerEnd then s4.abandon ld else s4
    if bad then State.copyOldSt s (s5.raise ld 4) ld
    else if take then
      s5.slotTake ld ((dSlot.toList ++ flow.fetched.toList).map (fun k => (k.addr, k.copy)))
    else if g0.irq = some .slot then s5.setEng ld { s5.eng ld with slotWait := (s5.eng ld).slotWait + 1 }
    else s5

/-- One ECLK cycle of a gang whose pipeline does not hold. -/
def State.engCycle (s : State) (ld : Nat) : State :=
  if s.illegalD ld && !(s.eng ld).handles .fault then s.engIllegal ld else s.engMove ld

/-! ### Which command a cycle is -/

/-- What the coming cycle of a leader shows: an instruction, the SLOT event, or the end of a hold on IN or OUT. -/
inductive CycleKind where
  | instr (op : EngOp) | slot | inWake | outWake
deriving DecidableEq, Repr

/-- A cycle of the gang led by `ld` is due. -/
def State.cycleDue (s : State) (ld : Nat) : Bool :=
  let g := s.eng ld
  let flight := g.stD.isSome || g.stA.isSome || g.stR.isSome || g.stM.isSome || g.stW.isSome
  s.leads ld && s.engIn ld && s.eclkEdge ld && !s.gated ld && g.cycled != some s.tsb.tick &&
    !decide (g.irq = some .fault ∨ g.irq = some .watchdog) && (g.fetching || flight) &&
    (s.pooled ld || (decide (1 ≤ s.ecycle ld) && (g.ended || decide (s.ecycle ld ≤ s.engBudget ld))))

/-- The op of the instruction in a stage. -/
def opAt (k : Option PSlot) : Option EngOp := k.map PSlot.op

/-- Some member's slot meets a condition. -/
def State.anyMember (s : State) (ld : Nat) (st : EngSt → Option PSlot) (f : Nat → PSlot → Bool) : Bool :=
  (s.gang ld).any (fun p => match st (s.eng p) with
    | some k => f p k
    | none => false)

/-- A member's IN, OUT or POST holds the pipeline. -/
def State.inHold (s : State) (ld : Nat) : Bool := s.anyMember ld EngSt.stR (fun p k => s.inBlocked p k)
def State.outHold (s : State) (ld : Nat) : Bool := s.anyMember ld EngSt.stW (fun p k => s.outBlocked p k)
def State.postHold (s : State) (ld : Nat) : Bool :=
  s.anyMember ld EngSt.stW (fun p k => k.op == .post && (match (s.eng p).post with
    | .answered _ => false
    | _ => true))
/-- A POST in stage W has not been offered yet. -/
def State.postFresh (s : State) (ld : Nat) : Bool :=
  s.anyMember ld EngSt.stW (fun p k => k.op == .post && decide ((s.eng p).post = .none))

/-- The pipeline holds in the coming cycle (R218, R268). -/
def State.holds (s : State) (ld : Nat) : Bool := s.postFresh ld || s.inHold ld || s.outHold ld || s.postHold ld

/-- The kind of the coming cycle; none where no cycle is due or the pipeline goes on holding. -/
def State.cycleKind (s : State) (ld : Nat) : Option CycleKind :=
  let g := s.eng ld
  if !s.cycleDue ld then none
  else if s.illegalD ld then some (.instr .illegal)
  else if s.postFresh ld then some (.instr .post)
  else if s.inHold ld || s.outHold ld || s.postHold ld then
    (if g.run = .holding then none
     else if s.inHold ld then some (.instr .inp) else if s.outHold ld then some (.instr .out) else none)
  else if g.run = .holding then
    (if opAt g.stW = some .post then some (.instr .post) else if opAt g.stW = some .out then some .outWake else some .inWake)
  else if g.irq = some .slot ∧ s.slotFree ld then some .slot
  else if g.fetching then (State.fetch s s ld).2.fetched.map (fun k => .instr k.op)
  else ((([g.stD, g.stA, g.stR, g.stM, g.stW].filterMap id).head?).map (fun k => .instr k.op))

/-- A POST in stage W is offered: each member's item sets out (R268). -/
def State.postOffer (s : State) (ld : Nat) : State :=
  (s.gang ld).foldl (fun s p =>
    match (s.eng p).stW with
    | none => s
    | some k =>
      if k.op = .post ∧ (s.eng p).post = .none then
        (let s1 := s.setEng p { s.eng p with post := .waiting }
         { s1 with dpt := { s1.dpt with posts := s1.dpt.posts ++
             [{ src := BitVec.ofNat 16 (s.logNo p), task := k.f 11 0, flow := k.a, words := s.postItemOf p k.xa }] } })
      else s) s

/-- The pipeline begins to hold. -/
def State.holdStart (s : State) (ld : Nat) : State :=
  s.onGang ld (fun g => { g with run := .holding, cycled := some s.tsb.tick })

/-- The coming cycle is one of the kind `k`. The end of a hold is both kinds where an IN and an OUT stood in the pipeline. -/
def State.isKind (s : State) (ld : Nat) (k : CycleKind) : Bool :=
  decide (s.cycleKind ld = some k) ||
    decide (k = .inWake ∧ s.cycleKind ld = some .outWake ∧ opAt (s.eng ld).stR = some .inp)

/-- A cycle of the kind `k` of the gang that `p` leads, if that is the kind of the coming cycle. A reserved encoding in stage D
faults at once, also under a hold, and the hold then writes nothing (R242, R510). -/
def State.engRow (s : State) (p : Nat) (k : CycleKind) : Host.Outcome State Fault Refusal :=
  if !s.isKind p k then s.go
  else if s.illegalD p && s.holds p then
    (if (s.eng p).handles .fault then ((s.holdStart p).raise p 4).go else (s.engIllegal p).go)
  else if s.postFresh p then ((s.postOffer p).holdStart p).go
  else if s.inHold p || s.outHold p || s.postHold p then (s.holdStart p).go
  else (s.engCycle p).go

end Sys2Proof.Machine
end

