-- ==== Sys2Proof/Machine/Paths.lean ====
section
/-!
DEFINITION. Sys2Proof/Machine/Paths.lean: the certificate: its header, its path, engine, bandwidth and derandomizer
records and its power plan (R158, R159, R355, R356).
-/
namespace Sys2Proof.Machine

/-- A path segment (chapter 5, Table 7). -/
structure Seg where
  kind : Nat
  ops : Nat
  predA : Nat
  predB : Nat
  object : Nat
  xc : Int
  slot : Nat
  sub : Nat
deriving DecidableEq, Repr

/-- A path record (chapter 5, Table 6). -/
structure PathRec where
  reclen : Nat
  path : Nat
  flags : Nat
  nseg : Nat
  depth : Nat
  floor : Nat
  lat : Nat
  segs : List Seg
deriving DecidableEq, Repr

def PathRec.optional (p : PathRec) : Bool := p.flags % 2 == 1
/-- The slot map in which the path runs. -/
def PathRec.map (p : PathRec) : Nat := p.flags / 2 % 2
def PathRec.xdev (p : PathRec) : Bool := p.flags / 4 % 2 == 1
/-- Key of a path: 65536 × map + `PATH`. -/
def PathRec.key (p : PathRec) : Nat := 65536 * p.map + p.path

/-- An engine record. -/
structure EngRec where
  eng : Nat
  budget : Nat
  holdoff : Nat
  gang : Nat
  resv : Nat
deriving DecidableEq, Repr

/-- A certificate, its numbers as they stand. -/
structure Cert where
  secopt : BitVec 16
  maxdrop : Nat
  paths : List PathRec
  engs : List EngRec
  /-- FROM, TO, RATE. -/
  bws : List (Nat × Nat × Nat)
  /-- DRZ, AF. -/
  drzs : List (Nat × Nat)
  pcool : Nat
  tcool : Int
  theta : Nat
deriving DecidableEq, Repr

/-- A segment at an offset. -/
def segAt (l : List Byte) (o : Nat) : Seg :=
  { kind := leAt l o 1, ops := leAt l (o + 1) 1, predA := leAt l (o + 2) 1, predB := leAt l (o + 3) 1,
    object := leAt l (o + 4) 4, xc := toSigned 16 (leAt l (o + 8) 2), slot := leAt l (o + 10) 1, sub := leAt l (o + 11) 1 }

/-- A path record at an offset. -/
def pathAt (l : List Byte) (o : Nat) : PathRec :=
  let n := leAt l (o + 5) 1
  { reclen := leAt l o 2, path := leAt l (o + 2) 2, flags := leAt l (o + 4) 1, nseg := n, depth := leAt l (o + 6) 2,
    floor := leAt l (o + 8) 4, lat := leAt l (o + 12) 4, segs := (List.range n).map (fun i => segAt l (o + 16 + 12 * i)) }

/-- `n` path records from an offset, each `RECLEN` bytes long; the offset of one that lies partly outside otherwise. -/
def pathsAt (l : List Byte) : Nat → Nat → Except Nat (List PathRec × Nat)
  | 0, o => .ok ([], o)
  | n + 1, o =>
    let k := leAt l o 2
    if l.length < o + 16 ∨ k < 16 ∨ l.length < o + k then .error o
    else match pathsAt l n (o + k) with
      | .error e => .error e
      | .ok r => .ok (pathAt l o :: r.1, r.2)

/-- The certificate of a section's content, as far as it can be read; an error gives the offset of what breaks its
structure (R355, R356). -/
def parseCert (l : List Byte) : Except Nat Cert :=
  let np := leAt l 6 2
  let ne := leAt l 8 2
  let nb := leAt l 10 2
  let nd := leAt l 12 2
  let op := leAt l 16 4
  let oe := leAt l 20 4
  let ob := leAt l 24 4
  let od := leAt l 28 4
  if l.length < 64 ∨ leAt l 0 2 ≠ 1 then .error 0
  else if leAt l 14 2 ≠ 0 then .error 14
  else if leAt l 38 2 ≠ 0 then .error 38
  else if leAt l 60 4 ≠ 0 then .error 60
  else if leAt l 32 2 = 0 then .error 32
  else if leAt l 36 2 = 0 then .error 36
  else match pathsAt l np op with
    | .error e => .error e
    | .ok (ps, pe) =>
      let areas := ([(op, pe), (oe, oe + 8 * ne), (ob, ob + 8 * nb), (od, od + 4 * nd)]).filter (fun a => a.1 < a.2)
      let clash (i j : Nat) : Bool :=
        match areas[i]?, areas[j]? with
        | some a, some b => decide (a.1 < b.2 ∧ b.1 < a.2)
        | _, _ => false
      let engs := (List.range ne).map (fun i =>
        ({ eng := leAt l (oe + 8 * i) 2, budget := leAt l (oe + 8 * i + 2) 1, holdoff := leAt l (oe + 8 * i + 3) 1,
           gang := leAt l (oe + 8 * i + 4) 1, resv := leAt l (oe + 8 * i + 5) 3 } : EngRec))
      if l.length < oe + 8 * ne then .error oe
      else if l.length < ob + 8 * nb then .error ob
      else if l.length < od + 4 * nd then .error od
      else if (List.range 4).any (fun i => (List.range i).any (fun j => clash i j)) then .error op
      else if (ps.map PathRec.key).eraseDups.length ≠ ps.length then .error op
      else if (engs.map (·.eng)).eraseDups.length ≠ engs.length ∨ engs.any (fun e => decide (e.resv ≠ 0)) then .error oe
      else if (List.range nd).any (fun i => decide (leAt l (od + 4 * i + 1) 1 ≠ 0)) then .error od
      else .ok { secopt := BitVec.ofNat 16 (leAt l 2 2), maxdrop := leAt l 4 2, paths := ps, engs := engs,
                 bws := (List.range nb).map (fun i => (leAt l (ob + 8 * i) 2, leAt l (ob + 8 * i + 2) 2, leAt l (ob + 8 * i + 4) 4)),
                 drzs := (List.range nd).map (fun i => (leAt l (od + 4 * i) 1, leAt l (od + 4 * i + 2) 2)),
                 pcool := leAt l 32 2, tcool := toSigned 16 (leAt l 34 2), theta := leAt l 36 2 }

/-- The certificate of accord `n`. -/
def State.certOf (s : State) (n : Nat) : Except Nat Cert :=
  match s.accordOf n with
  | none => .error 0
  | some a => parseCert a.cert

/-- The path records of the configuration in force. -/
def State.pathsNow (s : State) : List PathRec :=
  match s.certOf s.accordNow with
  | .ok c => c.paths
  | .error _ => []

/-- The deadlines of a pinned engine's SO ports in the running map: port, and the last slot of the crossing in which an OUT
meets the deadline (R234). The claim and the hold-off carry into the next crossing at most as its slot 0. -/
def State.soDeadlines (s : State) (e hold : Nat) : List (Nat × Nat) :=
  (s.pathsNow.filter (fun p => p.map == s.fld (Reg.secMapsel (e / 32)) 0 0 && !decide (p.key ∈ s.adm.dropped))).flatMap
    (fun p => (p.segs.filter (fun g => g.kind == 8 && g.object == e)).map (fun g =>
      let d := (if g.slot = 0 then s.M else g.slot) + hold
      (g.sub / 4 % 4, min (d - 1) (s.M - 1))))

end Sys2Proof.Machine
end

