-- ==== Sys2Proof/Machine/EngineInstr.lean ====
section
/-!
DEFINITION. Sys2Proof/Machine/EngineInstr.lean: the commands of the engines: cycles named after the instruction they
fetch, events, faults, wakes, the start of an item (chapters 8 to 10).

An engine's cycle is one command: its name is the instruction fetched in it, or, while nothing is fetched, the youngest
instruction in flight. What the pipeline does in the cycle to the instructions before it comes with it.
-/
namespace Sys2Proof.Machine

/-! ### Instruction cycles -/

/-- ENG_NOP: the cycle that fetches it, or shows it. -/
def execEngNop (p : EngineNo) (s : State) : Host.Outcome State Fault Refusal := s.engRow p (.instr .nop)
/-- BR (R259, R260): the cycle that fetches it, or shows it. -/
def execEngBr (p : EngineNo) (s : State) : Host.Outcome State Fault Refusal := s.engRow p (.instr .br)
/-- CALL (R259, R260): the cycle that fetches it, or shows it. -/
def execEngCall (p : EngineNo) (s : State) : Host.Outcome State Fault Refusal := s.engRow p (.instr .call)
/-- RET (R259, R260): the cycle that fetches it, or shows it. -/
def execEngRet (p : EngineNo) (s : State) : Host.Outcome State Fault Refusal := s.engRow p (.instr .ret)
/-- REP (R261): the cycle that fetches it, or shows it. -/
def execEngRep (p : EngineNo) (s : State) : Host.Outcome State Fault Refusal := s.engRow p (.instr .rep)
/-- LOOP (R262, R263): the cycle that fetches it, or shows it. -/
def execEngLoop (p : EngineNo) (s : State) : Host.Outcome State Fault Refusal := s.engRow p (.instr .loop)
/-- YIELD (R265): the cycle that fetches it, or shows it. -/
def execEngYield (p : EngineNo) (s : State) : Host.Outcome State Fault Refusal := s.engRow p (.instr .yield)
/-- DONE (R264): the cycle that fetches it, or shows it. -/
def execEngDone (p : EngineNo) (s : State) : Host.Outcome State Fault Refusal := s.engRow p (.instr .done)
/-- EVT (R266): the cycle that fetches it, or shows it. -/
def execEngEvt (p : EngineNo) (s : State) : Host.Outcome State Fault Refusal := s.engRow p (.instr .evt)
/-- SYNC (R267): the cycle that fetches it, or shows it. -/
def execEngSync (p : EngineNo) (s : State) : Host.Outcome State Fault Refusal := s.engRow p (.instr .sync)
/-- IN (R258): the cycle that fetches it, or shows it. -/
def execEngIn (p : EngineNo) (s : State) : Host.Outcome State Fault Refusal := s.engRow p (.instr .inp)
/-- OUT (R258): the cycle that fetches it, or shows it. -/
def execEngOut (p : EngineNo) (s : State) : Host.Outcome State Fault Refusal := s.engRow p (.instr .out)
/-- SIGNAL (R268): the cycle that fetches it, or shows it. -/
def execEngSignal (p : EngineNo) (s : State) : Host.Outcome State Fault Refusal := s.engRow p (.instr .signal)
/-- CLRF (R268): the cycle that fetches it, or shows it. -/
def execEngClrf (p : EngineNo) (s : State) : Host.Outcome State Fault Refusal := s.engRow p (.instr .clrf)
/-- POST (R268): the cycle that fetches it, or shows it. -/
def execEngPost (p : EngineNo) (s : State) : Host.Outcome State Fault Refusal := s.engRow p (.instr .post)
/-- ALU_ADD (R252, Table 7): the cycle that fetches it, or shows it. -/
def execAluAdd (p : EngineNo) (s : State) : Host.Outcome State Fault Refusal := s.engRow p (.instr (.alu 0x00))
/-- ALU_SUB (R252, Table 7): the cycle that fetches it, or shows it. -/
def execAluSub (p : EngineNo) (s : State) : Host.Outcome State Fault Refusal := s.engRow p (.instr (.alu 0x01))
/-- ALU_ADDS (R252, Table 7): the cycle that fetches it, or shows it. -/
def execAluAdds (p : EngineNo) (s : State) : Host.Outcome State Fault Refusal := s.engRow p (.instr (.alu 0x02))
/-- ALU_SUBS (R252, Table 7): the cycle that fetches it, or shows it. -/
def execAluSubs (p : EngineNo) (s : State) : Host.Outcome State Fault Refusal := s.engRow p (.instr (.alu 0x03))
/-- ALU_AND (R252, Table 7): the cycle that fetches it, or shows it. -/
def execAluAnd (p : EngineNo) (s : State) : Host.Outcome State Fault Refusal := s.engRow p (.instr (.alu 0x04))
/-- ALU_OR (R252, Table 7): the cycle that fetches it, or shows it. -/
def execAluOr (p : EngineNo) (s : State) : Host.Outcome State Fault Refusal := s.engRow p (.instr (.alu 0x05))
/-- ALU_XOR (R252, Table 7): the cycle that fetches it, or shows it. -/
def execAluXor (p : EngineNo) (s : State) : Host.Outcome State Fault Refusal := s.engRow p (.instr (.alu 0x06))
/-- ALU_NOT (R252, Table 7): the cycle that fetches it, or shows it. -/
def execAluNot (p : EngineNo) (s : State) : Host.Outcome State Fault Refusal := s.engRow p (.instr (.alu 0x07))
/-- ALU_NEG (R252, Table 7): the cycle that fetches it, or shows it. -/
def execAluNeg (p : EngineNo) (s : State) : Host.Outcome State Fault Refusal := s.engRow p (.instr (.alu 0x08))
/-- ALU_ABS (R252, Table 7): the cycle that fetches it, or shows it. -/
def execAluAbs (p : EngineNo) (s : State) : Host.Outcome State Fault Refusal := s.engRow p (.instr (.alu 0x09))
/-- ALU_MIN (R252, Table 7): the cycle that fetches it, or shows it. -/
def execAluMin (p : EngineNo) (s : State) : Host.Outcome State Fault Refusal := s.engRow p (.instr (.alu 0x0A))
/-- ALU_MAX (R252, Table 7): the cycle that fetches it, or shows it. -/
def execAluMax (p : EngineNo) (s : State) : Host.Outcome State Fault Refusal := s.engRow p (.instr (.alu 0x0B))
/-- ALU_CMP (R252, Table 7): the cycle that fetches it, or shows it. -/
def execAluCmp (p : EngineNo) (s : State) : Host.Outcome State Fault Refusal := s.engRow p (.instr (.alu 0x0C))
/-- ALU_TST (R252, Table 7): the cycle that fetches it, or shows it. -/
def execAluTst (p : EngineNo) (s : State) : Host.Outcome State Fault Refusal := s.engRow p (.instr (.alu 0x0D))
/-- ALU_SHL (R252, Table 7): the cycle that fetches it, or shows it. -/
def execAluShl (p : EngineNo) (s : State) : Host.Outcome State Fault Refusal := s.engRow p (.instr (.alu 0x0E))
/-- ALU_SHR (R252, Table 7): the cycle that fetches it, or shows it. -/
def execAluShr (p : EngineNo) (s : State) : Host.Outcome State Fault Refusal := s.engRow p (.instr (.alu 0x0F))
/-- ALU_ASR (R252, Table 7): the cycle that fetches it, or shows it. -/
def execAluAsr (p : EngineNo) (s : State) : Host.Outcome State Fault Refusal := s.engRow p (.instr (.alu 0x10))
/-- ALU_CNT (R252, Table 7): the cycle that fetches it, or shows it. -/
def execAluCnt (p : EngineNo) (s : State) : Host.Outcome State Fault Refusal := s.engRow p (.instr (.alu 0x11))
/-- ALU_LDI (R252, Table 7): the cycle that fetches it, or shows it. -/
def execAluLdi (p : EngineNo) (s : State) : Host.Outcome State Fault Refusal := s.engRow p (.instr (.alu 0x12))
/-- LDX (R255): the cycle that fetches it, or shows it. -/
def execEngLdx (p : EngineNo) (s : State) : Host.Outcome State Fault Refusal := s.engRow p (.instr .ldx)
/-- LDY (R255): the cycle that fetches it, or shows it. -/
def execEngLdy (p : EngineNo) (s : State) : Host.Outcome State Fault Refusal := s.engRow p (.instr .ldy)
/-- STX (R255): the cycle that fetches it, or shows it. -/
def execEngStx (p : EngineNo) (s : State) : Host.Outcome State Fault Refusal := s.engRow p (.instr .stx)
/-- STY (R255): the cycle that fetches it, or shows it. -/
def execEngSty (p : EngineNo) (s : State) : Host.Outcome State Fault Refusal := s.engRow p (.instr .sty)
/-- MOV (R256): the cycle that fetches it, or shows it. -/
def execEngMov (p : EngineNo) (s : State) : Host.Outcome State Fault Refusal := s.engRow p (.instr .mov)
/-- MAC (R209, R250): the cycle that fetches it, or shows it. -/
def execEngMac (p : EngineNo) (s : State) : Host.Outcome State Fault Refusal := s.engRow p (.instr (.mac 0))
/-- MSU (R209, R250): the cycle that fetches it, or shows it. -/
def execEngMsu (p : EngineNo) (s : State) : Host.Outcome State Fault Refusal := s.engRow p (.instr (.mac 1))
/-- MPY (R209, R250): the cycle that fetches it, or shows it. -/
def execEngMpy (p : EngineNo) (s : State) : Host.Outcome State Fault Refusal := s.engRow p (.instr (.mac 2))
/-- CLRMAC (R250): the cycle that fetches it, or shows it. -/
def execEngClrmac (p : EngineNo) (s : State) : Host.Outcome State Fault Refusal := s.engRow p (.instr (.mac 3))
/-- ILLEGAL_INSTRUCTION: a cycle in which a reserved encoding is fetched, or stands in stage D and raises FAULT ILLEGAL
(R242). -/
def execIllegalInstruction (p : EngineNo) (s : State) : Host.Outcome State Fault Refusal := s.engRow p (.instr .illegal)

/-! ### Events -/

/-- SLOT_EVENT: the cycle at whose end the SLOT handler takes over (R227). -/
def execSlotEvent (p : EngineNo) (s : State) : Host.Outcome State Fault Refusal := s.engRow p .slot

/-- IN_WAKE: the cycle in which a held IN pops (R218). -/
def execInWake (p : EngineNo) (s : State) : Host.Outcome State Fault Refusal := s.engRow p .inWake

/-- OUT_WAKE: the cycle in which a held OUT pushes (R218). -/
def execOutWake (p : EngineNo) (s : State) : Host.Outcome State Fault Refusal := s.engRow p .outWake

/-- The leader of an engine's gang. -/
def State.leader (s : State) (p : Nat) : Nat := (s.gang p).headD p

/-- FAULT: the FAULT raised is taken. With none raised, the command is the error that the engine's own check circuits find
(cause CHECK, R229): it is raised and taken. -/
def execEngFault (p : EngineNo) (s : State) : Host.Outcome State Fault Refusal :=
  let ld := s.leader p
  if !s.engIn p then s.go
  else if (s.eng ld).irq = some .fault then (s.takeFault ld .fault).go
  else ((s.raise p 3).takeFault ld .fault).go

/-- WATCHDOG: the watchdog of a pooled run, or of a pinned engine's FAULT handler, expires (R226, R228). -/
def execWatchdog (p : EngineNo) (s : State) : Host.Outcome State Fault Refusal :=
  let g := s.eng p
  if s.leads p && s.engIn p && g.inRun && !g.wdDone && s.engWdog p != 0 && decide (s.engWdog p ≤ g.wd) &&
      (s.pooled p || decide (g.handler = some .fault)) then
    (let s1 := s.onGang p (fun g => { g with wdDone := true })
     ((s1.raise p 8).takeFault p .watchdog).go)
  else s.go

/-- BUDGET_OVERRUN: cycle B ends without DONE: everything in flight is discarded, the ports are poisoned, FAULT OVERRUN is
raised (R224). -/
def execBudgetOverrun (p : EngineNo) (s : State) : Host.Outcome State Fault Refusal :=
  let g := s.eng p
  let b := s.engBudget p
  if s.leads p && s.engIn p && !s.pooled p && !g.ended && g.inRun &&
      (decide (b < s.ecycle p) || (decide (s.ecycle p = b) && decide (g.cycled = some s.tsb.tick))) then
    ((s.onGang p EngSt.flush).raise p 1).go
  else s.go

/-- HOLDOFF: a gang of 4 or 8 has held a SLOT off beyond H, or a port deadline has passed without its OUT: FAULT HOLDOFF is
raised (R233, R234). -/
def execHoldoff (p : EngineNo) (s : State) : Host.Outcome State Fault Refusal :=
  let ld := s.leader p
  let g := s.eng ld
  let h := if s.gangSize ld < 4 then 0 else s.engHoldoff ld
  let late := !s.pooled p && (s.soDeadlines (s.logNo p) (h * s.ediv p)).any (fun d =>
    !((s.eng p).soDone.toArray.getD d.1 false) && !((s.eng p).soPoi.toArray.getD d.1 false) && (decide (d.2 < s.tsb.slot) ||
      (decide (d.2 = s.tsb.slot) && (decide (g.cycled = some s.tsb.tick) || !s.cycleDue ld))))
  let held := g.inRun && !g.inFault && decide (4 ≤ s.gangSize ld) && decide (g.irq = some .slot) && decide (h < g.slotWait)
  if s.engIn p && g.irq != some .fault && (held || late) then (s.raise p 2).go
  else s.go

/-! ### Starts -/

/-- CROSS at slot 0 of a crossing (R223, R224): `ST` is copied, the sticky bits are cleared, the crossing program starts in
the foreground bank, its first fetch in cycle 1. An activity still going on is cut off; a crossing that had neither
completed nor been ended counts as an overrun. -/
def State.cross (s : State) (ld : Nat) : State :=
  let g := s.eng ld
  let late := g.inRun && !g.ended
  let s1 := if late then (s.gang ld).foldl (fun s q => s.engPoison q 4) (s.count (Reg.secEngCnt (ld / 34)) 31 24) else s
  let s2 := (s1.gang ld).foldl State.copySt (s1.onGang ld (fun g => { g with handler := none }))
  let entry : BitVec 11 := BitVec.ofNat 11 (bitsOf (s.engDesc ld 0) 26 16)
  s2.onGang ld (fun g =>
    { g.flush.unstick with handler := none, irq := none, slotWait := 0, run := .running, fetching := true, ended := false,
                           taint := none, fg := g.fg.start entry, soDone := Vector.replicate 4 false,
                           soPoi := Vector.replicate 4 false, soPrev := if late then g.so else g.soPrev, cycled := some s.tsb.tick,
                           wd := 0, wdDone := false })

/-- DISPATCH: an idle engine starts the item in its prefetch slot, or goes on after its YIELD with an item of the same task
(R225, R265, R286). -/
def execDispatch (p : EngineNo) (s : State) : Host.Outcome State Fault Refusal :=
  let g := s.eng p
  match (s.engDpt p).prefetch with
  | none => s.go
  | some v =>
    if !(s.pooled p && s.leads p && s.engIn p && v.copied && decide (g.run = .idle)) then s.go
    else
      let entry : BitVec 11 := BitVec.ofNat 11 (s.fld (Reg.task v.task 0) 26 16)
      let at_ := match g.yieldAt with
        | some (a, t) => if t = v.task then a else entry
        | none => entry
      let tk : W32 := BitVec.ofNat 32 (v.task * 2 ^ 16 + if v.win then 2 ^ 15 else 0)
      ((s.itemStart p).onGang p (fun g =>
        { g.unstick with run := .running, fetching := true, taint := none, fg := g.fg.start at_, tk := tk, yieldAt := none,
                         wd := 0, wdDone := false, ended := false })).go

/-- The ECLK cycle of the current slot counts in the watchdogs (R226, R440): at the last slot of the cycle. -/
def State.countWatchdog (s : State) (p : Nat) : State :=
  let g := s.eng p
  if g.inRun && s.eclkEdge p && !s.gated p && (s.pooled p || decide (g.handler = some .fault)) then
    s.setEng p { g with wd := g.wd + 1 }
  else s

end Sys2Proof.Machine
end

