-- ==== Sys2Proof/Machine/Net.lean ====
section
/-!
DEFINITION. Sys2Proof/Machine/Net.lean: the packet network: headers, route tags and XY routing, bridges, credits, replies,
timeouts and fences (chapter 12). The reads and writes that packets make at their endpoints are in Bus.lean.
-/
namespace Sys2Proof.Machine

/-! ### The header (R326, Table 3) -/

def pDest (p : Packet) : Nat := bitsOf p.hdr 127 118
def pSrc (p : Packet) : Nat := bitsOf p.hdr 117 108
def pCmd (p : Packet) : Nat := bitsOf p.hdr 107 103
def pTag (p : Packet) : Nat := bitsOf p.hdr 102 95
def pLen (p : Packet) : Nat := bitsOf p.hdr 94 90
def pClass (p : Packet) : Nat := bitsOf p.hdr 89 88
def pAge (p : Packet) : Nat := bitsOf p.hdr 87 82
def pAddr (p : Packet) : Nat := bitsOf p.hdr 79 40
def pAux (p : Packet) : Nat := bitsOf p.hdr 39 8
/-- Byte count of an access: `AUX`[8:0]. -/
def pCount (p : Packet) : Nat := bitsOf p.hdr 16 8
/-- Partner queue of STRM and RSTN: `AUX`[28:16]. -/
def pQueue (p : Packet) : Nat := bitsOf p.hdr 36 24
/-- Status of a response: `AUX`[31:24]. -/
def pStatus (p : Packet) : Nat := bitsOf p.hdr 39 32

/-- A header with its check. -/
def mkHdr (dest src cmd tag len cls addr aux : Nat) : BitVec 128 :=
  let h : BitVec 128 := BitVec.ofNat 128 ((dest % 2 ^ 10) * 2 ^ 118 + (src % 2 ^ 10) * 2 ^ 108 + (cmd % 32) * 2 ^ 103 +
    (tag % 256) * 2 ^ 95 + (len % 32) * 2 ^ 90 + (cls % 4) * 2 ^ 88 + (addr % 2 ^ 40) * 2 ^ 40 + (aux % 2 ^ 32) * 2 ^ 8)
  h ||| BitVec.ofNat 128 (nocHcrc h).toNat

/-- The header fails its check, or is treated as one that does (R327, R328). -/
def pBad (p : Packet) : Bool :=
  decide (bitsOf p.hdr 7 0 ≠ (nocHcrc p.hdr).toNat) || decide (9 < pCmd p) || decide (pClass p = 3) ||
    decide (bitsOf p.hdr 81 80 ≠ 0)

/-- Posted requests: WRP, STRM, RSTN. -/
def isPosted (c : Nat) : Bool := c == 2 || c == 8 || c == 9
/-- Requests that expect a response: RD, WR, POST. -/
def isAsked (c : Nat) : Bool := c == 0 || c == 1 || c == 6
/-- Responses: RDR, WRA, CRET, PRSP. -/
def isResponse (c : Nat) : Bool := c == 3 || c == 4 || c == 5 || c == 7

/-- The same packet, whatever its AGE has become. -/
def samePacket (p q : Packet) : Bool :=
  decide (putBits p.hdr 87 82 0 = putBits q.hdr 87 82 0) && decide (p.data = q.data) && decide (p.psn = q.psn)

/-! ### Addresses (R339, Table 7) -/

/-- The destination of an address, and whether its window is of the kind register. -/
def destOf (a : Nat) : Option (Nat × Bool) :=
  let edge (e : Nat) (r : Bool) : Option (Nat × Bool) := some (0x320 + e, r)
  if a < 0x2000000 then edge (a / 0x100 % 16) false
  else match secOff a with
    | some (s, o) =>
      let cl (j : Nat) (r : Bool) : Option (Nat × Bool) := some (16 * s + j, r)
      if o < 0x140000 ∨ (0x180000 ≤ o ∧ o < 0x1A0000) then cl 0 false
      else if 0x1C0000 ≤ o ∧ o < 0x200000 then cl 0 true
      else if 0x200000 ≤ o ∧ o < 0x240000 then cl ((o - 0x200000) / 0x4000) false
      else if 0x300000 ≤ o ∧ o < 0x308000 then cl ((o - 0x300000) / 0x800) false
      else if 0x400000 ≤ o ∧ o < 0x400000 + 34 * 0x8000 then
        (let k := (o - 0x400000) / 0x8000
         if k < 32 then cl (k / 2) false else if k = 32 then cl 5 false else cl 10 false)
      else if 0x800000 ≤ o ∧ o < 0x840000 then cl ((o - 0x800000) / 0x4000) false
      else if 0xF00000 ≤ o then cl 0 true
      else none
    | none =>
      if 0x2000000000 ≤ a ∧ a < 0x2000802200 then
        edge (16 + a / 0x100 % 8) (!decide (0x2000400000 ≤ a ∧ a < 0x2000800000))
      else if 0x2800000000 ≤ a ∧ a < 0x2800200000 then edge 24 false
      else if 0x3000000000 ≤ a ∧ a < 0x30000F0000 then edge (32 + (a - 0x3000000000) / 0x1000 / 15) true
      else if 0x30000F0000 ≤ a ∧ a < 0x30000F2000 then edge 27 true
      else if 0xF000000000 ≤ a ∧ a < 0xF001000000 then edge 26 true
      else none

/-- An access lies within one aligned block of 256 bytes, and keeps words of 4 in a register window (R329). -/
def accessOk (a n : Nat) (reg : Bool) : Bool :=
  decide (1 ≤ n) && decide (n ≤ 256) && decide (a % 256 + n ≤ 256) && (!reg || (decide (a % 4 = 0) && decide (n % 4 = 0)))

/-- Data units of an access. -/
def unitsOf (a n : Nat) : Nat := (a % 16 + n + 15) / 16

/-! ### Endpoints and routes (R321 to R325) -/

/-- Mesh coordinates of a router (R14). -/
def rtX (n : Nat) : Nat := 4 * (n / 16 % 4) + n % 4
def rtY (n : Nat) : Nat := 4 * (n / 64) + n / 4 % 4
/-- The router at coordinates. -/
def rtAt (x y : Nat) : Nat := 16 * (4 * (y / 4) + x / 4) + 4 * (y % 4) + x % 4

/-- Route tag of Table 3: exit, y, x. -/
def routeTag (ex x y : Nat) : BitVec 11 := BitVec.ofNat 11 (ex * 256 + y * 16 + x)
def tagExit (t : BitVec 11) : Nat := bitsOf t 10 8
def tagY (t : BitVec 11) : Nat := bitsOf t 7 4
def tagX (t : BitVec 11) : Nat := bitsOf t 3 0

/-- Router and exit of a physical engine's port (R321). -/
def engPort (p : Nat) : Nat × Nat :=
  let k := p % 34
  if k < 32 then (16 * (p / 34) + k / 2, 1 + k % 2) else (16 * (p / 34) + (if k = 32 then 5 else 10), 3)

/-- The physical engine that the routers' map gives a logical one (R324). -/
def State.netPhys (s : State) (e : Nat) : Nat := (Tbl.get none s.net.map e).getD (34 * (e / 32) + e % 32)

/-- Coordinates of an edge node's router, and the exit (R322). -/
def edgeAt (e : Nat) : Nat × Nat × Nat :=
  let p := e % 16
  if e < 16 then (p, 0, 4) else if e < 32 then (15, p, 5) else if e < 48 then (p, 15, 6) else (0, p, 7)

/-- The route tag of an endpoint; none where it is not assigned (R323, R324). -/
def State.resolve (s : State) (d : Nat) : Option (BitVec 11) :=
  if d < 0x100 then some (routeTag 0 (rtX d) (rtY d))
  else if d < 0x300 then
    (let q := engPort (s.netPhys (d - 0x100))
     some (routeTag q.2 (rtX q.1) (rtY q.1)))
  else if 0x320 ≤ d ∧ d < 0x360 then
    (let q := edgeAt (d - 0x320)
     some (routeTag q.2.2 q.1 q.2.1))
  else none

/-- The next router on the XY route, and the port by which the packet comes in there; none at the destination (R325). -/
def nextHop (r : Nat) (t : BitVec 11) : Option (Nat × Nat) :=
  let x := rtX r
  let y := rtY r
  if x < tagX t then some (rtAt (x + 1) y, 3)
  else if tagX t < x then some (rtAt (x - 1) y, 1)
  else if y < tagY t then some (rtAt x (y + 1), 0)
  else if tagY t < y then some (rtAt x (y - 1), 2)
  else none

/-! ### Sending -/

/-- The class of a requester's packets (R332). -/
def State.classOf (s : State) (req : Nat) : Nat := (Config.netClass ((s.sectionOf 11).getD []) req).toNat

/-- A packet leaves an endpoint of the device. -/
def State.send (s : State) (p : Packet) : State := { s with net := { s.net with outbox := s.net.outbox ++ [p] } }

/-- The response to a request: class and tag of the request, AGE 0 (R332). -/
def State.reply (s : State) (p : Packet) (cmd status : Nat) (aux : Nat := 0) (data : List Byte := []) (psn : BitVec 16 := 0) :
    State :=
  s.send { hdr := mkHdr (pSrc p) (pDest p) cmd (pTag p) ((data.length + 15) / 16) (pClass p) (pAddr p) (status * 2 ^ 24 + aux),
           data := data, psn := psn }

/-- Answer a request with an error status alone; a post is answered with code DOWN (R342). -/
def State.answer (s : State) (p : Packet) (status : Nat) : State :=
  if pCmd p = 0 then s.reply p 3 status
  else if pCmd p = 1 then s.reply p 4 status
  else s.reply p 7 status 4

/-- Keys of the credit tables. -/
def creditKey (req pool : Nat) : Nat := 1024 * req + pool
def returnKey (pool req : Nat) : Nat := 1024 * pool + req

/-- Credits of a requester that are spent. -/
def State.spent (s : State) (req pool : Nat) : Nat := Tbl.get 0 s.net.spent (creditKey req pool)
def State.spend (s : State) (req pool : Nat) : State :=
  { s with net := { s.net with spent := Tbl.modify 0 s.net.spent (creditKey req pool) (· + 1) } }
def State.restore (s : State) (req pool n : Nat) : State :=
  { s with net := { s.net with spent := Tbl.modify 0 s.net.spent (creditKey req pool) (· - n) } }
/-- A requester holds a credit for a pool (R333). -/
def State.hasCredit (s : State) (req pool : Nat) : Bool :=
  decide (s.spent req pool < Config.netGrant ((s.sectionOf 11).getD []) req pool)

/-- A pool frees the buffer of a posted request: its credit joins the return count (R334). -/
def State.freePosted (s : State) (p : Packet) : State :=
  let k := returnKey (pDest p) (pSrc p)
  { s with net := { s.net with returns := Tbl.modify 0 s.net.returns k (· + 1),
                               returnsAt := if Tbl.get 0 s.net.returns k = 0 then Tbl.set 0 s.net.returnsAt k s.tsb.tick
                                            else s.net.returnsAt } }

/-- A credit is lost (R327, R337). -/
def State.creditLost (s : State) : State := (s.count (Reg.nocCnt 3) 15 0).setBit Reg.nocStatus 3 true

/-- A response is discarded: late, unassigned, or inward to a reset domain. -/
def State.respDisc (s : State) : State := s.count (Reg.nocCnt 1) 15 0
/-- A bridge discards a posted request and returns its credit (R342). -/
def State.postedDisc (s : State) (p : Packet) : State :=
  ((s.count (Reg.nocCnt 1) 31 16).setBit Reg.nocStatus 0 true).freePosted p
/-- A packet with a bad header is discarded. The credit of a posted request, which no reply timer guards, is lost with it
(R327). -/
def State.badHeader (s : State) (p : Packet) : State :=
  let s1 := (s.count (Reg.nocCnt 0) 31 16).setBit Reg.nocStatus 1 true
  if isPosted (pCmd p) then s1.creditLost else s1

/-! ### Fences (R345, R346) -/

/-- A local port of a router is fenced: 0 `T`, 1 `E0`, 2 `E1`, 3 `S`. -/
def State.fenced (s : State) (r i : Nat) : Bool := decide (i ≤ 3) && s.rbit (Reg.nocFence r) i

/-- The physical engine behind a local port (R321). -/
def engBehind (r i : Nat) : Nat :=
  if i = 3 then 34 * (r / 16) + (if r % 16 = 5 then 32 else 33) else 34 * (r / 16) + 2 * (r % 16) + (i - 1)

/-- A packet from a fenced engine is dropped: counted, and recorded at most once in 4,096 orbits (R346, R374). -/
def State.speaker (s : State) (e : Nat) : State :=
  let s1 := (s.count (Reg.nocCnt 2) 31 16).setBit Reg.nocStatus 4 true
  let last := Tbl.get 0 s1.net.speakers e
  let now := s1.tsb.orbit.toNat + 1
  if last = 0 ∨ last + 4096 ≤ now ∨ now < last then
    ({ s1 with net := { s1.net with speakers := Tbl.set 0 s1.net.speakers e now } } : State).event 1 e
  else s1

/-- The broadcast reaches every router (R345). -/
def State.applyBroadcast (s : State) (b : Broadcast) : State :=
  let s1 := b.fences.foldl (fun s f => s.setReg (Reg.nocFence f.1) f.2) s
  { s1 with net := { s1.net with map := b.map.foldl (fun m e =>
      Tbl.set none m e.1 (if e.2 = 34 * (e.1 / 32) + e.1 % 32 then none else some e.2)) s1.net.map } }

/-- FENCE_BROADCAST: the routers apply the oldest broadcast under way. -/
def execFenceBroadcast (s : State) : Host.Outcome State Fault Refusal :=
  match s.net.bcast with
  | [] => s.go
  | b :: t => (({ s with net := { s.net with bcast := t } } : State).applyBroadcast b).go

/-! ### Router inputs and outputs (R325, R331, R332, R336)

A packet is in the mesh with its header at one router input. Its units follow it: an input holds 10 units of each channel, and what does
not fit stands at the input that the packet came from. -/

/-- Units of a packet. -/
def pUnits (p : Packet) : Nat := 1 + pLen p

/-- Packets whose header stands at a router input, on one channel, oldest first. -/
def Net.inputAt (n : Net) (r port : Nat) (resp : Bool) : List Transit :=
  n.transit.filter (fun t => t.at_ == r && t.port == port && t.resp == resp)

/-- Units at a router input and behind it on one channel: those of the packets whose headers stand there, and what does not fit into the
inputs that packets have gone on to. A packet has at most 17 units, so units of one stand at no more than three inputs. -/
def Net.load (n : Net) : Nat → Nat → Nat → Bool → Nat
  | 0, r, port, resp => ((n.inputAt r port resp).map (fun t => pUnits t.pkt)).sum
  | k + 1, r, port, resp => ((n.inputAt r port resp).map (fun t => pUnits t.pkt)).sum +
      ((n.transit.filter (fun t => t.prev == some (r, port) && t.resp == resp &&
        (n.inputAt t.at_ t.port resp).getLast? == some t)).map (fun t => n.load k t.at_ t.port resp - 10)).sum

/-- A router input has room for a header (R336). -/
def Net.room (n : Net) (r port : Nat) (resp : Bool) : Bool := decide (n.load 2 r port resp < 10)

/-- The header of a packet is at the head of its input buffer. -/
def Net.heads (n : Net) (t : Transit) : Bool := (n.inputAt t.at_ t.port t.resp).head? == some t

/-- The output of its router that a packet asks for: 0 to 3 the mesh ports N, E, S, W, from 4 on the exits of R324. -/
def Transit.output (t : Transit) : Nat :=
  match nextHop t.at_ t.tag with
  | some (_, port) => (port + 2) % 4
  | none => 4 + tagExit t.tag

/-- Units of a packet still pass the output by which it left its router: the grant is held (R332). -/
def Net.outHeld (n : Net) (t : Transit) : Bool :=
  match nextHop t.at_ t.tag with
  | some (q, port) => [false, true].any (fun c => decide (10 < n.load 2 q port c))
  | none => false

/-- The header competes for its output: at the head of its input, with room behind the output. -/
def Net.competes (n : Net) (t : Transit) : Bool :=
  n.heads t && (match nextHop t.at_ t.tag with
    | some (q, port) => n.room q port t.resp
    | none => true)

/-- Urgency: class base plus AGE (R331). -/
def pUrgency (p : Packet) : Nat := 16 * pClass p + pAge p

/-- Place of an input after the one that its output granted last (R332). -/
def Net.turn (n : Net) (t : Transit) : Nat := (t.port + 9 - Tbl.get 0 n.granted (16 * t.at_ + t.output)) % 9

/-- `a` wins an output over `b`: the higher urgency, then the response channel, then the input whose turn comes first (R332). -/
def Net.beats (n : Net) (a b : Transit) : Bool :=
  let ua := pUrgency a.pkt
  let ub := pUrgency b.pkt
  if ua ≠ ub then decide (ub < ua) else if a.resp ≠ b.resp then a.resp else decide (n.turn a ≤ n.turn b)

/-- The header is granted its output. -/
def Net.wins (n : Net) (t : Transit) : Bool :=
  n.competes t && !n.outHeld t &&
    (n.transit.filter (fun u => u.at_ == t.at_ && u.output == t.output && n.competes u)).all (fun u => n.beats t u)

/-- A packet leaves its input by the output it was granted. -/
def State.leaveInput (s : State) (t : Transit) : State :=
  { s with net := { s.net with transit := s.net.transit.erase t,
                               granted := Tbl.set 0 s.net.granted (16 * t.at_ + t.output) (t.port + 1) } }

/-! ### Entering and crossing the mesh -/

/-- The post on its way to the dispatcher that a POST packet carries: its task, flow and item, and a source that fits the
packet's. -/
def State.postOf (s : State) (p : Packet) : Option PostReq :=
  let words := (List.range 32).map (fun i => BitVec.ofNat 16 (leAt p.data (2 * i) 2))
  s.dpt.posts.find? (fun r => decide (r.task = (pAddr p - 0x2000000000) / 64 % 4096) && decide (r.flow.toNat = pAux p % 65536) &&
    decide (r.words = words) &&
    (if pSrc p < 0x100 then decide (0x8000 ≤ r.src.toNat ∧ (r.src.toNat - 0x8000) / 32 = pSrc p)
     else decide (r.src.toNat + 0x100 = pSrc p)))

/-- Word `i` of a STRM packet. -/
def strmWord (p : Packet) (i : Nat) : FWord :=
  FWord.ofBits (BitVec.ofNat 19 ((leAt p.data (16 * (i / 6)) 16) / 2 ^ (19 * (i % 6))))

/-- The OUT NET queue of a cluster whose partner a STRM packet names. -/
def State.strmQueue (s : State) (p : Packet) : Option Nat :=
  ((List.range 32).map (fun i => 32 * pSrc p + i)).find? (fun q => s.qDir q == 1 && s.qFar q == 2 && s.qFarId q == pQueue p)

/-- A STRM packet carries the words at the front of the buffer of its stream interface (R191). -/
def State.strmFits (s : State) (p : Packet) : Bool :=
  match s.strmQueue p with
  | none => false
  | some q => decide (1 ≤ pAux p % 16 ∧ pAux p % 16 ≤ 8) &&
      decide ((List.range (pAux p % 16)).map (strmWord p) = ((s.queue q).buffer.take (pAux p % 16)))

/-- The requester has a reply buffer for a request that expects a response (R335). -/
def State.hasReply (s : State) (p : Packet) : Bool :=
  decide (((s.net.awaiting.filter (fun w => w.src == pSrc p)).map (·.units)).sum +
    (if pCmd p = 0 then 1 + unitsOf (pAddr p) (pCount p) else 1) ≤ Config.replyUnits (pSrc p))

/-- The requester can send the packet: a credit and a reply buffer for a request (R333, R335; none is granted for an endpoint that is not
assigned), and the words it carries (R191). -/
def State.canSend (s : State) (p : Packet) : Bool :=
  (isResponse (pCmd p) || (s.resolve (pDest p)).isNone || s.hasCredit (pSrc p) (pDest p)) &&
    (!isAsked (pCmd p) || s.hasReply p) && (!(decide (pCmd p = 8) && decide (pSrc p < 0x100)) || s.strmFits p)

/-- A router has a local port: `T`, `E0` and `E1` every router, `S` those of clusters 5 and 10 of a sector, an edge port those to which
an edge node attaches (R321, R322). -/
def hasPort (r i : Nat) : Bool :=
  if i < 3 then true else if i = 3 then decide (r % 16 = 5 ∨ r % 16 = 10)
  else decide (rtX r = 0 ∨ rtX r = 15 ∨ rtY r = 0 ∨ rtY r = 15)

/-- What a requester does as a packet of its own goes out: a credit is spent, a reply is awaited, a stream interface passes
its words on and returns their credits to its queue (R191, R333, R335). -/
def State.sending (s : State) (p : Packet) : State :=
  let s1 := if isResponse (pCmd p) || (s.resolve (pDest p)).isNone then s else s.spend (pSrc p) (pDest p)
  let s2 : State := if isAsked (pCmd p) then
      { s1 with net := { s1.net with awaiting := s1.net.awaiting ++
          [{ src := pSrc p, tag := pTag p, dest := pDest p,
             post := if pCmd p = 6 then (s.postOf p).map (·.src) else none,
             units := if pCmd p = 0 then 1 + unitsOf (pAddr p) (pCount p) else 1,
             stale := decide (pCmd p = 6) && (match s.postOf p with | some r => r.stale | none => false) }] } }
    else s1
  if pCmd p = 8 ∧ pSrc p < 0x100 then
    (match s2.strmQueue p with
     | none => s2
     | some q =>
       let u := s2.queue q
       let n := min (pAux p % 16) u.buffer.length
       s2.setQueue q { u with buffer := u.buffer.drop n, credits := u.credits + n })
  else s2

/-- A header stands at an input of a router: at the destination a fenced port answers for what is behind it; otherwise it
stays there until its next row. -/
def State.stand (s : State) (p : Packet) (t : BitVec 11) (r port : Nat) (prev : Option (Nat × Nat)) : State :=
  if (nextHop r t).isNone && s.fenced r (tagExit t) then
    (if isResponse (pCmd p) then s.count (Reg.nocCnt 2) 15 0
     else if isPosted (pCmd p) then s.postedDisc p
     else s.answer p 7)
  else { s with net := { s.net with transit := s.net.transit ++
      [{ pkt := p, tag := t, at_ := r, port := port, resp := isResponse (pCmd p), prev := prev }] } }

/-- A packet comes in by a local port: 0 `T`, 1 `E0`, 2 `E1`, 3 `S`, 4 an edge port, of the two of a corner router the one of its node
(R322). It waits at its sender while it lacks a credit or a buffer, or the input has no room. -/
def State.enter (s : State) (r i : Nat) (p : Packet) : State :=
  let s0 : State := { s with net := { s.net with outbox := s.net.outbox.erase p } }
  if !hasPort r i then s
  else if s.fenced r i then (if i = 0 then s0 else s0.speaker (engBehind r i))
  else if !s.canSend p || !s.net.room r (4 + i) (isResponse (pCmd p)) then s
  else
    let s1 := s0.sending p
    match s.resolve (pDest p) with
    | some t => s1.stand p t r (4 + i) none
    | none => if isAsked (pCmd p) then s1.answer p 2 else s1.respDisc

/-- ROUTER_HEADER: a header reaches an input of a router: by a local port it enters the mesh, by a mesh port it comes from
the neighbour on its route, where it won its output; another header is not due yet (R325, R332). -/
def execRouterHeader (r : RouterNo) (port : Fin 9) (p : Packet) (s : State) : Host.Outcome State Fault Refusal :=
  if 4 ≤ port.val then (s.enter r (port.val - 4) p).go
  else match s.net.transit.find? (fun t => decide (t.pkt = p) && decide (nextHop t.at_ t.tag = some (r.val, port.val))) with
    | none => s.go
    | some t => if s.net.wins t then ((s.leaveInput t).stand p t.tag r port (some (t.at_, t.port))).go else s.go

/-- AGE_INCREMENT: the header at the head of an input buffer that has not won its output for 32 cycles gains 1 in AGE, at most 63
(R331). -/
def execAgeIncrement (r : RouterNo) (port : Fin 9) (p : Packet) (s : State) : Host.Outcome State Fault Refusal :=
  match s.net.transit.find? (fun t => decide (t.pkt = p) && decide (t.at_ = r.val) && decide (t.port = port.val)) with
  | none => s.go
  | some t =>
    if !s.net.heads t then s.go
    else
    let q : Packet := { p with hdr := putBits p.hdr 87 82 (min 63 (pAge p + 1)) }
    ({ s with net := { s.net with transit := s.net.transit.map (fun x => if x = t then { t with pkt := q } else x) } } : State).go

/-! ### Arriving -/

/-- A packet as an error on a link has left it: its header sound and data units marked, or its header bad (R327). -/
def hitPacket (q p : Packet) : Bool :=
  (decide (putBits p.hdr 87 82 0 = putBits q.hdr 87 82 0) && decide (p.data.length = q.data.length) && decide (p.psn ≠ 0)) ||
    (pBad p && decide (p.data = q.data) && decide (p.psn = q.psn))

/-- The packet of the mesh that arrives as `p`: itself, at its destination if it stands there, or one that an error has hit. -/
def Net.carrier (n : Net) (p : Packet) : Option Transit :=
  let here (t : Transit) : Bool := (nextHop t.at_ t.tag).isNone
  match n.transit.find? (fun t => samePacket t.pkt p && here t), n.transit.find? (fun t => samePacket t.pkt p) with
  | some t, _ => some t
  | none, some t => some t
  | none, none => n.transit.find? (fun t => hitPacket t.pkt p && here t)

/-- The packet can be delivered: it stands at its destination router and wins its exit there; or it is not in the mesh, and its command
stands for its whole trip. -/
def State.due (s : State) (p : Packet) : Bool :=
  match s.net.carrier p with
  | none => true
  | some t => (nextHop t.at_ t.tag).isNone && s.net.wins t

/-- The packet is taken from its destination router. -/
def State.take (s : State) (p : Packet) : State :=
  match s.net.carrier p with
  | none => s
  | some t => s.leaveInput t

/-- A sector takes part in the network: powered, and in RUN in the fixed plane or out of it without a reset, while
Touchstone is LOST or RETURNING (R57, R342, R343). -/
def State.secUp (s : State) (k : Nat) : Bool :=
  s.secPowered k && (!s.inRun || s.secIn k || decide (s.fld (Reg.glbSecState k) 31 30 = 3))

/-- The domain behind the bridge of an endpoint is down for an access to an address (R342): a sector that is not powered or
has left; a cold cluster's own targets and engines; the dispatcher in reset; lanes of an unpowered quadrant. -/
def State.down (s : State) (d a : Nat) : Bool :=
  if d < 0x100 then !s.secUp (d / 16) || (s.inRun && !s.clIn d && (clusterTarget d a))
  else if d < 0x300 then
    (let p := s.netPhys (d - 0x100)
     !s.secUp (p / 34) || s.engOut p)
  else if 0x330 ≤ d ∧ d < 0x338 then decide (s.fld Reg.dptStatus 31 30 = 2 ∨ s.fld Reg.dptStatus 31 30 = 3)
  else if 0x340 ≤ d ∧ d < 0x350 then !s.pwr.quads.getLsbD ((d - 0x340) / 4)
  else false

/-- The address that a packet's domain is judged by: of a stream packet the table entry of its queue. -/
def pTarget (p : Packet) : Nat := if pCmd p = 8 ∨ pCmd p = 9 then Reg.queCfg (pQueue p) else pAddr p

/-- A request reaches its endpoint: discarded with a bad header, answered by the bridge of a domain that is down, or made
by `f` (R327, R342). -/
def State.request (s : State) (p : Packet) (cmd : Nat) (f : State → State) : Host.Outcome State Fault Refusal :=
  let s1 := s.take p
  if !s.due p then s.go
  else if pBad p then (s1.badHeader p).go
  else if pCmd p ≠ cmd then s.go
  else if s1.down (pDest p) (pTarget p) then
    (if isPosted cmd then (s1.postedDisc p).go
     else ((s1.count (Reg.nocCnt 0) 15 0).setBit Reg.nocStatus 0 true |>.answer p 1).go)
  else (f s1).go

/-- A completion reaches its requester's buffer. -/
def State.complete (s : State) (c : Completion) : State :=
  { s with net := { s.net with replies := s.net.replies.filter (fun x => x.src != c.src || x.tag != c.tag) ++ [c] } }

/-- Sector of a requester's endpoint. -/
def endpointSector (d : Nat) : Option Nat := if d < 0x100 then some (d / 16) else if d < 0x300 then some ((d - 0x100) / 32) else none

/-- The endpoint's requesters still run: its domain is not down, or its sector is on the road to power-down (R342). -/
def State.hears (s : State) (d a : Nat) : Bool := !s.down d a || (endpointSector d).any (fun k => s.pwr.orderly.getLsbD k)

/-- A response reaches its requester (R335, R337, R342): discarded with a bad header, inward to a domain whose requesters no longer run, or
with nobody waiting for it; else its request completes, the credit returns, and `f` follows. -/
def State.response (s : State) (p : Packet) (cmd : Nat) (f : Await → State → State) : Host.Outcome State Fault Refusal :=
  let s1 := s.take p
  if !s.due p then s.go
  else if pBad p then (s1.badHeader p).go
  else if pCmd p ≠ cmd then s.go
  else if !s1.hears (pDest p) (pAddr p) then s1.respDisc.go
  else match s1.net.awaiting.find? (fun w => w.src == pDest p && w.tag == pTag p) with
    | none => s1.respDisc.go
    | some w =>
      let s2 : State := { s1 with net := { s1.net with awaiting := s1.net.awaiting.erase w } }
      let s3 := (s2.restore w.src w.dest 1).complete
        { src := w.src, tag := w.tag, status := pStatus p, data := p.data, psn := p.psn }
      (f w s3).go

/-- NOC_RDR. -/
def execNocRdr (p : Packet) (s : State) : Host.Outcome State Fault Refusal := s.response p 3 (fun _ s => s)
/-- NOC_WRA. -/
def execNocWra (p : Packet) (s : State) : Host.Outcome State Fault Refusal := s.response p 4 (fun _ s => s)

/-- The code of a post reaches an engine that waits for it in stage W (R268, R510); the code on its way to a post unit is taken by
its own row. -/
def State.postAnswered (s : State) (w : Await) (code : W16) : State :=
  if 0x100 ≤ w.src ∧ w.src < 0x300 then
    (let e := w.src - 0x100
     let p := s.physOf e
     let g := s.eng p
     let s1 : State := { s with dpt := { s.dpt with responses := s.dpt.responses.erase (BitVec.ofNat 16 e, code) } }
     if g.post = .waiting ∧ !w.stale then s1.setEng p { g with post := .answered code } else s1)
  else s

/-- NOC_PRSP. -/
def execNocPrsp (p : Packet) (s : State) : Host.Outcome State Fault Refusal :=
  s.response p 7 (fun w s => s.postAnswered w (BitVec.ofNat 16 (pAux p)))

/-- NOC_CRET: returned credits join the requester's (R333, R334). -/
def execNocCret (p : Packet) (s : State) : Host.Outcome State Fault Refusal :=
  let s1 := s.take p
  if !s.due p then s.go
  else if pBad p then (s1.badHeader p).go
  else if pCmd p ≠ 5 then s.go
  else if s1.down (pDest p) (pAddr p) then s1.respDisc.go
  else (s1.restore (pDest p) (pSrc p) (pAux p % 65536)).go

/-- NOC_POST: the dispatcher accepts or refuses the item, and a PRSP sets out (R281, R328). The item's source is the logical
engine, the post unit's queue, or 0xFFFF for management (R271). Behind a bridge that is down the post is answered DOWN, also to
its poster. -/
def execNocPost (p : Packet) (s : State) : Host.Outcome State Fault Refusal :=
  let w := s.net.awaiting.find? (fun w => w.src == pSrc p && w.tag == pTag p)
  let src : W16 := match w with
    | some { post := some r, .. } => r
    | _ => (match s.postOf p with
        | some r => r.src
        | none => if pSrc p < 0x100 then BitVec.ofNat 16 (0x8000 + 32 * pSrc p)
            else if pSrc p < 0x300 then BitVec.ofNat 16 (pSrc p - 0x100) else 0xFFFF)
  let r : PostReq := { src := src, stale := (match w with | some w => w.stale | none => false),
                       task := (pAddr p - 0x2000000000) / 64 % 4096, flow := BitVec.ofNat 16 (pAux p),
                       words := (List.range 32).map (fun i => BitVec.ofNat 16 (leAt p.data (2 * i) 2)) }
  if !s.due p then s.go
  else if !pBad p && decide (pCmd p = 6) && s.down (pDest p) (pAddr p) then
    (let s1 := s.take p
     let s2 : State := { s1 with dpt := { s1.dpt with posts := s1.dpt.posts.erase r } }
     (((s2.count (Reg.nocCnt 0) 15 0).setBit Reg.nocStatus 0 true).respond r 4 |>.answer p 1).go)
  else s.request p 6 (fun s =>
    if destOf (pAddr p) ≠ some (pDest p, true) ∨ pAddr p < 0x2000000000 ∨ 0x2000040000 ≤ pAddr p then s.answer p 2
    else if p.psn ≠ 0 then { s with dpt := { s.dpt with posts := s.dpt.posts.erase r } }
    else
      let s1 := ({ s with dpt := { s.dpt with posts := s.dpt.posts.erase r } } : State).post r
      let code := match s1.dpt.responses.getLast? with
        | some c => c.2.toNat
        | none => 0
      (s1.readiness).reply p 7 0 code)

/-! ### Streams (R191, R193, R328) -/

/-- NOC_STRM: the words join the buffer of the partner's stream interface, which holds 8; a packet for which it has no room waits in its
pool (R191). -/
def execNocStrm (p : Packet) (s : State) : Host.Outcome State Fault Refusal :=
  let n := min 8 (pAux p % 16)
  if !pBad p && decide (p.psn = 0) && s.qDir (pQueue p) == 2 && s.qFar (pQueue p) == 2 &&
      decide (8 < (s.queue (pQueue p)).buffer.length + n) && !s.down (pDest p) (pTarget p) then s.go
  else s.request p 8 (fun s =>
    let q := pQueue p
    let s1 := s.freePosted p
    if p.psn ≠ 0 ∨ s.qDir q ≠ 2 ∨ s.qFar q ≠ 2 then s1
    else s1.setQueue q { s1.queue q with buffer := (s1.queue q).buffer ++
        (List.range (min 8 (pAux p % 16))).map (strmWord p) })

/-- NOC_RSTN: the partner queue enters resync without being emptied. One that is in resync already starts its count of discarded words again
at 0 (DESIGN CHOICE: R193 does not say whether the count goes on). -/
def execNocRstn (p : Packet) (s : State) : Host.Outcome State Fault Refusal :=
  s.request p 9 (fun s =>
    let q := pQueue p
    let s1 := s.freePosted p
    if s.qDir q ≠ 2 ∨ s.qFar q ≠ 2 then s1 else s1.setQueue q { s1.queue q with resync := true, disc := 0 })

/-- The restart notice of an OUT NET queue (R193). -/
def State.restartNotice (s : State) (q : Nat) : State :=
  if s.qDir q = 1 ∧ s.qFar q = 2 then
    s.send { hdr := mkHdr (s.qFarId q / 32) (q / 32) 9 0 0 (s.classOf (q / 32)) 0 (s.qFarId q * 2 ^ 16) }
  else s

/-- CRET_SEND: a pool sends the credits of a requester that have joined its return count, once there are 16 or `CRET_WAIT` cycles of NCLK
have passed since the first joined it (R334). The CRET has the class of the requests it answers (R332). -/
def execCretSend (pool req : BitVec 10) (s : State) : Host.Outcome State Fault Refusal :=
  let key := returnKey pool.toNat req.toNat
  let n := Tbl.get 0 s.net.returns key
  let waited := Config.nclkAt s.tsb.tick - Config.nclkAt (Tbl.get 0 s.net.returnsAt key)
  if n = 0 ∨ (n < 16 ∧ waited < s.fld Reg.nocCfg 7 0) then s.go
  else
    let k := min n 65535
    let s1 : State := { s with net := { s.net with returns := Tbl.set 0 s.net.returns (returnKey pool.toNat req.toNat) (n - k) } }
    (s1.send { hdr := mkHdr req.toNat pool.toNat 5 0 0 (s.classOf req.toNat) 0 k }).go

/-- REPLY_TIMEOUT: the request completes TIMEOUT and its credit is lost; an engine's post ends with code 5 (R268, R337). -/
def execReplyTimeout (src : BitVec 10) (tag : Byte) (s : State) : Host.Outcome State Fault Refusal :=
  match s.net.awaiting.find? (fun w => w.src == src.toNat && w.tag == tag.toNat) with
  | none => s.go
  | some w =>
    let s1 : State := { s with net := { s.net with awaiting := s.net.awaiting.erase w } }
    let s2 := ((s1.count (Reg.nocCnt 3) 31 16).setBit Reg.nocStatus 2 true).creditLost
    let s3 := s2.complete { src := w.src, tag := w.tag, status := 8, data := [], psn := 0 }
    let s4 : State := match w.post with
      | some r => if 0x8000 ≤ r.toNat then { s3 with dpt := { s3.dpt with responses := s3.dpt.responses ++ [(r, 5)] } }
                  else s3.postAnswered w 5
      | none => s3
    s4.go

end Sys2Proof.Machine
end

