-- ==== Sys2Proof/Machine/Resets.lean ====
section
/-!
DEFINITION. Sys2Proof/Machine/Resets.lean: regions that leave the fixed plane, the sector and cluster resets, reloads, the
rejoin, dead engines and their spares (R22, R149, R235 to R238, R402, R473 to R477, R487).
-/
namespace Sys2Proof.Machine

def clusterTiles (n : Nat) : List Nat := (List.range 16).map (fun j => 16 * n + j)
def sectorTiles (k : Nat) : List Nat := (List.range 256).map (fun i => 256 * k + i)
def sectorClusters (k : Nat) : List Nat := (List.range 16).map (fun j => 16 * k + j)

/-! ### Engines (R238, R291) -/

/-- An engine leaves its plane: its item is aborted, its prefetched item returns (R291). -/
def State.engLeave (s : State) (p : Nat) : State :=
  let s1 := (s.itemEnd p (reasonAbort + reasonDown)).returnPrefetch p reasonDown
  s1.setEngDpt p ((s1.engDpt p).leave false)

/-- A reset of an engine's domain; dead mark and CHECK count belong to the sector reset (R238). -/
def State.engReset (s0 : State) (p : Nat) : State :=
  let s := s0.dropPost p
  let g := s.eng p
  (s.setEngDpt p ((s.engDpt p).leave true)).setEng p { run := .reset, dead := g.dead, checks := g.checks, govp := (s.engDesc p 0).getLsbD 5 }

/-- An engine leaves its plane while its cluster stays in: its reset, the SO words still seen in this slot, and the slot of
its departure, unless it was out before (R149, R150, R236). A spare that loads goes on loading, an engine in reset stays there. -/
def State.engDepart (s : State) (p : Nat) : State :=
  let g := s.eng p
  if g.run = .loading ∨ g.run = .reset then s
  else
  let prev := if g.soTick = s.tsb.tick then g.soPrev else g.so
  let s1 := s.engReset p
  s1.setEng p { s1.eng p with run := .out, soPrev := prev, soTick := if s.engOut p then g.soTick else s.tsb.tick,
                              left := if s.engOut p then g.left else some (s.tsb.cx, s.tsb.slot) }

/-- The whole gang of an engine leaves its plane and waits outside (R232, R236). -/
def State.gangOut (s : State) (p : Nat) : State :=
  let ps := s.gang p
  let s1 := match ps.head? with
    | some ld => s.engLeave ld
    | none => s.engLeave p
  ps.foldl State.engDepart s1

/-- An engine enters its plane and idles; a spare that serves nothing stays outside. After a departure of its own, its stream
outputs show their DARK policy through the slot of the rejoin, in which no word it drives can yet be seen (R149). -/
def State.engJoin (s : State) (p : Nat) : State :=
  let g := s.eng p
  if g.dead then s
  else
    let dark := match g.left, s.logOf p with
      | some _, some e => some (FWord.dark (0x200 + e))
      | _, _ => none
    s.setEng p { g with run := if (s.logOf p).isSome then .idle else .out, govp := (s.engDesc p 0).getLsbD 5,
                        ended := true, rejoinAt := none, copyFrom := none, left := none,
                        soPrev := match dark with
                          | some w => Vector.replicate 4 w
                          | none => g.soPrev,
                        soTick := if dark.isSome then s.tsb.tick else g.soTick }

/-- The members of a gang that wait outside rejoin once none of them is dead, loading or in reset (R22, R232, R236). -/
def State.gangJoin (s : State) (p : Nat) : State :=
  let ps := s.gang p
  if ps.any (fun q => (s.eng q).dead || decide ((s.eng q).run = .loading) || decide ((s.eng q).run = .reset)) then s
  else ps.foldl (fun s q => if (s.eng q).run = .out then s.engJoin q else s) s

/-- Every member of the gang of `ld` is in the plane. -/
def State.gangIn (s : State) (ld : Nat) : Bool := (s.gang ld).all (fun p => s.engIn p)

/-- The pinned engines among some physical ones take CROSS, each gang once its members are all in (R22, R223). -/
def State.crossAll (s : State) (ps : List Nat) : State :=
  ps.foldl (fun s p => if s.leads p && !s.pooled p && s.gangIn p then s.cross p else s) s

/-! ### Departures -/

/-- A cluster leaves the fixed plane in the current slot (R149, R154, R487). -/
def State.clusterOut (s : State) (n : Nat) : State :=
  if s.clIn n then
    (let bits := s.decBits (clusterTiles n)
     let s1 := (s.setBit (Reg.glbCl n) 0 true)
     { s1 with leaves := Tbl.insert s1.leaves n (s1.tsb.cx, s1.tsb.slot)
               dec := s1.dec ++ bits.map (fun b => { bit := b, tick := s1.tsb.tick, word := none }) })
  else s

/-- A preparation is discarded; the context words that it staged stay in the store (R406). -/
def State.unprepare (s : State) : State :=
  match s.acc.prepared with
  | none => s
  | some p =>
    let as := ((s.accordLoads p.num ++ s.accordLoads s.accordNow).flatMap
        (fun r => (List.range (r.2.length / 4)).map (fun i => r.1 + 4 * i))).filter
      (fun a => p.hot.any (fun n => clusterTarget n a))
    let s1 := (s.setBit Reg.accordStatus 28 false).setFld Reg.accordStatus 15 8
      (match s.acc.inflight with | some w => w.num | none => 0)
    { s1 with acc := { s1.acc with prepared := none, stale := s1.acc.stale ++ as.filter (fun a => !decide (a ∈ s1.acc.stale)),
                                   maps := if s1.acc.inflight.isSome then s1.acc.maps else [] } }

/-- A hot cluster is reset: the switch takes it cold, and a preparation that staged it is discarded (R406, R407). -/
def State.hotLost (s : State) (n : Nat) : State :=
  let s1 : State := match s.acc.inflight with
    | some w =>
      if n ∈ w.hot then
        { s with acc := { s.acc with inflight := some { w with hot := w.hot.filter (· != n), cold := w.cold ++ [n] },
                                     maps := s.acc.maps.filter (fun e => !clusterTarget n e.1) } }
      else s
    | none => s
  match s1.acc.prepared with
  | some p => if n ∈ p.hot then s1.unprepare else s1
  | none => s1

/-- The state that a reset of cluster `n` clears (R139, R187, R238, R477). Words kept of border channels go with the
receiving region's reset (R149). -/
def State.clusterClear (s : State) (n : Nat) : State :=
  let s1 := (clusterTiles n).foldl State.tileReset (s.hotLost n)
  let qs := (List.range 32).map (fun i => 32 * n + i)
  let s2 := qs.foldl (fun s q => (s.restartNotice q).queueReset q) s1
  let ps := [s.physOf (2 * n), s.physOf (2 * n + 1)]
  let s3 := ps.foldl (fun s p => (s.gangOut p).engLeave p) s2
  let s4 := ps.foldl State.engReset s3
  let inQ (w : W16) : Bool := decide (0x8000 ≤ w.toNat ∧ (w.toNat - 0x8000) / 32 = n)
  let inE (w : W16) : Bool := decide (w.toNat / 2 = n ∧ w.toNat < 512)
  { s4 with held := s4.held.filter (fun e => e.1 / 320 != n)
            dpt := { s4.dpt with posts := s4.dpt.posts.filter (fun p => !(inQ p.src || inE p.src)),
                                 responses := s4.dpt.responses.filter (fun r => !(inQ r.1 || inE r.1)) }
            net := { s4.net with awaiting := s4.net.awaiting.filter (fun w => w.src != n && (w.src < 0x100 || w.src - 0x100 != 2 * n &&
                       w.src - 0x100 != 2 * n + 1)) } }

/-- A reset of cluster `n`: it leaves, is held in reset, and its reload begins (R402, R476). -/
def State.clusterReset (s : State) (n acc : Nat) : State :=
  let s1 := ((s.clusterOut n).clusterClear n).setFld (Reg.glbCl n) 2 1 1
  { s1 with reloads := Tbl.set none s1.reloads n (some { accord := acc, doneAt := none }) }

/-- Sector `k` leaves the fixed plane in the current slot: what `GLB_SEC` shows, its sorter's list, its clusters, the entries queued for it
(R172, R304, R487). In the slot of its rejoin it has not rejoined, and its list stays as it was (R173). -/
def State.sectorOut (s : State) (k plane cause : Nat) : State :=
  let w : Nat := plane * 2 ^ 30 + cause * 2 ^ 26 + s.tsb.slot % 128
  let s1 := (s.setReg (Reg.glbSecState k) (BitVec.ofNat 32 w)).setReg (Reg.glbSecLeave k)
    (BitVec.ofNat 32 (s.tsb.crossing * 2 ^ 16 + s.tsb.orbit.toNat % 2 ^ 16))
  let joined := s.fld (Reg.glbSecState k) 29 26 != 0 && s.tsb.crossing == 0 && s.tsb.slot == 0 &&
    s.reg (Reg.glbSecJoin k) == BitVec.ofNat 32 s.tsb.orbit.toNat
  let s1 : State := if joined then s1 else { s1 with leaves := Tbl.insert s1.leaves (256 + k) (s.tsb.cx, s.tsb.slot) }
  let s1 := s1.setSorter k { s1.sorter k with live := false }
  let s2 := (sectorClusters k).foldl State.clusterOut s1
  let s3 := s2.queueMissed k
  if s3.secPower k = 3 then s3.setSecPower k 2 else s3

/-- The broadcast that clears the fences of a sector and restores its identity map (R237, R347). Substitutions of the sector still
waiting to be broadcast are dropped. -/
def State.unfence (s0 : State) (k : Nat) : State :=
  let bs := s0.net.bcast.map (fun b => { b with fences := b.fences.filter (fun f => f.1 / 16 != k),
                                                map := b.map.filter (fun m => m.1 / 32 != k) })
  let s : State := { s0 with net := { s0.net with bcast := bs.filter (fun b => !(b.fences.isEmpty && b.map.isEmpty)) } }
  let fs := ((sectorClusters k).filter (fun n => s.reg (Reg.nocFence n) ≠ 0)).map (fun n => (n, (0 : W32)))
  let ms := ((List.range 32).map (fun i => 32 * k + i)).filterMap (fun e =>
    if (Tbl.get none s.net.map e).isSome then some (e, 34 * k + e % 32) else none)
  if fs.isEmpty && ms.isEmpty then s
  else { s with net := { s.net with bcast := s.net.bcast ++ [{ fences := fs, map := ms }] } }

/-- The state that a reset of sector `k` clears beside that of its clusters (R172, R237, R238, R301, R477). -/
def State.sectorClear (s : State) (k : Nat) : State :=
  let s1 := (sectorClusters k).foldl State.clusterClear s
  let s2 := (s1.sorterReset k).ringsInvalid k
  let s3 := (s2.setReg (Reg.secSpare k) 0x3F3F).unfence k
  let ps := (List.range 34).map (fun i => 34 * k + i)
  let s4 := ps.foldl (fun s p => (s.setEng p { run := .reset, govp := (s.engDesc p 0).getLsbD 5 }).setBit (Reg.engStatus p) 31
    false) s3
  { s4 with prot := { s4.prot with copies := s4.prot.copies.filter (fun c => persistent c.memid && ownerOf c.memid != k) } }

/-- The reload of sector `k` begins, or begins again (R473, R476): the whole sector is held in reset. -/
def State.reloadStart (s : State) (k acc : Nat) : State :=
  let s1 := (sectorClusters k).foldl (fun s n => s.setFld (Reg.glbCl n) 2 1 1) s
  { s1 with reloads := Tbl.set none (s1.reloads.filter (fun e => e.1 / 16 != k)) (256 + k) (some { accord := acc, doneAt := none }) }

/-- A sector reset with a cause (R476, R477): a sector already out restarts its reset and makes no new departure. An
uncorrectable error and `GLB_RESET_CMD` commit an event record. -/
def State.sectorReset (s : State) (k cause acc : Nat) : State :=
  let again := (Tbl.get none s.reloads (256 + k)).isSome
  let s1 := (if s.secIn k then s.sectorOut k 0 cause else s).readoutLeave k
  let s2 := (s1.sectorClear k).reloadStart k acc
  if (cause = 1 ∨ cause = 3) ∧ !again then s2.event 3 k else s2

/-- A sector reset for a SYNC_RESET action or `GLB_RESET_CMD` reaches only a sector in the fixed plane (R63, R478). -/
def State.syncReset (s : State) (k cause : Nat) : State :=
  if s.secIn k then s.sectorReset k cause s.accordNow else s

/-- The sector resets that fall at this slot boundary: uncorrectable errors, then `GLB_RESET_CMD` writes. -/
def State.paySectors (s : State) : State :=
  let ue := s.prot.owed.filter (fun k => decide (k < 16))
  let s1 : State := { s with prot := { s.prot with owed := s.prot.owed.filter (fun k => !decide (k < 16)) } }
  let s2 := (ue.filter s.secPowered).foldl (fun s k => s.sectorReset k 1 s.accordNow) s1
  let rs := s2.sectorResets
  rs.foldl (fun s r => s.syncReset r.1 r.2) { s2 with sectorResets := [] }

/-! ### Reload and rejoin (R22, R402) -/

/-- Sector of a region: cluster n, or sector 256 + s. -/
def regionSector (r : Nat) : Nat := if r < 256 then r / 16 else r - 256

/-- The region has rejoined, or stays out for good: a switch that waited for it no longer does (R405). -/
def State.coldDone (s : State) (r : Nat) : State :=
  match s.acc.inflight with
  | some w =>
    if w.stage = 4 then
      (let cold := w.cold.filter (fun x => x != r && !(decide (256 ≤ r ∧ x < 256) && x / 16 == r - 256))
       let s1 : State := { s with acc := { s.acc with inflight := if cold = [] then none else some { w with cold := cold } } }
       let k := regionSector r
       let still := cold.any (fun x => regionSector x == k)
       let s2 := if still then s1 else s1.setBit Reg.accordCold (16 + k) false
       if cold = [] then (s2.setFld Reg.accordStatus 31 29 0).setFld Reg.accordStatus 15 8 0 else s2)
    else s
  | none => s

/-- A cluster enters the fixed plane: its engines idle, its requesters hold their credits again (R22, R193, R343). -/
def State.clusterJoin (s : State) (n : Nat) : State :=
  let s1 := s.setBit (Reg.glbCl n) 0 false
  let ps := [s1.physOf (2 * n), s1.physOf (2 * n + 1)]
  let s2 := ps.foldl State.gangJoin (ps.foldl (fun s p => if (s.eng p).run = .reset then s.engJoin p else s) s1)
  s2.creditsReset (fun d => d == n || d == 0x100 + 2 * n || d == 0x100 + 2 * n + 1)

/-- The sector's sorter at its rejoin: its first capture holds only words written from this slot on, and its first emission is that of this
capture (R172). -/
def State.sorterJoin (s : State) (k : Nat) : State :=
  { s.setSorter k { live := (s.sorter k).live } with
    sortWrites := s.sortWrites.filter (fun w => w.sector != k || decide (s.tsb.tick ≤ w.tick)) }

/-- Sector `k` enters the fixed plane (R22, R172, R318, R487). -/
def State.sectorJoin (s : State) (k : Nat) : State :=
  let s1 := (s.setFld (Reg.glbSecState k) 31 30 1).setReg (Reg.glbSecJoin k) (BitVec.ofNat 32 s.tsb.orbit.toNat)
  let s2 := (sectorClusters k).foldl (fun s n =>
    if (Tbl.get none s.reloads n).isSome then s else s.clusterJoin n) s1
  let s4 := [34 * k + 32, 34 * k + 33].foldl (fun s p => if (s.eng p).run = .reset then s.engJoin p else s) s2
  let s5 := (s4.sorterJoin k).reoffer k
  if s5.secPower k = 2 then s5.setSecPower k 3 else s5

/-- The first slot of an orbit in which regions rejoin: RUN, the plane runs. -/
def State.joinSlot (s : State) : Bool :=
  s.inRun && s.planeRuns && decide (s.tsb.crossing = 0) && decide (s.tsb.slot = 0)

/-- The region may rejoin now (R22, R58, R362, R435): its reload completed at least one crossing ago, or it is out only
because Touchstone was LOST and admission has admitted again. -/
def State.mayJoin (s : State) (r : Nat) : Bool :=
  let k := if r < 256 then r / 16 else r - 256
  s.joinSlot && !s.adm.dropsec.getLsbD k && s.secPowered k &&
    (match Tbl.get none s.reloads r with
     | some { doneAt := some x, .. } => decide (x + 1 ≤ s.tsb.cx) && s.tsb.ret == .none
     | some { doneAt := none, .. } => false
     | none => decide (256 ≤ r) && decide (s.fld (Reg.glbSecState k) 31 30 = 3) && s.tsb.ret == .none) &&
    (decide (256 ≤ r) || s.secIn k)

/-- REGION_REJOIN: at slot 0 of crossing 0 the region enters the fixed plane, and its pinned engines take CROSS (R22). -/
def execRegionRejoin (k : RegionNo) (s : State) : Host.Outcome State Fault Refusal :=
  if !s.mayJoin k then s.go
  else
    let s1 : State := { s with reloads := Tbl.set none s.reloads k none }
    if k.val < 256 then
      (let s2 := s1.clusterJoin k
       let ps := [s2.physOf (2 * k.val), s2.physOf (2 * k.val + 1)]
       ((s2.crossAll (ps.flatMap s2.gang).eraseDups).coldDone k).go)
    else
      let s2 := s1.sectorJoin (k.val - 256)
      ((s2.crossAll ((List.range 34).map (fun i => 34 * (k.val - 256) + i))).coldDone k).go

/-! ### Dead engines and spares (R235, R236) -/

/-- A spare of the sector that is free: first k = 32, then 33. -/
def State.freeSpare (s : State) (sec : Nat) : Option Nat :=
  [34 * sec + 32, 34 * sec + 33].find? (fun p => !(s.eng p).dead && (s.logOf p).isNone)

/-- A physical engine is declared dead: its logical engine, with its gang, leaves; a free spare takes its place in the map and the
network fences the dead port, or the engine stays mapped and out (R235, R236, R347). It is the engine's fault DEAD: `FCAUSE`,
`FAULT_EVT` and `ENG_ST_COPY` (R241, Table 9). -/
def State.declareDead (s : State) (p : Nat) : State :=
  if (s.eng p).dead then s
  else
    let lg := s.logOf p
    let sec := p / 34
    let s0 := ((s.copySt p).setFld (Reg.engStatus p) 11 8 7).setBit (Reg.engStatus p) 12 true
    let s1 := if lg.isSome then s0.gangOut p else s0
    let s2 := (((s1.setEng p { s1.eng p with dead := true, run := .out, rejoinAt := none, copyFrom := none }).setBit
      (Reg.engStatus p) 31 true).fault 6).event 2 p
    match lg with
    | none => s2
    | some e =>
      match s2.freeSpare sec with
      | none => s2.fault 5
      | some q =>
        let pq := engPort p
        let s3 := if p % 34 = 32 then s2.setFld (Reg.secSpare sec) 5 0 63
                  else if p % 34 = 33 then s2.setFld (Reg.secSpare sec) 13 8 63 else s2
        let s4 := if q % 34 = 32 then s3.setFld (Reg.secSpare sec) 5 0 (e % 32) else s3.setFld (Reg.secSpare sec) 13 8 (e % 32)
        let g := s4.eng p
        let s5 := s4.setEng q { run := .loading, checks := (s4.eng q).checks, copyFrom := some p, soPrev := g.soPrev,
                                soTick := g.soTick, left := g.left }
        let s6 : State := { s5 with net := { s5.net with bcast := s5.net.bcast ++
          [{ fences := [(pq.1, s5.reg (Reg.nocFence pq.1) ||| BitVec.ofNat 32 (2 ^ pq.2))], map := [(e, q)] }] } }
        s6.record .spare 0 q p 0

/-- DECLARE_DEAD: Crucible declares an engine dead after its second CHECK, or before RUN for Assay (R235). -/
def execDeclareDead (p : EngineNo) (s : State) : Host.Outcome State Fault Refusal :=
  if 2 ≤ (s.eng p).checks ∨ !s.inRun then (s.declareDead p).go else s.go

/-- X and Y memory of a dead engine, copied a row at a time; a row with an uncorrectable error comes from the keep store's
image, which `s` holds already at the spare (R236, R416). -/
def State.copyRows (s : State) (src dst : Nat) : State :=
  (List.range 2048).foldl (fun s i =>
    let a := engWin src + 0x2000 + 8 * i
    let q := s.read a 8 .spareCopy
    if q.2 then q.1 else q.1.store (engWin dst + 0x2000 + 8 * i) (q.1.bytes a 8)) s

/-- SPARE_COPY_COMPLETE: the spare's program memory and descriptor are loaded, X and Y memory copied; its engine rejoins at the
first orbit start at least one crossing later (R236). -/
def execSpareCopyComplete (p : EngineNo) (s : State) : Host.Outcome State Fault Refusal :=
  let g := s.eng p
  match g.copyFrom with
  | none => s.go
  | some src =>
    if g.run ≠ .loading ∨ g.rejoinAt.isSome then s.go
    else
      let win (a : Nat) : Bool := decide (s.engPlace a / 0x8000 = engWin p / 0x8000)
      let s1 := (s.applyLoads win (loadSections.flatMap s.sectionLoads)).applyLoads win (s.accordLoads s.accordNow)
      let s2 := s1.copyRows src p
      (s2.setEng p { s2.eng p with rejoinAt := some (s.tsb.cx + 1) }).go

/-- At an orbit start the substituted engines whose copy completed at least one crossing ago rejoin, each with its gang, when
their sector is in the fixed plane and no member of the gang is dead, in reset or still loading (R236). -/
def State.spareJoins (s : State) : State :=
  let due (g : EngSt) : Bool := match g.rejoinAt with
    | some x => decide (x ≤ s.tsb.cx)
    | none => false
  let ready := (s.engines.filter (fun e => due e.2 && s.secIn (e.1 / 34))).map (·.1)
  ready.foldl (fun s p =>
    if (s.gang p).any (fun q => (s.eng q).dead || decide ((s.eng q).run = .reset) || (decide ((s.eng q).run = .loading) && !due (s.eng q))) then s
    else (s.gang p).foldl (fun s q => if (s.eng q).run = .out ∨ (s.eng q).run = .loading then s.engJoin q else s) s) s

/-! ### Commands -/

/-- `GLB_RESET_CMD` is accepted only in RUN; a write that names no operation it has is an error (R478). -/
def State.cmdErr (s : State) : State := s.fault 12

/-- GLB_RESET_CMD SECTOR. -/
def State.resetSectors (s : State) (mask : Nat) : State :=
  if !s.inRun then s.cmdErr
  else { s with sectorResets := s.sectorResets ++
      (((List.range 16).filter (fun k => (mask / 2 ^ k) % 2 == 1)).filter (fun k => s.secIn k)).map (fun k => (k, 3)) }

/-- GLB_RESET_SECTOR. -/
def execGlbResetSector (mask : BitVec 16) (s : State) : Host.Outcome State Fault Refusal := (s.resetSectors mask.toNat).go

end Sys2Proof.Machine
end

