-- ==== Sys2Proof/Machine/Lanes.lean ====
section
/-!
DEFINITION. Sys2Proof/Machine/Lanes.lean: the lanes: receivers and their alignment, equalisation and delivery, loss and
return, the raw modes, and the transmit side (chapter 3).
-/
namespace Sys2Proof.Machine

/-! ### Configuration and states -/

def State.rxMode (s : State) (l : Nat) : Nat := s.fld (Reg.lanCfg l) 31 30
def State.rxSys (s : State) (l : Nat) : Bool := s.rbit (Reg.lanCfg l) 27
/-- Sector that the lane is mapped to (R86). -/
def State.laneSec (s : State) (l : Nat) : Nat := 4 * (l / 60) + s.fld (Reg.lanCfg l) 23 22
def State.laneCh (s : State) (l : Nat) : Nat := s.fld (Reg.lanCfg l) 21 18
/-- `LAN_STATUS.STATE`: 0 OFF, 1 ACQUIRE, 2 FRAMING, 3 MEASURE, 4 WAIT_JOIN, 5 LIVE, 6 HELD (Table 4). -/
def State.laneState (s : State) (l : Nat) : Nat := s.fld (Reg.lanStatus l) 2 0
def State.setLaneState (s : State) (l v : Nat) : State := s.setFld (Reg.lanStatus l) 2 0 v
/-- Steps of one crossing, 8M. -/
def State.steps (s : State) : Nat := 8 * s.M

/-- The receive half is powered (R70, R96). -/
def State.rxPowered (s : State) (l : Nat) : Bool :=
  s.pwr.quads.getLsbD (l / 60) && decide (s.rxMode l ≠ 0) && !s.rbit (Reg.lanCtrl l) 2

/-- The lane enters HELD with a code; during RUN that is a lane fault (R78, R92, R104, R479). -/
def State.laneHeld (s : State) (l code : Nat) : State :=
  let s1 := (s.setLaneState l 6).setFld (Reg.lanStatus l) 23 16 code
  if s1.inRun then s1.fault 3 else s1

/-- The lane goes back to ACQUIRE and will align again (R78). -/
def State.laneAcquire (s : State) (l : Nat) : State :=
  let k := s.lane l
  ((s.setLane l { k with sync := [], good := 0, locked := false, badHdr := 0, next := none, meas := [], late := false,
                         unlocked := false }).setBit (Reg.lanLat l) 31 false).setLaneState l 1

/-- The value of `RX_EN` that governs a delivery which starts in crossing `c` of the model's count (R96). -/
def State.rxOn (s : State) (l c : Nat) : Bool :=
  let k := s.lane l
  match k.rxEnNext with
  | some (x, _) => if x ≤ c then s.rbit (Reg.lanCtrl l) 0 else k.rxEn
  | none => s.rbit (Reg.lanCtrl l) 0

/-- The same, as if no write had fallen in the current cycle: so a loss in that cycle takes it (R97). -/
def State.rxOnBefore (s : State) (l c : Nat) : Bool :=
  match (s.lane l).rxWrite with
  | some (t, v) => if t = s.tsb.tick ∧ s.tsb.cx < c then v else s.rxOn l c
  | none => s.rxOn l c

/-- A loss of the lane (R90, R91): frames checked before this cycle keep their delivery, judged as for a LIVE lane where it was LIVE and
not only since this cycle; one checked in it is dark. -/
def State.laneLose (s : State) (l : Nat) : State :=
  let k := s.lane l
  let live := decide (s.laneState l = 5) && k.joinTick != some s.tsb.tick
  let fs := k.frames.map (fun f =>
    if f.tick = s.tsb.tick then { f with lost := true } else { f with live := f.live || (live && s.rxOnBefore l f.cx) })
  (s.setLane l { k with frames := fs }).laneAcquire l

/-! ### Latency (R79 to R81, R92) -/

/-- The crossing back from crossing number `n`, at most `fuel`, whose low 12 bits are `x` (R80). -/
def searchBack (len x : Nat) : Nat → Nat → Nat → Nat
  | 0, _, b => b
  | fuel + 1, n, b =>
    if n % 4096 = x then b else searchBack len x fuel (if n = 0 then len - 1 else n - 1) (b + 1)

/-- Crossing number at an offset of the model's crossing count from now. -/
def State.numberAt (s : State) (cx : Int) : Nat := (s.crossingPlus (cx - (s.tsb.cx : Int))).2

/-- The crossing of arrival of a first bit `ago` steps before this slot, in the model's count, and the step within it. -/
def State.arrival (s : State) (ago : Nat) : Int × Nat :=
  let m : Int := s.steps
  let r : Int := 8 * (s.tsb.slot : Int) - (ago : Int)
  ((s.tsb.cx : Int) + r.fdiv m, (r.fmod m).toNat)

/-- Latency register word of A steps. -/
def State.latWord (s : State) (a : Nat) : W32 :=
  BitVec.ofNat 32 (2 ^ 31 + (a / s.steps % 4096) * 2 ^ 16 + a % s.steps % 1024)
/-- A steps of a latency register. -/
def State.latOf (s : State) (r : Nat) : Nat := s.fld r 27 16 * s.steps + s.fld r 9 0

/-- E of the lane for an arrival latency of `a` steps (R81). -/
def State.eqDelay (s : State) (l a : Nat) : Int :=
  let ready : Nat := (a + 8 * s.M + 64 + 7) / 8
  let del : Nat := s.fld (Reg.lanEq l) 29 24 * s.M + s.fld (Reg.lanEq l) 22 16
  (del : Int) - (ready : Int)
/-- E_max (R81). -/
def State.eqMax (s : State) (l : Nat) : Nat := min (2048 / s.laneW l) 63 * s.M
def State.eqOk (s : State) (l a : Nat) : Bool := decide (0 ≤ s.eqDelay l a) && decide (s.eqDelay l a ≤ s.eqMax l)

/-- The device runs: the drift of a lane is judged (R92), not while the count is being taken again (R95). -/
def State.judges (s : State) : Bool := s.inRun && s.planeRuns && s.tsb.ret == .none

/-- The drift from the value admission last used (R92). -/
def State.driftOk (s : State) (l a : Nat) : Bool :=
  let b := s.latOf (Reg.lanLatAdm l)
  s.rbit (Reg.lanLatAdm l) 31 && decide ((if a ≤ b then b - a else a - b) ≤ s.fld (Reg.lanCfg l) 7 4)

/-- The measurement has ended with latency `a` (R78, R92). -/
def State.measured (s : State) (l a : Nat) : State :=
  let s1 := s.setReg (Reg.lanLat l) (s.latWord a)
  let s2 := s1.setLane l { s1.lane l with meas := [], joinSince := s1.tsb.tick, badHdr := 0 }
  if !s2.judges then (if s2.eqOk l a then s2.setLaneState l 4 else s2.laneHeld l 0x12)
  else if s2.eqOk l a && s2.driftOk l a then s2.setLaneState l 4
  else (s2.setBit (Reg.lanStatus l) 8 true).laneHeld l (if s2.eqOk l a then 0x16 else 0x12)

/-- One latency joins the measurement: 16 of them, no more than 2 steps apart (R78). -/
def State.measure (s : State) (l a : Nat) (consecutive : Bool) : State :=
  let k := s.lane l
  let m := if consecutive then k.meas ++ [a] else [a]
  if m.length < 16 then s.setLane l { k with meas := m }
  else
    let hi := m.foldl max 0
    let lo := m.foldl min hi
    if lo + 2 < hi then s.setLane l { k with meas := [] } else (s.setLane l { k with meas := m }).measured l hi

/-! ### Frames (R73 to R77, R88) -/

/-- Descramble the blocks of a frame. -/
def descrambleBlocks (st : BitVec 58) : List Block66 → BitVec 58 × List (BitVec 2 × BitVec 64)
  | [] => (st, [])
  | b :: t =>
    let q := scr64 descramble1 st b.2
    let r := descrambleBlocks q.1 t
    (r.1, (b.1, q.2) :: r.2)

/-- The four words of a payload block (R76). -/
def blockWords (x : BitVec 64) : List W16 := (List.range 4).map (fun k => BitVec.ofNat 16 (bitsOf x (16 * k + 15) (16 * k)))

/-- A list of words tagged as row 7 tags them. -/
def tagWords (l : List W16) : List FWord :=
  match l with
  | [] => []
  | w :: t => FWord.frame w :: t.map FWord.data

/-- A sync header that is neither of the two (R90). -/
def syncBad (b : BitVec 2) : Bool := b == 0 || b == 3

/-- The header of a received frame meets row 2 of Table 7. -/
def State.headerBad (s : State) (l : Nat) (b : BitVec 2 × BitVec 64) : Bool :=
  b.1 != 2 || decide (bitsOf b.2 7 0 ≠ (if s.rxSys l then 0xE1 else 0xD2)) || decide (bitsOf b.2 63 56 ≠ mirHcrc b.2)

/-- A good header is shown in `LAN_STATUS` (R89). -/
def State.headerSeen (s : State) (l : Nat) (h : BitVec 64) : State :=
  ((s.setFld (Reg.lanStatus l) 15 12 (bitsOf h 35 32)).setBit (Reg.lanStatus l) 11 (h.getLsbD 29)).setBit
    (Reg.lanStatus l) 10 (h.getLsbD 28)

/-- A byte of the report channel of a system lane (R103, R104). -/
def State.reportByte (s : State) (l : Nat) (h : BitVec 64) : State :=
  let k := s.lane l
  let i := bitsOf h 19 8 % 16
  let b : Byte := BitVec.ofNat 8 (bitsOf h 39 32)
  let r := if i = 0 then [b] else if k.report.length = i then k.report ++ [b] else []
  if r.length < 16 then s.setLane l { k with report := r }
  else if leAt r 0 1 ≠ 0xC3 ∨ rcrc (r.take 14) ≠ leAt r 14 2 then s.setLane l { k with report := [] }
  else
    let s1 := s.setLane l { k with report := [], reportAt := some s.tsb.cx }
    let s2 := [0, 1, 2, 3].foldl (fun s w => s.setReg (Reg.lanReport l + 4 * w) (BitVec.ofNat 32 (leAt r (4 * w) 4))) s1
    if leAt r 1 1 ≠ s.fld (Reg.lanEq l) 13 8 ∨ leAt r 2 1 ≠ s.fld (Reg.lanEq l) 7 0 then
      (s2.setBit (Reg.lanStatus l) 9 true).laneHeld l 0x15
    else s2

/-- What a frame is (R88): its row, from its own contents. -/
def frameRow (bad cross : Bool) (h : BitVec 64) (payBad : Bool) : Nat :=
  if bad then 2 else if !cross then 3 else if h.getLsbD 28 then 4 else if h.getLsbD 30 then 5 else if payBad then 6 else 7

/-- Invalid sync headers of what arrived: each counts in `CODE_ERR` and joins the last 64 (R88, R90). -/
def State.syncSeen (s : State) (l : Nat) (bad : List Bool) : State :=
  let k := s.lane l
  (s.setLane l { k with sync := (bad.reverse ++ k.sync).take 64 }).count (Reg.lanErrcnt l) 15 0 (bad.filter id).length

/-- A checked frame waits for its delivery; it was expected to carry crossing `x` of the model's count (R81, R82). -/
def State.keepFrame (s : State) (l x row : Nat) (words : List FWord) (dark sreset : Bool) : State :=
  let k := s.lane l
  let c := x + s.fld (Reg.lanEq l) 29 24
  s.setLane l { k with next := some (x + 1), badHdr := if row = 2 ∨ row = 3 then k.badHdr + 1 else 0,
                       frames := k.frames.filter (fun f => decide (s.tsb.cx ≤ f.cx) && f.cx != c) ++
                         [{ cx := c, tick := s.tsb.tick, row := row, words := words, dark := dark, sreset := sreset }] }

/-! ### Loss (R90, R91, R97) -/

/-- A condition of R90 holds: clock recovery has lost lock, 16 of the last 64 sync headers are invalid, `LOSS_N` consecutive headers are
bad, or the frame of a delivery that starts is late. -/
def State.lossHolds (s : State) (l : Nat) : Bool :=
  let k := s.lane l
  let n := s.fld (Reg.lanCfg l) 3 0
  k.unlocked || decide (16 ≤ (k.sync.filter id).length) || decide ((if n = 0 then 4 else n) ≤ k.badHdr) ||
    (k.late && decide (s.laneState l = 5))

/-- A loss counts (R91). -/
def State.lossSeen (s : State) (l : Nat) : State :=
  let s1 := ((s.setLane l { s.lane l with lossTick := some s.tsb.tick, goneTick := none }).count (Reg.lanEvtcnt l) 15 8).setBit
    (Reg.lanStatus l) 6 true
  if s1.inRun then s1.fault 3 else s1

/-- The lane is declared lost. A REALIGN written in the same cycle counts as well, and the lane aligns once (R97). -/
def State.declareLoss (s : State) (l : Nat) : State :=
  let k := s.lane l
  let s1 := if k.realignAt.isSome ∧ k.realignTick = some s.tsb.tick then
      (s.setLane l { k with realignAt := none }).count (Reg.lanEvtcnt l) 7 0 else s
  (s1.laneLose l).lossSeen l

/-- An aligned lane is declared lost in the cycle in which a condition of R90 becomes true. -/
def State.judgeLoss (s : State) (l : Nat) : State :=
  if 4 ≤ s.laneState l ∧ s.laneState l ≤ 6 ∧ s.lossHolds l then s.declareLoss l else s

/-- FRAMING: consecutive good headers or markers; after four the lane is locked, and it measures once Touchstone is ALIGNED
(R78). -/
def State.framing (s : State) (l : Nat) (good : Bool) : State :=
  let k := s.lane l
  let n := if good then k.good + 1 else 0
  let lk := k.locked || decide (4 ≤ n)
  let s1 := s.setLane l { k with good := min n 4, locked := lk, meas := [], next := none }
  if lk && decide (s.tsbState = .aligned) then s1.setLaneState l 3 else s1

/-- MIRPEL_FRAME: a frame has been received and checked; its first bit arrived `ago` steps before this slot (R78, R79, R88). In ACQUIRE its
blocks only pass through the descrambler (R73). A frame that arrives before the lane joins waits for its delivery like any other (R92). -/
def execMirpelFrame (l : LaneNo) (blocks : List Block66) (ago : Nat) (s : State) : Host.Outcome State Fault Refusal :=
  let st := s.laneState l
  let d := descrambleBlocks (s.lane l).rxScr blocks
  let fed := s.setLane l { s.lane l with rxScr := d.1 }
  if s.rxMode l ≠ 1 ∨ st < 1 ∨ blocks.length ≠ s.fld (Reg.lanCfg l) 15 8 then s.go
  else if st = 1 then fed.go
  else
    let s1 := fed.syncSeen l (blocks.map (fun b => syncBad b.1))
    match d.2 with
    | [] => s.go
    | h :: pay =>
      let bad := s1.headerBad l h
      let s2 := if bad then s1 else if s1.rxSys l then (s1.headerSeen l h.2).reportByte l h.2 else s1.headerSeen l h.2
      let ar := s2.arrival ago
      let cr := bitsOf h.2 19 8
      let back := searchBack s2.L cr 4095 (s2.numberAt ar.1) 0
      let x : Int := ar.1 - (back : Int)
      let ph := bitsOf h.2 27 20 * s2.M / 32
      let a : Nat := ((back * s2.steps + ar.2 : Nat) : Int) - (ph : Int) |>.toNat
      let payBad := pay.any (fun b => b.1 != 1) || decide (bitsOf h.2 55 40 ≠ mirFcrc (pay.map (·.2)))
      let keep (s : State) (exp row : Nat) : State :=
        s.keepFrame l exp row (tagWords (pay.flatMap (fun b => blockWords b.2))) (!bad && h.2.getLsbD 28) (!bad && h.2.getLsbD 29)
      let good := frameRow false true h.2 payBad
      if s2.laneState l = 2 then ((if !bad && decide (s2.tsbState = .aligned) then keep s2 x.toNat good else s2).framing l (!bad)).go
      else if s2.laneState l = 3 then
        (if bad then
           (let s3 := match (s2.lane l).next with
              | some e => keep s2 e 2
              | none => s2
            (s3.setLane l { s3.lane l with meas := [], next := none }).go)
         else ((keep s2 x.toNat good).measure l a (decide ((s2.lane l).next = some x.toNat))).go)
      else
        let exp := ((s2.lane l).next).getD x.toNat
        let cross := decide (cr = s2.numberAt exp % 4096)
        ((keep s2 exp (frameRow bad cross h.2 payBad)).judgeLoss l).go

/-! ### Raw modes (R105 to R107) -/

/-- The words of the data blocks of a raw 64b/66b crossing, each block's four words bad where the block is no data block. -/
def raw64Words (pay : List (BitVec 2 × BitVec 64)) : List FWord :=
  let ws := pay.flatMap (fun b => if b.1 = 1 then (blockWords b.2).map some else [none, none, none, none])
  match ws with
  | [] => []
  | w :: t => (match w with | some v => FWord.frame v | none => FWord.poison 2) ::
      t.map (fun w => match w with | some v => FWord.data v | none => FWord.poison 2)

/-- A data character. -/
def rawData (c : Option (Bool × Byte)) : Option Byte := match c with | some (false, b) => some b | _ => none

/-- The words of the data characters of a raw 8b/10b crossing, low byte first. -/
def raw8Words (w : Nat) (cs : List (Option (Bool × Byte))) : List FWord :=
  (List.range w).map (fun j =>
    match rawData ((cs[2 * j]?).join), rawData ((cs[2 * j + 1]?).join) with
    | some a, some b =>
      let v : W16 := BitVec.ofNat 16 (a.toNat + 256 * b.toNat)
      if j = 0 then FWord.frame v else FWord.data v
    | _, _ => FWord.poison 2)

/-- Whether a raw crossing begins with its marker, and the words it delivers; none where it is not of the lane's mode (R105, R106). -/
def State.rawTake (s : State) (l : Nat) (raw : RawCrossing) : Option (Bool × List FWord) := match raw with
  | .r64 bs =>
    if s.rxMode l ≠ 2 ∨ bs.length ≠ s.fld (Reg.lanCfg l) 15 8 then none
    else match (descrambleBlocks (s.lane l).rxScr bs).2 with
      | [] => none
      | h :: pay => some (h.1 == 2 && decide (bitsOf h.2 7 0 = 0x4B), raw64Words pay)
  | .r8 cs =>
    if s.rxMode l ≠ 3 ∨ cs.length ≠ s.fld (Reg.lanCfg l) 15 8 then none
    else match cs with
      | [] => none
      | h :: ds => some (decide (h = some (true, 0xBC)), raw8Words (s.laneW l) ds)

/-- What the receiver keeps and counts of a raw crossing: what is no data in a data position, and what is invalid elsewhere (R88, R105,
R106, Table 19). -/
def State.rawSeen (s : State) (l : Nat) (raw : RawCrossing) : State := match raw with
  | .r64 bs =>
    let d := descrambleBlocks (s.lane l).rxScr bs
    let s1 := (s.setLane l { s.lane l with rxScr := d.1 }).syncSeen l (bs.map (fun _ => false))
    let s2 := s1.setLane l { s1.lane l with sync := ((bs.map (fun b => syncBad b.1)).reverse ++ (s.lane l).sync).take 64 }
    s2.count (Reg.lanErrcnt l) 15 0 (((d.2.take 1).filter (fun b => syncBad b.1)).length +
      ((d.2.drop 1).filter (fun b => b.1 != 1)).length)
  | .r8 cs =>
    let data := (cs.drop 1).take (2 * s.laneW l)
    let rest := cs.take 1 ++ cs.drop (1 + 2 * s.laneW l)
    s.count (Reg.lanErrcnt l) 15 0 ((data.filter (fun c => (rawData c).isNone)).length + (rest.filter Option.isNone).length)

/-- In ACQUIRE a raw crossing only passes through the descrambler (R73). -/
def State.rawFed (s : State) (l : Nat) (raw : RawCrossing) : State := match raw with
  | .r64 bs => s.setLane l { s.lane l with rxScr := (descrambleBlocks (s.lane l).rxScr bs).1 }
  | .r8 _ => s

/-- RAW_CROSSING: a crossing of a raw stream has arrived, its marker's position `ago` steps before this slot. The
whole-crossing part of A is `LAN_EQ.XD` (R107). -/
def execRawCrossing (l : LaneNo) (raw : RawCrossing) (ago : Nat) (s : State) : Host.Outcome State Fault Refusal :=
  let st := s.laneState l
  if st < 1 then s.go
  else
    match s.rawTake l raw with
    | none => s.go
    | some (marker, words) =>
      if st = 1 then (s.rawFed l raw).go
      else
      let s1 := s.rawSeen l raw
      let ar := s1.arrival ago
      let xd := s1.fld (Reg.lanEq l) 13 8
      let x : Nat := (ar.1 - (xd : Int)).toNat
      let a := xd * s1.steps + ar.2
      if st = 2 then (s1.framing l marker).go
      else if st = 3 then
        (if marker then ((s1.keepFrame l x 7 words false false).measure l a true).go
         else
           let s3 := match (s1.lane l).next with
             | some e => s1.keepFrame l e 2 words false false
             | none => s1
           (s3.setLane l { s3.lane l with meas := [] }).go)
      else ((s1.keepFrame l (((s1.lane l).next).getD x) (if marker then 7 else 2) words false false).judgeLoss l).go

/-! ### Locking, joining, losing -/

/-- LANE_ACQUIRE_LOCK: clock recovery and block lock (R78). A lane whose quadrant reference is out of lock stays (R72). -/
def execLaneAcquireLock (l : LaneNo) (s : State) : Host.Outcome State Fault Refusal :=
  if s.rxPowered l && decide (s.laneState l ≤ 1) && !s.rbit (Reg.lanStatus l) 5 then
    ((s.laneAcquire l).setLaneState l 2).go
  else s.go

/-- LANE_LOSS: the clock recovery of the lane loses lock, the one condition of R90 that arises outside the device; an aligned lane is
declared lost. The other conditions declare their loss in the cycle of the frame or the delivery that makes them true (R91). A lane that a
commanded loss has taken in this same cycle counts its loss and aligns once (R97). -/
def execLaneLoss (l : LaneNo) (s : State) : Host.Outcome State Fault Refusal :=
  if (s.lane l).goneTick = some s.tsb.tick then (s.lossSeen l).go
  else if s.laneState l < 4 ∨ 6 < s.laneState l then s.go
  else ((s.setLane l { s.lane l with unlocked := true }).judgeLoss l).go

/-- LANE_JOIN: at an orbit start at least one crossing after it entered WAIT_JOIN the lane becomes LIVE (R92). -/
def execLaneJoin (l : LaneNo) (s : State) : Host.Outcome State Fault Refusal :=
  if s.laneState l = 4 ∧ s.planeRuns ∧ s.tsb.ret = .none ∧ s.tsb.crossing = 0 ∧ s.tsb.slot = 0 ∧
      (s.lane l).joinSince + s.M ≤ s.tsb.tick then ((s.setLane l { s.lane l with joinTick := some s.tsb.tick }).setLaneState l 5).go
  else s.go

/-- LANE_REALIGN: a write of 1 to `LAN_CTRL.REALIGN`; the lane is lost at the next crossing boundary (R93). One in the cycle of a loss
only counts: the lane aligns once (R97). -/
def State.laneRealign (s : State) (l : Nat) : State :=
  let k := s.lane l
  if k.lossTick = some s.tsb.tick then s.count (Reg.lanEvtcnt l) 7 0
  else s.setLane l { k with realignAt := some (s.tsb.cx + 1), realignTick := some s.tsb.tick }

def execLaneRealign (l : LaneNo) (s : State) : Host.Outcome State Fault Refusal := (s.laneRealign l).go

/-- The alignments commanded for the crossing that begins (R93). -/
def State.realignDue (s : State) : State :=
  (s.lanes.filter (fun e => match e.2.realignAt with | some x => decide (x ≤ s.tsb.cx) | none => false)).foldl (fun s e =>
    let gone := if 4 ≤ s.laneState e.1 then some s.tsb.tick else none
    let s1 := (s.setLane e.1 { s.lane e.1 with realignAt := none, goneTick := gone }).count (Reg.lanEvtcnt e.1) 7 0
    if 2 ≤ s1.laneState e.1 then s1.laneLose e.1 else s1) s

/-- LANE_ADOPT: a HELD lane asks for admission with its current A (R94). -/
def State.laneAdopt (s : State) (l : Nat) : State :=
  if s.laneState l = 6 then s.trigger (.adopt [l]) else s

def execLaneAdopt (l : LaneNo) (s : State) : Host.Outcome State Fault Refusal := (s.laneAdopt l).go

/-- Every lane with its receive mode on aligns again from MEASURE (R95). -/
def State.lanesMeasure (s : State) : State :=
  (List.range 240).foldl (fun s l =>
    if s.rxMode l ≠ 0 ∧ 3 ≤ s.laneState l then
      (s.setLane l { s.lane l with meas := [], next := none, badHdr := 0 }).setLaneState l 3
    else s) s

/-- The rest of a delivery under way, from the next slot on, as the lane delivers it in ACQUIRE: MARK DARK (R88, R95). -/
def State.darkRest (s : State) (l : Nat) (d : Delivery) : Delivery :=
  { d with words := d.words.take (s.laneWps l * (s.tsb.tick + 1 - d.start)) ++
             List.replicate (d.words.length - s.laneWps l * (s.tsb.tick + 1 - d.start)) (FWord.dark (0x100 + l)) }

/-- A quadrant lane reset: 60 lanes return to ACQUIRE (R95, R477). -/
def State.quadReset (s : State) (q : Nat) : State :=
  ((List.range 60).map (fun i => 60 * q + i)).foldl (fun s l =>
    let k := s.lane l
    if s.rxPowered l then
      let k1 : LaneSt := { k with frames := [], deliver := k.deliver.map (s.darkRest l), realignAt := none }
      ({ s with lanes := Tbl.set LaneSt.dflt s.lanes l k1 } : State).laneAcquire l
    else s) s

/-- GLB_RESET_CMD QUAD (R478). -/
def State.resetQuads (s : State) (mask : Nat) : State :=
  if !s.inRun then s.cmdErr
  else ((List.range 4).filter (fun q => (mask / 2 ^ q) % 2 == 1)).foldl State.quadReset s

/-- GLB_RESET_QUAD. -/
def execGlbResetQuad (mask : BitVec 4) (s : State) : Host.Outcome State Fault Refusal := (s.resetQuads mask.toNat).go

/-- The quadrant references are compared with the crossing clock over every orbit: lanes of a quadrant that is out set
`QREF_ERR` and return to ACQUIRE (R72). -/
def State.qrefCheck (s : State) (out : BitVec 4) : State :=
  (List.range 240).foldl (fun s l =>
    let bad := out.getLsbD (l / 60)
    if !bad && !s.rbit (Reg.lanStatus l) 5 then s
    else
      let s1 := s.setBit (Reg.lanStatus l) 5 bad
      if bad && decide (2 ≤ s1.laneState l) then s1.laneLose l else s1) s

/-! ### Delivery (R82, R88, R96) -/

/-- FRAME_DELIVERY: at slot DS the lane starts to deliver: the frame that waits for this crossing, or MARK DARK. A LIVE lane whose frame is
not there is lost (R90). -/
def execFrameDelivery (l : LaneNo) (s : State) : Host.Outcome State Fault Refusal :=
  let k := s.lane l
  if !s.planeRuns ∨ s.rxMode l = 0 ∨ s.fld (Reg.lanEq l) 22 16 ≠ s.tsb.slot ∨
      k.deliver.map (·.start) = some s.tsb.tick then s.go
  else
    let en := s.rxOn l s.tsb.cx
    let lin := s.fld (Reg.lanEq l) 29 24
    let w := s.laneW l
    let x := s.absOf (s.crossingPlus (-(lin : Int)))
    let f := k.frames.find? (fun f => f.cx == s.tsb.cx)
    let k1 : LaneSt := { k with frames := k.frames.filter (fun f => decide (s.tsb.cx < f.cx)) }
    let out (ws : List FWord) (d sr : Bool) (k : LaneSt) : LaneSt :=
      { k with deliver := some { start := s.tsb.tick, x := x, words := ws, dark := d, sreset := sr } }
    let darks := List.replicate w (FWord.dark (0x100 + l.val))
    let poisons := List.replicate w (FWord.poison 2)
    let live := decide (s.laneState l = 5)
    match f with
    | none => ((s.setLane l (out darks false false { k1 with late := k1.late || live })).judgeLoss l).go
    | some f =>
      if f.lost || !((live && en) || f.live) then (s.setLane l (out darks f.dark f.sreset k1)).go
      else
        let ws := if f.row = 4 then darks else if f.row = 7 then f.words else poisons
        let s1 := s.setLane l (out ws f.dark f.sreset k1)
        (if f.row = 2 then s1.count (Reg.lanEvtcnt l) 31 24
         else if f.row = 3 then (s1.count (Reg.lanEvtcnt l) 23 16).setBit (Reg.lanStatus l) 7 true
         else if f.row = 6 then s1.count (Reg.lanErrcnt l) 31 16 else s1).go

/-- A write of `RX_EN` (R96): the value governs from the next crossing boundary on. -/
def State.rxEnWrite (s : State) (l : Nat) (on : Bool) : State :=
  let s1 := s.setBit (Reg.lanCtrl l) 0 on
  s1.setLane l { s1.lane l with rxEn := s.rxOn l s.tsb.cx, rxEnNext := some (s1.tsb.cx + 1, on),
                                rxWrite := match (s.lane l).rxWrite with
                                  | some w => if w.1 = s.tsb.tick then some w else some (s.tsb.tick, s.rbit (Reg.lanCtrl l) 0)
                                  | none => some (s.tsb.tick, s.rbit (Reg.lanCtrl l) 0) }

/-- RX_EN_WRITE. -/
def execRxEnWrite (l : LaneNo) (on : Bool) (s : State) : Host.Outcome State Fault Refusal := (s.rxEnWrite l on).go

/-- A write of `TX_EN`: the next frame follows it (R100). -/
def State.txEnWrite (s : State) (l : Nat) (on : Bool) : State := s.setBit (Reg.lanCtrl l) 1 on

/-- TX_EN_WRITE. -/
def execTxEnWrite (l : LaneNo) (on : Bool) (s : State) : Host.Outcome State Fault Refusal := (s.txEnWrite l on).go

/-- A write of `PD`: unchanged where it would be 1 beside `RX_EN` or `TX_EN`; a lane powered down is OFF, one powered up
aligns from ACQUIRE (R96). -/
def State.pdWrite (s : State) (l : Nat) (on : Bool) : State :=
  if on && decide (s.fld (Reg.lanCtrl l) 1 0 ≠ 0) then s
  else if on = s.rbit (Reg.lanCtrl l) 2 then s
  else
    let s1 := (s.setBit (Reg.lanCtrl l) 2 on).laneAcquire l
    let s2 := s1.setLane l { s1.lane l with frames := [], deliver := none }
    if s2.rxPowered l then s2 else s2.setLaneState l 0

/-- PD_WRITE. -/
def execPdWrite (l : LaneNo) (on : Bool) (s : State) : Host.Outcome State Fault Refusal := (s.pdWrite l on).go

/-! ### The transmit side (R98 to R103) -/

/-- `SRESET` of a frame: the sector is out because of a sector reset, reload or cold accord (R100). -/
def State.txReset (s : State) (k : Nat) : Bool :=
  decide (s.fld (Reg.glbSecState k) 31 30 = 0) && decide (1 ≤ s.fld (Reg.glbSecState k) 29 26) &&
    decide (s.fld (Reg.glbSecState k) 29 26 ≤ 4)

/-- A word makes its frame dark, or bad (R99). -/
def isDark (w : FWord) : Bool := w.taken.tag == .mark && decide (bitsOf w.taken.d 15 12 = 1)
def isSpoilt (w : FWord) : Bool := w.taken.tag == .poison || (w.taken.tag == .mark && !isDark w)

/-- Words of the output frame of crossing `c` of the model's count (R155). -/
def LaneSt.outWords (k : LaneSt) (c w : Nat) : List FWord :=
  (List.range w).map (fun j => match k.fill.find? (fun e => e.1 == c && e.2.1 == j) with
    | some e => e.2.2
    | none => FWord.zero)

/-- Words in payload blocks (R76). -/
def payloadOf : Nat → List W16 → List (BitVec 64)
  | 0, _ => []
  | n + 1, ws => BitVec.ofNat 64 ((ws.take 4).foldr (fun w a => w.toNat + 65536 * a) 0) :: payloadOf n (ws.drop 4)

/-- Scramble blocks for the wire. -/
def scrambleBlocks (st : BitVec 58) : List (BitVec 2 × BitVec 64) → BitVec 58 × List (BitVec 2 × BitVec 64)
  | [] => (st, [])
  | b :: t =>
    let q := scr64 scramble1 st b.2
    let r := scrambleBlocks q.1 t
    (r.1, (b.1, q.2) :: r.2)

/-- Send a frame: `h` the header without its checks, `ws` the payload words (R73, R75). -/
def State.txFrame (s : State) (l h : Nat) (ws : List W16) : State :=
  let pay := payloadOf (s.fld (Reg.lanCfg l) 15 8 - 1) ws
  let h1 : BitVec 64 := BitVec.ofNat 64 (h % 2 ^ 40 + mirFcrc pay * 2 ^ 40)
  let h2 : BitVec 64 := BitVec.ofNat 64 (h1.toNat + mirHcrc h1 * 2 ^ 56)
  let k := s.lane l
  let r := scrambleBlocks k.txScr ((2, h2) :: pay.map (fun b => (1, b)))
  s.setLane l { k with txScr := r.1, sent := r.2, txAt := some s.tsb.cx }

/-- The transmitter of a lane in mode `m` sends a frame in this slot. -/
def State.txDue (s : State) (l m : Nat) : Bool :=
  decide (s.txMode l = m) && (s.lane l).txOn && !s.rbit (Reg.lanCtrl l) 2 && decide (s.tsbState ≠ .unlocked) &&
    decide (s.fld (Reg.lanCtrl l) 25 16 / 8 = s.tsb.slot) && (s.lane l).txAt != some s.tsb.cx

/-- The words, DARK, SRESET and PSN of the frame from the output lane port (R99, R100). -/
def State.txContent (s : State) (l : Nat) : List FWord × Bool × Bool × Bool :=
  let k := s.laneSec l
  let w := s.laneTxW l
  if !s.rbit (Reg.lanCtrl l) 1 || !s.secIn k then (List.replicate w FWord.zero, true, !s.secIn k && s.txReset k, false)
  else
    let ws := (s.lane l).outWords (s.tsb.cx - s.fld (Reg.lanCtrl l) 13 8) w
    let dark := ws.any isDark
    (ws, dark, false, !dark && ws.any isSpoilt)

/-- Words of frames already sent are dropped. -/
def State.txSpent (s : State) (l : Nat) : State :=
  let c := s.tsb.cx - s.fld (Reg.lanCtrl l) 13 8
  let k := s.lane l
  s.setLane l { k with fill := k.fill.filter (fun e => decide (c < e.1)) }

def flagAt (b : Bool) (i : Nat) : Nat := if b then 2 ^ i else 0

/-- `PHASE` of a sent frame (R98). -/
def State.txPhase (s : State) (l : Nat) : Nat := (s.fld (Reg.lanCtrl l) 25 16 * 32 / s.M) % 256

/-- MIRPEL_TX_FRAME: the frame of crossing c is sent TXLAT crossings later; `USER` is the transmitter's own, so a free value
(R74, R98). -/
def execMirpelTxFrame (l : LaneNo) (s : State) : Host.Outcome State Fault Refusal :=
  if !s.txDue l 1 then s.go
  else
    let c := s.txContent l
    let u := s.draw
    let cross := s.numberAt ((s.tsb.cx : Int) - (s.fld (Reg.lanCtrl l) 13 8 : Int)) % 4096
    let h := 0xD2 + cross * 2 ^ 8 + s.txPhase l * 2 ^ 20 + flagAt c.2.1 28 + flagAt c.2.2.1 29 + flagAt c.2.2.2 30 +
      (u.1.toNat % 16) * 2 ^ 32
    ((u.2.txFrame l h (c.1.map (·.d))).txSpent l).go

/-- The record of the report channel of a transmit lane (R103, Table 11). -/
def State.reportOf (s : State) (l : Nat) : List Byte :=
  let up := (s.adm.up.find? (fun e => e.1 == l)).getD (l, 0, 0)
  let r := [0xC3] ++ bytesLe 1 (s.fld Reg.glbSysid 5 0) ++ bytesLe 1 l ++ bytesLe 1 (if s.boot.admitted && s.inRun then 1 else 0) ++
    bytesLe 4 up.2.1 ++ bytesLe 4 up.2.2 ++ bytesLe 2 0
  r ++ bytesLe 2 (rcrc r)

/-- SYSTEM_TX_FRAME: a system frame stamps its own transmission and carries one report byte (R102, R103). -/
def execSystemTxFrame (l : LaneNo) (s : State) : Host.Outcome State Fault Refusal :=
  if !s.txDue l 2 then s.go
  else
    let c := s.txContent l
    let cross := s.tsb.crossing % 4096
    let rpt := leAt (s.reportOf l) (cross % 16) 1
    let h := 0xE1 + cross * 2 ^ 8 + s.txPhase l * 2 ^ 20 + flagAt c.2.1 28 + flagAt c.2.2.1 29 + flagAt c.2.2.2 30 + rpt * 2 ^ 32
    ((s.txFrame l h (c.1.map (·.d))).txSpent l).go

/-- READOUT_TX_FRAME: the words of the derandomizer that feeds the lane, DARK and SRESET by that derandomizer's sector (R101, R315); of a
lane that none feeds, by the sector that it is mapped to. A frame that was being assembled as the sector left is sent as assembled. -/
def execReadoutTxFrame (l : LaneNo) (s : State) : Host.Outcome State Fault Refusal :=
  if !s.txDue l 3 then s.go
  else
    let w := s.laneTxW l
    let k := match s.laneDrz l with
      | some d => d / 4
      | none => s.laneSec l
    let on := s.rbit (Reg.lanCtrl l) 1
    let z := s.lane l
    let whole := match z.asm with
      | some a => on && decide (a.cx = s.tsb.cx)
      | none => false
    let off := !whole && (!on || !s.secIn k)
    let r : State × List W16 × Option Nat := match (if whole then z.asm else none), s.laneDrz l with
      | some a, _ => (s, a.words, a.first)
      | none, some d => if off then (s, List.replicate w 0, none) else s.readoutWords d w 0 none
      | none, none => (s, List.replicate w 0, none)
    let h := 0xB4 + (s.tsb.crossing % 4096) * 2 ^ 8 + (r.2.2.getD 0x1FF % 512) * 2 ^ 20 + flagAt off 29 +
      flagAt (!whole && !s.secIn k && s.txReset k) 30
    let t := r.1.setLane l { r.1.lane l with asm := none }
    (t.txFrame l h r.2.1).go

end Sys2Proof.Machine
end

