-- ==== Sys2Proof/Machine/Placement.lean ====
section
/-!
DEFINITION. Sys2Proof/Machine/Placement.lean: the check of one path record against the placement that is loaded, and the
terms of its latency (R28 to R30, R156 to R162, R234). The state it reads is that of the candidate configuration; lanes,
reports and the crossing period come from the snapshot (R352).
-/
namespace Sys2Proof.Machine

/-- What a failed check reports: code, failing segment, and the two values of chapter 13, Table 8. -/
structure PathFail where
  code : Nat
  seg : Nat
  v1 : Nat
  v2 : Nat
deriving DecidableEq, Repr

/-- A check goes on while nothing has failed. -/
abbrev Chk := Except PathFail Unit

/-- Fail unless a condition holds. -/
def need (c : Bool) (code seg : Nat) (v1 v2 : Nat) : Chk := if c then .ok () else .error ⟨code, seg, v1, v2⟩

/-- The first failure among the checks of a list. -/
def firstFail {α : Type} (f : α → Chk) : List α → Chk
  | [] => .ok ()
  | x :: xs => match f x with
    | .error e => .error e
    | .ok _ => firstFail f xs

/-- A segment with its index in its record. -/
abbrev ISeg := Nat × Seg
def PathRec.isegs (p : PathRec) : List ISeg := (List.range p.segs.length).zip p.segs
def PathRec.segNo (p : PathRec) (i : Nat) : Option Seg := p.segs[i]?

def Seg.isSource (g : Seg) : Bool := g.kind == 1 || g.kind == 2 || g.kind == 3
def Seg.isEnd (g : Seg) : Bool := g.kind == 0x0B || g.kind == 0x0C || g.kind == 0x0D
def Seg.isLane (g : Seg) : Bool := g.kind == 1 || g.kind == 2
/-- The slot a segment names, counted from slot 0 of the source crossing. -/
def Seg.time (g : Seg) (m : Nat) : Int := g.xc * m + g.slot

/-! ### Step 1: structure (R158, R159, R161) -/

/-- `OPS` of Table 8. That of an ENGINE segment counts a chain that depends on what the engine's address registers hold, which no
image loads (R269): any count of at least 1 is taken here, and `State.chainOk` refuses one that no run can make. -/
def opsOk (g : Seg) : Bool :=
  if g.kind = 4 then g.ops == 1 else if g.kind = 8 then decide (1 ≤ g.ops)
  else if g.kind = 9 then g.ops == 21 else if g.kind = 0x0A then g.ops == 10 else g.ops == 0

/-- Step 1. A path with a system-input source and XDEV clear is a path of this device alone (DESIGN CHOICE; R33 and R161 speak of
XDEV set only). -/
def PathRec.structureOk (p : PathRec) : Chk :=
  let last := p.nseg - 1
  let srcs := p.segs.filter Seg.isSource
  match need (decide (2 ≤ p.nseg) && decide (p.reclen = 16 + 12 * p.nseg) && decide (p.flags < 8)) 0x18 0xFF 0xFF 0 with
  | .error e => .error e
  | .ok _ =>
    match firstFail (fun (x : ISeg) =>
      let g := x.2
      let predOk (k : Nat) : Bool := decide (k = 0xFF ∨ k < x.1)
      need (decide (1 ≤ g.kind ∧ g.kind ≤ 0x0D) && opsOk g && predOk g.predA && predOk g.predB &&
        (g.isSource == (decide (g.predA = 0xFF) && decide (g.predB = 0xFF))) && (g.isEnd == decide (x.1 = last)))
        0x18 x.1 x.1 0) p.isegs with
    | .error e => .error e
    | .ok _ =>
      if p.xdev then need (decide (srcs.length = 1) && srcs.all (fun g => g.kind == 2)) 0x18 0xFF 0xFF 0 else .ok ()

/-- A word of an engine's program memory meets a condition. -/
def State.programHas (s : State) (p : Nat) (f : W32 → BitVec 11 → Bool) : Bool :=
  (List.range 2048).any (fun i => f (BitVec.ofNat 32 (s.le (engWin p + 4 * i) 4)) (BitVec.ofNat 11 i))

/-- A chain of the declared length can exist in the program of an ENGINE segment: it has an IN from the port that the segment names
and an OUT to the one it names, and a run of B cycles issues no more than B instructions (R269). -/
def State.chainOk (s : State) (g : Seg) : Bool :=
  let p := s.physOf g.object
  g.kind != 8 || (decide (g.ops ≤ bitsOf (s.engDesc p 1) 7 0) &&
    s.programHas p (fun w a => decide (engOp w a = .inp) && bitsOf w 26 25 == g.sub % 4) &&
    s.programHas p (fun w a => decide (engOp w a = .out) && bitsOf w 26 25 == g.sub / 4 % 4))

/-- Step 1 for the programs that the segments name; that of an engine that is not pinned is left to step 2. -/
def State.chainsOk (s : State) (p : PathRec) : Chk :=
  firstFail (fun (x : ISeg) =>
    need (decide (512 ≤ x.2.object) || s.pooled (s.physOf x.2.object) || s.chainOk x.2) 0x18 x.1 x.1 0) p.isegs

/-! ### Step 2: domain (R25, R160) -/

/-- The sector in which a segment lies, for the sectors that a path needs (R358). -/
def State.segSector (s : State) (g : Seg) : Option Nat :=
  if g.kind = 1 ∨ g.kind = 2 ∨ g.kind = 0x0C ∨ g.kind = 0x0D then some (s.laneSec g.object)
  else if g.kind = 3 ∨ g.kind = 9 then some g.object
  else if g.kind = 4 then some (g.object / 1024)
  else if g.kind = 5 ∨ g.kind = 6 ∨ g.kind = 7 then some (g.object / 256)
  else if g.kind = 8 then some (g.object / 32) else none

/-- Step 2. An object number out of its range, and a port above 7, name no object of the locked group: they give 0x19 here
(DESIGN CHOICE; R160 gives them no code of their own). -/
def State.domainOk (s : State) (p : PathRec) : Chk :=
  firstFail (fun (x : ISeg) =>
    let g := x.2
    let lim : Nat := if g.isLane ∨ g.kind = 0x0C ∨ g.kind = 0x0D then 240
      else if g.kind = 3 ∨ g.kind = 9 ∨ g.kind = 0x0B then 16
      else if g.kind = 4 then 16384 else if g.kind = 8 then 512 else if g.kind = 0x0A then 1 else 4096
    let att := attKind (s.attach g.object g.sub)
    let bad := decide (lim ≤ g.object) || (g.kind == 7 && (att == .qpop || att == .qpush || decide (7 < g.sub))) ||
      (g.kind == 8 && s.pooled (s.physOf g.object))
    need (!bad) 0x19 x.1 x.1 0) p.isegs

/-! ### Step 3: placement (R156) -/

/-- The map entry of a tile for a slot of one of its two maps: HOLD and context. -/
def State.entryOf (s : State) (t m slot : Nat) : Bool × Nat :=
  let b := (s.byte (tileWin t + 0x200 + 0x40 * m + slot / 2)).toNat
  let e := if slot % 2 = 0 then b % 16 else b / 16
  (decide (8 ≤ e), e % 8)

/-- A slot of a crossing from a time. -/
def slotOf (m : Nat) (u : Int) : Nat := (u.emod m).toNat

/-- The field under which a cell issues at a time, none where it issues nothing. -/
def State.issuesAt (s : State) (map c : Nat) (u : Int) : Option (Nat × BitVec 64) :=
  let e := s.entryOf (c / 4) map (slotOf s.M u)
  let f := s.cellField (c / 4) e.2 (c % 4)
  if e.1 ∨ cfOp f = 0 then none else some (e.2, f)

/-- The first time after `u` at which the cell issues an operation of the given kind, within one crossing. -/
def State.nextIssue (s : State) (map c : Nat) (f : BitVec 64 → Bool) (u : Int) : Nat → Int
  | 0 => u
  | n + 1 =>
    match s.issuesAt map c (u + 1) with
    | some (_, g) => if f g then u + 1 else s.nextIssue map c f (u + 1) n
    | none => s.nextIssue map c f (u + 1) n

/-- The issue of a context's operation `n` issues before the one at `u`. -/
def State.issueBack (s : State) (map c ctx : Nat) : Nat → Nat → Int → Int
  | 0, _, u => u
  | _, 0, u => u
  | fuel + 1, n + 1, u =>
    match s.issuesAt map c (u - 1) with
    | some (k, _) => s.issueBack map c ctx fuel (if k = ctx then n else n + 1) (u - 1)
    | none => s.issueBack map c ctx fuel (n + 1) (u - 1)

/-- An operation uses operand A, operand B (chapter 4, Table 7). -/
def usesA (op : Nat) : Bool := op == 1 || (decide (3 ≤ op ∧ op ≤ 0x13)) || op == 0x15 || op == 0x16 || op == 0x17 || op == 0x19
def usesB (op : Nat) : Bool :=
  decide ((3 ≤ op ∧ op ≤ 7) ∨ op = 9 ∨ (0x0B ≤ op ∧ op ≤ 0x0D) ∨ (0x0F ≤ op ∧ op ≤ 0x13) ∨ op = 0x18 ∨ op = 0x19)

/-- The issue slot of a CELL segment. -/
def Seg.issue (g : Seg) (m : Nat) : Int := g.time m - 3

/-- The first slot in which an engine's word can be taken: its claim, later by the hold-off of a gang of 4 or 8 (R234). -/
def State.engTime (s : State) (g : Seg) : Int :=
  let p := s.physOf g.object
  g.time s.M + (if 4 ≤ s.gangSize p then ((s.engHoldoff p * s.ediv p : Nat) : Int) else 0)

/-- The word that segment `x` makes available stands at source code `code` of tile `t` in slot `u`; `own` is the cell that
asks. -/
def State.standsAt (s : State) (map t : Nat) (own : Option Nat) (code : Nat) (u : Int) (x : Seg) : Bool :=
  let m := s.M
  if code < 4 then
    x.kind == 4 && x.object == 4 * t + code &&
      (let i := x.issue m
       match s.issuesAt map x.object i with
       | none => false
       | some (_, f) =>
         let nx := s.nextIssue map x.object (fun g => !cfOuth g) i m
         !cfOuth f && (if own = some code then decide (i + 1 ≤ u) && decide (u ≤ nx)
                       else decide (i + 3 ≤ u) && decide (u ≤ nx + 2)))
  else if code < 0x18 then
    x.kind == 5 && decide (linkDriver t (code - 4) = some (x.object, x.sub)) && decide (x.time m = u)
  else if code < 0x1A then
    x.kind == 6 && decide (longLine x.object (x.sub - 20) = longLine t (code - 0x18)) && decide (20 ≤ x.sub ∧ x.sub ≤ 21) &&
      decide (x.time m = u)
  else if code < 0x1E then
    (let port := code - 0x1A
     let e := s.attach t port
     if x.kind = 7 then x.object == t && x.sub == port && decide (x.time m = u)
     else if x.isLane then
       attKind e == .lane && s.laneFeeding (t / 256) (bitsOf e 3 0) == some x.object &&
         x.sub % s.laneWps x.object == bitsOf e 5 4 && decide (x.time m = u)
     else if x.kind = 3 then
       attKind e == .tsb && x.object == t / 256 && decide (x.time m ≤ u) && decide (u < x.time m + m)
     else if x.kind = 8 then
       attKind e == .engso && x.object == 2 * (t / 16) + bitsOf e 0 0 && bitsOf e 3 2 == x.sub / 4 % 4 &&
         decide (s.engTime x ≤ u) && decide (u < s.engTime x + m)
     else if x.kind = 9 then
       attKind e == .sortout && x.object == t / 256 && bitsOf e 3 0 == x.sub && decide (u = x.time m + 2)
     else if x.kind = 0x0A then attKind e == .mrgout && bitsOf e 3 0 == x.sub && decide (u = x.time m + 4)
     else false)
  else if 0x20 ≤ code ∧ code < 0x24 then
    x.kind == 4 && own == some (x.object % 4) && x.object / 4 == t &&
      (let i := x.issue m
       match s.issuesAt map x.object i with
       | none => false
       | some (_, f) =>
         cfDst f == some (code - 0x20) && decide (i + 1 ≤ u) &&
           decide (u ≤ s.nextIssue map x.object (fun g => cfDst g == some (code - 0x20)) i m))
  else false

/-- Sources that no path drives: the constants and the local registers. -/
def idleSource (code : Nat) : Bool := decide (0x1E ≤ code)

/-- Operand `code` of a cell is segment `k`'s word, or none of the path's where `k` is 0xFF. -/
def State.operandOk (s : State) (p : PathRec) (c code k : Nat) (u : Int) : Bool :=
  if k = 0xFF then idleSource code
  else match p.segNo k with
    | none => false
    | some x => s.standsAt p.map (c / 4) (some (c % 4)) code u x

/-- A CELL segment takes its predecessors' words in its issue slot. -/
def State.cellOk (s : State) (p : PathRec) (g : Seg) : Bool :=
  let i := g.issue s.M
  match s.issuesAt p.map g.object i with
  | none => false
  | some (ctx, f) =>
    let op := cfOp f
    if op = 0x14 then
      [g.predA, g.predB].all (fun k => match p.segNo k with
        | some x => x.kind == 4 && x.object / 4 == g.object / 4 &&
            decide ((if x.object = g.object then x.issue s.M + 1 else x.time s.M) ≤ i)
        | none => k == 0xFF)
    else
      let u := if op = 0x17 then s.issueBack p.map g.object ctx (129 * s.M) (bitsOf (cfImm f) 15 9 + 1) i else i
      (if usesA op then s.operandOk p g.object (cfSrcA f) g.predA u else g.predA == 0xFF) &&
        (if usesB op then s.operandOk p g.object (cfSrcB f) g.predB u
         else if op = 0x16 ∧ !(cfMod f).getLsbD 0 then s.operandOk p g.object (0x20 + (cfDst f).getD 0) g.predB u
         else g.predB == 0xFF)

/-- The switch of tile `t` selects segment `k`'s word in slot `u` by source code `code`. -/
def State.switchOk (s : State) (p : PathRec) (t code k : Nat) (u : Int) : Bool :=
  match p.segNo k with
  | none => false
  | some x => s.standsAt p.map t none code u x

/-- A Q attachment of the given kind that presents its word in slot `u`, its entry meeting `f`. -/
def State.qSeg (s : State) (p : PathRec) (k : Nat) (kind : AttKind) (u : Int) (f : Nat → BitVec 32 → Bool) : Bool :=
  match p.segNo k with
  | none => false
  | some x => x.kind == 7 && decide (4 ≤ x.sub) && attKind (s.attach x.object x.sub) == kind && decide (x.time s.M = u) &&
      f x.object (s.attach x.object x.sub)

/-- The time a Q attachment presents. -/
def State.qTime (s : State) (p : PathRec) (k : Nat) : Int := match p.segNo k with | some x => x.time s.M | none => 0

/-- Slots of an output lane's fill span: F and J (R155). -/
def State.fillSpan (s : State) (l : Nat) : Nat := (s.laneTxW l + s.laneWps l - 1) / s.laneWps l

/-- Tile `t` presents a word on its port output `k` in a slot. -/
def State.pushesAt (s : State) (map t k : Nat) (u : Int) : Bool :=
  decide (32 ≤ s.portField t (s.entryOf t map (slotOf s.M u)).2 k)

/-- The word that a SORTIN port presents in slot `u` is written in slot u + 2 and is what the capture `cap` takes: it lies in the window of
R165, and no later word of the port does. -/
def State.captured (s : State) (map t k : Nat) (u cap : Int) : Bool :=
  decide (cap - s.M ≤ u + 2) && decide (u + 2 < cap) &&
    !((List.range s.M).any (fun d => decide (1 ≤ d ∧ u + d + 2 < cap) && s.pushesAt map t k (u + d)))

/-- Segment `g` consumes its predecessors' words and names its own slot as the device computes it. A MERGE segment has one predecessor,
a SORT segment one or two (DESIGN CHOICE; R158 and R160 do not say how many each takes). -/
def State.segOk (s : State) (p : PathRec) (g : Seg) : Bool :=
  let m := s.M
  let t := g.time m
  let one := g.predB == 0xFF
  decide (g.slot < m) &&
  (if g.isLane then
     decide (g.sub < s.laneW g.object) && decide (t = ((s.fld (Reg.lanEq g.object) 29 24 * m + s.fld (Reg.lanEq g.object) 22 16 +
       g.sub / s.laneWps g.object : Nat) : Int))
   else if g.kind = 3 then decide (t = 2 * m)
   else if g.kind = 4 then s.cellOk p g
   else if g.kind = 5 then
     one && decide (g.sub < 20) &&
       (List.range 4096).any (fun v => (List.range 20).any (fun i => decide (linkDriver v i = some (g.object, g.sub)) &&
         (let u := t - (if v / 256 = g.object / 256 then 1 else 2)
          s.switchOk p g.object (s.linkDest g.object (s.entryOf g.object p.map (slotOf m u)).2 g.sub) g.predA u)))
   else if g.kind = 6 then
     one && decide (20 ≤ g.sub ∧ g.sub ≤ 21) &&
       (let u := t - 2
        s.switchOk p g.object (s.linkDest g.object (s.entryOf g.object p.map (slotOf m u)).2 g.sub) g.predA u)
   else if g.kind = 7 then
     one && (if g.sub < 4 then
         (match p.segNo g.predA with
          | some x => x.kind != 7 && s.standsAt p.map g.object none (0x1A + g.sub) t x
          | none => false)
       else
         let f := s.portField g.object (s.entryOf g.object p.map (slotOf m t)).2 (g.sub - 4)
         decide (32 ≤ f) && s.switchOk p g.object (f % 32) g.predA t)
   else if g.kind = 8 then
     (let si (k : Nat) (any : Bool) : Bool := s.qSeg p k .engsi (s.qTime p k) (fun v e =>
        2 * (v / 16) + bitsOf e 0 0 == g.object && (any || bitsOf e 3 2 == g.sub % 4))
      si g.predA false && (one || si g.predB true) && decide (s.qTime p g.predA < t) && (one || decide (s.qTime p g.predB < t)))
   else if g.kind = 9 then
     (let cap := t - 24
      let ok (k : Nat) : Bool := s.qSeg p k .sortin (s.qTime p k) (fun v _ => v / 256 == g.object) &&
        (match p.segNo k with
         | some x => s.captured p.map x.object (x.sub - 4) (s.qTime p k) cap
         | none => false)
      decide (slotOf m cap = s.fld (Reg.srtCfg g.object) 6 0) && s.srtOn g.object && ok g.predA && (one || ok g.predB))
   else if g.kind = 0x0A then
     one && (match p.segNo g.predA with
       | some x => x.kind == 9 && decide (t = x.time m + 12) && s.rbit Reg.mrgCfg 13 && s.rbit Reg.mrgCfg (16 + x.object)
       | none => false)
   else if g.kind = 0x0B then one && s.qSeg p g.predA .dec (t - 4) (fun _ e => bitsOf e 3 0 == g.object)
   else
     one && decide (g.sub < s.laneTxW g.object) && decide (g.slot = s.fld (Reg.lanCtrl g.object) 25 16 / 8) &&
       s.qSeg p g.predA .olp (s.qTime p g.predA) (fun v e =>
         (s.lanesDriven (v / 256) (bitsOf e 3 0)).contains g.object && g.sub % s.laneWps g.object == bitsOf e 5 4 &&
         decide (s.qTime p g.predA = (g.xc - (s.fld (Reg.lanCtrl g.object) 13 8 : Nat)) * m + bitsOf e 14 8 +
           ((g.sub / s.laneWps g.object : Nat) : Int))))

/-- An ENGINE segment's claim lies no later than the first slot after budget cycle B (R359). -/
def State.claimOk (s : State) (g : Seg) : Bool :=
  let q := s.physOf g.object
  g.kind != 8 || decide (g.slot * (s.M / s.ediv q) ≤ (s.engBudget q + 1) * s.M)

def State.placementOk (s : State) (p : PathRec) : Chk :=
  firstFail (fun (x : ISeg) =>
    match need (s.segOk p x.2) 0x18 x.1 x.1 0 with
    | .error e => .error e
    | .ok _ => need (s.claimOk x.2) 0x1C x.1 x.2.slot
        ((s.engBudget (s.physOf x.2.object) + 1) * s.M / (s.M / s.ediv (s.physOf x.2.object)))) p.isegs

/-! ### Step 4: sources (R104, R108) -/

/-- A lane of the snapshot. -/
structure LaneSnap where
  state : Nat
  code : Nat
  /-- A and `LAT_ADM` in steps, with their valid bits. -/
  a : Nat
  valid : Bool
  adm : Nat
  report : List Byte
deriving DecidableEq, Repr

/-- Step 4. A LANE_IN on a system lane, and a SYS_IN on a lane that is none, give 0x15 (DESIGN CHOICE; R160 gives them no code of
their own). -/
def State.sourcesOk (s : State) (snap : Nat → LaneSnap) (adopt : List Nat) (p : PathRec) : Chk :=
  firstFail (fun (x : ISeg) =>
    let g := x.2
    let l := g.object
    let z := snap l
    if !g.isLane then .ok ()
    else if g.kind = 2 ∧ (!s.rxSys l ∨ z.report = []) ∨ (g.kind = 1 ∧ s.rxSys l) then .error ⟨0x15, x.1, l, 0⟩
    else if z.state = 6 then
      (if l ∈ adopt then need (z.valid && s.eqOk l z.a) 0x12 x.1 l (BitVec.ofInt 32 (s.eqDelay l z.a)).toNat
       else if z.code = 0x16 then .error ⟨0x16, x.1, z.a, z.adm⟩
       else if z.code = 0x12 then .error ⟨0x12, x.1, l, (BitVec.ofInt 32 (s.eqDelay l z.a)).toNat⟩
       else .error ⟨z.code, x.1, l, 0⟩)
    else need (decide (z.state = 4 ∨ z.state = 5)) 0x13 x.1 l z.state) p.isegs

/-! ### Step 5: output timing (R155) -/

def State.outputOk (s : State) (p : PathRec) : Chk :=
  firstFail (fun (x : ISeg) =>
    let g := x.2
    if g.kind ≠ 0x0C ∧ g.kind ≠ 0x0D then .ok ()
    else match p.segNo g.predA with
      | none => .ok ()
      | some q =>
        let f := bitsOf (s.attach q.object q.sub) 14 8
        let last : Int := (g.xc - (s.fld (Reg.lanCtrl g.object) 13 8 : Nat)) * s.M + f + s.fillSpan g.object - 1
        need (decide (last + 6 ≤ g.time s.M)) 0x1A x.1 g.object g.sub) p.isegs

/-! ### Step 6: latency (R28 to R30, R157, R161) -/

/-- Times in ps, exact. -/
def stepPs (s : State) (period : Nat) : Rat := (period : Rat) / ((8 * s.M : Nat) : Rat)

/-- First and last named bit of a lane source, from slot 0 of the stamped crossing (R85, R157). -/
def State.laneSpan (s : State) (period : Nat) (a l w : Nat) : Rat × Rat :=
  let at0 : Rat := (a : Rat) * stepPs s period
  let blk := s.fld (Reg.lanCfg l) 15 8
  let unit : Rat := (period : Rat) / (blk : Rat)
  if s.rxMode l = 1 then (at0, at0 + period)
  else if s.rxMode l = 2 then (at0, at0 + ((w / 4 + 2 : Nat) : Rat) * unit)
  else (at0, at0 + ((2 * w + 3 : Nat) : Rat) * unit)

/-- The longest chain of `OPS` to each segment, in order. -/
def depths (segs : List Seg) : List Nat :=
  segs.foldl (fun l g =>
    let d (k : Nat) : Nat := l.getD k 0
    l ++ [g.ops + max (d g.predA) (d g.predB)]) []

/-- The depth of a path: the longest chain to its end, the last segment (R157). -/
def PathRec.depthOf (p : PathRec) : Nat := (depths p.segs).getLastD 0

/-- The computed terms of a path: depth, floor, latency, and for a path that ends on a lane the latency up to its last named
bit and wire plus depth time. -/
structure Terms where
  depth : Nat := 0
  floor : Nat := 0
  lat : Nat := 0
  up : Nat := 0
  upFloor : Nat := 0
  /-- When the last named bit leaves or the edge falls, from slot 0 of the source crossing. -/
  leaves : Rat := 0
deriving DecidableEq, Repr

/-- A time rounded up, and down, to a whole number of ps; never below 0. -/
def upPs (x : Rat) : Nat := x.ceil.toNat
def downPs (x : Rat) : Nat := x.floor.toNat

/-- The end of a path, and its serialisation time. -/
def State.endTime (s : State) (period : Nat) (g : Seg) : Rat × Rat :=
  if g.kind = 0x0B then ((g.time s.M : Rat) * ((period : Rat) / (s.M : Rat)) + 850, 0)
  else
    let bitPs : Rat := (period : Rat) / ((66 * s.fld (Reg.lanCfg g.object) 15 8 : Nat) : Rat)
    let first : Rat := (g.xc : Rat) * period + (s.fld (Reg.lanCtrl g.object) 25 16 : Rat) * stepPs s period
    (first + ((66 * (1 + g.sub / 4) + 18 + 16 * (g.sub % 4) : Nat) : Rat) * bitPs, 16 * bitPs)

def State.terms (s : State) (snap : Nat → LaneSnap) (period : Nat) (p : PathRec) : Terms :=
  let spans := (p.segs.filter Seg.isLane).map (fun g => s.laneSpan period (snap g.object).a g.object g.sub)
  let start := (spans.map (·.1)).foldl min ((spans.map (·.1)).headD 0)
  let last := (spans.map (·.2)).foldl max ((spans.map (·.2)).headD 0)
  let dep := p.depthOf
  let depPs := dep * 2500 / 3
  match p.segs.getLast? with
  | none => {}
  | some g =>
    let e := s.endTime period g
    let ser := downPs e.2
    match (if p.xdev then (p.segs.find? Seg.isLane).map (fun q => (snap q.object)) else none) with
    | some z =>
      let uplat := leAt z.report 4 4
      let upfl := leAt z.report 8 4
      let flight : Rat := (z.a : Rat) * stepPs s period
      { depth := dep, floor := upfl + depPs + ser, lat := upPs ((uplat : Rat) + flight + (e.1 - last)),
        up := upPs ((uplat : Rat) + flight + (e.1 - last)), upFloor := upfl + depPs, leaves := e.1 }
    | none =>
      let wire := downPs (last - start)
      { depth := dep, floor := wire + depPs + ser, lat := upPs (e.1 - start), up := upPs (e.1 - start), upFloor := wire + depPs, leaves := e.1 }

/-- The rule of R30: the latency is at most 1.25 × floor + 48 ns. -/
def latencyOk (floor lat : Nat) : Bool := decide (4 * lat ≤ 5 * floor + 192000)

/-- The steps of R160 in order, with the terms computed. -/
def State.pathCheck (s : State) (snap : Nat → LaneSnap) (adopt : List Nat) (period : Nat) (p : PathRec) : Option PathFail × Terms :=
  let early : Chk := match p.structureOk with
    | .error e => .error e
    | .ok _ => match s.chainsOk p with
      | .error e => .error e
      | .ok _ => match s.domainOk p with
        | .error e => .error e
        | .ok _ => match s.placementOk p with
          | .error e => .error e
          | .ok _ => match s.sourcesOk snap adopt p with
            | .error e => .error e
            | .ok _ => s.outputOk p
  match early with
  | .error e => (some e, { depth := p.depthOf })
  | .ok _ =>
    let t := s.terms snap period p
    if latencyOk t.floor t.lat then (none, t) else (some ⟨0x17, p.nseg - 1, t.floor, t.lat⟩, t)

end Sys2Proof.Machine
end

