-- ==== Sys2Proof/Machine/Admission.lean ====
section
/-!
DEFINITION. Sys2Proof/Machine/Admission.lean: admission: the candidate configuration, the snapshot, the checks of chapter 13
Table 4 with the resolution of drops, the power plan, and the report (R351 to R366).
-/
namespace Sys2Proof.Machine

/-! ### The candidate configuration (R351, R396) -/

/-- The addresses of the words of some load records. -/
def loadAddrs (l : List LoadRec) : List Nat := l.flatMap (fun r => (List.range (r.2.length / 4)).map (fun i => r.1 + 4 * i))

/-- Targets back at what a device reset and the base sections give; a schedule entry's parity follows each word of it (R65). -/
def State.undoAddrs (s : State) (as : List Nat) : State :=
  let s1 := as.foldl (fun s a => if (regSpec a).isSome then s.regFresh a else s.setBytes (s.engPlace a) (bytesLe 4 0)) s
  let s2 := (as.filterMap schedEntry).eraseDups.foldl State.schedPar s1
  s2.applyLoads (fun a => decide (a ∈ as)) (loadSections.flatMap s.sectionLoads)

/-- The configuration under accord `n` in place of the one in force; words that a discarded preparation staged are put back. -/
def State.candidateCfg (s : State) (n : Nat) : State :=
  if n = s.accordNow then s
  else (s.undoAddrs (loadAddrs (s.accordLoads s.accordNow) ++ s.acc.stale)).applyLoads (fun _ => true) (s.accordLoads n)

/-! ### The snapshot (R352) -/

/-- A system lane's report record is from the last 64 crossings (R104). -/
def State.reportFresh (s : State) (l : Nat) : Bool := match (s.lane l).reportAt with
  | some x => decide (s.tsb.cx ≤ x + 64)
  | none => false

def State.snapshotNow (s : State) (period : Nat) : AdmSnap :=
  { period := period, orbit := s.tsb.orbit, crossing := s.tsb.crossing, slot := s.tsb.slot, tsb := s.tsbState.code,
    lanes := (List.range 240).map (fun l => (s.reg (Reg.lanLat l), s.reg (Reg.lanLatAdm l),
      s.laneState l + 256 * s.fld (Reg.lanStatus l) 23 16))
    dead := (s.engines.filter (fun e => e.2.dead)).map (·.1)
    map := (List.range 512).map (fun e => (e, s.physOf e))
    reports := (List.range 240).map (fun l => if s.rxSys l ∧ s.reportFresh l then
      (List.range 4).flatMap (fun i => bytesLe 4 (s.reg (Reg.lanReport l + 4 * i)).toNat) else []) }

/-- The values that R406 compares: everything but the time of the snapshot. -/
def AdmSnap.values (z : AdmSnap) : AdmSnap := { z with orbit := 0, crossing := 0, slot := 0 }

/-- A lane of a snapshot, in the geometry of `s`. -/
def State.laneSnap (s : State) (z : AdmSnap) (l : Nat) : LaneSnap :=
  let v := z.lanes.getD l (0, 0, 0)
  let len (w : W32) : Nat := bitsOf w 27 16 * s.steps + bitsOf w 9 0
  { state := v.2.2 % 256, code := v.2.2 / 256, a := len v.1, valid := v.1.getLsbD 31, adm := len v.2.1, report := z.reports.getD l [] }

/-! ### Failures (R357, R358) -/

/-- What a failure names (Table 7). -/
structure Obj where
  kind : Nat
  number : Nat
deriving DecidableEq, Repr

/-- A failure of a check: the check's place in Table 4, code, scope (0 device, 1 sector, 2 path), sector, object, values. -/
structure Fail where
  order : Nat
  code : Nat
  scope : Nat
  sector : Option Nat
  obj : Obj
  v1 : Nat
  v2 : Nat
  /-- Key of the path of a path failure, and its segment. -/
  path : Option Nat := none
  seg : Nat := 0xFF
deriving DecidableEq, Repr

def devFail (order code : Nat) (obj : Obj) (v1 v2 : Nat) : Fail :=
  { order := order, code := code, scope := 0, sector := none, obj := obj, v1 := v1, v2 := v2 }
def secFail (order code k : Nat) (obj : Obj) (v1 v2 : Nat) : Fail :=
  { order := order, code := code, scope := 1, sector := some k, obj := obj, v1 := v1, v2 := v2 }

/-- The object of a failure as the report and `ADM_OBJECT` give it. -/
def Obj.word (o : Obj) : Nat := o.kind * 2 ^ 28 + o.number % 2 ^ 28

/-- The tile of a path's final ATTACH segment, and its sector (R358, R361). -/
def PathRec.endTile (p : PathRec) : Nat := match (p.segs.filter (fun g => g.kind == 7)).getLast? with
  | some g => g.object
  | none => 0
def PathRec.endSector (p : PathRec) : Nat := p.endTile / 256 % 16

/-- The end words of a path (R360): a DEC bit b as (240, b), a word of a lane as (lane, word). -/
def PathRec.endWords (p : PathRec) : List (Nat × Nat) := match p.segs.getLast? with
  | some g => if g.kind = 0x0B then [(240, g.object)] else [(g.object, g.sub)]
  | none => []

def pathFail (order : Nat) (p : PathRec) (code seg v1 v2 : Nat) : Fail :=
  { order := order, code := code, scope := 2, sector := some p.endSector, obj := { kind := 1, number := p.key },
    v1 := v1, v2 := v2, path := some p.key, seg := seg }

/-! ### Checks 1 to 9 -/

/-- A pinned solo engine or a pinned gang leader. -/
def State.pinnedLead (s : State) (e : Nat) : Bool := !s.pooled (s.physOf e) && s.leads (s.physOf e)

/-- Check 1 beyond what the parse finds: engine records and pinned engines match one to one (R356). -/
def State.engRecsOk (s : State) (c : Cert) : Bool :=
  c.engs.all (fun r => decide (r.eng < 512) && s.pinnedLead r.eng) &&
    (List.range 512).all (fun e => !s.pinnedLead e || c.engs.any (fun r => r.eng == e))

/-- Check 2: the measured period within 500 ppm of nominal; the deviation in ppm is V2. -/
def State.checkClock (s : State) (z : AdmSnap) : List Fail :=
  let f := (s.reg Reg.tsbGeomFreq).toNat
  let d : Int := (z.period * f : Nat) - (10 ^ 12 : Int)
  if (z.tsb = 2 ∨ z.tsb = 3) ∧ d.natAbs ≤ 5 * 10 ^ 8 then []
  else [devFail 2 0x56 ⟨0, 0⟩ z.tsb ((BitVec.ofInt 32 (d / 10 ^ 6)).toNat)]

/-- Check 3 (R240). -/
def State.checkDead (s : State) (z : AdmSnap) : List Fail :=
  ((List.range 512).filter (fun e => !s.pooled (s.physOf e) &&
    decide (((z.map.find? (fun m => m.1 == e)).map (·.2)).getD 0 ∈ z.dead))).map (fun e => secFail 3 0x63 (e / 32) ⟨4, e⟩ e 0)

/-- Check 4: budgets of the pinned engines, from their descriptors, and the engine records (R240, R359). V1 of a record that differs is the
offset of the field in it. -/
def State.checkEngines (s : State) (c : Cert) : List Fail :=
  (List.range 512).flatMap (fun e =>
    let p := s.physOf e
    let cx := s.M / s.ediv p
    let d0 := s.engDesc p 0
    (if s.pinnedLead e ∧ cx ≤ s.engBudget p then [secFail 4 0x1B (e / 32) ⟨4, e⟩ (s.engBudget p) cx] else []) ++
      (c.engs.filter (fun r => r.eng == e)).flatMap (fun r =>
        if r.budget ≠ s.engBudget p then [secFail 4 0x1C (e / 32) ⟨4, e⟩ 2 (s.engBudget p)]
        else if r.holdoff ≠ s.engHoldoff p then [secFail 4 0x1C (e / 32) ⟨4, e⟩ 3 (s.engHoldoff p)]
        else if r.gang ≠ bitsOf d0 2 1 then [secFail 4 0x1C (e / 32) ⟨4, e⟩ 4 (bitsOf d0 2 1)] else []))

/-- Request buffers of an endpoint's pool (chapter 12, Table 6). -/
def poolSize (d : Nat) : Nat :=
  if d < 0x100 then 32 else if d < 0x320 then 0
  else
    let e := d - 0x320
    if e < 16 then 16 else if e < 24 then 64 else if e = 24 ∨ e = 26 ∨ e = 27 then 8
    else if 32 ≤ e ∧ e < 48 then 8 else if 48 ≤ e ∧ e ≤ 52 then 16 else if 53 ≤ e ∧ e ≤ 56 then 4 else 0

/-- The directions by which an XY route leaves each router it passes: 4 × router + direction N, E, S, W. -/
def routeLinks : Nat → Nat → BitVec 11 → List Nat
  | 0, _, _ => []
  | n + 1, r, t => match nextHop r t with
    | none => []
    | some (q, port) => (4 * r + (port + 2) % 4) :: routeLinks n q t

/-- Check 7: credits and link reservations (R338). An endpoint without request buffers, an engine port among them, is a pool of 0. -/
def State.checkNet (s : State) (c : Cert) : List Fail :=
  let img := (s.sectionOf 11).getD []
  let pools := List.range 1024
  let granted (d : Nat) : Nat := ((List.range 1024).map (fun r => Config.netGrant img r d)).sum
  let total := (pools.map granted).sum
  let rt (d : Nat) : Nat × Option (BitVec 11) := match s.resolve d with
    | some t => (rtAt (tagX t) (tagY t), some t)
    | none => (0, none)
  let uses := c.bws.flatMap (fun b => match (rt b.1).2, (rt b.2.1).2 with
    | some _, some t => (routeLinks 32 (rt b.1).1 t).map (fun k => (k, b.2.2))
    | _, _ => [])
  let sum (k : Nat) : Nat := ((uses.filter (fun u => u.1 == k)).map (·.2)).sum
  (if 8192 < total then [devFail 7 0x20 ⟨0, 0⟩ total (total - 8192)] else []) ++
    ((pools.filter (fun d => decide (poolSize d < granted d))).map (fun d => devFail 7 0x21 ⟨6, d⟩ (granted d) (poolSize d))) ++
    (((List.range 1024).filter (fun k => decide (23040 < sum k))).map (fun k => devFail 7 0x22 ⟨7, k⟩ (sum k) 0))

/-- Selected channels of a sector's builder: `ZS` not OFF. -/
def State.chanSel (s : State) (k : Nat) : List Nat := (List.range 15).filter (fun ch => decide (s.fld (Reg.roCh k ch) 17 16 ≠ 0))

/-- Rd: the largest number of words that a builder reads (R319). -/
def State.wordsRead (s : State) (k : Nat) : Nat := s.winN k * ((s.chanSel k).map (s.chanW k)).sum

/-- F: the largest packet of a builder (R314). -/
def State.packetMax (s : State) (k : Nat) : Nat :=
  let size (ch : Nat) : Nat :=
    let w := s.chanW k ch
    if s.fld (Reg.roCh k ch) 17 16 = 1 then 1 + w else 1 + (w + 15) / 16 + w
  min 4095 (7 + s.winN k * ((s.chanSel k).map size).sum)

/-- Check 8: ring depth and accept latency (R319). -/
def State.checkRings (s : State) : List Fail :=
  let lat : Int := s.fld Reg.tsbAcceptLat 15 0
  (List.range 16).flatMap (fun k => (s.chanSel k).flatMap (fun ch =>
    let l := (s.laneFeeding k ch).getD 0
    let lin : Int := s.fld (Reg.lanEq l) 29 24
    let ds : Int := s.fld (Reg.lanEq l) 22 16
    let j : Int := (s.laneW l + s.laneWps l - 1) / s.laneWps l
    let pre : Int := s.fld (Reg.roCfg0 k) 7 4
    let post : Int := s.fld (Reg.roCfg0 k) 3 0
    (if (s.wordsRead k + s.packetMax k + 8 : Int) ≤ ((s.ringP k : Int) - pre + lin - lat - 1) * s.M + ds then []
     else [secFail 8 0x32 k ⟨2, k⟩ ch 0]) ++
    (if ds + j ≤ (lat + 1 - post - lin) * s.M then [] else [secFail 8 0x33 k ⟨2, k⟩ ch 0])))

/-- Check 9: watermark margins (R314). -/
def State.checkMarks (s : State) : List Fail :=
  ((List.range 64).filter (fun d => (List.range 4).any (fun n =>
    if d < 32 then s.rbit (Reg.drzTmaskLo n) d else s.rbit (Reg.drzTmaskHi n) (d - 32)))).flatMap (fun d =>
      let af := s.fld Reg.drzRt 15 0 * (((List.range 16).filter (fun k => s.target k == d)).map s.packetMax).sum
      let hi := s.fld (Reg.drzCfg d) 31 16
      if hi + af ≤ 32767 then [] else [secFail 9 0x30 (d / 4) ⟨5, d⟩ hi af])

/-! ### Checks 5, 6 and 10: paths and drops (R358, R360) -/

/-- Paths in ascending order of map, then `PATH`. -/
def insertPath (p : PathRec) : List PathRec → List PathRec
  | [] => [p]
  | q :: qs => if p.key ≤ q.key then p :: q :: qs else q :: insertPath p qs
def sortPaths (l : List PathRec) : List PathRec := l.foldr insertPath []

/-- A path with the outcome of its check. -/
structure Checked where
  path : PathRec
  fail : Option PathFail
  terms : Terms

/-- A failure names this path. -/
def failsPath (fs : List Fail) (key : Nat) : Option Fail := fs.find? (fun f => f.path == some key)

/-- The sectors that failures drop: those whose SECOPT bit is set and that a sector failure or a charged path failure names,
each with its first failure (R358, steps 2 and 3). -/
def droppedSecs (secopt : BitVec 16) (opt : Nat → Bool) (fs : List Fail) : List (Nat × Fail) :=
  (List.range 16).filterMap (fun k =>
    if secopt.getLsbD k then
      (fs.find? (fun f => f.sector == some k && (f.scope == 1 || (match f.path with | some q => !opt q | none => false)))).map
        (fun f => (k, f))
    else none)

/-- Paths dropped: optional and failing (step 1). -/
def droppedPaths (opt : Nat → Bool) (ps : List PathRec) (fs : List Fail) : List PathRec :=
  ps.filter (fun p => opt p.key && (failsPath fs p.key).isSome)

/-- One round of the resolution: paths in dropped sectors fail, then required paths that share end words with a dropped one. -/
def State.dropRound (s : State) (c : Cert) (ps : List PathRec) (fs : List Fail) : List Fail :=
  let opt (k : Nat) : Bool := (ps.find? (fun p => p.key == k)).any PathRec.optional
  let secs := droppedSecs c.secopt opt fs
  let more := ps.filterMap (fun p =>
    if (failsPath fs p.key).isSome then none
    else ((p.segs.filterMap s.segSector).findSome? (fun k => secs.find? (fun x => x.1 == k))).map
      (fun x => pathFail 10 p x.2.code 0xFF x.2.v1 x.2.v2))
  let fs1 := fs ++ more
  let gone := droppedPaths opt ps fs1
  fs1 ++ ps.filterMap (fun p =>
    if p.optional || (failsPath fs1 p.key).isSome then none
    else (gone.find? (fun q => q.endWords.any (fun e => decide (e ∈ p.endWords)))).map
      (fun q => pathFail 6 p 0x1D 0xFF q.key 0))

/-- Rounds until nothing changes, at most 16. -/
def State.resolveDrops (s : State) (c : Cert) (ps : List PathRec) : Nat → List Fail → List Fail
  | 0, fs => fs
  | n + 1, fs =>
    let fs1 := s.dropRound c ps fs
    if fs1.length = fs.length then fs else s.resolveDrops c ps n fs1

/-- The fate of a failure: dropped (true) or refused. -/
def Fail.drops (secopt : BitVec 16) (opt : Nat → Bool) (f : Fail) : Bool :=
  (match f.path with | some q => opt q | none => false) ||
    (f.scope != 0 && (match f.sector with | some k => secopt.getLsbD k | none => false))

/-! ### Check 11: the power plan (R364) -/

/-- A number divided, rounded up. -/
def ceilDiv (a b : Nat) : Nat := if b = 0 then 0 else (a + b - 1) / b

/-- Cell operations that a tile issues in a crossing, of whichever map issues more. -/
def State.tileOps (s : State) (t : Nat) : Nat :=
  let n (m : Nat) : Nat := ((List.range s.M).map (fun u =>
    let e := s.entryOf t m u
    if e.1 then 0 else ((List.range 4).filter (fun c => cfOp (s.cellField t e.2 c) ≠ 0)).length)).sum
  max (n 0) (n 1)

/-- Computed dissipation and currents. -/
structure Power where
  ptot : Nat
  pfix : Nat
  tjfix : Int
  icore : Nat
  ilane : Nat
  ilaneh : Nat
deriving DecidableEq, Repr

/-- Bits of a lane's crossing. -/
def State.laneBits (s : State) (l : Nat) : Nat :=
  s.fld (Reg.lanCfg l) 15 8 * (if s.rxMode l = 3 then 10 else 66)

def State.powerOf (s : State) (period : Nat) (dropped : BitVec 16) (c : Cert) : Power :=
  let secs := (List.range 16).filter (fun k => !dropped.getLsbD k)
  let ops := (secs.map (fun k => ((sectorTiles k).map s.tileOps).sum)).sum
  let es := secs.flatMap (fun k => (List.range 32).map (fun i => 32 * k + i))
  -- 48 mW per GHz: M · 1000 / (period · division) GHz, in halves of a cycle so that both divisions are whole
  let mw (f : Nat → Bool) : Nat := ceilDiv ((es.filter f).map (fun e => 48 * s.M * 1000 * (2 / s.ediv (s.physOf e)))).sum (2 * period)
  let pooled := mw (fun e => s.pooled (s.physOf e))
  let pinned := mw (fun e => !s.pooled (s.physOf e))
  let core := 30000 + 12000 + 1000 * secs.length + ceilDiv (ops * 2300) period + pinned + pooled
  let pin := ceilDiv (core * 100) 91
  let ls := (List.range 240).filter (fun l => decide (s.rxMode l ≠ 0 ∨ s.txMode l ≠ 0))
  let bits := (ls.map s.laneBits).sum
  let vl := 40 * ls.length + ceilDiv (6 * bits * 1000) period
  let vh := 15 * ls.length + ceilDiv (15 * bits * 100) period
  let ptot := pin + vl + vh
  let pfix := ptot - ceilDiv (pooled * 100) 91
  { ptot := ptot, pfix := pfix, tjfix := c.tcool * 100 + ceilDiv (c.theta * pfix) 1000,
    icore := ceilDiv (pin * 10) 18, ilane := ceilDiv (vl * 10) 9, ilaneh := ceilDiv (vh * 10) 12 }

def checkPower (w : Power) (c : Cert) : List Fail :=
  let rail (n i lim : Nat) : List Fail := if lim < i then [devFail 11 0x42 ⟨8, n⟩ i lim] else []
  rail 0 w.icore 85000 ++ rail 1 w.ilane 58000 ++ rail 2 w.ilaneh 12000 ++
    (if min (c.pcool * 100) 210000 < w.ptot then [devFail 11 0x40 ⟨0, 0⟩ w.ptot (min (c.pcool * 100) 210000)] else []) ++
    (if 100000 < w.tjfix then [devFail 11 0x41 ⟨0, 0⟩ w.tjfix.toNat 100000] else [])

/-! ### The whole run (R357, R361 to R366) -/

/-- Code of a trigger. -/
def AdmTrigger.code : AdmTrigger → Nat
  | .start => 0 | .accord _ _ => 1 | .readmit => 2 | .adopt _ => 3

/-- A 16-byte failure entry. -/
def Fail.bytes (drops : Bool) (f : Fail) : List Byte :=
  bytesLe 1 f.code ++ bytesLe 1 f.scope ++ bytesLe 1 (f.sector.getD 0xFF) ++ bytesLe 1 (if drops then 1 else 0) ++
    bytesLe 4 f.obj.word ++ bytesLe 4 f.v1 ++ bytesLe 4 f.v2

/-- A 32-byte path entry: `fate` 0 admitted, 1 dropped, 2 failed and charged. -/
def Checked.bytes (x : Checked) (f : Option Fail) : List Byte :=
  let p := x.path
  let fate := match f with | none => 0 | some _ => if p.optional then 1 else 2
  let t := x.terms
  let ratio := if t.floor = 0 then 0 else (2 * 1000 * t.lat + t.floor) / (2 * t.floor)
  bytesLe 2 p.path ++ bytesLe 1 p.flags ++ bytesLe 1 fate ++ bytesLe 1 ((f.map (·.code)).getD 0) ++
    bytesLe 1 ((f.map (·.seg)).getD 0xFF) ++ bytesLe 2 t.depth ++ bytesLe 2 p.depth ++ bytesLe 2 0 ++ bytesLe 4 t.floor ++
    bytesLe 4 t.lat ++ bytesLe 4 ratio ++ bytesLe 4 p.floor ++ bytesLe 4 p.lat

/-- A certificate that says nothing, used for the checks that need none when the structure check fails. -/
def Cert.none : Cert :=
  { secopt := 0, maxdrop := 0xFFFF, paths := [], engs := [], bws := [], drzs := [], pcool := 0, tcool := 0, theta := 0 }

/-- The 64-byte header of a report with `len` bytes of entries (Table 6). -/
def reportHeader (result trigger code object orbit crossing slot dropsec nfail npath ndrop len : Nat) (w : Power) (accord : Nat) : List Byte :=
  bytesLe 1 result ++ bytesLe 1 trigger ++ bytesLe 1 code ++ bytesLe 1 0 ++ bytesLe 4 object ++ bytesLe 6 orbit ++ bytesLe 2 crossing ++
    bytesLe 1 slot ++ bytesLe 1 0 ++ bytesLe 2 dropsec ++ bytesLe 2 nfail ++ bytesLe 2 npath ++ bytesLe 2 ndrop ++ bytesLe 2 0 ++
    bytesLe 4 (64 + len) ++ bytesLe 4 w.ptot ++ bytesLe 4 w.pfix ++ bytesLe 4 (BitVec.ofInt 32 w.tjfix).toNat ++ bytesLe 4 w.icore ++
    bytesLe 4 w.ilane ++ bytesLe 4 w.ilaneh ++ bytesLe 4 accord ++ bytesLe 4 0

/-- UPLAT and UPFLOOR of each lane on which a SYS_OUT path ends: those of the path whose last named bit leaves latest, counted from its
source crossing; of two that leave together, the first (R161). -/
def upTerms (xs : List Checked) : List (Nat × Nat × Nat) :=
  (xs.foldl (fun (l : List (Nat × Terms)) x => match x.path.segs.getLast? with
    | some g =>
      if g.kind = 0x0D ∧ l.all (fun e => e.1 != g.object || decide (e.2.leaves < x.terms.leaves)) then
        l.filter (fun e => e.1 != g.object) ++ [(g.object, x.terms)]
      else l
    | none => l) []).map (fun e => (e.1, e.2.up, e.2.upFloor))

/-- Admission of configuration `s` (the candidate) under accord `n`, for a trigger and a snapshot. -/
def State.admit_ (s : State) (t : AdmTrigger) (n : Nat) (z : AdmSnap) : AdmResult :=
  let parsed := s.certOf n
  let c := match parsed with | .ok c => c | .error _ => Cert.none
  let ok := match parsed with | .ok _ => true | .error _ => false
  let adopt := match t with | .adopt ls => ls | _ => []
  let ps := sortPaths c.paths
  let f1 := (match parsed with
    | .error o => [devFail 1 0x08 ⟨9, o⟩ o 0]
    | .ok _ => if s.engRecsOk c then [] else [devFail 1 0x08 ⟨9, 24⟩ 24 0])
  let xs := ps.map (fun p => let q := s.pathCheck (s.laneSnap z) adopt z.period p; ({ path := p, fail := q.1, terms := q.2 } : Checked))
  let f5 := xs.filterMap (fun x => x.fail.map (fun e => pathFail 5 x.path e.code e.seg e.v1 e.v2))
  let pre := f1 ++ s.checkClock z ++ s.checkDead z ++ s.checkEngines c ++ f5 ++ s.checkNet c ++ s.checkRings ++ s.checkMarks
  let fs := s.resolveDrops c ps 16 pre
  let opt (k : Nat) : Bool := (ps.find? (fun p => p.key == k)).any PathRec.optional
  let secs := (droppedSecs c.secopt opt fs).map (·.1)
  let dropsec : BitVec 16 := BitVec.ofNat 16 ((secs.map (fun k => 2 ^ k)).sum)
  let w := s.powerOf z.period dropsec c
  let failed := ps.filter (fun p => (failsPath fs p.key).isSome)
  let gone := droppedPaths opt ps fs
  let f11 := (if ok then checkPower w c else []) ++
    (if c.maxdrop ≠ 0xFFFF ∧ c.maxdrop < gone.length then [devFail 12 0x1E ⟨0, 0⟩ gone.length c.maxdrop] else [])
  let all := fs ++ f11
  let sorted := (List.range 13).flatMap (fun o => all.filter (fun f => f.order == o))
  let drops (f : Fail) : Bool := f.drops c.secopt opt
  let refusing := sorted.find? (fun f => !drops f)
  let first := match refusing with | some f => some f | none => sorted.head?
  let result := if refusing.isSome then 3 else if gone.isEmpty && secs.isEmpty then 1 else 2
  let admitted := xs.filter (fun x => (failsPath fs x.path.key).isNone)
  let code := (first.map (·.code)).getD 0
  let object := (first.map (fun f => f.obj.word)).getD 0
  let body := sorted.flatMap (fun f => f.bytes (drops f)) ++ xs.flatMap (fun x => x.bytes (failsPath fs x.path.key))
  let hdr := reportHeader result t.code code object z.orbit.toNat z.crossing z.slot dropsec.toNat sorted.length xs.length gone.length
    body.length w (match t with | .accord n _ => n | _ => 0xFFFFFFFF)
  let ups := upTerms admitted
  { result := result, code := code, object := BitVec.ofNat 32 object, dropsec := dropsec, admitted := admitted.length,
    dropped := failed.map PathRec.key, ndrop := gone.length, ends := gone.flatMap PathRec.endWords, report := hdr ++ body, up := ups }

/-- Write the report and the admission registers (R365, R366). -/
def State.admReport (s : State) (t : AdmTrigger) (r : AdmResult) : State :=
  let d := sha256 r.report
  let s1 := (((s.setFld Reg.admStatus 31 30 r.result).setFld Reg.admStatus 29 28 t.code).setFld Reg.admStatus 23 16 r.code).setFld
    Reg.admStatus 15 0 r.dropsec.toNat
  let s2 := (s1.setReg Reg.admObject r.object).setReg Reg.admCount (BitVec.ofNat 32 (r.admitted * 65536 + r.ndrop))
  let s3 := (List.range 8).foldl (fun s i => s.setReg (Reg.admDigest i) (BitVec.ofNat 32 (leAt d (4 * i) 4))) s2
  { s3 with adm := { s3.adm with report := r.report } }

/-- An admitted configuration takes effect: its dropped paths, end words, sectors and upstream terms (R361, R362). -/
def State.admForce (s : State) (r : AdmResult) : State :=
  { s with adm := { s.adm with dropped := r.dropped, ends := r.ends, up := r.up, dropsec := r.dropsec, next := none } }

/-- `LAT_ADM` of the lanes of an admitted configuration takes their A (R78, R92, R94). -/
def State.latAdmit (s : State) (z : AdmSnap) (ls : List Nat) : State :=
  ls.foldl (fun s l => s.setReg (Reg.lanLatAdm l) ((z.lanes.getD l (0, 0, 0)).1 ||| 0x80000000)) s

/-- Lanes that stand in WAIT_JOIN or LIVE in a snapshot. -/
def AdmSnap.aligned (z : AdmSnap) : List Nat :=
  (List.range 240).filter (fun l => decide ((z.lanes.getD l (0, 0, 0)).2.2 % 256 = 4 ∨ (z.lanes.getD l (0, 0, 0)).2.2 % 256 = 5))

end Sys2Proof.Machine
end

