-- ==== Sys2Proof/Machine/Flash.lean ====
section
/-!
DEFINITION. Sys2Proof/Machine/Flash.lean: the records of the flash, the directory in force, the count of failed attempts, and
the failure of a start (R370 to R374, R390, R391, R395).
-/
namespace Sys2Proof.Machine

/-- Bytes of a record: header, payload, CRC-32 and commit word (R370). -/
def Record.size (r : Record) : Nat := 24 + r.payload.length
def sizes (l : List Record) : Nat := (l.map Record.size).sum

/-- Records of a log block. -/
def Flash.blockOf (f : Flash) (b : Nat) : List Record := Tbl.get [] f.log b
/-- Every record of the log, block after block. -/
def Flash.logRecords (f : Flash) : List Record := f.log.flatMap (·.2)
def Flash.dirRecords (f : Flash) : List Record := f.dir0 ++ f.dir1
def Flash.records (f : Flash) : List Record := f.dirRecords ++ f.logRecords

/-- The `SEQ` of the next record: the highest found plus 1 (R371). -/
def Flash.nextSeq (f : Flash) : W32 := BitVec.ofNat 32 ((f.records.map (fun r => r.seq.toNat)).foldl max 0 + 1)

/-- The device reads the directory and the log: the next record of each goes to the start of the next half or block (R372). -/
def Flash.reread (f : Flash) : Flash :=
  { f with dirRead := !(if f.half1 then f.dir1 else f.dir0).isEmpty, logRead := !(f.blockOf f.block).isEmpty }

/-- Place a directory record: in the half in use, or in the other one, erased first (R373). -/
def Flash.putDir (f : Flash) (r : Record) : Flash :=
  let cur := if f.half1 then f.dir1 else f.dir0
  if f.dirRead ∨ 524288 < sizes cur + r.size then
    (if f.half1 then { f with dir0 := [r], half1 := false, dirRead := false }
     else { f with dir1 := [r], half1 := true, dirRead := false })
  else if f.half1 then { f with dir1 := cur ++ [r] } else { f with dir0 := cur ++ [r] }

/-- Records numbered again from a `SEQ` on, with a new `TIME`. -/
def renumber (seq : W32) (time : W32) (l : List Record) : List Record :=
  ((List.range l.length).zip l).map (fun x => { x.2 with seq := seq + BitVec.ofNat 32 x.1, time := time })

/-- Place a log record: in the block now written, or in the next of the ring, erased first. The REPAIR and CERT records of the
erased block are committed again ahead of it (R372, R423, R447). -/
def Flash.putLog (f : Flash) (r : Record) : Flash :=
  let cur := f.blockOf f.block
  if f.logRead ∨ 65536 < sizes cur + r.size then
    (let b := (f.block + 1) % 1008
     let keep := (f.blockOf b).filter (fun x => x.typ == 0x20 || x.typ == 0x40)
     { f with block := b, logRead := false, log := Tbl.set [] f.log b (renumber r.seq r.time (keep ++ [r])) })
  else { f with log := Tbl.set [] f.log f.block (cur ++ [r]) }

/-- `TIME` of a record (R370). -/
def State.recordTime (s : State) : W32 :=
  if s.tsbState = .aligned then BitVec.ofNat 32 s.tsb.orbit.toNat else 0xFFFFFFFF

/-- A record is committed: header, payload, CRC and commit word written (R370 to R373). -/
def State.commitNow (s : State) (typ : Byte) (payload : List Byte) : State :=
  let r : Record := { typ := typ, seq := s.flash.nextSeq, time := s.recordTime, payload := payload }
  { s with flash := if typ = 1 then s.flash.putDir r else s.flash.putLog r }

/-- RECORD_COMMIT: Crucible commits the oldest record asked of it (R372). -/
def execRecordCommit (s : State) : Host.Outcome State Fault Refusal :=
  match s.commits with
  | [] => s.go
  | r :: rest => (({ s with commits := rest } : State).commitNow r.typ r.payload).go

/-- Every record asked for is committed, oldest first. -/
def State.commitAll (s : State) : State :=
  s.commits.foldl (fun s r => s.commitNow r.typ r.payload) { s with commits := [] }

/-! ### The directory (R373) -/

def newest (l : List Record) : Option Record :=
  l.foldl (fun b r => match b with
    | none => some r
    | some x => if x.seq.toNat ≤ r.seq.toNat then some r else some x) none

/-- The directory in force. -/
def Flash.directory (f : Flash) : Option Record := newest (f.dirRecords.filter (fun r => r.typ == 1))

def Record.byte (r : Record) (i : Nat) : Nat := ((r.payload.getD i 0 : Byte)).toNat
def Record.word (r : Record) (i : Nat) : Nat := r.byte i + 256 * r.byte (i + 1) + 65536 * r.byte (i + 2) + 16777216 * r.byte (i + 3)

/-- `ACTIVE`, `MAXFAIL` in force and the lengths of the slots of a directory record; a `MAXFAIL` outside 1 to 7 is 3. -/
def Record.active (r : Record) : Nat := r.byte 0 % 2
def Record.maxFail (r : Record) : Nat := if 1 ≤ r.byte 1 ∧ r.byte 1 ≤ 7 then r.byte 1 else 3
def Record.slotLen (r : Record) (slot : Nat) : Nat := if slot = 0 then r.word 4 else r.word 8

/-- A directory record's payload. -/
def dirPayload (active maxfail lenA lenB : Nat) : List Byte :=
  bytesLe 1 active ++ bytesLe 1 maxfail ++ bytesLe 2 0 ++ bytesLe 4 lenA ++ bytesLe 4 lenB ++ bytesLe 4 0

/-! ### Attempts (R390, R395) -/

/-- Records of a type in the log. -/
def Flash.ofType (f : Flash) (t : Byte) : List Record := f.logRecords.filter (fun r => r.typ == t)

/-- The consecutive failed attempts: ATTEMPT records above the newest RUN, CLEAR and directory record. -/
def Flash.failCount (f : Flash) : Nat :=
  let last := (newest (f.records.filter (fun r => r.typ == 0x11 || r.typ == 0x13 || r.typ == 1))).elim 0 (fun r => r.seq.toNat)
  ((f.ofType 0x10).filter (fun r => decide (last < r.seq.toNat))).length

/-- The slot of the next attempt before an EMPTY or absent one is passed over. -/
def Flash.nextSlot (f : Flash) (active : Nat) : Nat :=
  match newest (f.records.filter (fun r => r.typ == 0x10 || r.typ == 0x11 || r.typ == 0x12 || r.typ == 0x13 || r.typ == 1)) with
  | none => active
  | some r => if r.typ = 0x12 then r.byte 1 % 2 else if r.typ = 0x10 then 1 - r.byte 0 % 2 else active

/-- The record of a type that follows an attempt before the next attempt. -/
def Flash.after (f : Flash) (a : Record) (t : Byte) : Option Record :=
  let next := ((f.ofType 0x10).filter (fun r => decide (a.seq.toNat < r.seq.toNat))).foldl
    (fun m r => match m with | none => some r.seq.toNat | some n => some (min n r.seq.toNat)) none
  (f.ofType t).find? (fun r => decide (a.seq.toNat < r.seq.toNat) && (match next with | some n => decide (r.seq.toNat < n) | none => true))

/-- A `BOOT_HIST` entry (Table 10). -/
def histEntry (intr : Bool) (slot step code seq : Nat) : W32 :=
  BitVec.ofNat 32 (2 ^ 31 + (if intr then 2 ^ 30 else 0) + slot % 2 * 2 ^ 29 + step % 32 * 2 ^ 24 + code % 256 * 2 ^ 16 + seq % 65536)

/-- The attempts that failed, newest first, each with its FAIL record. -/
def Flash.failed (f : Flash) : List (Record × Option Record) :=
  ((f.ofType 0x10).filter (fun a => (f.after a 0x11).isNone)).reverse.map (fun a => (a, f.after a 0x12))

/-- The failures that step 6 puts into `BOOT_HIST`, `CODE` and `INTR` (R393, R395). -/
def State.fillHist (s : State) : State :=
  let l := s.flash.failed
  let s1 := (List.range 8).foldl (fun s i => s.setReg (Reg.bootHist i) (match l[i]? with
    | none => 0
    | some (a, none) => histEntry true (a.byte 0) 0 0 a.seq.toNat
    | some (a, some x) => histEntry false (a.byte 0) (x.byte 2) (x.byte 0) a.seq.toNat)) s
  let s2 := s1.setBit Reg.bootStatus 15 (match l.head? with | some (_, none) => true | _ => false)
  match l.findSome? (fun x => x.2) with
  | some x => s2.setFld Reg.bootStatus 23 16 (x.byte 0)
  | none => s2

/-- A failure joins `BOOT_HIST` as its newest entry, and `CODE`. -/
def State.histAdd (s : State) (slot step code seq : Nat) : State :=
  let s1 := (List.range 7).foldl (fun t i => t.setReg (Reg.bootHist (7 - i)) (s.reg (Reg.bootHist (6 - i)))) s
  ((s1.setReg (Reg.bootHist 0) (histEntry false slot step code seq)).setFld Reg.bootStatus 23 16 code).setBit Reg.bootStatus 15 false

/-! ### A failed attempt (R391) -/

/-- `BOOT_HIST.STEP` of where the start stands: fixed step n, or programmable entry k as 0x10 + k. -/
def State.bootStep (s : State) : Nat := if s.phase = 2 then 16 + s.fld Reg.bootStatus 27 24 else s.fld Reg.bootStatus 27 24

/-- Failures of the image itself, after which the other slot is tried. -/
def imageFailure (code : Nat) : Bool :=
  decide ((1 ≤ code ∧ code ≤ 0x10) ∨ code = 0x14 ∨ code = 0x23 ∨ code = 0x31 ∨ code = 0x43 ∨ code = 0x51 ∨ (0x70 ≤ code ∧ code ≤ 0x72))

/-- The attempt under way fails with a code: FAIL record, `BOOT_HIST`, and a warm restart is due (R391). -/
def State.attemptFails (s : State) (code object : Nat) : State :=
  let slot := s.fld Reg.bootStatus 13 13
  let next := if imageFailure code then 1 - slot else slot
  let seq := (newest (s.flash.ofType 0x10)).elim 0 (fun r => r.seq.toNat)
  let step := s.bootStep
  let s1 := s.commitAll.commitNow 0x12 (bytesLe 1 code ++ bytesLe 1 next ++ bytesLe 1 step ++ bytesLe 1 0 ++ bytesLe 4 object)
  let s2 := s1.histAdd slot step code seq
  { s2 with boot := { s2.boot with restart := true } }

/-- The start fails in its programmable phase; in RUN, in base-note mode or with a restart already due it has not begun. -/
def State.startFails (s : State) (code object : Nat) : State :=
  if (s.phase = 1 ∨ s.phase = 2 ∨ s.phase = 3) ∧ !s.boot.restart then s.attemptFails code object else s

end Sys2Proof.Machine
end

