-- ==== Sys2Proof/Machine/Power.lean ====
section
/-!
DEFINITION. Sys2Proof/Machine/Power.lean: the power manager: rails, sector regulators, thermal sensors and throttling, thermal
and rail shutdown, base-note mode, and what a warm restart clears (R393, R427 to R443, R475, R499).
-/
namespace Sys2Proof.Machine

/-! ### What a warm restart clears (R474, R475) -/

/-- Registers in the always-on domain (R474). -/
def alwaysOn (a : Nat) : Bool := match glbOff a with
  | some o => decide (o = 0x2000 ∨ (0x2020 ≤ o ∧ o < 0x2040) ∨ (0x5000 ≤ o ∧ o < 0x50C0) ∨ o = 0x4014 ∨ o = 0x4018 ∨ o = 0x10 ∨
      o = 0x14)
  | none => false

/-- The device after a warm restart: global and sector domains clear; power states, rails, throttle level, failing cells and
spare rows, fuses, flash and the pins of the test port stay. The commands that wait are the model's own and stay too. -/
def State.warmClear (s : State) : State :=
  { State.reset with
    regs := s.regs.filter (fun e => alwaysOn e.1)
    tsb := { cx := s.tsb.cx, tick := s.tsb.tick }
    flash := s.flash
    prot := { stuck := s.prot.stuck, spares := s.prot.spares }
    pwr := s.pwr
    fuses := s.fuses
    hlm := { aseq := s.hlm.aseq }
    mgt := { straps := s.mgt.straps, i2cLast := s.mgt.i2cLast, i2cOut := s.mgt.i2cOut, ir := s.mgt.ir, boundary := s.mgt.boundary,
             update := s.mgt.update, tdr := s.mgt.tdr, held := s.mgt.held, highz := s.mgt.highz, sent := s.mgt.sent }
    powered := s.powered
    testMode := s.testMode
    vfuse := s.vfuse
    free := s.free
    pending := s.pending }

/-! ### Sectors and quadrants (R435, R436) -/

/-- No region of a sector is reloaded any more. -/
def State.dropReloads (s : State) (k : Nat) : State :=
  { s with reloads := s.reloads.filter (fun e => regionSector e.1 != k) }

/-- A sector domain goes down as an emergency: it leaves the fixed plane, is isolated, and its regulator is switched off. -/
def State.emergencyDown (s : State) (k cause : Nat) : State :=
  if s.secPower k = 0 then s
  else
    let s1 := (if s.secIn k then s.sectorOut k 2 cause else s.setFld (Reg.glbSecState k) 31 30 2).readoutLeave k
    let s2 := { s1 with prot := { s1.prot with owed := s1.prot.owed.filter (· != k) } }.sectorClear k
    let s3 := (sectorClusters k).foldl (fun s n => s.setFld (Reg.glbCl n) 2 1 0) s2
    let b : BitVec 16 := BitVec.ofNat 16 (2 ^ k)
    { (s3.setSecPower k 1).dropReloads k with
      pwr := { s3.pwr with emergency := s3.pwr.emergency ||| b, orderly := s3.pwr.orderly &&& ~~~b, up := s3.pwr.up &&& ~~~b } }

/-- An emergency down of a sector is over: its regulator is off. -/
def State.downOver (s : State) (k : Nat) : State :=
  if s.pwr.emergency.getLsbD k then
    ({ s with pwr := { s.pwr with emergency := s.pwr.emergency &&& ~~~(BitVec.ofNat 16 (2 ^ k)) } } : State).setSecPower k 0
  else s

/-- EMERGENCY_DOWN_COMPLETE. -/
def execEmergencyDownComplete (k : SectorNo) (s : State) : Host.Outcome State Fault Refusal := (s.downOver k).go

/-- A sector that admission drops is out of the fixed plane, and what its stream interfaces hold is dropped (R22, R193, R362). -/
def State.dropOut (s : State) (k : Nat) : State :=
  let s1 := (if s.secIn k then s.sectorOut k 2 5 else s.setFld (Reg.glbSecState k) 31 30 2).readoutLeave k
  ((s1.queues.map (·.1)).filter (fun q => q / 512 == k)).foldl State.queueDrop s1

/-- A sector that admission drops goes down in order: it leaves, and its bridges let its requesters finish (R342, R436). -/
def State.orderlyDown (s : State) (k : Nat) : State :=
  if s.secPower k = 0 ∨ s.secPower k = 1 then s.setFld (Reg.glbSecState k) 31 30 2
  else
    let s1 := s.dropOut k
    { (s1.setSecPower k 1).dropReloads k with
      pwr := { s1.pwr with orderly := s1.pwr.orderly ||| BitVec.ofNat 16 (2 ^ k) } }

/-- A region of sector `k` is being reloaded. -/
def State.reloadsOf (s : State) (k : Nat) : Bool :=
  s.reloads.any (fun e => regionSector e.1 == k && e.2.any (fun r => r.doneAt.isNone))

/-- RELOAD_COMPLETE: every target of the region has been loaded; an uncorrectable error in the keep store abandons the reload and the warm
restart follows (R402, R415). A region of a sector that admission has dropped stays out, and with the last of them the sector goes down
(R362, R402). -/
def execReloadComplete (k : RegionNo) (s : State) : Host.Outcome State Fault Refusal :=
  match Tbl.get none s.reloads k with
  | none => s.go
  | some r =>
    if r.doneAt.isSome then s.go
    else
      let q := s.boot.sections.foldl (fun (a : State × Bool) x => let b := a.1.read x.koff x.slen; (b.1, a.2 || b.2)) (s, false)
      if q.2 then ({ q.1 with boot := { q.1.boot with restart := true } } : State).go
      else
        let s1 := q.1.reloadRegion k r.accord
        let s2 : State := { s1 with reloads := Tbl.set none s1.reloads k (some { r with doneAt := some s1.tsb.cx }) }
        let ns := if k.val < 256 then [k.val] else sectorClusters (k.val - 256)
        let s3 := ns.foldl (fun s n => s.setBit (Reg.glbCl n) 1 false) s2
        let sec := regionSector k
        (if s3.adm.dropsec.getLsbD sec then
          (let s4 := s3.coldDone k
           if s4.reloadsOf sec then s4 else s4.orderlyDown sec)
        else s3).go

/-- ORDERLY_DOWN_COMPLETE: once every response owed to the sector's requesters has come or timed out, the domain is isolated
and the regulator switched off. -/
def execOrderlyDownComplete (k : SectorNo) (s : State) : Host.Outcome State Fault Refusal :=
  if s.pwr.orderly.getLsbD k && !(s.net.awaiting.any (fun w => endpointSector w.src == some k.val)) then
    (let s1 := s.sectorClear k
     let s2 := (sectorClusters k).foldl (fun s n => s.setFld (Reg.glbCl n) 2 1 0) s1
     (({ s2 with pwr := { s2.pwr with orderly := s2.pwr.orderly &&& ~~~(BitVec.ofNat 16 (2 ^ k.val)) } } : State).setSecPower k 0).go)
  else s.go

/-- The power-up of a sector begins (R435). -/
def State.sectorUp (s : State) (k : Nat) : State :=
  if s.secPower k ≠ 0 then s
  else
    { ((s.setSecPower k 1).setFld (Reg.glbSecState k) 31 30 0) with
      pwr := { s.pwr with up := s.pwr.up ||| BitVec.ofNat 16 (2 ^ k) } }

/-- Every register in the window of sector `k` has its device-reset value (R485), which for `ENG_ST_COPY.GOVP` is that of the descriptor. -/
def State.sectorFresh (s : State) (k : Nat) : State :=
  let s1 : State := { s with regs := s.regs.filter (fun e => targetSector e.1 != some k) }
  (List.range 34).foldl (fun s i => if (s.engDesc (34 * k + i) 0).getLsbD 5 then s.setBit (Reg.engStCopy (34 * k + i)) 7 true else s) s1

/-- SECTOR_POWER_GOOD: the isolation is released with the domain in reset, its registers at their reset values; outside the start its
contents are reloaded. -/
def execSectorPowerGood (k : SectorNo) (s : State) : Host.Outcome State Fault Refusal :=
  if s.pwr.up.getLsbD k then
    (let s1 : State := (({ s with pwr := { s.pwr with up := s.pwr.up &&& ~~~(BitVec.ofNat 16 (2 ^ k.val)) } } : State).setSecPower k 2)
     (if 2 ≤ s1.phase ∧ s1.phase ≤ 4 then (s1.sectorFresh k).reloadStart k s1.accordNow else s1).go)
  else s.go

/-- Overcurrent of a sector, or a power-up that does not come about in time (R435, R437). -/
def State.overcurrent (s : State) (k : Nat) : State :=
  let s1 := s.emergencyDown k 6
  ((((s1.setBit Reg.pwrOc k true).setBit Reg.pwrStatus 27 true).fault 11).event 7 k)

/-- SECTOR_OVERCURRENT. -/
def execSectorOvercurrent (k : SectorNo) (s : State) : Host.Outcome State Fault Refusal :=
  if s.secPower k = 0 then s.go else (s.overcurrent k).go

/-- SECTOR_POWER_TIMEOUT. -/
def execSectorPowerTimeout (k : SectorNo) (s : State) : Host.Outcome State Fault Refusal :=
  if s.pwr.up.getLsbD k then (s.overcurrent k).go else s.go

/-- A quadrant lane domain goes down: its transmitters stop and its lanes lose everything they had aligned. -/
def State.quadDown (s : State) (q : Nat) : State :=
  let s1 := s.quadReset q
  let s2 := ((List.range 60).map (fun i => 60 * q + i)).foldl (fun s l =>
    let k := s.lane l
    if k = LaneSt.dflt then s.setLaneState l 0 else (s.setLane l { k with txOn := false, sent := [] }).setLaneState l 0) s1
  let b : BitVec 4 := BitVec.ofNat 4 (2 ^ q)
  { s2 with pwr := { s2.pwr with quads := s2.pwr.quads &&& ~~~b }, boot := { s2.boot with lqclk := s2.boot.lqclk &&& ~~~b } }

/-- Every sector and quadrant goes down as an emergency. -/
def State.allDown (s : State) (cause : Nat) : State :=
  ([0, 1, 2, 3] : List Nat).foldl State.quadDown ((List.range 16).foldl (fun s k => s.emergencyDown k cause) s)

/-- DEC outputs held at their safe levels by rule, CAL at 0 (R154, R432, R441). -/
def State.safePins (s0 : State) : State :=
  let s := s0.setFld Reg.decStatus 15 0 0xFFFF
  { s with decPins := if s.boot.outDec then BitVec.ofNat 16 (s.fld Reg.decCfg 15 0) else 0, dec := [],
           tsb := { s.tsb with cal := [], calPins := 0 } }

/-- Outputs as before their release: DEC and CAL undriven and pulled down, THROTTLE and BUSY high (R388, R393). -/
def State.outputsOff (s : State) : State :=
  { (s.setFld Reg.drzPins 4 0 0x1F).safePins with
    decPins := 0, boot := { s.boot with outDec := false, outCal := false, outTx := 0 } }

/-! ### PMBus (R428 to R432) -/

/-- A command sent to a rail's regulator. -/
def State.pmbus (s : State) (r : Nat) (cmd : Byte) (v : W16) : State :=
  { s with pwr := { s.pwr with sent := s.pwr.sent ++ [(r, cmd, v)] } }

/-- The words of `STATUS_WORD` that keep a rail from being in regulation. -/
def statusFaults : W16 := 0xE874

/-- A rail is in regulation (R429). -/
def State.inRegulation (s : State) (r : Nat) (v : RailReading) : Bool :=
  let vout := s.fld (Reg.pwrRailCfg r) 15 0
  let d := if v.vout.toNat ≤ vout then vout - v.vout.toNat else v.vout.toNat - vout
  !v.failed && decide (d * 1000 ≤ s.fld Reg.pwrTelCfg 7 0 * vout) && decide (v.status &&& statusFaults = 0)

/-- A LINEAR11 value, as mantissa and exponent, exceeds a limit in whole units. -/
def linear11Above (w : W16) (lim : Nat) : Bool :=
  let m := toSigned 11 (bitsOf w 10 0)
  let e := toSigned 5 (bitsOf w 15 11)
  if 0 ≤ e then decide ((lim : Int) < m * 2 ^ e.toNat) else decide ((lim : Int) * 2 ^ (-e).toNat < m)

/-- Current limits of the rails in A. -/
def railLimit (r : Nat) : Nat := if r = 0 then 85 else if r = 1 then 58 else 12

/-- Rails `rs` are turned off, in the order 2, 1, 0. -/
def State.railsOff (s : State) (rs : List Nat) : State :=
  ([2, 1, 0].filter (fun r => decide (r ∈ rs))).foldl (fun s r =>
    let s1 := s.pmbus r 1 0
    { s1 with pwr := { s1.pwr with rails := s1.pwr.rails &&& ~~~(BitVec.ofNat 3 (2 ^ r)),
                                   globalOn := s1.pwr.globalOn && decide (r ≠ 0) } }) s

/-- Base-note mode with a failure code (R393); the code and the step of a failure before the ATTEMPT record join `BOOT_HIST`. -/
def State.baseNote (s : State) : State :=
  let s1 := (((s.allDown 8).outputsOff).setFld Reg.bootStatus 31 28 5).setFld Reg.hlmStatus 2 0 7
  let b : Boot := { s1.boot with enable := 0, restart := false, admitted := false, imgver := 0, kslot := none, imgdig := [], fwdig := [] }
  { (s1.setFld Reg.dptStatus 31 30 0) with boot := b,
                                           engines := [], dpt := {}, adm := { s1.adm with waiting := [], running := none } }

/-- Only the always-on domain runs: everything behind the global regulator is lost (R434, R441). -/
def State.globalOff (s : State) : State :=
  let s1 := s.commitAll
  let s2 := s1.warmClear
  ({ s2 with pwr := { s2.pwr with globalOn := false }, prot := { s2.prot with flips := [] } } : State).outputsOff

/-- A rail has faulted (R432): rails 1 and 2 lead to base-note mode, rail 0 to rail-off. -/
def State.railFault (s : State) (r : Nat) : State :=
  let s1 := ((s.setBit Reg.pwrStatus 28 true).setFld Reg.pwrStatus 23 22 r).setFld Reg.pwrStatus 31 30 3
  let s2 := ((s1.allDown 8).safePins.event 6 r).commitAll
  if r = 0 then (s2.railsOff [0, 1, 2]).globalOff
  else (((s2.railsOff [1, 2]).setFld Reg.bootStatus 23 16 0x44).baseNote).setFld Reg.pwrStatus 31 30 1

/-- RAIL_POLL: telemetry of the latest poll; enough bad polls in a row are a rail fault (R431). -/
def execRailPoll (r : Fin 3) (v : RailReading) (s : State) : Host.Outcome State Fault Refusal :=
  if s.fld Reg.pwrStatus 31 30 ≠ 1 ∨ !s.pwr.rails.getLsbD r then s.go
  else
    let s1 := if v.failed then s
      else (s.setReg (Reg.pwrRailTel r) (BitVec.ofNat 32 (v.iout.toNat * 65536 + v.vout.toNat))).setReg (Reg.pwrRailStat r)
        (BitVec.ofNat 32 (v.status.toNat * 65536 + v.temp.toNat))
    let bad := !s.inRegulation r v || (!v.failed && linear11Above v.iout (railLimit r))
    let n := if bad then s1.pwr.bad.get r + 1 else 0
    let full := bad && decide (s1.fld Reg.pwrTelCfg 15 8 ≤ n)
    let s2 : State := { s1 with pwr := { s1.pwr with bad := s1.pwr.bad.set r (if full then 0 else n) } }
    (if full then s2.railFault r else s2).go

/-- PWR_CLEAR: CLEAR_FAULTS to every rail. -/
def State.pwrClearNow (s : State) : State := ((s.pmbus 0 3 0).pmbus 1 3 0).pmbus 2 3 0

def execPwrClear (s : State) : Host.Outcome State Fault Refusal := s.pwrClearNow.go

/-- The retries taken now: masked sectors with their overcurrent bit set power up, an emergency down that still runs ending there, the
others set `CMD_ERR` (R437). -/
def State.retryNow (s : State) (mask : Nat) : State :=
  (List.range 16).foldl (fun s k =>
    if (mask / 2 ^ k) % 2 = 0 then s
    else if s.rbit Reg.pwrOc k then ((s.setBit Reg.pwrOc k false).downOver k).sectorUp k
    else s.setBit Reg.pwrStatus 24 true) s

/-- PWR_RETRY: while an admission runs the retry waits (R442). -/
def State.pwrRetry (s : State) (mask : Nat) : State :=
  if s.adm.running.isSome then { s with pwr := { s.pwr with retry := s.pwr.retry ||| BitVec.ofNat 16 mask } } else s.retryNow mask

def execPwrRetry (mask : BitVec 16) (s : State) : Host.Outcome State Fault Refusal := (s.pwrRetry mask.toNat).go

/-- The retries that waited for an admission; a sector that it `drop`s is ignored, which `CMD_ERR` shows (R437, R442). -/
def State.retryHeld (s : State) (drop : BitVec 16) : State :=
  let s1 := ({ s with pwr := { s.pwr with retry := 0 } } : State).retryNow (s.pwr.retry &&& ~~~drop).toNat
  if s.pwr.retry &&& drop = 0 then s1 else s1.setBit Reg.pwrStatus 24 true

/-! ### Sensors and throttling (R438 to R440) -/

/-- The reading of a sensor. -/
def State.sensor (s : State) (i : Nat) : Int := toSigned 16 (s.fld (Reg.pwrTemp (i / 2)) (16 * (i % 2) + 15) (16 * (i % 2)))

/-- Sensors that have not failed. -/
def State.goodSensors (s : State) : List Nat := (List.range 32).filter (fun i => !s.rbit Reg.pwrSensFail i)

/-- `TMAX` from the sensors. -/
def State.tmaxNow (s : State) : State :=
  let v : Nat := match s.goodSensors.map s.sensor with
    | [] => 0x7FFF
    | x :: xs => (BitVec.ofInt 16 (xs.foldl max x)).toNat
  s.setFld Reg.pwrStatus 15 0 v

/-- A sensor has failed. -/
def State.sensorFails (s : State) (i : Nat) : State :=
  (((s.setBit Reg.pwrSensFail i true).setBit Reg.pwrStatus 25 true).fault 10).tmaxNow

/-- SENSOR_SAMPLE: a reading outside −55 to 150 °C fails the sensor. -/
def execSensorSample (i : Fin 32) (v : BitVec 16) (s : State) : Host.Outcome State Fault Refusal :=
  let s1 := s.setFld (Reg.pwrTemp (i / 2)) (16 * (i.val % 2) + 15) (16 * (i.val % 2)) v.toNat
  if v.toInt < -440 ∨ 1200 < v.toInt then (s1.sensorFails i).go
  else ((s1.setBit Reg.pwrSensFail i false).tmaxNow).go

/-- SENSOR_NOT_UPDATED. -/
def execSensorNotUpdated (i : Fin 32) (s : State) : Host.Outcome State Fault Refusal := (s.sensorFails i).go

/-- THROTTLE_UPDATE: once every `TSTEP` ms. -/
def execThrottleUpdate (s : State) : Host.Outcome State Fault Refusal :=
  if 2 ≤ s.fld Reg.pwrStatus 31 30 then s.go
  else
    let lv := s.fld Reg.pwrStatus 21 19
    let t := toSigned 16 (s.fld Reg.pwrStatus 15 0)
    let thr : Int := 8 * s.fld Reg.pwrCfg 23 16
    let hys : Int := 8 * s.fld Reg.pwrCfg 15 12
    let held := s.goodSensors.isEmpty ||
      (List.range 16).any (fun k => s.secPowered k && s.rbit Reg.pwrSensFail (2 * k) && s.rbit Reg.pwrSensFail (2 * k + 1))
    let nx := if held then 7 else if thr ≤ t then min 7 (lv + 1) else if t ≤ thr - hys then lv - 1 else lv
    let s1 := s.setFld Reg.pwrStatus 21 19 nx
    (if lv = 0 ∧ nx ≠ 0 then (s1.setBit Reg.pwrStatus 26 true).fault 9 else s1).go

/-- A change of level takes effect at the next group of 8 ECLK cycles (R440). -/
def State.levelGroup (s : State) : State :=
  let lv := s.fld Reg.pwrStatus 21 19
  let a := if s.tsb.tick % 8 = 0 then lv else s.pwr.level
  let b := if s.tsb.tick % 16 = 0 then lv else s.pwr.level2
  if a = s.pwr.level ∧ b = s.pwr.level2 then s else { s with pwr := { s.pwr with level := a, level2 := b } }

/-- THERMAL_TRIP: a comparator at 115 °C shuts the device down to thermal off (R441). -/
def execThermalTrip (i : Fin 32) (s : State) : Host.Outcome State Fault Refusal :=
  if s.fld Reg.pwrStatus 31 30 = 2 then s.go
  else
    let s1 := (s.setBit Reg.pwrStatus 29 true).setFld Reg.pwrStatus 31 30 2
    let s2 := ((((s1.allDown 8).safePins).setFld Reg.drzPins 4 0 0x1F).event 5 i).commitAll
    ((s2.globalOff).railsOff [0, 1, 2]).go

/-- A restart from thermal off is allowed: every sensor that has not failed reads at most `TREARM`, and one has not (R438,
R441). -/
def State.rearmed (s : State) : Bool :=
  !s.goodSensors.isEmpty && s.goodSensors.all (fun i => decide (s.sensor i ≤ 8 * s.fld Reg.pwrCfg 31 24))

/-- POWER_REMOVAL: VAON or VIO18 leaves its range: everything but fuses and flash is lost until a power-on reset (R499). -/
def execPowerRemoval (s : State) : Host.Outcome State Fault Refusal :=
  ({ State.reset with flash := s.flash, fuses := s.fuses, prot := { stuck := s.prot.stuck }, powered := false, free := s.free,
                      pending := s.pending } : State).go

end Sys2Proof.Machine
end

