-- ==== Sys2Proof/Machine/Accords.lean ====
section
/-!
DEFINITION. Sys2Proof/Machine/Accords.lean: requests for accords, the classing of regions as hot and cold, staging, the switch at
its orbit start, and preparations (R396 to R407).
-/
namespace Sys2Proof.Machine

/-! ### Hot and cold (R400) -/

/-- The configuration under accord `n` on some addresses only: base values, then the records of `n`. -/
def State.configOn (s : State) (as : List Nat) (n : Nat) : State :=
  (s.undoAddrs as).applyLoads (fun a => decide (a ∈ as)) (s.accordLoads n)

/-- A target's word, of a register its RW and RWL fields. -/
def State.targetWord (s : State) (a : Nat) : Nat := match regSpec a with
  | some r => (s.reg a &&& (r.rw ||| r.rwl)).toNat
  | none => s.le (s.engPlace a) 4

/-- The targets that differ between the configuration in force and that of accord `n`. -/
def State.accordDiffs (s : State) (n : Nat) : List Nat :=
  let as := (loadAddrs (s.accordLoads s.accordNow) ++ loadAddrs (s.accordLoads n) ++ s.acc.stale).eraseDups
  let old := s.configOn as s.accordNow
  let new := s.configOn as n
  as.filter (fun a => new.targetWord a != (if a ∈ s.acc.stale then s.targetWord a else old.targetWord a))

/-- Cluster of a target; a sector register and a global target have none. -/
def targetCluster (a : Nat) : Option Nat := (List.range 256).find? (fun n => clusterTarget n a)

/-- A sector register other than `ZS` and `THR`, which all lie in `RO_CH`. -/
def coldReg (a : Nat) : Bool := match secOff a with
  | some (k, o) => sectorRegTarget k a && !decide (0xF00080 ≤ o ∧ o < 0xF000BC)
  | none => false

/-- Tile and offset of an address in a context window. -/
def windowOf (a : Nat) : Option (Nat × Nat) := match secOff a with
  | some (k, o) => if 0x800000 ≤ o ∧ o < 0x840000 then some (256 * k + (o - 0x800000) / 0x400, o % 0x400) else none
  | none => none

/-- An entry of slots 0 to M − 1 of either map selects the context. -/
def State.selected (s : State) (t c : Nat) : Bool :=
  [0, 1].any (fun m => (List.range s.M).any (fun u => (s.entryOf t m u).2 == c))

/-- A slot map entry. -/
def isMapWord (a : Nat) : Bool := match windowOf a with
  | some (_, o) => decide (0x200 ≤ o ∧ o < 0x280)
  | none => false

/-- A difference that a running cluster can take between two slots. -/
def State.hotWord (s : State) (a : Nat) : Bool := match windowOf a with
  | some (t, o) => if o < 0x200 then !s.selected t (o / 64) else decide (o < 0x280)
  | none => false

/-- Regions that a switch to accord `n` takes hot (clusters) and cold (clusters n, sectors 256 + s). -/
def State.classify (s : State) (n : Nat) : List Nat × List Nat :=
  let ds := s.accordDiffs n
  let secs := (List.range 16).filter (fun k => ds.any (fun a => targetSector a == some k && (!s.secIn k || coldReg a)))
  let cls := (List.range 256).filter (fun c => ds.any (fun a => targetCluster a == some c) && !decide (c / 16 ∈ secs))
  let hot := cls.filter (fun c => s.clIn c && (ds.filter (fun a => targetCluster a == some c)).all s.hotWord)
  (hot, secs.map (256 + ·) ++ cls.filter (fun c => !decide (c ∈ hot)))

/-! ### The switch in flight -/

/-- `GLB_ACCORD_STATUS.STATE`. -/
def State.accState (s : State) (v : Nat) : State := s.setFld Reg.accordStatus 31 29 v
def State.accResult (s : State) (v : Nat) : State := s.setFld Reg.accordStatus 27 24 v
def State.setInflight (s : State) (w : Option Switch) : State := { s with acc := { s.acc with inflight := w } }

/-- Triggers of accord switches leave the queue of admissions. -/
def State.dropAccordTriggers (s : State) : State :=
  let w := s.adm.waiting.filter (fun t => match t with | .accord _ _ => false | _ => true)
  let s1 := s.setFld Reg.admStatus 26 24 w.length
  { s1 with adm := { s1.adm with waiting := w } }

/-- Words that staging has put into the context stores of hot clusters no longer belong to a switch. -/
def State.unstage (s : State) (w : Switch) : State :=
  if s.acc.prepared.any (fun p => p.num == w.num) then s
  else
  let as := ((loadAddrs (s.accordLoads w.num) ++ loadAddrs (s.accordLoads s.accordNow)).eraseDups).filter
    (fun a => w.hot.any (fun n => clusterTarget n a) && !isMapWord a && !decide (a ∈ s.acc.stale))
  { s with acc := { s.acc with maps := [], stale := if 3 ≤ w.stage then s.acc.stale ++ as else s.acc.stale } }

/-- The switch in flight ends with a result and changes nothing (R404, R405, R407). -/
def State.endSwitch (s : State) (w : Switch) (result : Nat) : State :=
  (((((s.unstage w).setInflight none).dropAccordTriggers).accState 0).accResult result).setFld Reg.accordStatus 15 8
    (match s.acc.prepared with | some p => p.num | none => 0)

/-- Touchstone enters LOST or moves its count before the effect orbit start (R407). -/
def State.cancelSwitch (s : State) : State := match s.acc.inflight with
  | some w => if w.stage ≤ 3 ∧ !w.prep then s.endSwitch w 7 else s
  | none => s

/-- The first orbit start at least one crossing after now (R404). -/
def State.firstStart (s : State) : Nat :=
  s.tsb.orbit.toNat + (if s.tsb.crossing + 1 < s.L ∨ (s.tsb.crossing + 1 = s.L ∧ s.tsb.slot = 0) then 1 else 2)

/-- The orbit that a timing command names (R40). -/
def namedOrbit (o : BitVec 48) (ext : Nat) : BitVec 48 :=
  o + 2 + BitVec.ofNat 48 ((ext + 16 - (o.toNat + 2) % 16) % 16)

/-- `GLB_ACCORD_COLD.COLD` of some cold regions. -/
def coldMask (l : List Nat) : Nat :=
  ((List.range 16).filter (fun k => l.any (fun r => regionSector r == k))).map (fun k => 2 ^ k) |>.sum

/-- Refused by admission, or too late for the orbit start that it names (R353, R363). -/
def State.refuseSwitch (s : State) (w : Switch) : State :=
  let s1 := s.endSwitch w 3
  if w.prep then s1 else s1.fault 4

def State.lateSwitch (s : State) (w : Switch) : State :=
  (((s.setFld Reg.admStatus 31 30 3).setFld Reg.admStatus 23 16 0x1F).setReg Reg.admObject 0).refuseSwitch w

/-- Admission and staging are complete: a preparation is held, a switch is due (R404, R406). -/
def State.accordReady (s : State) (w : Switch) : State :=
  if w.prep then
    match w.snap, w.res with
    | some z, some r =>
      let s1 := (((s.setInflight none).accState 0).accResult 8).setBit Reg.accordStatus 28 true
      { s1 with acc := { s1.acc with prepared := some { num := w.num, snap := z, res := r, hot := w.hot, cold := w.cold,
                                                        staged := true } } }
    | _, _ => s
  else
    let first := s.firstStart
    let o := match w.orbit with | some n => n.toNat | none => first
    if o < first then s.lateSwitch w
    else
      let s1 := (s.setInflight (some { w with stage := 3, effect := some (BitVec.ofNat 48 o) })).accState 3
      ((s1.setReg Reg.accordOrbitLo (BitVec.ofNat 32 o)).setReg Reg.accordOrbitHi (BitVec.ofNat 32 (o / 2 ^ 32 % 65536))).setFld
        Reg.accordCold 15 0 (coldMask w.cold)

/-- Admission of the accord in flight has completed (R400, R404, R406). -/
def State.accordAdmitted (s : State) (n : Nat) (z : AdmSnap) (r : AdmResult) : State :=
  match s.acc.inflight with
  | none => s
  | some w =>
    if w.num ≠ n ∨ w.stage ≠ 1 then s
    else if r.result = 3 then s.refuseSwitch w
    else
      let c := s.classify n
      let kept : Option (List Nat) := match s.acc.prepared with
        | some p => if p.num = n ∧ p.snap.values = z.values then some p.hot else none
        | none => none
      let w1 : Switch := { w with snap := some z, res := some r }
      match kept with
      | some h => s.accordReady { w1 with hot := c.1.filter (fun x => decide (x ∈ h)),
                                          cold := c.2 ++ c.1.filter (fun x => !decide (x ∈ h)) }
      | none =>
        if c.1 = [] then s.accordReady { w1 with hot := [], cold := c.2 }
        else (s.setInflight (some { w1 with stage := 2, hot := c.1, cold := c.2 })).accState 2

/-- Staging writes the differing contexts of the hot clusters and their pending map copies (R401). -/
def State.stage (s : State) (w : Switch) : State :=
  let ds := (s.accordDiffs w.num).filter (fun a => w.hot.any (fun c => clusterTarget c a))
  let new := s.configOn ((loadAddrs (s.accordLoads s.accordNow) ++ loadAddrs (s.accordLoads w.num) ++ s.acc.stale).eraseDups) w.num
  let s1 := (ds.filter (fun a => !isMapWord a)).foldl (fun s a => s.storeLe a 4 (new.le a 4)) s
  { s1 with acc := { s1.acc with stale := s1.acc.stale.filter (fun a => !decide (a ∈ ds)),
                                 maps := (ds.filter isMapWord).flatMap (fun a => (List.range 4).map (fun i => (a + i, new.byte (a + i)))) } }

/-- ACCORD_STAGING_COMPLETE. -/
def execAccordStagingComplete (s : State) : Host.Outcome State Fault Refusal :=
  match s.acc.inflight with
  | some w => if w.stage = 2 then ((s.stage w).accordReady { w with stage := 3 }).go else s.go
  | none => s.go

/-! ### Requests (R404 to R406) -/

/-- Two requests name the same orbit start (R65): the same orbit, or requests in one crossing that name the next one. -/
def State.sameStart (s : State) (w : Switch) (orbit : Option (BitVec 48)) : Bool :=
  match orbit, w.effect, w.orbit with
  | some o, some e, _ => o == e
  | some o, none, some p => o == p
  | some o, none, none => o.toNat == s.firstStart
  | none, some e, _ => e.toNat == s.firstStart
  | none, none, some p => p.toNat == s.firstStart
  | none, none, none => w.since == s.tsb.cx

/-- A request that is not taken (R65, R405). -/
def State.accordConflict (s : State) : State := (s.accResult 4).setBit Reg.tsbStatus 17 true

/-- A request for accord `n` is taken: its admission is triggered. -/
def State.takeSwitch (s : State) (n source : Nat) (orbit : Option (BitVec 48)) (prep : Bool) : State :=
  let s1 := match s.acc.prepared with
    | some p => if p.num = n then s else s.unprepare
    | none => s
  let s2 := s1.setInflight (some { num := n, source := source, orbit := orbit, stage := 1, since := s.tsb.cx, prep := prep })
  ((s2.accState 1).setFld Reg.accordStatus 15 8 n).trigger (.accord n prep)

/-- A request for accord `n` from a source, which names an orbit start or not (R404 to R406). -/
def State.accordRequest (s0 : State) (n source : Nat) (orbit : Option (BitVec 48)) (prep : Bool) : State :=
  let s := s0.setFld Reg.accordStatus 23 22 source
  if !s.inRun then s.accResult 6
  else if (s.accordOf n).isNone ∨ 256 ≤ n then s.accResult 5
  else
    match s.acc.inflight with
    | some w =>
      if w.prep then
        if w.num = n then (if prep then s else s.setInflight (some { w with prep := false, source := source, orbit := orbit }))
        else
          let s1 := (s.endSwitch w (s.fld Reg.accordStatus 27 24))
          if n = s1.accordNow then s1.accResult 2 else s1.takeSwitch n source orbit prep
      else if prep || !s.sameStart w orbit || decide (w.source ≤ source) || decide (w.stage = 4) then s.accordConflict
      else
        let s1 := ((s.endSwitch w (s.fld Reg.accordStatus 27 24)).setBit Reg.tsbStatus 17 true)
        if n = s1.accordNow then s1.accResult 2 else s1.takeSwitch n source orbit prep
    | none =>
      if n = s.accordNow then ((match s.acc.prepared with | some p => if p.num = n then s else s.unprepare | none => s).accResult 2)
      else s.takeSwitch n source orbit prep

/-- GLB_SWITCH: `GLB_ACCORD_CMD` with `OP` 1. -/
def execGlbSwitch (n : Byte) (s : State) : Host.Outcome State Fault Refusal := (s.accordRequest n.toNat 2 none false).go

/-- GLB_PREPARE: `OP` 2. -/
def execGlbPrepare (n : Byte) (s : State) : Host.Outcome State Fault Refusal := (s.accordRequest n.toNat 2 none true).go

/-- UNPREPARE, of a preparation held or still running. -/
def State.glbUnprepare (s : State) : State :=
  match s.acc.inflight with
  | some w => if w.prep then s.endSwitch w (s.fld Reg.accordStatus 27 24) else s.unprepare
  | none => s.unprepare

/-- GLB_UNPREPARE: `OP` 3. -/
def execGlbUnprepare (_n : Byte) (s : State) : Host.Outcome State Fault Refusal := s.glbUnprepare.go

/-- A word written to `GLB_ACCORD_CMD` (Table 6): other values of `OP` are ignored. -/
def State.accordCmdWrite (s : State) (v : W32) : State :=
  match bitsOf v 31 28 with
  | 1 => s.accordRequest (bitsOf v 7 0) 2 none false
  | 2 => s.accordRequest (bitsOf v 7 0) 2 none true
  | 3 => s.glbUnprepare
  | _ => s

/-! ### The effect (R401 to R403) -/

/-- At the start of slot M − 1 of the last crossing before the effect, every hot cluster that still runs makes its pending map
copies the running ones; hot clusters that are out go cold (R401, R407). -/
def State.hotSwap (s : State) : State :=
  match s.acc.inflight with
  | some w =>
    if w.stage = 3 ∧ w.effect = some (s.tsb.orbit + 1) then
      (let run := w.hot.filter s.clIn
       let mine (a : Nat) : Bool := run.any (fun n => clusterTarget n a)
       let s1 := (s.acc.maps.filter (fun e => mine e.1)).foldl (fun s e => s.setByte e.1 e.2) s
       { s1 with acc := { s1.acc with maps := [], inflight := some { w with hot := run, cold := w.cold ++ w.hot.filter (fun n => !s.clIn n) } } })
    else s
  | none => s

/-- Global targets of Table 4 and the `ZS` and `THR` of sectors, which change at the orbit start in every case (R400). -/
def softTarget (a : Nat) : Bool := (glbOff a).isSome || (match secOff a with
  | some (_, o) => decide (0xF00080 ≤ o ∧ o < 0xF000BC)
  | none => false)

/-- A sector that admission dropped goes down, one with regions in `cold` only after their reload; one that it admits again powers up
(R362, R402, R435). -/
def State.sectorsAdmitted (s : State) (old new : BitVec 16) (cold : List Nat) : State :=
  (List.range 16).foldl (fun s k =>
    if new.getLsbD k ∧ !old.getLsbD k then (if cold.any (fun r => regionSector r == k) ∧ 2 ≤ s.secPower k then s.dropOut k else s.orderlyDown k)
    else if old.getLsbD k ∧ !new.getLsbD k then s.sectorUp k else s) s

/-- The switch takes effect at slot 0 of crossing 0 of its orbit. -/
def State.accordEffect (s : State) : State :=
  match s.acc.inflight with
  | some w =>
    if w.stage = 3 ∧ w.effect = some s.tsb.orbit then
      (let soft := (loadAddrs (s.accordLoads s.accordNow) ++ loadAddrs (s.accordLoads w.num)).filter softTarget
       let s1 := s.configOn soft w.num
       let s2 := (match s1.acc.prepared with
         | some p => if p.num = w.num then ({ s1 with acc := { s1.acc with prepared := none } } : State).setBit Reg.accordStatus 28 false
                     else s1.unprepare
         | none => s1)
       let old := s2.adm.dropsec
       let r := w.res
       let s3 := match r with | some r => (s2.admForce r).sectorsAdmitted old r.dropsec w.cold | none => s2
       let s4 := (s3.setFld Reg.accordStatus 7 0 w.num).accResult 1
       let cold := w.cold.filter (fun x => decide (2 ≤ s4.secPower (regionSector x)))
       let s5 := cold.foldl (fun s x => if x < 256 then s.clusterReset x w.num else s.sectorReset (x - 256) 4 w.num) s4
       let s6 := (s5.setFld Reg.accordCold 15 0 (coldMask w.cold)).setFld Reg.accordCold 31 16 (coldMask cold)
       if cold = [] then ((s6.setInflight none).accState 0).setFld Reg.accordStatus 15 8 0
       else (s6.setInflight (some { w with stage := 4, cold := cold })).accState 4)
    else s
  | none => s

/-- A timing switch that is not due one crossing before the orbit start it names is refused (R353). -/
def State.accordDeadline (s : State) : State :=
  match s.acc.inflight with
  | some w =>
    match w.orbit with
    | some o => if w.stage ≤ 2 ∧ !w.prep ∧ o = s.tsb.orbit + 1 then s.lateSwitch w else s
    | none => s
  | none => s

end Sys2Proof.Machine
end

