-- ==== Sys2Proof/Machine/Touchstone.lean ====
section
/-!
DEFINITION. Sys2Proof/Machine/Touchstone.lean: the timing lanes and their words, orbit markers, the timing commands, loss and
return of the crossing clock, snapshots and counter resets (R36 to R60, R66, R67).
-/
namespace Sys2Proof.Machine

/-! ### Timing lanes (R38, R39, R44 to R48) -/

/-- Command and payload of a good word, none for a bad one (R38). -/
def goodWord (w : TimingChars) : Option (Byte × Byte) :=
  match w.comma, w.cmd, w.payload, w.crc with
  | true, some c, some p, some x => if crc8 [c, p] = x then some (c, p) else none
  | _, _, _, _ => none

/-- The active timing lane: 0 `TIMING_A`, 1 `TIMING_B`. -/
def State.activeLane (s : State) : Nat := s.fld Reg.tsbStatus 4 4
def State.tlane (s : State) (i : Nat) : TLane := if i = 0 then s.tsb.laneA else s.tsb.laneB
def State.setTlane (s : State) (i : Nat) (k : TLane) : State :=
  if i = 0 then { s with tsb := { s.tsb with laneA := k } } else { s with tsb := { s.tsb with laneB := k } }
/-- `A_QUAL` or `B_QUAL`. -/
def State.qualified (s : State) (i : Nat) : Bool := s.rbit Reg.tsbStatus (5 + i)
def State.setQualified (s : State) (i : Nat) (b : Bool) : State :=
  (s.setBit Reg.tsbStatus (5 + i) b).setBit (Reg.tlnStatus i) 5 b
/-- `CX_SRC` selects the timing lanes (R37). -/
def State.cxTiming (s : State) : Bool := decide (s.fld Reg.tsbCtrl 1 0 = 1)

/-- Offset of a timing lane in whole crossings: the word of crossing k arrives in crossing k − offset (R39, R45). -/
def State.laneOffset (s : State) (i : Nat) : Int :=
  let a : Int := (if s.cxTiming then 0 else toSigned 5 (s.fld Reg.tsbTlOffset 4 0)) + s.tsb.offset
  if i = s.activeLane then a
  else if s.rbit Reg.tsbAbOffset 31 then a + toSigned 16 (s.fld Reg.tsbAbOffset 15 0) else a

/-- The word of crossing `k` that a lane keeps, none where it has none or a bad one. -/
def TLane.wordFor (t : TLane) (k : Nat) : Option (Byte × Byte) := (t.words.find? (fun w => w.1 == k)).bind (·.2)

/-- The words of the active lane are used. Under `CX_SRC` = 0b00 those of an active lane that has failed are not, until a lane
qualifies (R46). -/
def State.activeUsed (s : State) : Bool := s.cxTiming || !(s.tlane s.activeLane).failed

/-- The time base in which the two lanes' ORBIT commands are compared: crossings of the model's count and, while that stands still, words
of the active lane (R45). -/
def State.laneTime (s : State) : Nat := s.tsb.cx + s.tsb.pre

/-- The word decided for crossing `k`; an ORBIT command is a marker of its own crossing (R39). -/
def State.decide_ (s : State) (k : Nat) (w : Byte × Byte) : State :=
  if s.tsb.decided.any (fun d => d.1 == k) then s
  else { s with tsb := { s.tsb with decided := s.tsb.decided ++ [(k, w)], awaiting := s.tsb.awaiting.filter (· != k),
                                    orbitDue := if bitsOf w.1 7 4 = 1 then some (k, w.2) else s.tsb.orbitDue } }

/-- The word used for crossing `k` and whether it stands for a substitution that is still to be counted: the word decided, else a good one
kept of a lane whose word was not the active one when it came (R47). -/
def State.wordUsed (s : State) (k : Nat) : Option ((Byte × Byte) × Bool) :=
  match s.tsb.decided.find? (fun d => d.1 == k) with
  | some d => some (d.2, false)
  | none =>
    match (if s.activeUsed then (s.tlane s.activeLane).wordFor k else none) with
    | some v => some (v, true)
    | none => if s.qualified (1 - s.activeLane) then ((s.tlane (1 - s.activeLane)).wordFor k).map (fun v => (v, true)) else none

/-- TIMING_WORD: a word arrives on a lane in the current crossing (R38, R39, R47). The standby lane's word is used at once where the active
lane's was bad, or where that lane's recovery has no lock and so delivers none. -/
def execTimingWord (lane : Fin 2) (word : TimingChars) (s : State) : Host.Outcome State Fault Refusal :=
  let i := lane.val
  let w := goodWord word
  let kz : Int := (s.tsb.cx : Int) + s.laneOffset i
  let k := kz.toNat
  let t := s.tlane i
  let s0 : State := if s.tsbState = .unlocked ∧ i = s.activeLane then { s with tsb := { s.tsb with pre := s.tsb.pre + 1 } } else s
  let t1 : TLane := { t with
    hist := (w.isNone :: t.hist).take 16
    noComma := if word.comma then 0 else min 15 (t.noComma + 1)
    clean := if word.comma then min 256 (t.clean + 1) else 0
    words := ((k, w) :: t.words).take 8
    orbitAt := match w with | some (c, _) => if bitsOf c 7 4 = 1 then some s0.laneTime else t.orbitAt | none => t.orbitAt }
  let bad := (t1.hist.filter id).length
  let s1 := (((s0.setTlane i t1).setBit (Reg.tlnStatus i) 7 true).setBit (Reg.tlnStatus i) 6 word.comma).setFld (Reg.tlnStatus i) 4 0 bad
  let s2 := if w.isNone then s1.count (Reg.tlnErrcnt i) 31 16 else s1
  let s3 := if s2.qualified i && (!word.comma || decide (1 < bad)) then s2.setQualified i false else s2
  let a := s3.activeLane
  let o := s3.tlane (1 - i)
  if i = a then
    match (if s3.activeUsed then w else none) with
    | some v =>
      let s4 := if (o.wordFor k).any (fun x => x != v) then s3.count Reg.tsbAbMismatch 31 0 else s3
      (s4.decide_ k v).go
    | none =>
      match (if s3.qualified (1 - i) then o.wordFor k else none) with
      | some v => ((s3.count Reg.tsbSubstCnt 31 0).decide_ k v).go
      | none => ({ s3 with tsb := { s3.tsb with awaiting := s3.tsb.awaiting ++ [k] } } : State).go
  else
    match w with
    | some v =>
      if s3.qualified i && (decide (k ∈ s3.tsb.awaiting) ||
          (!s3.rbit (Reg.tlnStatus a) 7 && !s3.tsb.decided.any (fun d => d.1 == k))) then ((s3.count Reg.tsbSubstCnt 31 0).decide_ k v).go
      else (if (o.wordFor k).any (fun x => x != v) then s3.count Reg.tsbAbMismatch 31 0 else s3).go
    | none => s3.go

/-- The standby lane is to become active at the next crossing boundary. -/
def State.callSwap (s : State) : State :=
  if s.tsb.swapDue.isSome then s else { s with tsb := { s.tsb with swapDue := some s.tsb.cx } }

/-- TIMING_LANE_FAILURE: loss of lock, the comma absent `COMMA_N` times, or `ERR_N` of 16 words bad (R44, R46). -/
def execTimingLaneFailure (lane : Fin 2) (lossOfLock : Bool) (s : State) : Host.Outcome State Fault Refusal :=
  let i := lane.val
  let t := s.tlane i
  if lossOfLock || decide (s.fld Reg.tsbFail 3 0 ≤ t.noComma ∧ 1 ≤ s.fld Reg.tsbFail 3 0) ||
      decide (s.fld Reg.tsbFail 8 4 ≤ (t.hist.filter id).length ∧ 1 ≤ s.fld Reg.tsbFail 8 4) then
    (let s1 := (s.setTlane i { t with failed := true, clean := if lossOfLock then 0 else t.clean }).setQualified i false
     let s2 := if lossOfLock then (s1.setBit (Reg.tlnStatus i) 7 false).count (Reg.tlnErrcnt i) 15 0 else s1
     (if i = s2.activeLane && s2.qualified (1 - i) then s2.callSwap else s2).go)
  else s.go

/-- FAILOVER: at the crossing boundary after the call the standby lane, which was qualified then, becomes active; the grid and the counts
do not move (R46, R48). -/
def execFailover (s : State) : Host.Outcome State Fault Refusal :=
  match s.tsb.swapDue with
  | none => s.go
  | some c =>
    if s.tsb.slot ≠ 0 ∨ s.tsb.cx ≤ c then s.go
    else
      let a := s.activeLane
      let s1 : State := { s with tsb := { s.tsb with swapDue := none } }
      let ab := toSigned 16 (s1.fld Reg.tsbAbOffset 15 0)
      let v := s1.rbit Reg.tsbAbOffset 31
      let s2 := ((s1.setFld Reg.tsbStatus 4 4 (1 - a)).setBit Reg.tsbStatus 12 true).fault 0
      let s3 := if v then s2.setFld Reg.tsbAbOffset 15 0 (BitVec.ofInt 16 (-ab)).toNat else s2
      ({ s3 with tsb := { s3.tsb with offset := if v then s3.tsb.offset + ab else s3.tsb.offset } } : State).go

/-- The offset of the standby lane from the ORBIT commands of both lanes, within half an orbit (R45). -/
def State.measureOffset (s : State) : State :=
  if s.rbit Reg.tsbAbOffset 31 then s
  else match (s.tlane s.activeLane).orbitAt, (s.tlane (1 - s.activeLane)).orbitAt with
    | some x, some y =>
      let l : Int := if s.L = 0 then 1 else s.L
      let d := ((x : Int) - (y : Int)).emod l
      let d1 := if l < 2 * d then d - l else d
      (s.setFld Reg.tsbAbOffset 15 0 (BitVec.ofInt 16 d1).toNat).setBit Reg.tsbAbOffset 31 true
    | _, _ => s

/-- TIMING_LANE_QUALIFY: the conditions of R45 are looked at: locked and in place for 256 crossings, at most 1 of 16 words bad, its edge
within 2 steps of the grid. A lane that meets them all is qualified, any other is not (R45, R48). -/
def execTimingLaneQualify (lane : Fin 2) (steps : Int) (s : State) : Host.Outcome State Fault Refusal :=
  let i := lane.val
  let t := s.tlane i
  if !s.rbit (Reg.tlnStatus i) 7 || decide (t.clean < 256) || decide (1 < (t.hist.filter id).length) ||
      decide (2 < steps.natAbs) then (s.setQualified i false).go
  else
    let s1 := (s.setTlane i { t with failed := false }).setQualified i true
    if i = s1.activeLane then s1.go
    else
      let s2 := s1.measureOffset
      (if (s2.tlane s2.activeLane).failed || (decide (i = 0) && s2.rbit Reg.tsbCtrl 8) then s2.callSwap else s2).go

/-- A write of `TSB_CMD.SWAP` (R48). -/
def State.tsbSwap (s : State) : State :=
  if s.qualified (1 - s.activeLane) then s.callSwap else s.setBit Reg.tsbStatus 18 true
/-- TSB_SWAP. -/
def execTsbSwap (s : State) : Host.Outcome State Fault Refusal := s.tsbSwap.go

/-- A write of `TSB_CMD.REALIGN` (R54). -/
def State.tsbRealign (s : State) : State := { s with tsb := { s.tsb with moveArmed := true } }
/-- TSB_REALIGN. -/
def execTsbRealign (s : State) : Host.Outcome State Fault Refusal := s.tsbRealign.go

/-! ### Leaving the plane as a whole (R54, R57) -/

/-- Every sector in the fixed plane leaves it without a reset. -/
def State.sectorsLost (s : State) : State := s.secsIn.foldl (fun s k => s.sectorOut k 3 7) s

/-- The running configuration is to be admitted again, after the lanes have measured again (R54, R58, R95). -/
def State.readmitDue (s : State) : State :=
  let s1 := s.lanesMeasure
  ({ s1 with tsb := { s1.tsb with ret := .admission } } : State).trigger .readmit

/-- LOST (R57): CAL at 0 and THROTTLE and BUSY high at once (R313); the DEC edges follow the sectors' departures (R154). -/
def State.enterLost (s : State) : State :=
  let s1 := (((s.setTsbState .lost).setBit Reg.tsbStatus 14 true).setBit Reg.tsbStatus 8 true).fault 2
  let s2 := (s1.sectorsLost).cancelSwitch.setFld Reg.drzPins 4 0 0x1F
  { s2 with tsb := { s2.tsb with cal := [], calPins := 0, ret := .none, goodAt := none, fclk := false, est := none, wrong := [] } }

/-! ### Markers (R51 to R54, R58) -/

/-- The counts such that crossing `k` of the model's count is crossing 0 of orbit `o`. -/
def State.countFrom (s : State) (k : Int) (o : BitVec 48) : State :=
  let l : Int := if s.L = 0 then 1 else s.L
  let x := (s.tsb.cx : Int) - k
  { s with tsb := { s.tsb with crossing := (x.emod l).toNat, orbit := o + BitVec.ofInt 48 (x.ediv l) } }

/-- `TSB_ORBIT_INIT` as an orbit number. -/
def State.orbitInit (s : State) : BitVec 48 := BitVec.ofNat 48 (s.reg Reg.tsbOrbitInit).toNat

/-- The orbit number that a marker of crossing `k` sets in a return from LOST (R58): the number nearest the count there, or by the crossing
counted there; in the second case `ORBIT_UNCERTAIN` is set. -/
def State.returnOrbit (s : State) (k : Int) (payload : Option Byte) : BitVec 48 :=
  let q := s.crossingPlus (k - (s.tsb.cx : Int))
  let v := q.1.toNat
  match payload with
  | some p =>
    let d := (p.toNat + 256 - v % 256) % 256
    if d ≤ 128 ∨ v + d < 256 then BitVec.ofNat 48 (v + d) else BitVec.ofNat 48 (v + d - 256)
  | none => BitVec.ofNat 48 (v + if s.L ≤ 2 * q.2 then 1 else 0)

/-- A marker sets the count while that is being established: its crossing is crossing 0 of `TSB_ORBIT_INIT`, in a return from LOST of the
orbit number of R58 (R51, R58). -/
def State.countSet (s : State) (k : Int) (payload : Option Byte) : State :=
  let ret := decide (s.tsbState = .returning)
  let s1 := s.countFrom k (if ret then s.returnOrbit k payload else s.orbitInit)
  let s2 : State := { s1 with tsb := { s1.tsb with est := some k.toNat, moveArmed := false, ret := if ret then .confirm else s1.tsb.ret } }
  if ret && payload.isNone then s2.setBit Reg.tsbStatus 9 true else s2

/-- A marker in place: a COUNTER_RESET that waits takes effect, and a payload other than the orbit number that begins counts (R53, R54,
R67). -/
def State.inPlace (s : State) (k : Int) (payload : Option Byte) : State :=
  let q := s.crossingPlus (k - (s.tsb.cx : Int))
  let s1 : State := if s.tsb.orbitReset then
      { s with tsb := { s.tsb with orbit := s.tsb.orbit + (s.orbitInit - q.1), orbitReset := false } }
    else s
  let o := (s1.crossingPlus (k - (s.tsb.cx : Int))).1
  let s2 : State := { s1 with tsb := { s1.tsb with moveArmed := false } }
  match payload with
  | some p => if p.toNat ≠ o.toNat % 256 then s2.count Reg.tsbOrbitNumErr 31 0 else s2
  | none => s2

/-- A marker while the count is being established (R51, R58): the second one confirms the count where it is in place. -/
def State.establish (s : State) (k : Int) (payload : Option Byte) : State :=
  match s.tsb.est with
  | none => s.countSet k payload
  | some e =>
    let d := (k - (e : Int)).toNat
    if d = s.L then
      (let ret := decide (s.tsbState = .returning)
       let s1 := ((s.inPlace k payload).setTsbState .aligned).setBit Reg.tsbStatus 8 false
       let s2 : State := { s1 with tsb := { s1.tsb with est := none, wrong := [] } }
       if ret then s2.readmitDue else s2)
    else
      let ws := (d :: s.tsb.wrong).take 3
      let s1 := (s.count Reg.tsbOrbitErrCnt 31 0).countSet k payload
      let s2 : State := { s1 with tsb := { s1.tsb with wrong := ws } }
      if ws = [d, d, d] then s2.startFails 0x11 0 else s2

/-- An established count is moved at a misplaced marker (R54). -/
def State.moveCount (s : State) (k : Int) : State :=
  let s1 := (s.countFrom k (s.tsb.orbit + 1)).setBit Reg.tsbStatus 15 true
  let s2 : State := { s1 with tsb := { s1.tsb with moveArmed := false, slips := [] } }
  (s2.sectorsLost).cancelSwitch.readmitDue

/-- In how many consecutive orbits, up to `o`, a misplaced marker has come at crossing `c`, one in `o` counted (R52). -/
def slipLen (t : Tsb) (c : Nat) (o : BitVec 48) : Nat :=
  match t.slips.find? (fun e => e.1 == c) with
  | some e => if e.2.1 + 1 = o then e.2.2 + 1 else if e.2.1 = o then e.2.2 else 1
  | none => 1

/-- A misplaced marker that does not move the count (R52). -/
def State.misplaced (s : State) (c : Nat) (o : BitVec 48) : State :=
  let t := s.tsb
  let n := slipLen t c o
  let s1 := (s.count Reg.tsbOrbitErrCnt 31 0).setReg Reg.tsbOrbitErrTime (BitVec.ofNat 32 (c * 65536 + o.toNat % 65536))
  let s2 : State := { s1 with tsb := { t with slips := (c, o, n) :: t.slips.filter (fun e => e.1 != c && (e.2.1 == o || e.2.1 + 1 == o)) } }
  let lim := s2.fld Reg.tsbFail 14 12
  if 1 ≤ lim ∧ lim ≤ n then (s2.setBit Reg.tsbStatus 10 true).fault 1 else s2

/-- An orbit marker that marks crossing `k` of the model's count, with the payload of an ORBIT command (R51 to R54). -/
def State.marker (s : State) (k : Int) (payload : Option Byte) : State :=
  match s.tsbState with
  | .unlocked | .lost => s
  | .locking => s.establish k payload
  | .returning => if s.tsb.ret = .marker ∨ s.tsb.ret = .confirm then s.establish k payload else s
  | .aligned | .holdover =>
    let q := s.crossingPlus (k - (s.tsb.cx : Int))
    if q.2 = 0 then s.inPlace k payload
    else if s.tsb.moveArmed then s.moveCount k
    else s.misplaced q.2 q.1

/-- ORBIT: the ORBIT command received acts as a marker of its own crossing, under `CX_SRC` = 0b01 (R37, R39). -/
def execOrbit (s : State) : Host.Outcome State Fault Refusal :=
  match s.tsb.orbitDue with
  | none => s.go
  | some (k, p) =>
    let s1 : State := { s with tsb := { s.tsb with orbitDue := none } }
    (if s1.cxTiming then s1.marker k (some p) else s1).go

/-- ORBIT_PIN_MARKER: under `CX_SRC` = 0b00 the ball marks the crossing that begins at the edge. Slot 0 of it follows the edge by
`TSB_PHASE` steps (R37, R50). -/
def execOrbitPinMarker (s : State) : Host.Outcome State Fault Refusal :=
  if s.fld Reg.tsbCtrl 1 0 ≠ 0 then s.go
  else (s.marker ((s.tsb.cx : Int) + (if s.fld Reg.tsbPhase 9 0 = 0 then 0 else 1)) none).go

/-! ### Timing commands (R40 to R42, R63, R66, R67) -/

/-- The command of the current effect crossing has come about. -/
def State.doneCmd (s : State) : State := { s with tsb := { s.tsb with due := none } }

/-- Act on the command of the current effect crossing when it has this code: extension and payload. -/
def State.onCmd (s : State) (code : Nat) (f : Nat → Byte → State → State) : Host.Outcome State Fault Refusal :=
  match s.tsb.due with
  | some (c, p) => if bitsOf c 7 4 = code then (f (bitsOf c 3 0) p s.doneCmd).go else s.go
  | none => s.go

/-- NOP. -/
def execNop (s : State) : Host.Outcome State Fault Refusal := s.onCmd 0 (fun _ _ s => s)

/-- ACCEPT (R303). -/
def execAccept (s : State) : Host.Outcome State Fault Refusal :=
  s.onCmd 2 (fun e p s => s.acceptAt (BitVec.ofNat 4 e) p)

/-- RESYNC in every block: queues, readout, and the next marker may move the count (R54, R188, R316). -/
def State.resync (s : State) : State :=
  let s1 := ((List.range 8192).filter s.qRuns).foldl State.queueResync s
  (s1.readoutResync).tsbRealign
/-- RESYNC. -/
def execResync (s : State) : Host.Outcome State Fault Refusal := s.onCmd 3 (fun _ _ s => s.resync)

/-- TESTPULSE: the crossing command word alone shows it. -/
def execTestpulse (s : State) : Host.Outcome State Fault Refusal := s.onCmd 4 (fun _ _ s => s)

/-- Pulses that begin in the current slot raise their pins, once the outputs are released and while the fixed plane runs (R57, R63,
R388). -/
def State.calRise (s : State) : State :=
  let m : BitVec 4 := (s.tsb.cal.filter (fun c => decide (c.rise = s.tsb.tick))).foldl (fun m c => m ||| c.mask) 0
  if m = 0 ∨ !s.boot.outCal ∨ !s.planeRuns then s else { s with tsb := { s.tsb with calPins := s.tsb.calPins ||| m } }

/-- A pulse on CAL pins from `rise` for `w` slots. -/
def State.calPulse (s : State) (mask rise w : Nat) : State :=
  ({ s with tsb := { s.tsb with cal := s.tsb.cal ++ [{ mask := BitVec.ofNat 4 mask, rise := rise, fall := rise + w }] } } : State).calRise

/-- CALSTROBE: the pins rise in the start slot and fall a crossing later (R40, R41). -/
def execCalstrobe (s : State) : Host.Outcome State Fault Refusal :=
  s.onCmd 5 (fun e p s =>
    let u := bitsOf p 6 0
    s.calPulse e (s.tsb.tick + (if u < s.M then u else 0) - s.tsb.slot) s.M)

/-- CAL_PIN_FALL: a pin whose pulses are over falls; pulses that overlap are ORed (R63, R64). -/
def execCalPinFall (pin : Fin 4) (s : State) : Host.Outcome State Fault Refusal :=
  let t := s.tsb.tick
  let mine (c : CalPulse) : Bool := c.mask.getLsbD pin
  if !s.tsb.cal.any (fun c => mine c && decide (c.fall ≤ t)) then s.go
  else
    let b : BitVec 4 := BitVec.ofNat 4 (2 ^ pin.val)
    let cal := (s.tsb.cal.map (fun c => if mine c && decide (c.fall ≤ t) then { c with mask := c.mask &&& ~~~b } else c)).filter
      (fun c => c.mask != 0)
    let on := cal.any (fun c => mine c && decide (c.rise ≤ t))
    ({ s with tsb := { s.tsb with cal := cal, calPins := if on then s.tsb.calPins else s.tsb.calPins &&& ~~~b } } : State).go

/-- The counter bits of a register that counts errors or events; 0 for every other register (R140, R163, R174, R190, R241, R298,
R320, R350, R426, R472, R488, R490, R491, R109). -/
def counterBits (a : Nat) : W32 :=
  match glbOff a with
  | some o =>
    if (0x1080 ≤ o ∧ o < 0x109C) ∨ (0x4008 ≤ o ∧ o ≤ 0x4010) ∨ o = 0x7014 ∨ o = 0x7018 ∨ o = 0x8008 ∨ o = 0x8014 ∨
        (0x9020 ≤ o ∧ o < 0x903C) ∨ o = 0x908C ∨ (0xA010 ≤ o ∧ o < 0xA020) then 0xFFFFFFFF
    else if 0x8080 ≤ o ∧ o < 0x80C0 then 0xFFFF else 0
  | none =>
    if isLane a then
      (if 0x30000F0000 ≤ a then (if a % 0x1000 = 4 then 0xFFFFFFFF else 0)
       else if a % 0x1000 = 0x18 ∨ a % 0x1000 = 0x20 then 0xFFFFFFFF else 0)
    else match secOff a with
      | some (_, x) =>
        let o := x - 0xF00000
        if x < 0xF00000 then 0
        else if o = 4 ∨ o = 0x10 ∨ o = 0x28 ∨ o = 0x38 ∨ o = 0x48 ∨ (0x100 ≤ o ∧ o < 0x180 ∧ o % 0x20 = 0x10) ∨
            (0x80000 ≤ o ∧ o < 0x84000 ∧ (o % 0x20 = 8 ∨ o % 0x20 = 0xC)) then 0xFFFFFFFF else 0
      | none => 0

/-- The counters of a word that clear at a COUNTER_RESET, `b` the word as the slot began: what they have counted in this slot stays, since
a counter clears first and then counts the events of the slot (R97, R190). -/
def clearedWord (m w b : W32) : W32 :=
  let c := (w &&& m).toNat
  let c0 := (b &&& m).toNat
  (w &&& ~~~m) ||| BitVec.ofNat 32 (if c0 ≤ c then c - c0 else c)

/-- A task whose counters clear. -/
def clearedTask (t b : TaskSt) : TaskSt :=
  let f (c c0 : Nat) : Nat := if c0 ≤ c then c - c0 else c
  { t with accepted := f t.accepted b.accepted, refused := f t.refused b.refused, aborted := f t.aborted b.aborted }

/-- Every error and rate counter of every block clears, the counters of the tasks among them (R67, R298). -/
def State.clearCounters (s : State) : State :=
  let s1 := ((s.regs.map (·.1)).filter (fun a => decide (counterBits a ≠ 0))).foldl
    (fun t a => t.setReg a (clearedWord (counterBits a) (s.reg a) (s.reg0 a))) s
  (s1.dpt.tasks.map (·.1)).foldl (fun t i => t.setTask i (clearedTask (s.task i) (s.task0 i))) s1

/-- COUNTER_RESET (R67). -/
def State.counterReset (s : State) (p : Byte) : State :=
  let s1 : State := if p.getLsbD 0 then ({ s with tsb := { s.tsb with orbitReset := true } } : State).setBit Reg.tsbStatus 9 false else s
  let s2 := if p.getLsbD 1 then s1.setReg Reg.tsbEvn 0 else s1
  if p.getLsbD 2 then s2.clearCounters else s2
def execCounterReset (s : State) : Host.Outcome State Fault Refusal := s.onCmd 6 (fun _ p s => s.counterReset p)

/-- QUIET_START: the maps follow by `State.quietFollow` (R42). -/
def execQuietStart (s : State) : Host.Outcome State Fault Refusal := s.onCmd 7 (fun _ _ s => s.setBit Reg.tsbStatus 7 true)

/-- QUIET_END. -/
def execQuietEnd (s : State) : Host.Outcome State Fault Refusal := s.onCmd 8 (fun _ _ s => s.setBit Reg.tsbStatus 7 false)

/-- ACCORD_SWITCH: the request names its orbit start (R40, R404). -/
def execAccordSwitch (s : State) : Host.Outcome State Fault Refusal :=
  s.onCmd 9 (fun e p s => s.accordRequest p.toNat 0 (some (namedOrbit s.tsb.orbit e)) false)

/-- RESERVED_COMMAND: counted in `TSB_CMD_UNKNOWN` (R40). -/
def execReservedCommand (s : State) : Host.Outcome State Fault Refusal :=
  match s.tsb.due with
  | some (c, _) => if 10 ≤ bitsOf c 7 4 then (s.doneCmd.count Reg.tsbCmdUnknown 31 0).go else s.go
  | none => s.go

/-! ### Time and snapshots (R36, R66) -/

/-- TSB_NOW_READ: the crossing and the slot; the orbit number is copied beside it. -/
def State.nowRead (s : State) : State × W32 :=
  let w : W32 := BitVec.ofNat 32 (s.tsb.crossing * 65536 + s.tsb.slot)
  (((s.setReg Reg.tsbNow w).setReg Reg.tsbOrbitLo (BitVec.ofNat 32 s.tsb.orbit.toNat)).setReg Reg.tsbOrbitHi
    (BitVec.ofNat 32 (s.tsb.orbit.toNat / 2 ^ 32)), w)
def execTsbNowRead (s : State) : Host.Outcome State Fault Refusal :=
  let q := s.nowRead
  ({ q.1 with mgt := { q.1.mgt with read := q.2 } } : State).go

/-- Counters of a snapshot group, each with its copy (R66 and the chapters that own them). -/
def snapPairs (g : Nat) : List (Nat × Nat) :=
  match g with
  | 0 => (List.range 7).map (fun i => (Reg.tsbCnt i, Reg.tsbCntSnap i)) ++ [0, 1].map (fun i => (Reg.tlnErrcnt i, Reg.tlnErrcntSnap i))
  | 1 => (List.range 240).flatMap (fun l => [(Reg.lanErrcnt l, Reg.lanErrcntSnap l), (Reg.lanEvtcnt l, Reg.lanEvtcntSnap l)])
  | 2 => (List.range 8192).flatMap (fun q => [(Reg.queCnt0 q, Reg.queCnt0Snap q), (Reg.queCnt1 q, Reg.queCnt1Snap q)])
  | 3 => (List.range 16).map (fun k => (Reg.secEngCnt k, Reg.secEngCntSnap k))
  | 4 => (List.range 7).map (fun i => (Reg.dptCnt i, Reg.dptCntSnap i)) ++
      (List.range 16).map (fun k => (Reg.secEvtCnt k, Reg.secEvtCntSnap k))
  | 5 => (List.range 64).map (fun d => (Reg.drzCnt d, Reg.drzCntSnap d)) ++ (List.range 16).map (fun k => (Reg.roCnt k, Reg.roCntSnap k))
  | 6 => (List.range 4).map (fun i => (Reg.nocCnt i, Reg.nocCntSnap i))
  | _ => []

/-- A snapshot of the masked groups in the current slot: the copies hold the events of the slots before it (R66). -/
def State.snapshot (s : State) (mask : Nat) : State :=
  let ps := ((List.range 7).filter (fun g => (mask / 2 ^ g) % 2 == 1)).flatMap snapPairs
  let s1 := ps.foldl (fun t p => t.setReg p.2 (s.reg0 p.1)) s
  let o := s.tsb.orbit.toNat
  (s1.setReg Reg.tsbSnapTimeLo (BitVec.ofNat 32 o)).setReg Reg.tsbSnapTimeHi
    (BitVec.ofNat 32 (s.tsb.crossing * 65536 + s.tsb.slot % 128 * 256 + o / 2 ^ 32 % 256))

/-- TSB_SNAP: a write of a group mask to `TSB_CMD.SNAP`; no bit set starts nothing (R483). -/
def execTsbSnap (mask : BitVec 7) (s : State) : Host.Outcome State Fault Refusal :=
  (if mask = 0 then s else s.snapshot mask.toNat).go

/-! ### The crossing clock (R49, R55 to R60) -/

/-- The PLL locks: the start goes on to LOCKING; a return from LOST waits for its first marker. -/
def execFclkLock (s : State) : Host.Outcome State Fault Refusal :=
  if s.tsbState = .unlocked ∧ 1 ≤ s.L ∧ 8 ≤ s.M ∧ s.phase ≠ 5 then
    (let s1 := (s.setTsbState .locking).slotBegins
     ({ s1 with tsb := { s1.tsb with fclk := true, est := none, wrong := [], crossing := 0, slot := 0, orbit := s1.orbitInit } } : State).go)
  else if s.tsbState = .returning ∧ s.tsb.ret = .locking then
    ({ s with tsb := { s.tsb with fclk := true, ret := .marker, est := none, wrong := [] } } : State).go
  else s.go

/-- LOCK_TIMEOUT: the start fails with 0x50 without a `CX_CLK` edge, 0x54 without a qualified timing lane, 0x52 without lock, 0x53
without a confirmed count (R49, R51, R60). -/
def execLockTimeout (noEdge : Bool) (s : State) : Host.Outcome State Fault Refusal :=
  match s.tsbState with
  | .unlocked =>
    if s.cxTiming then (s.startFails (if s.qualified 0 || s.qualified 1 then 0x52 else 0x54) 0).go
    else (s.startFails (if noEdge then 0x50 else 0x52) 0).go
  | .locking => (s.startFails 0x53 0).go
  | _ => s.go

/-- CLOCK_LOSS (R46, R55, R59): a failover due in this crossing is taken, and no holdover begins. A loss in LOCKING ends the lock
of FCLK: the start waits for it again and the count is established afresh. A loss in RETURNING puts the return back to its first
step (both DESIGN CHOICE: the spec gives these states no loss of their own). -/
def execClockLoss (s : State) : Host.Outcome State Fault Refusal :=
  let a := s.activeLane
  if s.tsb.swapDue.isSome then s.go
  else if s.cxTiming && (!(s.tlane a).failed || s.qualified (1 - a)) then s.go
  else match s.tsbState with
    | .aligned =>
      if s.fld Reg.tsbHoldover 11 0 = 0 then s.enterLost.go
      else
        let s1 := ((s.setTsbState .holdover).setBit Reg.tsbStatus 13 true).fault 2
        ({ s1 with tsb := { s1.tsb with holdAt := s1.tsb.cx } } : State).go
    | .returning =>
      ({ s.setTsbState .lost with tsb := { s.tsb with ret := .none, goodAt := none, fclk := false, est := none } } : State).go
    | .locking =>
      ({ s.setTsbState .unlocked with tsb := { s.tsb with fclk := false, est := none, wrong := [] } } : State).go
    | _ => s.go

/-- CLOCK_RETURN: within the holdover and 2 steps of the grid the lock resumes; in LOST the qualification begins (R56, R58). -/
def execClockReturn (steps : Int) (s : State) : Host.Outcome State Fault Refusal :=
  if s.cxTiming && (s.tlane s.activeLane).failed then s.go
  else match s.tsbState with
    | .holdover =>
      if steps.natAbs ≤ 2 ∧ s.tsb.cx ≤ s.tsb.holdAt + s.fld Reg.tsbHoldover 11 0 then (s.setTsbState .aligned).go else s.go
    | .lost =>
      ({ s.setTsbState .returning with tsb := { s.tsb with ret := .qualifying, goodAt := some s.tsb.cx } } : State).go
    | _ => s.go

/-- HOLDOVER_EXPIRY: at the crossing boundary after the holdover time Touchstone is LOST (R57). -/
def execHoldoverExpiry (s : State) : Host.Outcome State Fault Refusal :=
  if s.tsbState = .holdover ∧ s.tsb.slot = 0 ∧ s.tsb.holdAt + s.fld Reg.tsbHoldover 11 0 < s.tsb.cx then s.enterLost.go else s.go

/-- RETURN_QUALIFIED (R58). -/
def execReturnQualified (s : State) : Host.Outcome State Fault Refusal :=
  match s.tsb.goodAt with
  | some g =>
    if s.tsbState = .returning ∧ s.tsb.ret = .qualifying ∧ g + s.fld Reg.tsbReturnQual 15 0 ≤ s.tsb.cx then
      ({ s with tsb := { s.tsb with ret := .locking } } : State).go
    else s.go
  | none => s.go

end Sys2Proof.Machine
end

