-- ==== Sys2Proof/Machine/Advance.lean ====
section
/-!
DEFINITION. Sys2Proof/Machine/Advance.lean: an FCLK edge: what ends with a slot, what begins with a slot, a crossing and an orbit,
and the schedule table (R35, R43, R61 to R65, R133, R142).
-/
namespace Sys2Proof.Machine

/-! ### The end of a slot -/

/-- The words that a lane delivers in this slot go into the rings of its sector, while that is in the fixed plane (R83, R301). -/
def State.laneRings (s : State) (l : Nat) : State :=
  match (s.lane l).deliver with
  | none => s
  | some d =>
    let k := s.laneSec l
    if !s.secIn k then s
    else
      let ws := s.laneSlot l
      let j0 := s.laneWps l * (s.tsb.tick - d.start)
      ((List.range ws.length).zip ws).foldl (fun s x => s.ringWrite k (s.laneCh l) d.x (j0 + x.1) x.2 d.dark d.sreset) s

/-- Attachments on the tiles of a cluster that is out while its sector is in: sorter registers and output words carry MARK DARK
of the cluster (R403). -/
def State.coldPorts (s : State) (n : Nat) : State :=
  if s.clIn n || !s.secIn (n / 16) then s
  else (clusterTiles n).foldl (fun s t => [4, 5, 6, 7].foldl (fun s p =>
    let e := s.attach t p
    match attKind e with
    | .sortin => { s with sortWrites := s.sortWrites ++ [{ sector := t / 256, reg := 64 * bitsOf e 6 6 + bitsOf e 5 0,
                                                           tick := s.tsb.tick + 2, word := FWord.dark n }] }
    | .olp => s.olpPush (t / 256) (bitsOf e 3 0) (bitsOf e 5 4) (bitsOf e 14 8) (FWord.dark n)
    | _ => s) s) s

/-- What a slot ends with: wires and ports, rings, watchdog cycles, and in slot M − 1 the samples of R313. -/
def State.endSlot (s : State) : State :=
  let s1 := (s.lanes.map (·.1)).foldl State.laneRings s
  let s2 := (List.range 256).foldl State.coldPorts s1.switchRoute
  let s3 := (s2.engines.map (·.1)).foldl State.countWatchdog s2
  if s.tsb.slot + 1 = s.M then s3.throttleSample else s3

/-! ### The count (R35) -/

/-- Slot, crossing and orbit counters and the model's own time bases move on, with M slots to a crossing and L crossings to an
orbit. -/
def State.countOn (s : State) (m l : Nat) : State :=
  let t := s.tsb
  if t.slot + 1 < m then { s with tsb := { t with tick := t.tick + 1, slot := t.slot + 1 } }
  else if t.crossing + 1 < l then
    { s with tsb := { t with tick := t.tick + 1, slot := 0, cx := t.cx + 1, crossing := t.crossing + 1 } }
  else { s with tsb := { t with tick := t.tick + 1, slot := 0, cx := t.cx + 1, crossing := 0, orbit := t.orbit + 1 } }

/-! ### The schedule table (R61 to R65) -/

/-- A CONTEXT_SET for a sector: the change waits for the next crossing boundary (R63, R135). -/
def State.contextSet (s : State) (k v : Nat) : State :=
  s.setBit (Reg.secMapsel k) 1 (decide (s.fld (Reg.secMapsel k) 0 0 ≠ v))

/-- The changes of map that wait take effect (R135). -/
def State.mapsApply (s : State) : State :=
  (List.range 16).foldl (fun s k =>
    if s.rbit (Reg.secMapsel k) 1 then s.setReg (Reg.secMapsel k) (BitVec.ofNat 32 (1 - s.fld (Reg.secMapsel k) 0 0)) else s) s

/-- With `QUIET_FOLLOW` set, a quiet command of the crossing that follows acts as a CONTEXT_SET to every sector in slot M − 1, after the
entries of that slot (R42, R64). -/
def State.quietFollow (s : State) : State :=
  if s.tsb.slot + 1 ≠ s.M ∨ !s.rbit Reg.tsbCtrl 7 ∨ s.tsb.cx = 0 ∨ s.tsbState = .unlocked ∨ s.tsbState = .locking then s
  else match s.wordUsed (s.tsb.cx - 1) with
    | some ((c, _), _) =>
      if bitsOf c 7 4 = 7 then (List.range 16).foldl (fun s k => s.contextSet k 1) s
      else if bitsOf c 7 4 = 8 then (List.range 16).foldl (fun s k => s.contextSet k 0) s else s
    | none => s

/-- Live entries that stand for the current slot, in ascending index. -/
def State.firing (s : State) : List Nat :=
  (s.regs.filterMap (fun e => match schedEntry e.1 with
    | some i => if e.1 % 16 = 0 ∧ e.2.getLsbD 31 then some i else none
    | none => none)).filter (fun i =>
      let w1 := s.reg (Reg.sched i 1)
      s.fld (Reg.sched i 0) 15 0 == s.tsb.crossing && s.fld (Reg.sched i 0) 22 16 == s.tsb.slot &&
        s.tsb.orbit.toNat % (bitsOf w1 31 16 + 1) == bitsOf w1 15 0)

/-- One action (R63, Table 6). -/
def State.action (s : State) (act target arg : Nat) : State :=
  let secs := (List.range 16).filter (fun k => (target / 2 ^ k) % 2 == 1)
  match act with
  | 1 => secs.foldl (fun s k => s.contextSet k (arg % 2)) s
  | 2 => s.calPulse target (s.tsb.tick + 3) arg
  | 3 => s.sendFlag { src := .schedule, task := target, flag := arg, set := true }
  | 4 => s.accordRequest arg 1 none false
  | 5 => secs.foldl (fun s k => s.syncReset k 2) s
  | 6 => s.snapshot target
  | _ => s

/-- An entry fires, unless its parity fails (R65). -/
def State.fire (s : State) (i : Nat) : State :=
  if !s.schedParOk i then (s.setBit Reg.tsbStatus 16 true).setReg Reg.tsbSchedPerrIdx (BitVec.ofNat 32 i)
  else s.action (s.fld (Reg.sched i 0) 30 27) (s.fld (Reg.sched i 2) 31 16) (s.fld (Reg.sched i 2) 15 0)

/-- Every entry of the current slot, in ascending index; in LOST and RETURNING the table does not fire (R57, R64). -/
def State.fireAll (s : State) : State := if s.planeRuns then s.firing.foldl State.fire s else s

/-! ### A crossing begins -/

/-- The command word of the crossing that begins, and the command that takes effect in it (R39, R43, R47, R53). A word used only now counts
as a substitution, and its ORBIT marks its own crossing still. -/
def State.commandWord (s : State) : State :=
  if s.tsbState = .unlocked ∨ s.tsbState = .locking then s
  else
    let k := s.tsb.cx - 2
    let t := s.tsb
    let s1 : State := { s with tsb := { t with decided := t.decided.filter (fun d => decide (k < d.1)),
                                               awaiting := t.awaiting.filter (fun a => decide (k < a)) } }
    match (if 2 ≤ s.tsb.cx then s.wordUsed k else none) with
    | none =>
      let s2 : State := { s1 with tsb := { s1.tsb with ccw := FWord.poison 2, due := none } }
      (s2.count Reg.tsbCmdLost 31 0).setBit Reg.tsbStatus 11 true
    | some ((c, p), subst) =>
      let s1 := if subst then s1.count Reg.tsbSubstCnt 31 0 else s1
      let s2 : State := { s1 with tsb := { s1.tsb with orbitDue := if subst ∧ bitsOf c 7 4 = 1 then some (k, p) else s1.tsb.orbitDue
                                                       ccw := FWord.frame (BitVec.ofNat 16 (c.toNat * 256 + p.toNat)),
                                                       due := if bitsOf c 7 4 = 1 then none else some (c, p) } }
      if s.cxTiming && s.rbit Reg.tsbCtrl 6 && s.planeRuns && decide (s.numberAt (k : Int) = 0) && decide (bitsOf c 7 4 ≠ 1) then
        s2.count Reg.tsbOrbitMissCnt 31 0
      else s2

/-- An orbit begins: a switch that is due, a result of admission that waits, and spare engines that rejoin. -/
def State.orbitStart (s : State) : State :=
  let s1 := s.accordEffect
  let s2 := match s1.adm.next with
    | some r => (s1.admForce r).sectorsAdmitted s1.adm.dropsec r.dropsec []
    | none => s1
  if s2.inRun && s2.planeRuns then s2.spareJoins else s2

/-- The pinned engines in the fixed plane take CROSS (R223). -/
def State.crossNow (s : State) : State :=
  if s.inRun && s.planeRuns then
    s.crossAll ((s.engines.map (·.1)).filter (fun p => match s.logOf p with | some e => s.clIn (e / 2) | none => false))
  else s

def State.crossingStart (s : State) : State :=
  let s1 := s.mapsApply.realignDue.commandWord
  let s2 := if s1.tsb.crossing = 0 then s1.orbitStart else s1
  s2.crossNow

/-! ### A slot begins -/

/-- SLOT events of the engines whose slot it is (R225). -/
def State.slotEvents (s : State) : State :=
  ((s.engines.map (·.1)).filter (fun p => s.leads p && s.engIn p && s.engSlotEv p == s.tsb.slot)).foldl State.raiseSlot s

/-- A slot begins. The map and context read that the tile made during the slot before is taken in here, last but for the SLOT
events, so an uncorrectable error in it counts as detected in the slot now begun, after the departures due at this boundary
(DESIGN CHOICE: R133 does not say in which slot such a read detects). -/
def State.enterSlot (s : State) : State :=
  let s1 := (s.slotBegins.levelGroup.sortLand.cellsAdvance).payDispatcher.paySectors
  let s2 := if s1.tsb.slot = 0 then s1.crossingStart else s1
  let s3 := if s2.tsb.slot = 1 ∧ s2.tsb.crossing + 1 = s2.L then s2.accordDeadline else s2
  let s4 := if s3.tsb.slot + 1 = s3.M ∧ s3.tsb.crossing + 1 = s3.L then s3.hotSwap else s3
  (s4.fireAll.calRise.readContexts).slotEvents.quietFollow

/-- One FCLK edge. -/
def State.advance (s : State) : State := (s.endSlot.countOn s.M s.L).enterSlot

/-- SLOT_ADVANCE: an FCLK edge, whatever carries with it. -/
def execSlotAdvance (s : State) : Host.Outcome State Fault Refusal := (if s.counting then s.advance else s).go

/-- CROSSING_ADVANCE: the FCLK edge that ends slot M − 1; not due in another slot. -/
def execCrossingAdvance (s : State) : Host.Outcome State Fault Refusal :=
  (if s.counting && decide (s.tsb.slot + 1 = s.M) then s.advance else s).go

/-- A start fails on the reference of a powered quadrant, the lowest of several (R72). -/
def State.qrefFails (s : State) (out : BitVec 4) : State :=
  match ([0, 1, 2, 3] : List Nat).find? (fun q => out.getLsbD q && s.pwr.quads.getLsbD q) with
  | some q => s.startFails 0x55 q
  | none => s

/-- ORBIT_ADVANCE: the FCLK edge that ends the orbit; `qref` names the quadrants whose reference differed from the crossing clock
over it (R72). -/
def execOrbitAdvance (qref : BitVec 4) (s : State) : Host.Outcome State Fault Refusal :=
  (if s.counting && decide (s.tsb.slot + 1 = s.M) && decide (s.tsb.crossing + 1 = s.L) then (s.advance.qrefCheck qref).qrefFails qref else s).go

end Sys2Proof.Machine
end

