-- ==== Sys2Proof/Machine/Checks.lean ====
section
/-!
DEFINITION. Sys2Proof/Machine/Checks.lean: the load checks of step 9: what refuses an image, or the configuration under one of
its accords, with the codes 0x07 to 0x10, 0x14, 0x23, 0x31, 0x43 and 0x51 (R351, R385, R387, R399 and the rules of the chapters
that own the targets).
-/
namespace Sys2Proof.Machine

/-- A failure of a start: its code, the object as `ADM_OBJECT` gives it (chapter 14, Table 2), 0 where Table 7 of chapter 13 has no kind
for what failed, and the values that its row of Table 8 names. -/
structure LoadFail where
  code : Nat
  obj : Nat := 0
  v1 : Nat := 0
  v2 : Nat := 0
deriving DecidableEq, Repr

/-- A failure unless a condition holds. -/
def demand (ok : Bool) (code : Nat) (obj : Nat := 0) (v1 : Nat := 0) (v2 : Nat := 0) : Option LoadFail :=
  if ok then none else some { code := code, obj := obj, v1 := v1, v2 := v2 }

/-- The first failure of a list of checks. -/
def firstOf (l : List (Option LoadFail)) : Option LoadFail := l.findSome? id

/-- How a report names a field: 8 × the byte offset of its word in the registers or the descriptor of its object, plus its lowest bit
(DESIGN CHOICE: Table 8 of chapter 13 says `field` and gives no numbers). -/
def fieldNo (off lo : Nat) : Nat := 8 * off + lo

/-- Object of a kind and number. -/
def objOf (kind n : Nat) : Nat := (Obj.mk kind n).word

/-- No value stands twice. -/
def noRepeat (l : List Nat) : Bool := match l with
  | [] => true
  | x :: xs => !decide (x ∈ xs) && noRepeat xs

/-- The words that load records write. -/
def loadWordsOf (l : List LoadRec) : List (Nat × W32) :=
  l.flatMap (fun r => (List.range (r.2.length / 4)).map (fun i => (r.1 + 4 * i, BitVec.ofNat 32 (leAt r.2 (4 * i) 4))))

/-- The first word written to a register for which `f` holds that sets a reserved bit. -/
def reservedSet (f : Nat → Bool) (ws : List (Nat × W32)) : Option Nat :=
  (ws.find? (fun x => f x.1 && (match regSpec x.1 with
    | some r => decide (x.2 &&& ~~~(r.rw ||| r.rwl ||| r.rw1c ||| r.wo) ≠ 0)
    | none => false))).map (·.1)

/-- A failure where a reserved bit is set: object and values of the word. -/
def reservedFail (f : Nat → Bool) (ws : List (Nat × W32)) (code : Nat) (obj v1 v2 : Nat → Nat) : Option LoadFail :=
  (reservedSet f ws).map (fun a => { code := code, obj := obj a, v1 := v1 a, v2 := v2 a })

/-! ### Lanes (R71, R82, R86) -/

def State.laneOn (s : State) (l : Nat) : Bool := decide (s.rxMode l ≠ 0 ∨ s.txMode l ≠ 0)

/-- Bits per crossing of the halves of a lane that are on: received raw 8b/10b in 10-bit characters, everything else in 66-bit blocks
(R71). -/
def State.laneHalves (s : State) (l : Nat) : List Nat :=
  let blk := s.fld (Reg.lanCfg l) 15 8
  (if s.rxMode l = 0 then [] else [blk * (if s.rxMode l = 3 then 10 else 66)]) ++ (if s.txMode l = 0 then [] else [blk * 66])

/-- The lane checks of one lane, each with the field it names (R69, R71, R82, R86, Table 12). -/
def State.laneChecks (s : State) (l : Nat) : List (Bool × Nat) :=
  let raw8 := s.rxMode l == 3
  let blk := s.fld (Reg.lanCfg l) 15 8
  let f := (s.reg Reg.tsbGeomFreq).toNat
  let top : Nat := if raw8 then 12500000000 else 28200000000
  let port (i : Nat) : Nat := 16 * s.laneSec i + s.laneCh i
  let quad := ((List.range 4).map (fun i => l - l % 4 + i)).flatMap s.laneHalves
  [(decide (s.laneCh l ≠ 15), 18)] ++ (if s.laneOn l then
    [(decide ((if raw8 then 3 else 2) ≤ blk), 8),
     (!raw8 || decide (s.txMode l = 0), 28),
     (!s.rbit (Reg.lanCfg l) 27 || decide (s.rxMode l = 1), 27),
     ((s.laneHalves l).all (fun b => decide (2500000000 ≤ b * f ∧ b * f ≤ top)), 8),
     ((s.laneHalves l).all (fun b => quad.all (fun c => decide (b = c))), 8),
     (decide (s.fld (Reg.lanCfg l) 25 24 ≠ 3), 24),
     (decide (s.rxMode l = 0) || (List.range 240).all (fun i => decide (i = l ∨ s.rxMode i = 0) || decide (port i ≠ port l)), 18),
     (decide (s.rxMode l = 0) || decide (s.laneW l ≤ s.M * s.laneWps l), 24)] else [])

def State.checkLanes (s : State) : Option LoadFail :=
  firstOf ((List.range 240).flatMap (fun l => (s.laneChecks l).map (fun c => demand c.1 0x14 (objOf 3 l) l c.2)))

/-! ### Clocks (R37, R49, R488) -/

/-- The field named counts from the Touchstone registers. -/
def State.checkClocks (s : State) : Option LoadFail :=
  let f := (s.reg Reg.tsbGeomFreq).toNat
  let freq := fieldNo (Reg.tsbGeomFreq % 0x1000) 0
  firstOf [demand (decide (s.fld Reg.tsbCtrl 1 0 ≤ 1)) 0x51 0 (fieldNo (Reg.tsbCtrl % 0x1000) 0),
    demand (decide (5000000 ≤ f ∧ f ≤ 80000000)) 0x51 0 freq, demand (decide (400000000 ≤ s.M * f ∧ s.M * f ≤ 1200000000)) 0x51 0 freq]

/-! ### Contexts, slot maps and scratch (R127, R131) -/

/-- `MOD` bits that an operation uses (chapter 4, Table 7). -/
def modUsed (op : Nat) : Nat :=
  if op = 5 ∨ op = 6 ∨ op = 7 ∨ op = 0x12 then 1 else if op = 9 then 7 else if op = 0x0A ∨ op = 0x13 ∨ op = 0x16 then 3 else 0

/-- A source code of an operand field; of the switch. -/
def srcOk (c : Nat) : Bool := decide (c ≤ 0x25 ∧ c ≠ 0x1E)

/-- The lowest bit of the field at fault in an operation: `OP`, the sources, reserved bits, unused `MOD` bits, the `DST` of an ACC. -/
def fieldFault (f : BitVec 64) : Option Nat :=
  let op := cfOp f
  if 0x19 < op then some 43
  else if !srcOk (cfSrcA f) then some 37
  else if !srcOk (cfSrcB f) then some 31
  else if bitsOf f 18 16 ≠ 0 then some 16
  else if (cfMod f).toNat &&& modUsed op ≠ (cfMod f).toNat then some 20
  else if op = 0x16 ∧ !f.getLsbD 30 then some 30 else none

def scrReads (op : Nat) : Bool := op == 0x17 || op == 0x18
def scrWrites (op : Nat) : Bool := op == 0x17 || op == 0x19

/-- Operations of a context. -/
def State.ctxOps (s : State) (t c : Nat) : List Nat := (List.range 4).map (fun m => cfOp (s.cellField t c m))

/-- What is at fault in a context: cell, 0xFF for none, and field: a bit of the cell's operation, 0x80 + a link destination, 0xA0 + a port,
0x40 and 0x41 for a second scratch read and write, 0xFF for the reserved bits. -/
def State.ctxFault (s : State) (t c : Nat) : Option (Nat × Nat) :=
  let ops := s.ctxOps t c
  ((List.range 4).findSome? (fun m => (fieldFault (s.cellField t c m)).map (fun b => (m, b)))).or
  (if s.ctxBits t c 411 101 ≠ 0 then some (0xFF, 0xFF)
   else match (List.range 22).find? (fun d => decide (s.linkDest t c d = 0x1E)) with
    | some d => some (0xFF, 0x80 + d)
    | none => match (List.range 4).find? (fun k => decide (s.portField t c k % 32 = 0x1E)) with
      | some k => some (0xFF, 0xA0 + k)
      | none => if 1 < (ops.filter scrReads).length then some (0xFF, 0x40)
                else if 1 < (ops.filter scrWrites).length then some (0xFF, 0x41) else none)

/-- The words of the DELAY rings of a tile. -/
def State.ringWords (s : State) (t : Nat) : List Nat :=
  (List.range 8).flatMap (fun c => (List.range 4).flatMap (fun m =>
    let f := s.cellField t c m
    if cfOp f = 0x17 then (List.range (bitsOf (cfImm f) 15 9 + 1)).map (fun i => (bitsOf (cfImm f) 8 0 + i) % 512) else []))

/-- A map leaves a slot without scratch reads and one without writes. -/
def State.mapLeaves (s : State) (t m : Nat) : Bool :=
  let free (f : Nat → Bool) : Bool := (List.range s.M).any (fun k =>
    let e := s.entryOf t m k
    e.1 || !(s.ctxOps t e.2).any f)
  free scrReads && free scrWrites

/-- What is at fault in a tile, as the report's V2 names it: the context, or 0x100 + 128 × map for a slot map, or 0xFFFF for its DELAY
rings, then cell and field (DESIGN CHOICE of the packing: R131 says what is named, Table 8 only `entry`). -/
def State.tileFault (s : State) (t : Nat) : Option Nat :=
  (((List.range 8).findSome? (fun c => (s.ctxFault t c).map (fun x => 65536 * c + 256 * x.1 + x.2))).or
    (if noRepeat (s.ringWords t) then none else some 0xFFFFFFFF)).or
    (([0, 1].find? (fun m => !s.mapLeaves t m)).map (fun m => 65536 * (0x100 + 128 * m) + 0xFFFF))

def State.checkTiles (s : State) : Option LoadFail :=
  (List.range 4096).findSome? (fun t => (s.tileFault t).map (fun v => { code := 0x0A, v1 := t, v2 := v }))

/-! ### Attachments, policies and long lines (R147, R148, R153) -/

/-- Bits of an attachment entry that its kind uses. -/
def attUsed : Nat → Nat
  | 1 => 0x3F | 3 => 0x1F | 4 => 0x1F | 5 => 0xD | 6 => 0xD | 7 => 0x7F | 8 => 0x1F | 9 => 0x1F | 10 => 0x7F3F | 11 => 0xF | _ => 0

/-- A kind stands on a port of its direction. -/
def attSide (kind p : Nat) : Bool :=
  if p < 4 then decide (kind ≤ 3 ∨ kind = 5 ∨ kind = 8 ∨ kind = 9)
  else decide (kind = 0 ∨ kind = 4 ∨ kind = 6 ∨ kind = 7 ∨ kind = 10 ∨ kind = 11)

/-- Every attachment: tile, port, entry. -/
def State.attachments (s : State) : List (Nat × Nat × BitVec 32) :=
  ((List.range 4096).flatMap (fun t => (List.range 8).map (fun p => (t, p, s.attach t p)))).filter
    (fun a => decide (a.2.2 ≠ 0))

/-- What is at fault in one attachment: the lowest bit of the field of its entry (R153). An OLP attachment on a channel to which no lane is
mapped is refused like one on a channel whose lane does not transmit (DESIGN CHOICE: the rule speaks of a channel's lane only). -/
def State.attFault (s : State) (a : Nat × Nat × BitVec 32) : Option Nat :=
  let t := a.1
  let e := a.2.2
  let k := bitsOf e 31 28
  let sec := t / 256
  if !attSide k a.2.1 then some 28
  else if bitsOf e 27 0 &&& attUsed k ≠ bitsOf e 27 0 then some 0
  else match attKind e with
     | .lane => if bitsOf e 3 0 = 15 then some 0
       else match s.laneFeeding sec (bitsOf e 3 0) with
       | some l => if bitsOf e 5 4 < s.laneWps l then none else some 4
       | none => none
     | .engso | .engsi => if s.pooled (s.physOf (2 * (t / 16) + bitsOf e 0 0)) then some 0 else none
     | .olp => if (s.lanesDriven sec (bitsOf e 3 0)).isEmpty then some 0 else none
     | _ => none

/-- What the attachments of a kind are on, one name for those of which the device takes only so many: the name and the number (R153). -/
def attClass (t : Nat) (e : BitVec 32) : Option (Nat × Nat) :=
  let c := t / 16
  let k := t / 256
  match attKind e with
  | .lane => some (64 * k + bitsOf e 5 0, 8)
  | .qpush => some (2 ^ 20 + 32 * c + bitsOf e 4 0, 1)
  | .qpop => some (2 * 2 ^ 20 + 32 * c + bitsOf e 4 0, 1)
  | .engsi => some (3 * 2 ^ 20 + 16 * c + bitsOf e 3 0, 1)
  | .engso => some (4 * 2 ^ 20 + 16 * c + bitsOf e 3 0, 4)
  | .sortin => some (5 * 2 ^ 20 + 128 * k + bitsOf e 6 0, 1)
  | .olp => some (6 * 2 ^ 20 + 64 * k + bitsOf e 5 0, 1)
  | .dec => some (7 * 2 ^ 20 + bitsOf e 3 0, 1)
  | _ => none

/-- The first attachment beyond the number that its class allows, and the first OLP whose F differs from its channel's. -/
def crowded : Tbl Nat → List (Nat × Nat × BitVec 32) → Option (Nat × Nat × Nat)
  | _, [] => none
  | seen, (t, p, e) :: as =>
    match attClass t e with
    | none => crowded seen as
    | some (key, n) =>
      let f := 8 * 2 ^ 20 + 16 * (t / 256) + bitsOf e 3 0
      let c := Tbl.get 0 seen key
      if n ≤ c then some (t, p, 0)
      else
        let seen1 := Tbl.set 0 seen key (c + 1)
        if attKind e = .olp then
          (let o := Tbl.get 0 seen1 f
           if o ≠ 0 ∧ o ≠ bitsOf e 14 8 + 1 then some (t, p, 8) else crowded (Tbl.set 0 seen1 f (bitsOf e 14 8 + 1)) as)
        else crowded seen1 as

/-- Keys of the attachments of a kind. -/
def keysOf (as : List (Nat × Nat × BitVec 32)) (k : AttKind) (f : Nat → BitVec 32 → Nat) : List Nat :=
  (as.filter (fun a => attKind a.2.2 == k)).map (fun a => f a.1 a.2.2)

/-- The first map, slot and tile that drives a long line of a sector driven already in that slot (R147). -/
def State.lineFault (s : State) (sec : Nat) : Option (Nat × Nat × Nat) :=
  [0, 1].findSome? (fun m => (List.range s.M).findSome? (fun k =>
    let on (t : Nat) : List Nat :=
      let c := (s.entryOf t m k).2
      ([0, 1].filter (fun i => s.linkDest t c (20 + i) ≠ 0x1F)).map (longLine t)
    if noRepeat ((sectorTiles sec).flatMap on) then none
    else (sectorTiles sec).findSome? (fun t => if (on t).any (fun x => ((sectorTiles sec).any (fun u => decide (u < t) && decide (x ∈ on u))) ||
      decide (1 < ((on t).filter (· == x)).length)) then some (m, k, t) else none)))

/-- The policy of a tile's border channels at fault, or the policy word whose reserved bits are set: 0x20 + 4 × the word. -/
def State.policyFault (s : State) (t : Nat) : Option Nat :=
  ((List.range 20).find? (fun i => !(match linkDriver t i with
    | some (u, _) => decide (u / 16 = t / 16)
    | none => true) && decide (s.policy t i = 3))).or
    (if 256 ≤ s.le (tileWin t + 0x2A4) 4 then some 0x24 else if 65536 ≤ s.le (tileWin t + 0x2A8) 4 then some 0x28 else none)

/-- The report's V2 is the port, with the field at fault in bits [15:8]; for a long line the slot and map, for a policy its channel
(DESIGN CHOICE of the packing: R153 says what is named, Table 8 only `port`). -/
def State.checkAttach (s : State) : Option LoadFail :=
  let as := s.attachments
  let bad (t v : Nat) : LoadFail := { code := 0x0B, v1 := t, v2 := v }
  firstOf [as.findSome? (fun a => (s.attFault a).map (fun f => bad a.1 (a.2.1 + 256 * f))),
    (crowded [] as).map (fun x => bad x.1 (x.2.1 + 256 * x.2.2)),
    (List.range 16).findSome? (fun k => (s.lineFault k).map (fun x => bad x.2.2 (0x10000 + 128 * x.1 + x.2.1))),
    (List.range 4096).findSome? (fun t => (s.policyFault t).map (fun i => bad t (0x20000 + i)))]

/-! ### Sorters (R171, R174) -/

/-- What is at fault in a sorter's configuration: `SAMPLE`, `BADRANK`, `EN` (R171, R174). -/
def State.sorterFault (s : State) (k : Nat) : Option Nat :=
  let c := Reg.srtCfg k
  if s.M ≤ s.fld c 6 0 then some (fieldNo 0 0)
  else if s.fld c 15 14 = 3 then some (fieldNo 0 14)
  else if s.rbit Reg.mrgCfg (16 + k) && !s.rbit c 13 then some (fieldNo 0 13)
  else if s.rbit Reg.mrgCfg (16 + k) && decide ((s.fld c 6 0 + 24) % s.M ≠ s.fld Reg.mrgCfg 6 0) then some (fieldNo 0 0)
  else if !s.rbit c 13 && (sectorTiles k).any (fun t => (List.range 8).any (fun p =>
      attKind (s.attach t p) == .sortin || attKind (s.attach t p) == .sortout)) then some (fieldNo 0 13)
  else none

/-- The values name the sector of the sorter, 16 for the merge unit, and the field. -/
def State.checkSorters (s : State) : Option LoadFail :=
  firstOf ((List.range 16).map (fun k => (s.sorterFault k).map (fun f => { code := 0x0C, obj := objOf 2 k, v1 := f, v2 := k })) ++
    [demand (decide (s.fld Reg.mrgCfg 6 0 < s.M)) 0x0C 0 (fieldNo 0 0) 16, demand (decide (s.fld Reg.mrgCfg 15 14 ≠ 3)) 0x0C 0 (fieldNo 0 14) 16])

/-! ### Stream queues (R196) -/

/-- A queue is a RET queue. -/
def State.isRet (s : State) (q : Nat) : Bool := decide (s.qDir q = 2) && decide (s.qFar q = 3)

/-- The RET queue of a post unit that names one. -/
def State.retOf (s : State) (q : Nat) : Option Nat :=
  if s.qDir q = 1 ∧ s.qFar q = 1 ∧ s.rbit (Reg.queCfg q) 17 then some (q - q % 32 + s.fld (Reg.queCfg q) 22 18) else none

/-- What is at fault in a queue's configuration: the lowest bit of the field of `QUE_CFG` (R196). -/
def State.queueFault (s : State) (pushed popped : List Nat) (q : Nat) : Option Nat :=
  let dir := s.qDir q
  let far := s.qFar q
  let id := s.qFarId q
  let e := 2 * (q / 32) + id % 2
  if dir = 3 then some 30
  else if decide (dir = 1) != decide (q ∈ pushed) ∨ decide (dir = 2) != decide (q ∈ popped) then some 30
  else if dir = 0 then (if id = 0 then none else some 0)
  else if far = 0 then (if id &&& 0xD = id ∧ s.pooled (s.physOf e) then none else some 0)
  else if far = 1 then
    (if dir ≠ 1 then some 30 else if 4096 ≤ id ∨ !s.tValid id then some 0
     else match s.retOf q with
      | some r => if s.isRet r then none else some 18
      | none => none)
  else if far = 2 then (if s.qFar id = 2 ∧ s.qDir id + dir = 3 ∧ s.qFarId id = q ∧ id / 32 ≠ q / 32 then none else some 0)
  else if dir ≠ 2 then some 30 else if id = 0 then none else some 0

/-- The first element that stands a second time under its key. -/
def secondOf (key : Nat → Nat) : List Nat → Option Nat
  | [] => none
  | x :: xs => (xs.find? (fun y => key y == key x)).or (secondOf key xs)

def State.checkQueues (s : State) (ws : List (Nat × W32)) : Option LoadFail :=
  let as := s.attachments
  let pushed := keysOf as .qpush (fun t e => 32 * (t / 16) + bitsOf e 4 0)
  let popped := keysOf as .qpop (fun t e => 32 * (t / 16) + bitsOf e 4 0)
  let used := (List.range 8192).filter (fun q => decide (s.qDir q ≠ 0))
  let bad (q f : Nat) : LoadFail := { code := 0x0D, v1 := q, v2 := f }
  let num (a : Nat) : Nat := match secOff a with
    | some (k, o) => 512 * k + (o - 0xF80000) / 32
    | none => 0
  firstOf [reservedFail isQueue ws 0x0D (fun _ => 0) num (fun _ => fieldNo 0 0),
    (List.range 8192).findSome? (fun q => (s.queueFault pushed popped q).map (bad q)),
    (secondOf (fun q => 64 * (q / 32) + 16 * s.qDir q + s.qFarId q % 16) (used.filter (fun q => decide (s.qFar q = 0)))).map (fun q => bad q 0),
    (secondOf (fun q => (s.retOf q).getD 0) (used.filter (fun q => (s.retOf q).isSome))).map (fun q => bad q 18)]

/-! ### Engine descriptors (R231, R239) -/

/-- What is at fault in an engine's descriptor, as 8 × the byte offset of its word and the lowest bit (R231, R239). -/
def State.engineFault (s : State) (e : Nat) : Option Nat :=
  let p := s.physOf e
  let w0 := s.engDesc p 0
  let w1 := s.engDesc p 1
  let w2 := s.engDesc p 2
  let g := s.gangSize p
  let members := (List.range g).map (fun i => s.physOf (e - e % g + i))
  let word (q w : Nat) : W32 := if w = 0 then putBits (s.engDesc q w) 3 3 0 else s.engDesc q w
  if w0 &&& 0xF80000C0 ≠ 0 then some (fieldNo 0 6)
  else if w1.getLsbD 15 then some (fieldNo 4 15)
  else if bitsOf w2 31 4 ≠ 0 then some (fieldNo 8 4)
  else match (List.range 13).find? (fun i => decide (s.engDesc p (3 + i) ≠ 0)) with
  | some i => some (fieldNo (12 + 4 * i) 0)
  | none =>
    match (List.range 16).find? (fun w => members.any (fun q => decide (word q w ≠ word p w))) with
    | some w => some (fieldNo (4 * w) 0)
    | none =>
      if w0.getLsbD 3 != decide (e % g = 0) then some (fieldNo 0 3)
      else if w0.getLsbD 0 ∧ bitsOf w1 7 0 ≠ 0 then some (fieldNo 4 0)
      else if !w0.getLsbD 0 ∧ bitsOf w2 3 0 ≠ 0 then some (fieldNo 8 0)
      else if g < 4 ∧ bitsOf w0 15 8 ≠ 0 then some (fieldNo 0 8)
      else if s.M ≤ bitsOf w1 14 8 then some (fieldNo 4 8)
      else if s.fld (Reg.secEngCfg (e / 32)) 0 0 ≠ 0 ∧ s.M % 2 ≠ 0 then some (fieldNo 0x100 0)
      else none

def State.checkDescs (s : State) : Option LoadFail :=
  (List.range 512).findSome? (fun e => (s.engineFault e).map (fun f => { code := 0x0E, obj := objOf 4 e, v1 := e, v2 := f }))

/-! ### Dispatcher and Sillage (R275, R278, R299) -/

/-- Words of descriptors of valid tasks, and `SLG_CFG`. -/
def State.dptReserved (s : State) (a : Nat) : Bool :=
  glbOff a == some 0x9080 || (decide (0x2000000000 ≤ a ∧ a < 0x2000040000) && s.tValid ((a - 0x2000000000) / 64) &&
    decide ((a - 0x2000000000) % 64 / 4 ≤ 8))

/-- What is at fault in a valid task's descriptor: its word and bit (R278, R299). -/
def State.taskFault (s : State) (ws : List (Nat × W32)) (t : Nat) : Option Nat :=
  let reg (w : Nat) : W32 := s.reg (Reg.task t w)
  let all := reg 3
  let any := reg 4
  let clr := reg 5
  let mine (a : Nat) : Bool := decide (0x2000000000 + 64 * t ≤ a ∧ a < 0x2000000000 + 64 * t + 64)
  match reservedSet (fun a => mine a && decide (a % 64 / 4 ≤ 8)) ws,
      ws.find? (fun x => mine x.1 && decide (14 ≤ x.1 % 64 / 4) && decide (x.2 ≠ 0)) with
  | some a, _ => some (fieldNo (a % 64) 0)
  | none, some x => some (fieldNo (x.1 % 64) 0)
  | none, none =>
    if s.tMode t = 3 then some (fieldNo 0 29)
    else if 65536 < s.tBase t + s.tCap t then some (fieldNo 24 0)
    else if s.tCap t < s.fld (Reg.task t 8) 15 0 then some (fieldNo 32 0)
    else if !(List.range 16).any (fun k => s.rbit (Reg.task t 1) k && (List.range 32).any (fun i =>
      s.rbit (Reg.task t 2) i && s.pooled (s.physOf (32 * k + i)))) then some (fieldNo 4 0)
    else if s.tCap t = 0 ∧ (clr &&& (all ||| any) = 0 ∨ (all = 0 ∧ any = 0)) then some (fieldNo 20 0)
    else none

/-- The values name the task and the field; a fault of `SLG_CFG` names 0xFFFF for the task. -/
def State.checkTasks (s : State) (ws : List (Nat × W32)) : Option LoadFail :=
  let valid := (List.range 4096).filter s.tValid
  let apart (t u : Nat) : Bool := decide (t = u ∨ s.tCap t = 0 ∨ s.tCap u = 0 ∨ s.tBase t + s.tCap t ≤ s.tBase u ∨
    s.tBase u + s.tCap u ≤ s.tBase t)
  let bad (t f : Nat) : LoadFail := { code := 0x0F, v1 := t, v2 := f }
  firstOf [reservedFail (fun a => glbOff a == some 0x9080) ws 0x0F (fun _ => 0) (fun _ => 0xFFFF) (fun _ => fieldNo 0 0),
    valid.findSome? (fun t => (s.taskFault ws t).map (bad t)),
    (valid.find? (fun t => valid.any (fun u => !apart t u))).map (fun t => bad t (fieldNo 24 0))]

/-! ### The schedule (R62) -/

def State.schedOk (s : State) (i : Nat) : Bool :=
  let w0 := Reg.sched i 0
  let target := s.fld (Reg.sched i 2) 31 16
  let arg := s.fld (Reg.sched i 2) 15 0
  !s.rbit w0 31 || (decide (s.fld w0 22 16 < s.M) && decide (s.fld w0 15 0 < s.L) &&
    decide (s.fld (Reg.sched i 1) 15 0 ≤ s.fld (Reg.sched i 1) 31 16) &&
    (match s.fld w0 30 27 with
     | 0 => decide (target = 0 ∧ arg = 0)
     | 1 => decide (arg ≤ 1)
     | 2 => decide (target < 16) && decide (1 ≤ arg ∧ arg ≤ 4095)
     | 3 => decide (target < 4096 ∧ arg < 32)
     | 4 => decide (target = 0 ∧ arg < 256)
     | 5 => decide (arg = 0)
     | 6 => decide (target < 128 ∧ arg = 0)
     | _ => false))

def State.checkSched (s : State) : Option LoadFail := firstOf ((List.range 1024).map (fun i => demand (s.schedOk i) 0x10 0 i))

/-! ### Readout (chapter 11, Table 5) -/

/-- A readout lane of the quadrant of a derandomizer. -/
def State.roLane (s : State) (d l : Nat) : Bool := decide (l < 240 ∧ l / 60 = d / 16) && decide (s.txMode l = 3)

/-- What is at fault in a sector's builder, as 8 × the offset from `RO_CFG0` and the lowest bit. -/
def State.readoutFault (s : State) (k : Nat) : Option Nat :=
  let depth := s.ringP k
  let stride := s.ringR k
  if 15 < s.fld (Reg.roCfg0 k) 7 4 + s.fld (Reg.roCfg0 k) 3 0 then some (fieldNo 0 4)
  else if depth = 0 then some (fieldNo 0 20)
  else if 524288 < 15 * depth * stride then some (fieldNo 0 20)
  else if !(s.chanSel k).all (fun ch => match s.laneFeeding k ch with
      | some l => decide (s.laneW l ≤ stride)
      | none => true) then some (fieldNo 0 10)
  else match (s.chanSel k).find? (fun ch => (s.laneFeeding k ch).isNone) with
    | some ch => some (fieldNo (Reg.roCh k ch - Reg.roCfg0 k) 16)
    | none => if s.target k / 16 = k / 4 then none else some (fieldNo (Reg.roCfg1 k - Reg.roCfg0 k) 0)

/-- A builder targets the derandomizer. -/
def State.targeted (s : State) (d : Nat) : Bool := (List.range 16).any (fun k => decide (s.target k = d))

/-- What is at fault in a derandomizer, as 8 × the offset from `DRZ_CFG` and the lowest bit; `DRZ_TMASK` as 0x800. -/
def State.drzFault (s : State) (d : Nat) : Option Nat :=
  let hi := s.fld (Reg.drzCfg d) 31 16
  let lane := s.fld (Reg.drzCtrl d) 7 0
  if hi ≤ s.fld (Reg.drzCfg d) 15 0 then some (fieldNo 0 0)
  else if 32767 < hi then some (fieldNo 0 16)
  else if lane ≠ 0xFF ∧ !s.roLane d lane then some (fieldNo 4 0)
  else if lane ≠ 0xFF ∧ (List.range d).any (fun e => decide (s.fld (Reg.drzCtrl e) 7 0 = lane)) then some (fieldNo 4 0)
  else if s.targeted d && !(List.range 4).any (fun n => if d < 32 then s.rbit (Reg.drzTmaskLo n) d else s.rbit (Reg.drzTmaskHi n) (d - 32)) then
    some (fieldNo 0x100 0)
  else none

/-- The values name the field and the sector or the derandomizer. -/
def State.checkReadout (s : State) (ws : List (Nat × W32)) : Option LoadFail :=
  let sec (a : Nat) : Nat := match secOff a with
    | some (k, _) => k
    | none => 0
  firstOf [reservedFail isReadout ws 0x31 (fun a => objOf 2 (sec a)) (fun a => fieldNo (a % 0x1000) 0) sec,
    (List.range 16).findSome? (fun k => (s.readoutFault k).map (fun f => { code := 0x31, obj := objOf 2 k, v1 := f, v2 := k })),
    (List.range 64).findSome? (fun d => (s.drzFault d).map (fun f => { code := 0x31, obj := objOf 5 d, v1 := f, v2 := d }))]

/-! ### Network (chapter 12, Table 8) -/

/-- An endpoint that the device has. -/
def endpointPopulated (d : Nat) : Bool :=
  decide (d < 0x300) || (decide (0x320 ≤ d ∧ d < 0x360) && !decide (d ∈ [0x339, 0x33C, 0x33D, 0x33E, 0x33F]) && decide (d < 0x359))

/-- The dispatcher node that serves a task's descriptor. -/
def taskNode (t : Nat) : Nat := 0x330 + t / 4 % 8

/-- The values name the requester, 0xFFFF for `NOC_CFG`, and the field: of `NOC_CFG`, 0x1000 for a requester's class, 0x2000 + a pool for
its grant there (DESIGN CHOICE: Table 8 of chapter 13 says `field` and gives no numbers). -/
def State.checkGrants (s : State) : Option LoadFail :=
  let img := (s.sectionOf 11).getD []
  let g := Config.netGrant img
  let used := (List.range 8192).filter (fun q => decide (s.qDir q = 1))
  let bad (r f : Nat) : LoadFail := { code := 0x23, v1 := r, v2 := f }
  let pool (q : Nat) : Option Nat :=
    if s.qFar q = 1 then some (taskNode (s.qFarId q)) else if s.qFar q = 2 then some (s.qFarId q / 32) else none
  firstOf [demand (decide (s.fld Reg.nocCfg 31 16 ≠ 0)) 0x23 0 0xFFFF (fieldNo 0 16), demand (decide (s.fld Reg.nocCfg 7 0 ≠ 0)) 0x23 0 0xFFFF,
    (List.range 1024).findSome? (fun r =>
      if Config.netClass img r = 3 then some (bad r 0x1000)
      else ((List.range 1024).find? (fun d => decide (g r d ≠ 0) && !(endpointPopulated r && endpointPopulated d))).map
        (fun d => bad r (0x2000 + d))),
    used.findSome? (fun q => (pool q).bind (fun d => if g (q / 32) d = 0 then some (bad (q / 32) (0x2000 + d)) else none))]

/-! ### Power (R430, R443) -/

/-- Nominal voltage of a rail in mV. -/
def railNominal (r : Nat) : Nat := if r = 0 then 1800 else if r = 1 then 900 else 1200

/-- Board default of a register: the fuse map's, or the reset word of unprogrammed fuses (R429). -/
def State.boardDefault (s : State) (a : Nat) : W32 := (s.fuses.defaults.lookup a).getD (regReset a)

/-- What is at fault in a rail's configuration, as its lowest bit: a `VOUT` outside ±5 % of the rail's nominal voltage, or an `ADDR` or
`EXP` that is not the board's. -/
def State.railFieldFault (s : State) (r : Nat) : Option Nat :=
  let a := Reg.pwrRailCfg r
  let e := toSigned 5 (s.fld a 20 16)
  let num : Nat := s.fld a 15 0 * 1000 * (if 0 ≤ e then 2 ^ e.toNat else 1)
  let den : Nat := railNominal r * (if 0 ≤ e then 1 else 2 ^ (-e).toNat)
  if 105 * den < 100 * num ∨ 100 * num < 95 * den then some 0
  else if bitsOf (s.boardDefault a) 30 24 ≠ s.fld a 30 24 then some 24
  else if bitsOf (s.boardDefault a) 20 16 ≠ s.fld a 20 16 then some 16 else none

/-- The field named counts from the power registers. -/
def State.checkPower (s : State) (ws : List (Nat × W32)) : Option LoadFail :=
  let c := Reg.pwrCfg
  let t := Reg.pwrTelCfg
  let thr := s.fld c 23 16
  let at_ (a lo : Nat) : Nat := fieldNo (a % 0x1000) lo
  firstOf ([reservedFail isPower ws 0x43 (fun _ => 0) (fun a => at_ a 0) (fun _ => 0),
    demand (decide (85 ≤ thr ∧ thr ≤ 100)) 0x43 0 (at_ c 16), demand (decide (s.fld c 15 12 ≠ 0)) 0x43 0 (at_ c 12),
    demand (decide (s.fld c 11 4 ≠ 0)) 0x43 0 (at_ c 4), demand (decide (60 ≤ s.fld c 31 24 ∧ s.fld c 31 24 + 5 ≤ thr)) 0x43 0 (at_ c 24),
    demand (decide (s.fld t 31 16 ≠ 0)) 0x43 0 (at_ t 16), demand (decide (s.fld t 15 8 ≠ 0)) 0x43 0 (at_ t 8),
    demand (decide (10 ≤ s.fld t 7 0 ∧ s.fld t 7 0 ≤ 100)) 0x43 0 (at_ t 0)] ++
    (List.range 3).map (fun r => (s.railFieldFault r).map (fun lo => { code := 0x43, obj := objOf 8 r, v1 := at_ (Reg.pwrRailCfg r) lo })))

/-! ### The step list (R386, R387) -/

/-- Entries of START_SEQ, up to the end mark. -/
def parseSteps : Nat → List Byte → List (StartStep × Nat)
  | 0, _ => []
  | n + 1, l =>
    let op := leAt l 0 1
    if op = 0 then []
    else ({ op := op, tmo := leAt l 2 2, arg := BitVec.ofNat 32 (leAt l 4 4) }, leAt l 1 1) :: parseSteps n (l.drop 8)

/-- The entry obeys Table 8. -/
def stepOk (x : StartStep × Nat) : Bool :=
  let k := x.1
  decide (x.2 = 0) && decide (1 ≤ k.op ∧ k.op ≤ 6) && (if k.op = 5 then decide (1 ≤ k.tmo) else decide (k.tmo = 0)) &&
    (match k.op with
     | 2 => decide (k.arg.toNat < 256 ∧ bitsOf k.arg 3 2 = 0)
     | 3 => decide (k.arg.toNat < 65536)
     | 4 => decide (k.arg.toNat < 8)
     | 5 => decide (k.arg.toNat < 65536)
     | _ => decide (k.arg = 0))

/-- The first entry at fault in itself, or else the length of the list (chapter 13, Table 8). -/
def stepAt (l : List (StartStep × Nat)) : Nat := (l.findIdx? (fun x => !stepOk x)).getD l.length

/-- The whole list. -/
def stepsOk (l : List (StartStep × Nat)) : Bool :=
  let ops := l.map (fun x => x.1.op)
  let before := ops.takeWhile (· != 6)
  let mask := (l.filter (fun x => x.1.op == 3)).foldl (fun m x => m ||| x.1.arg) (0 : W32)
  l.all stepOk && decide ((ops.filter (· == 6)).length = 1) && decide (1 ∈ before) && !decide (3 ∈ before) && decide (mask = 0xFFFF)

/-! ### Accords (R398, R399) -/

/-- Targets of a region entry (Table 4). -/
def accTarget (r a : Nat) : Bool :=
  if r = 0xFFFF then (match glbOff a with
    | some o => decide ((0x10000 ≤ o ∧ o < 0x14000 ∧ o % 16 < 12) ∨ (0x8020 ≤ o ∧ o < 0x8060 ∧ o ≠ 0x8024))
    | none => false)
  else if r < 256 then clusterTarget r a
  else if r < 272 then sectorRegTarget (r - 256) a || (sectorClusters (r - 256)).any (fun n => clusterTarget n a)
  else false

/-- The offset of a region's first record outside Table 4. -/
def AccRegion.outside (x : AccRegion) : Option Nat :=
  recordAt (fun r => !(List.range (r.2.length / 4)).all (fun i => accTarget x.region (r.1 + 4 * i))) x.orecs x.recs

/-- What is at fault in an accord, as an offset: of the entry of a region named a second time, or of a cluster beside its sector, or of a
record outside Table 4. -/
def accordFault (a : AccEntry') : Option Nat :=
  let rs := a.regions.map (·.region)
  ((a.regions.find? (fun x => decide (1 < (rs.filter (· == x.region)).length) ||
    (decide (x.region < 256) && decide (256 + x.region / 16 ∈ rs)))).map (·.off)).or (a.regions.findSome? AccRegion.outside)

/-- The offset of the first entry that does not ascend. -/
def unordered : List AccEntry' → Option Nat
  | a :: b :: l => if a.num < b.num then unordered (b :: l) else some b.off
  | _ => none

/-- The ACCORDS section itself: the values name the section and the offset. -/
def State.checkAccordList (s : State) : Option LoadFail := match s.sectionOf 13 with
  | none => none
  | some l =>
    (match parseAccords l with
     | .error o => some o
     | .ok as => (unordered as).or (as.findSome? accordFault)).map (fun o => { code := 0x07, v1 := 13, v2 := o })

/-! ### The report of a refused load (R62, R131, R153, R174, R196, R239, R299, R319) -/

/-- The report of a start that a load check refuses: a refusal with one failure entry, which names object and values (Table 8 of
chapter 13). -/
def State.loadReport (s : State) (e : LoadFail) : AdmResult :=
  let body := bytesLe 1 e.code ++ bytesLe 1 0 ++ bytesLe 1 0xFF ++ bytesLe 1 0 ++ bytesLe 4 e.obj ++ bytesLe 4 e.v1 ++ bytesLe 4 e.v2
  let hdr := reportHeader 3 0 e.code e.obj s.tsb.orbit.toNat s.tsb.crossing s.tsb.slot 0 1 0 0 body.length ⟨0, 0, 0, 0, 0, 0⟩ 0xFFFFFFFF
  { result := 3, code := e.code, object := BitVec.ofNat 32 e.obj, dropsec := 0, admitted := 0, dropped := [], ends := [],
    report := hdr ++ body, up := [] }

/-- The start fails at a load check: its report, then the failed attempt (R391). -/
def State.loadFails (s : State) (e : LoadFail) : State := (s.admReport .start (s.loadReport e)).attemptFails e.code e.obj

/-! ### All checks -/

/-- An allowlist prefix longer than 32: the values name the REGISTERS section and the record that writes it (chapter 19, Table 8). -/
def State.checkAllow (s : State) : Option LoadFail :=
  ((List.range 16).find? (fun i => decide (32 < s.fld (Reg.mgtAllowCtl i) 5 0))).map (fun i =>
    { code := 0x07, v1 := 15,
      v2 := (recordAt (fun r => decide (r.1 ≤ Reg.mgtAllowCtl i ∧ Reg.mgtAllowCtl i < r.1 + r.2.length)) 0 (s.sectionLoads 15)).getD 0 })

/-- The load checks of one configuration: its state, and the words written to reach it. -/
def State.checkConfig (s : State) (ws : List (Nat × W32)) : Option LoadFail :=
  firstOf [s.checkClocks, s.checkLanes, s.checkTiles, s.checkAttach, s.checkSorters, s.checkQueues ws, s.checkDescs, s.checkTasks ws,
    s.checkSched, s.checkReadout ws, s.checkGrants, s.checkPower ws,
    s.checkAllow]

/-- The load checks of the image and of the configuration under each of its accords, whose number V1 then names (R399). -/
def State.loadChecks (s : State) : Option LoadFail :=
  let ws := loadWordsOf (loadSections.flatMap s.sectionLoads)
  let steps := parseSteps 16 ((s.sectionOf 1).getD [])
  firstOf [demand (stepsOk steps) 0x09 0 (stepAt steps), s.checkConfig ws, s.checkAccordList,
    firstOf (s.accords.map (fun a => ((s.candidateCfg a.num).checkConfig (ws ++ loadWordsOf (s.accordLoads a.num))).map
      (fun e => { e with v1 := a.num })))]

end Sys2Proof.Machine
end

