-- ==== Sys2Proof/Machine/Keys.lean ====
section
/-!
DEFINITION. Sys2Proof/Machine/Keys.lean: the fuse fields of Hallmark, the device certificate, and the checks of an image and its
signatures (R376 to R384, R444 to R449).
-/
namespace Sys2Proof.Machine

/-! ### Fuses (R444) -/

/-- State of a key slot: 0 EMPTY, 1 ACTIVE, 2 REVOKED. -/
def KeySlot.code (k : KeySlot) : Nat := if k.rev then 2 else if k.prog then 1 else 0
def State.slot (s : State) (i : Nat) : KeySlot := s.fuses.slots.toArray.getD i {}
/-- Blow the fuses of a slot: a state fuse that is blown stays blown. -/
def State.setSlot (s : State) (i : Nat) (k : KeySlot) : State :=
  let o := s.slot i
  { s with fuses := { s.fuses with
      slots := s.fuses.slots.setIfInBounds i { k with prog := o.prog || k.prog, rev := o.rev || k.rev } } }
def State.slotActive (s : State) (i : Nat) : Bool := decide ((s.slot i).code = 1)

/-- 32 bytes of a digest or a key; 0 for none. -/
def digest32 (d : List Byte) : List Byte := d.take 32 ++ List.replicate (32 - d.length) 0

/-- The device's public key: PK.seed, then PK.root; zero without a device key (R445). -/
def State.devKey (s : State) : List Byte := match s.fuses.seeds with
  | some d => digest32 ((d.drop 32).take 16 ++ Config.slhRoot d)
  | none => digest32 []

/-- Eight registers take 32 bytes, least significant byte first. -/
def State.set8 (s : State) (reg : Nat → Nat) (b : List Byte) : State :=
  (List.range 8).foldl (fun s i => s.setReg (reg i) (BitVec.ofNat 32 (leAt b (4 * i) 4))) s

/-- States of the customer and vendor slots in `HLM_STATUS`. -/
def State.showKeys (s : State) : State :=
  let c := ((List.range 4).map (fun i => (s.slot i).code * 4 ^ i)).sum
  let v := (s.slot 4).code + 4 * (s.slot 5).code
  (s.setFld Reg.hlmStatus 15 8 c).setFld Reg.hlmStatus 7 4 v

/-- The fields of the Hallmark registers that come from the fuses (R456). -/
def State.fuseFields (s : State) : State :=
  let s1 := (s.setReg Reg.hlmUidLo (BitVec.ofNat 32 s.fuses.uid.toNat)).setReg Reg.hlmUidHi (BitVec.ofNat 32 (s.fuses.uid.toNat / 2 ^ 32))
  ((s1.set8 Reg.hlmDpk s.devKey).setBit Reg.hlmStatus 21 s.fuses.seeds.isSome).showKeys

/-! ### The device certificate (R446 to R448) -/

def certLength : Nat := 7984

/-- The certificate of the log: the newest part 0 and part 1. -/
def Flash.cert (f : Flash) : Option (List Byte) :=
  let part (n : Nat) : Option Record := newest ((f.ofType 0x40).filter (fun r => r.byte 0 == n && r.byte 1 == 2))
  match part 0, part 1 with
  | some a, some b => some ((a.payload.drop 8) ++ (b.payload.drop 8))
  | _, _ => none

/-- A certificate verifies under a vendor key that is carried with it, or else the key whose hash the slot holds. -/
def State.certOk (s : State) (c : List Byte) (carried : Option (List Byte)) : Bool :=
  let v := leAt c 9 1
  let k := s.slot v
  let key := carried.getD (Config.keyOf k.hash)
  decide (c.length = certLength) && decide (leAt c 0 4 = 0xDE1ECE01) && decide (leAt c 4 2 = 1) && decide (leAt c 6 2 = 0x4E16) &&
    decide (leAt c 16 8 = s.fuses.uid.toNat) && s.fuses.seeds.isSome && decide ((c.drop 24).take 32 = s.devKey) &&
    decide (v = 4 ∨ v = 5) && s.slotActive v && decide (sha256 key = k.hash) &&
    Config.slhVerify key (sha256 (c.take 128)) (c.drop 128)

/-! ### The image in the flash (R377, R378, R380, R383) -/

/-- Bytes of an image slot. -/
def Flash.slotBytes (f : Flash) (slot off n : Nat) : List Byte :=
  (List.range n).map (fun i => Tbl.get 0xFF f.img (slot * 2 ^ 26 + off + i))

/-- A section table entry (Table 5). -/
structure ImgSec where
  id : Nat
  comp : Nat
  off : Nat
  slen : Nat
  ulen : Nat
  koff : Nat
  crc : Nat
  clean : Bool
deriving DecidableEq, Repr

def imgSec (l : List Byte) : ImgSec :=
  { id := leAt l 0 2, comp := leAt l 2 1, off := leAt l 4 4, slen := leAt l 8 4, ulen := leAt l 12 4, koff := leAt l 16 4,
    crc := leAt l 20 4, clean := decide (leAt l 3 1 = 0 ∧ leAt l 24 8 = 0) }

/-- What the checks of step 7 find in an image. -/
structure Img where
  secs : List ImgSec
  imgver : Nat
  digest : List Byte
  /-- The signature block. -/
  sig : List Byte
deriving DecidableEq, Repr

/-- An entry that no table may hold: an ID of no section, a reserved field, an unknown compression, an offset off its boundary. -/
def ImgSec.malformed (x : ImgSec) : Bool :=
  !x.clean || decide (x.id = 0 ∨ 16 < x.id ∨ 1 < x.comp ∨ x.off % 16 ≠ 0 ∨ x.koff % 256 ≠ 0)

/-- The first section whose ID and offset do not both rise above those before it. -/
def outOfOrder : List ImgSec → Option Nat
  | a :: b :: l => if a.id < b.id ∧ a.off < b.off then outOfOrder (b :: l) else some b.id
  | _ => none

/-- Two spans do not overlap. -/
def spansApart (a n b m : Nat) : Bool := decide (a + n ≤ b ∨ b + m ≤ a)

/-- Two sections overlap in the image or in the keep store. -/
def ImgSec.overlaps (x y : ImgSec) : Bool :=
  !(spansApart x.off x.slen y.off y.slen && spansApart x.koff x.slen y.koff y.slen)

/-- The section at fault in a section table: malformed, out of order or repeated, missing (ACCORDS is optional), or overlapping another
(R378, R383). -/
def tableFault (l : List ImgSec) : Option Nat :=
  let ids := l.map (·.id)
  ((((l.find? ImgSec.malformed).map (·.id)).or (outOfOrder l)).or
    ((List.range 17).find? (fun i => decide (i ≠ 0 ∧ i ≠ 13) && !decide (i ∈ ids)))).or
    ((l.find? (fun x => l.any (fun y => decide (x.id < y.id) && x.overlaps y))).map (·.id))

/-- Offset of the first field of an image header that is wrong: `MAGIC`, `FVER` or a reserved field (R383). The report names a field by
its offset (DESIGN CHOICE: Table 8 of chapter 13 says `field` and gives no numbers). -/
def headerFault (h : List Byte) : Option Nat :=
  if leAt h 0 4 ≠ 0xDE1E0016 then some 0
  else if leAt h 4 2 ≠ 1 then some 4
  else if leAt h 9 7 ≠ 0 then some 9
  else if leAt h 30 2 ≠ 0 then some 30
  else if leAt h 44 20 ≠ 0 then some 44 else none

/-- What an image header says of its device where that is not this one: found and expected. Of the 64-bit `UNIT` the values are the low
halves, or the high ones where the low ones agree (DESIGN CHOICE: Table 8 of chapter 13 gives 32 bits). -/
def State.otherDevice (s : State) (h : List Byte) : Option (Nat × Nat) :=
  let unit := leAt h 16 8
  let uid := s.fuses.uid.toNat
  if leAt h 6 2 ≠ 0x4E16 then some (leAt h 6 2, 0x4E16)
  else if !(leAt h 8 1).testBit Config.stepping.toNat then some (leAt h 8 1, 2 ^ Config.stepping.toNat)
  else if unit = 0 ∨ unit = uid then none
  else if unit % 2 ^ 32 = uid % 2 ^ 32 then some (unit / 2 ^ 32, uid / 2 ^ 32) else some (unit % 2 ^ 32, uid % 2 ^ 32)

/-- Step 7 on an image slot, in the order of R383. -/
def State.readImage (s : State) (slot slotLen : Nat) : Except LoadFail Img :=
  let f := s.flash
  let h := f.slotBytes slot 0 64
  let nsec := leAt h 28 2
  let stab := leAt h 32 4
  let sigoff := leAt h 36 4
  let length := leAt h 24 4
  let secs := (List.range nsec).map (fun i => imgSec (f.slotBytes slot (stab + 32 * i) 32))
  match headerFault h, s.otherDevice h with
  | some o, _ => .error { code := 0x02, v1 := o }
  | none, some (found, expected) => .error { code := 0x03, v1 := found, v2 := expected }
  | none, none =>
  if !(decide (length ≤ slotLen) && decide (stab + 32 * nsec ≤ length) && secs.all (fun x => decide (x.off + x.slen ≤ length)) &&
      decide (sigoff + 7892 = length)) then .error { code := 0x01, v1 := slotLen, v2 := length }
  else if !(decide (length ≤ 2 ^ 26) && secs.all (fun x => decide (x.koff + x.slen ≤ 2 ^ 25))) then
    (if 2 ^ 26 < length then .error { code := 0x06, v1 := length, v2 := 2 ^ 26 }
     else .error { code := 0x06, v1 := (secs.map (fun x => x.koff + x.slen)).foldl max 0, v2 := 2 ^ 25 })
  else match tableFault secs with
  | some id => .error { code := 0x05, v1 := id }
  | none =>
  match secs.find? (fun x => decide (crc32 (f.slotBytes slot x.off x.slen) ≠ BitVec.ofNat 32 x.crc)) with
  | some x => .error { code := 0x04, v1 := x.id }
  | none => .ok { secs := secs, imgver := leAt h 40 4, digest := sha256 (f.slotBytes slot 0 sigoff), sig := f.slotBytes slot sigoff 7892 }

/-- A signature block over a digest: its key slot holds its key, and its signature verifies. -/
def State.blockKey (s : State) (b : List Byte) (lo hi : Nat) : Bool :=
  let k := leAt b 0 1
  decide (lo ≤ k ∧ k ≤ hi) && s.slotActive k && decide (sha256 ((b.drop 4).take 32) = (s.slot k).hash)
def blockSig (b digest : List Byte) : Bool := Config.slhVerify ((b.drop 4).take 32) digest (b.drop 36)

/-- Step 8 (R384, R449). -/
def State.signatures (s : State) (slot : Nat) (i : Img) : Option LoadFail :=
  let fw := match i.secs.find? (fun x => x.id == 16) with
    | some x => s.flash.slotBytes slot x.off x.slen
    | none => []
  let body := fw.take (fw.length - 7892)
  let sb := fw.drop (fw.length - 7892)
  firstOf [demand (s.blockKey i.sig 0 3) 0x72, demand (blockSig i.sig i.digest) 0x70,
    demand (decide (7892 ≤ fw.length) && s.blockKey sb 4 5 && blockSig sb (sha256 body)) 0x71]

/-- Steps 7 and 8 on an image slot. -/
def State.checkImage (s : State) (slot slotLen : Nat) : Except LoadFail Img := match s.readImage slot slotLen with
  | .error e => .error e
  | .ok i => match s.signatures slot i with
    | some e => .error e
    | none => .ok i

end Sys2Proof.Machine
end

