-- ==== Sys2Proof/Machine/Scrub.lean ====
section
/-!
DEFINITION. Sys2Proof/Machine/Scrub.lean: the scrubbers and the live repair of hard rows (R417 to R423).
-/
namespace Sys2Proof.Machine

/-- The instances a scrubber covers, in ascending `MEMID` (R417, Tables 1 and 2). -/
def scrubMems : Scrubber → List Nat
  | .fab t => [0x1000 + t, 0x2000 + t, 0x3000 + t]
  | .eng p => [0x4000 + p, 0x5000 + p, 0x6000 + p, 0x7000 + p]
  | .dpt => [0x8000]
  | .keep b => [0x9000 + b]
  | .ccm => [0xA000]

/-- Key of a scrubber in the table of next rows: 4096 × group + unit. -/
def scrubKey : Scrubber → Nat
  | .fab t => t
  | .eng p => 4096 + p
  | .dpt => 8192
  | .keep b => 12288 + b
  | .ccm => 16384

/-- The low bit of the group's field in `MEM_SCRUB_CFG` (Table 5). -/
def scrubField : Scrubber → Nat
  | .fab _ => 16 | .eng _ => 12 | .dpt => 8 | .keep _ => 4 | .ccm => 0

/-- The domain that the scrubber works in has power. -/
def State.scrubOn (s : State) (x : Scrubber) : Bool :=
  match x with
  | .fab t => s.secPowered (t / 256)
  | .eng p => s.secPowered (p / 34)
  | _ => s.pwr.globalOn

/-- Row `i` of a walk over some instances. -/
def walkRow : List Nat → Nat → Option Nat
  | [], _ => none
  | m :: ms, i => if i < rowCount m then some (rowKey m i) else walkRow ms (i - rowCount m)

/-- A cell uses the scratch port of the row's tile in this slot, so that its scrubber waits (R418). -/
def cellHolds (k : Nat) (tiles : List Nat) : Bool := decide (keyMem k / 0x1000 = 2 ∨ keyMem k / 0x1000 = 3) && tiles.contains (keyMem k % 0x1000)

/-- A write through the second port waits until the row's copy completes: the rewrite of an engine's or the dispatcher's row (R421). -/
def State.copyHolds (s : State) (k : Nat) : Bool :=
  decide (4 ≤ keyMem k / 0x1000 ∧ keyMem k / 0x1000 ≤ 8) && s.prot.copies.any (fun c => rowKey c.memid c.row == k)

/-- SCRUB_READ: the next row of the walk is read; a correction makes the rewrite of the row due (R417, R419). A group whose
field is 0 is stopped. Scratch is read only in a slot in which no cell uses its read port (R418). -/
def execScrubRead (x : Scrubber) (s : State) : Host.Outcome State Fault Refusal :=
  let f := scrubField x
  if s.fld Reg.memScrubCfg (f + 3) f = 0 ∨ !s.scrubOn x then s.go
  else
    let ms := scrubMems x
    let i := Tbl.get 0 s.prot.scrub (scrubKey x)
    match walkRow ms i with
    | none => s.go
    | some k =>
      if cellHolds k s.portsNow.rd then s.go else
      let s1 : State := { s with prot := { s.prot with
        scrub := Tbl.set 0 s.prot.scrub (scrubKey x) ((i + 1) % (ms.map rowCount).sum) } }
      let one := popCount (s1.flips k) = 1
      let q := s1.readRow k .scrubber
      (if one then q.1.rewriteDue k else q.1).go

/-- SCRUB_REWRITE: the first rewrite that is due in the scrubber's instances is made (R419), of scratch only in a slot in which no cell uses
its write port (R418). -/
def execScrubRewrite (x : Scrubber) (s : State) : Host.Outcome State Fault Refusal :=
  match s.prot.rewrite.find? (fun k => decide (keyMem k ∈ scrubMems x)) with
  | none => s.go
  | some k => if s.scrubOn x ∧ !cellHolds k s.portsNow.wr ∧ !s.copyHolds k then (s.afterWrite k).go else s.go

/-- The lowest spare row of an instance that no row uses. -/
def State.freeSpareRow (s : State) (m : Nat) : Option Nat :=
  (List.range (spareRows m)).find? (fun i => !s.prot.spares.any (fun e => keyMem e.1 == m && e.2 == some i))

/-- A row without a spare is recorded (R421, R424). -/
def State.noSpare (s : State) (m row b : Nat) : State :=
  ((((s.setReg Reg.memNospare0 (BitVec.ofNat 32 (m * 2 ^ 16))).setReg Reg.memNospare1
    (BitVec.ofNat 32 (2 ^ 31 + b * 2 ^ 22 + row))).setBit Reg.memStatus 3 true).count Reg.memCnt2 15 8).fault 8

/-- REPAIR_COPY_START: the first hard row of the instance begins its copy into the lowest free spare row, or is found to have
none (R421). Copies in one instance run one at a time (R422). -/
def execRepairCopyStart (m : BitVec 16) (s : State) : Host.Outcome State Fault Refusal :=
  if s.prot.copies.any (fun c => c.memid == m.toNat) then s.go
  else match s.prot.hard.find? (fun h => h.1 == m.toNat) with
    | none => s.go
    | some (mm, row) =>
      let k := rowKey mm row
      let s1 : State := { s with prot := { s.prot with hard := s.prot.hard.filter (· != (mm, row)) } }
      let b := match s1.rptFind k with
        | some i => s1.fld (Reg.memRptRow i) 28 22
        | none => lowBit (s1.flips k)
      match s1.freeSpareRow mm with
      | none =>
        let s2 := match s1.rptFind k with
          | some i => s1.setFld (Reg.memRptRow i) 30 29 3
          | none => s1
        (s2.noSpare mm row b).go
      | some sp => ({ s1 with prot := { s1.prot with copies := s1.prot.copies ++
          [{ memid := mm, row := row, spare := sp, bit := b }] } } : State).go

/-- The repeat-table entry of a row is freed (R421). -/
def State.rptFree (s : State) (k : Nat) : State :=
  match s.rptFind k with
  | none => s
  | some i =>
    let s1 := (s.setReg (Reg.memRptId i) 0).setReg (Reg.memRptRow i) 0
    { s1 with prot := { s1.prot with order := s1.prot.order.filter (· != i), written := s1.prot.written.filter (· != k) } }

/-- The spare row `sp` serves a row from now on: its cells store what is written to it. -/
def State.useSpare (s : State) (k sp : Nat) : State :=
  { s with prot := { s.prot with spares := Tbl.set none s.prot.spares k (some sp), flips := Tbl.set 0 s.prot.flips k 0,
                                 stuck := Tbl.set 0 s.prot.stuck k 0, rewrite := s.prot.rewrite.filter (· != k) } }

/-- The payload of a REPAIR record (R423). -/
def repairPayload (m row sp origin b : Nat) : List Byte :=
  bytesLe 4 (m * 2 ^ 16) ++ bytesLe 4 row ++ bytesLe 2 sp ++ bytesLe 1 origin ++ bytesLe 1 b ++ bytesLe 4 0

/-- REPAIR_COPY_COMPLETE: the spare serves the row, its entry is freed, and a REPAIR record is asked for (R421, R423). An
uncorrectable error in the row abandons the copy (R422). -/
def execRepairCopyComplete (m : BitVec 16) (s : State) : Host.Outcome State Fault Refusal :=
  match s.prot.copies.find? (fun c => c.memid == m.toNat) with
  | none => s.go
  | some c =>
    let k := rowKey c.memid c.row
    if 1 < popCount (s.flips k) then (s.uncorrectable k .merge).go
    else
      let s1 : State := { s with prot := { s.prot with copies := s.prot.copies.filter (· != c) } }
      let s2 := ((((s1.useSpare k c.spare).rptFree k).count Reg.memCnt2 31 16).setBit Reg.memStatus 2 true)
      ({ s2 with commits := s2.commits ++ [{ typ := 0x20, payload := repairPayload c.memid c.row c.spare 1 c.bit }] } : State).go

end Sys2Proof.Machine
end

