-- ==== Sys2Proof/Machine/Start.lean ====
section
/-!
DEFINITION. Sys2Proof/Machine/Start.lean: power-on reset and warm restart with the fixed phase, the steps of the programmable
phase, admission as a sequence, and the start of RUN (R351 to R354, R382 to R395, R424, R429, R434, R473, R475).
-/
namespace Sys2Proof.Machine

/-! ### Steps of the fixed phase (R382) -/

/-- The start stands at fixed step `n`. -/
def State.atStep (s : State) (n : Nat) : State := (s.setFld Reg.bootStatus 31 28 1).setFld Reg.bootStatus 27 24 n

/-- The power manager runs, and rail 0 with it. -/
def State.powerRuns (s : State) : State := s.setFld Reg.pwrStatus 31 30 1

/-- A step before the ATTEMPT record fails with a code: it joins `BOOT_HIST` with `SEQ` 0xFFFF, and base-note mode is entered. -/
def State.noteFails (s : State) (step code : Nat) : State :=
  ((s.histAdd (s.fld Reg.bootStatus 13 13) step code 0xFFFF).baseNote).powerRuns

/-- Rail 0 cannot be brought into regulation: rail-off (R434). -/
def State.railOff (s : State) (step code : Nat) : State :=
  ((((s.histAdd (s.fld Reg.bootStatus 13 13) step code 0xFFFF).allDown 8).railsOff [0, 1, 2]).globalOff).setFld Reg.pwrStatus 31 30 3

/-! Step 3: the fuse map -/

/-- Board defaults of the power registers: `PWR_RAIL_CFG` and `WIN` (R429, R443). -/
def State.railDefaults (s : State) : State :=
  let s1 := (List.range 3).foldl (fun s r => s.setReg (Reg.pwrRailCfg r) (s.boardDefault (Reg.pwrRailCfg r))) s
  s1.setFld Reg.pwrTelCfg 7 0 (bitsOf (s.boardDefault Reg.pwrTelCfg) 7 0)

/-! Step 4: rails -/

/-- The global domain is powered: the fields that come from the fuses are written (R434, R456, R458). -/
def State.globalUp (s : State) : State :=
  let s1 := ({ s with pwr := { s.pwr with globalOn := true } } : State).fuseFields
  [Reg.mgtCfg, Reg.mgtIp, Reg.mgtMacLo, Reg.mgtMacHi].foldl (fun s a => s.setReg a (s.boardDefault a)) s1

/-- A regulator that does not answer. -/
def RailReading.none : RailReading := { failed := true, status := 0, vout := 0, iout := 0, temp := 0 }

/-- One rail is confirmed or sequenced; true where it reaches regulation (R429). -/
def State.railUp (s : State) (env : StartEnv) (r : Nat) : State × Bool :=
  let e := env.rails.getD r (false, RailReading.none)
  let on (s : State) : State :=
    let s1 : State := { s with pwr := { s.pwr with rails := s.pwr.rails ||| BitVec.ofNat 3 (2 ^ r) } }
    if r = 0 then s1.globalUp else s1
  if e.1 then (on s, true)
  else
    let s1 := (((s.pmbus r 3 0).pmbus r 2 0x18).pmbus r 0x21 (BitVec.ofNat 16 (s.fld (Reg.pwrRailCfg r) 15 0))).pmbus r 1 0x80
    if s1.inRegulation r e.2 then (on s1, true) else (s1, false)

/-- Rails in turn; the first that fails. -/
def State.railsUp (s : State) (env : StartEnv) : List Nat → State × Option Nat
  | [] => (s, none)
  | r :: rs =>
    let q := s.railUp env r
    if q.2 then q.1.railsUp env rs else (q.1, some r)

/-! Step 5: Assay (R424) -/

/-- The lowest spare row of an instance that no row uses, the named one first where it is free. -/
def State.spareFor (s : State) (m : Nat) (named : Option Nat) : Option Nat :=
  let free (i : Nat) : Bool := decide (i < spareRows m) && !s.prot.spares.any (fun e => keyMem e.1 == m && e.2 == some i)
  match named with
  | some i => if free i then some i else s.freeSpareRow m
  | none => s.freeSpareRow m

/-- A spare row serves a row that has none. -/
def State.assayRepair (s : State) (m row : Nat) (named : Option Nat) : State :=
  if (Tbl.get none s.prot.spares (rowKey m row)).isSome then s
  else match s.spareFor m named with
    | some sp => { s with prot := { s.prot with spares := Tbl.set none s.prot.spares (rowKey m row) (some sp) } }
    | none => s

/-- Fuse repairs, then the REPAIR records of the log in order. -/
def State.knownRepairs (s : State) (flash : Bool) : State :=
  let s1 := s.fuses.repairs.foldl (fun s r => s.assayRepair r.1 r.2.1 (some r.2.2)) s
  if flash then (s1.flash.ofType 0x20).foldl (fun s r => s.assayRepair (leAt r.payload 2 2) (leAt r.payload 4 4) (some (leAt r.payload 8 2))) s1
  else s1

/-- What the march test makes of one failing row: payloads of REPAIR records, and whether the start fails. -/
def State.marchRow (s : State) (m row : Nat) (bits : BitVec 72) : State × List (List Byte) × Bool :=
  let k := rowKey m row
  if !persistent m ∨ (Tbl.get none s.prot.spares k).isSome ∨ bits = 0 then (s, [], true)
  else match s.spareFor m none with
    | some sp => (s.assayRepair m row none, [repairPayload m row sp 2 (if popCount bits = 1 then lowBit bits else 0xFF)], true)
    | none =>
      let s1 := s.noSpare m row (lowBit bits)
      let s2 : State := { s1 with prot := { s1.prot with stuck := Tbl.set 0 s1.prot.stuck k bits } }
      (s2, [], decide (popCount bits = 1))

def State.march (s : State) : List (W32 × Nat × BitVec 72) → State × List (List Byte) × Bool
  | [] => (s, [], true)
  | x :: xs =>
    let q := s.marchRow (bitsOf x.1 31 16) x.2.1 x.2.2
    if q.2.2 then (let r := q.1.march xs; (r.1, q.2.1 ++ r.2.1, r.2.2)) else (q.1, q.2.1, false)

/-- Assay: the spare rows are assigned anew, and no row keeps an error. -/
def State.assay (s : State) (env : StartEnv) : State × List (List Byte) × Bool :=
  let s1 : State := { s with prot := { s.prot with spares := [], flips := [],
                                                   stuck := s.prot.stuck.filter (fun e => !persistent (keyMem e.1)) } }
  (s1.knownRepairs env.flash).march env.march

/-! Step 6: directory, log and slot (R390, R395) -/

/-- The newest attempt ended with neither a RUN nor a FAIL record. -/
def Flash.interrupted (f : Flash) : Option Record := match newest (f.ofType 0x10) with
  | some a => if (f.after a 0x11).isNone && (f.after a 0x12).isNone then some a else none
  | none => none

/-- `BOOT_HIST` and `INTR`: filled from the log after a power-on; after a warm restart an interrupted attempt joins them. -/
def State.histStep6 (s : State) (powerOn : Bool) : State :=
  if powerOn then s.fillHist
  else match s.flash.interrupted with
    | none => s.setBit Reg.bootStatus 15 false
    | some a =>
      let e := histEntry true (a.byte 0) 0 0 a.seq.toNat
      let s1 := if s.reg (Reg.bootHist 0) = e then s
        else ((List.range 7).foldl (fun t i => t.setReg (Reg.bootHist (7 - i)) (s.reg (Reg.bootHist (6 - i)))) s).setReg (Reg.bootHist 0) e
      s1.setBit Reg.bootStatus 15 true

/-- The slot of the attempt: EMPTY and absent slots are passed over. -/
def State.chooseSlot (s : State) (d : Record) (cs1 : Bool) : Option Nat :=
  let usable (i : Nat) : Bool := decide (d.slotLen i ≠ 0) && (decide (i = 0) || cs1)
  let n := s.flash.nextSlot d.active
  if usable n then some n else if usable (1 - n) then some (1 - n) else none

/-! Steps 7 to 9 -/

/-- Sections go to the keep store as stored (R381). -/
def State.keepSections (s : State) (slot : Nat) (l : List ImgSec) : State :=
  let s1 := l.foldl (fun s x => s.store x.koff (s.flash.slotBytes slot x.off x.slen)) s
  { s1 with boot := { s1.boot with sections := l.map (fun x =>
      { id := x.id, deflate := decide (x.comp = 1), koff := x.koff, slen := x.slen, ulen := x.ulen }) } }

/-- What is at fault in a section, as the offset in its uncompressed content: its DEFLATE stream is invalid after so many bytes, its
content ends before or goes on after `ULEN`, or a load record is malformed or lies outside its targets (R385). -/
def State.sectionFault (s : State) (x : Section) : Option Nat :=
  match (if x.deflate then inflateTo (s.sectionStored x) else .ok (s.sectionStored x)) with
  | .error o => some o
  | .ok l =>
    if l.length ≠ x.ulen then some (min l.length x.ulen)
    else if x.id ∈ loadSections then
      match parseLoads (l.length + 1) 0 l with
      | .error o => some o
      | .ok r => recordAt (fun e => !recOk x.id e) 0 r
    else none

/-- A section decompresses to `ULEN` bytes, and its load records are well formed and inside its targets (R385). -/
def State.sectionOk (s : State) (x : Section) : Bool := (s.sectionFault x).isNone

/-- Every sector powers up before its sections; one that does not is as after an overcurrent (R435, Table 3 of chapter 17). -/
def State.sectorsUp (s : State) (env : StartEnv) : State :=
  (List.range 16).foldl (fun s k =>
    let s1 := (s.setFld (Reg.glbSecState k) 31 30 0)
    if 2 ≤ s.secPower k then s1.setSecPower k 2
    else if env.sectors.getLsbD k then s1.setSecPower k 2 else (s1.setSecPower k 1).overcurrent k) s

/-- Quadrants one of whose lanes has a mode other than off power up, with the reset of their lanes (R477). -/
def State.quadsUp (s : State) : State :=
  (List.range 4).foldl (fun s q =>
    let on := (List.range 60).any (fun i => s.laneOn (60 * q + i))
    let s1 : State := if on then { s with pwr := { s.pwr with quads := s.pwr.quads ||| BitVec.ofNat 4 (2 ^ q) } } else s
    s1.quadReset q) s

/-- The new `VOUT` of the rails that the POWER section changes; true where regulation holds (R430). -/
def State.newVouts (s : State) (env : StartEnv) (old : Nat → Nat) : State × Option Nat :=
  let rs := (List.range 3).filter (fun r => decide (s.fld (Reg.pwrRailCfg r) 15 0 ≠ old r))
  let s1 := rs.foldl (fun s r => s.pmbus r 0x21 (BitVec.ofNat 16 (s.fld (Reg.pwrRailCfg r) 15 0))) s
  (s1, if env.vout then none else rs.head?)

/-- `ENG_ST_COPY.GOVP` has the reset value `GOVP0` of the loaded descriptor (chapter 8, Tables 2 and 4). -/
def State.govpCopies (s : State) : State :=
  (List.range 544).foldl (fun s p => if (s.engDesc p 0).getLsbD 5 then s.setBit (Reg.engStCopy p) 7 true else s) s

/-- The load of step 9: every section in its order, the quadrants, and what the dispatcher itself loads. -/
def State.loadAll (s : State) : State :=
  (s.applyLoads (fun _ => true) (loadSections.flatMap s.sectionLoads)).quadsUp.govpCopies.dptLoad

/-- Step 9 after the load: the checks of a load, the new levels of rails 1 and 2 (against the `old` ones), and PHASE for the
start sequence of the image. -/
def State.loaded9 (s : State) (env : StartEnv) (old : Nat → Nat) : State :=
  match s.loadChecks with
  | some e => s.loadFails e
  | none =>
    let q := s.newVouts env old
    match q.2 with
    | some r => q.1.attemptFails 0x44 (objOf 8 r)
    | none =>
      let s2 : State := { q.1 with boot := { q.1.boot with steps := (parseSteps 16 ((q.1.sectionOf 1).getD [])).map (·.1) } }
      (s2.setFld Reg.bootStatus 31 28 2).setFld Reg.bootStatus 27 24 0

/-- Step 9: sections decompressed to their targets, with the load checks; then the step list begins (R385, R386). -/
def State.fixed9 (s0 : State) (env : StartEnv) : State :=
  let s := (s0.atStep 9).sectorsUp env
  match s.boot.sections.findSome? (fun x => (s.sectionFault x).map (fun o => (x.id, o))) with
  | some (id, o) => s.loadFails { code := 0x07, v1 := id, v2 := o }
  | none => s.loadAll.loaded9 env (fun r => s.fld (Reg.pwrRailCfg r) 15 0)

/-- What an image whose signatures hold leaves for its load: version, keyslot and digests. -/
def State.verified (s : State) (slot : Nat) (i : Img) : State :=
  let fw := match i.secs.find? (fun x => x.id == 16) with
    | some x => s.flash.slotBytes slot x.off x.slen
    | none => []
  let ks := leAt i.sig 0 1
  let s2 : State := { s with boot := { s.boot with imgver := BitVec.ofNat 32 i.imgver, kslot := some ks, imgdig := i.digest,
                                                   fwdig := sha256 fw } }
  s2.setFld Reg.hlmStatus 2 0 ks

/-- Steps 7 and 8 on the slot of the attempt. -/
def State.fixed7 (s0 : State) (env : StartEnv) (slot slotLen : Nat) : State :=
  let s := s0.atStep 7
  match s.readImage slot slotLen with
  | .error e => s.loadFails e
  | .ok i =>
    let s1 := (s.keepSections slot i.secs).atStep 8
    match s1.signatures slot i with
    | some e => s1.loadFails e
    | none => (s1.verified slot i).fixed9 env

/-- A `CLEAR_FAILS` that the I2C target held in thermal off or in rail-off is committed (R469). -/
def State.heldClearNow (s : State) : State :=
  if s.pwr.heldClear then ({ s with pwr := { s.pwr with heldClear := false } } : State).commitNow 0x13 [] else s

/-- Step 6, with the REPAIR records that Assay asks for: the state with its ATTEMPT record, and the slot whose image is read next with the
image's length; none where the phase ends here. -/
def State.fixed6 (s0 : State) (env : StartEnv) (powerOn : Bool) (repairs : List (List Byte)) : State × Option (Nat × Nat) :=
  let s := s0.atStep 6
  if !env.flash then (s.noteFails 6 0x62, none)
  else
    let s1 := ({ s with flash := s.flash.reread } : State).heldClearNow.histStep6 powerOn
    let s2 := (s1.setBit Reg.bootStatus 12 env.octal).setBit Reg.bootStatus 11 env.cs1
    let s3 := s2.setBit Reg.hlmStatus 20 ((s2.flash.cert).any (fun c => s2.certOk c none))
    match s3.flash.directory with
    | none => (s3.noteFails 6 0x62, none)
    | some d =>
      let n := s3.flash.failCount
      let s4 := (s3.setFld Reg.bootStatus 10 8 (min n 7)).setFld Reg.bootStatus 7 5 d.maxFail
      if d.maxFail ≤ n then ((repairs.foldl (fun s p => s.commitNow 0x20 p) s4).baseNote.powerRuns, none)
      else match s4.chooseSlot d env.cs1 with
        | none => (s4.noteFails 6 0x62, none)
        | some slot =>
          let s5 := (s4.setFld Reg.bootStatus 13 13 slot).setBit Reg.bootStatus 14 (decide (slot ≠ d.active))
          let s6 := repairs.foldl (fun s p => s.commitNow 0x20 p) s5
          (s6.commitNow 0x10 (bytesLe 1 slot ++ bytesLe 1 n ++ bytesLe 6 0), some (slot, d.slotLen slot))

/-- The fuse map assigns the spare tile of each cluster in place of a tile that failed (R15). -/
def State.mapTiles (s : State) : State := { s with boot := { s.boot with tileMap := s.fuses.tiles } }

/-- The tile of cluster `c`, 0 to 15 or the spare as 16, that serves its logical tile `t` (R15): what the machine computes never
depends on it. -/
def State.physTile (s : State) (c t : Nat) : Nat := if (c, t) ∈ s.boot.tileMap then 16 else t

/-- The fixed phase from step 3 to step 6: the state, and the slot whose image is read next with the image's length; none where the
phase has ended. -/
def State.reachSlot (s0 : State) (env : StartEnv) (powerOn : Bool) : State × Option (Nat × Nat) :=
  let s := s0.atStep 3
  if !env.fuses then
    (let q := s.railUp env 0
     (if q.2 then q.1.noteFails 3 0x61 else q.1.railOff 3 0x61, none))
  else
    let s1 := (s.mapTiles.railDefaults.atStep 4).setFld Reg.pwrStatus 31 30 0
    let q := s1.railsUp env [0, 1, 2]
    match q.2 with
    | some 0 => (q.1.railOff 4 0x44, none)
    | some r => ((q.1.railsOff ([1, 2].filter (fun i => decide (r ≤ i)))).noteFails 4 0x44, none)
    | none =>
      let a := (q.1.powerRuns.atStep 5).assay env
      if a.2.2 then a.1.fixed6 env powerOn a.2.1 else (a.1.noteFails 5 0x60, none)

/-- The fixed phase from step 3 on. -/
def State.fixed3 (s : State) (env : StartEnv) (powerOn : Bool) : State :=
  let a := s.reachSlot env powerOn
  match a.2 with
  | some (slot, len) => a.1.fixed7 env slot len
  | none => a.1

/-! ### Power-on reset and warm restart (R473 to R475) -/

/-- The device in which a power-on reset begins: flash, fuses and failing cells stay, and where RESET_N causes it the rails too
(R501). Straps are sampled as it releases (R500). -/
def State.powerOnClear (s : State) (env : StartEnv) : State :=
  { State.reset with
    flash := s.flash
    fuses := s.fuses
    prot := { stuck := s.prot.stuck }
    pwr := { rails := if env.resetN then s.pwr.rails else 0 }
    mgt := { straps := env.straps }
    testMode := env.testEn
    vfuse := s.vfuse
    free := s.free
    pending := s.pending }

/-- The TAP holds the device in EXTEST, where a low `RESET_N` is observed only (R506). -/
def State.inExtest (s : State) : Bool := s.mgt.ir == 0 && s.mgt.held.isSome

/-- Steps 1 and 2 after a power-on, then the rest of the fixed phase; in manufacturing test it does not begin. -/
def State.powerOnReset (s : State) (env : StartEnv) : State :=
  let s1 := s.powerOnClear env
  if env.testEn then s1 else s1.fixed3 env true

/-- POWER_ON_RESET: the supply comes up, or `RESET_N` is low, which in EXTEST causes nothing (R473, R506). -/
def execPowerOnReset (env : StartEnv) (s : State) : Host.Outcome State Fault Refusal :=
  if env.resetN && s.inExtest then s.go else (s.powerOnReset env).go

/-- The event record of a warm restart that an uncorrectable error in the keep store or the control complex calls for: before
the restart for the keep store, after it for the control complex (R414, Table 3 of chapter 16). -/
def State.restartRecord (s : State) (ccm : Bool) : State :=
  if 17 ∈ s.prot.owed ∧ decide (s.fld Reg.memLastUe0 31 28 = 0xA) = ccm then
    (let s1 := ({ s with commits := [] } : State).event 4 0
     s1.commitAll)
  else s

/-- The device in which a warm restart begins the fixed phase again. -/
def State.restartClear (s : State) : State :=
  let s1 := s.restartRecord false
  let s2 := s1.warmClear.outputsOff
  let s3 : State := { s2 with commits := [] }
  let late := if 17 ∈ s.prot.owed ∧ s.fld Reg.memLastUe0 31 28 = 0xA then (s3.event 4 0).commits else []
  ({ s3 with commits := late } : State).commitAll

/-- A warm restart. -/
def State.warmRestart (s : State) (env : StartEnv) : State := s.restartClear.fixed3 env false

/-- WARM_RESTART: a restart that is due. -/
def execWarmRestart (env : StartEnv) (s : State) : Host.Outcome State Fault Refusal :=
  if s.boot.restart && s.powered && !s.testMode then (s.warmRestart env).go else s.go

/-- A warm restart is called for; the global domain, or the I2C target, must be there to take the command. -/
def State.askRestart (s : State) : State := { s with boot := { s.boot with restart := true } }

/-- BOOT_RESTART: a write of `BOOT_CMD.RESTART`. -/
def execBootRestart (s : State) : Host.Outcome State Fault Refusal := if s.pwr.globalOn then s.askRestart.go else s.go

/-- A CLEAR record is committed (R390, R394). -/
def State.clearFails (s : State) : State := s.commitAll.commitNow 0x13 []

/-- BOOT_CLEAR_FAILS: a write of `BOOT_CMD.CLEAR_FAILS`. -/
def execBootClearFails (s : State) : Host.Outcome State Fault Refusal := if s.pwr.globalOn then s.clearFails.go else s.go

/-! ### The programmable phase (R386 to R389) -/

/-- The step that the start stands at, in the programmable phase. -/
def State.curStep (s : State) : Option StartStep :=
  if s.phase = 2 ∧ !s.boot.restart then s.boot.steps[s.fld Reg.bootStatus 27 24]? else none

/-- The step completes: the next one, or the wait for the orbit start. -/
def State.nextStep (s : State) : State :=
  let k := s.fld Reg.bootStatus 27 24
  if k + 1 < s.boot.steps.length then s.setFld Reg.bootStatus 27 24 (k + 1) else s.setFld Reg.bootStatus 31 28 3

/-- A step of an operation completes with an effect, given its argument. -/
def State.stepDone (s : State) (op : Nat) (f : W32 → State → State) : State := match s.curStep with
  | some k => if k.op = op then (f k.arg s).nextStep else s
  | none => s

/-- WAIT_LOCK completes once Touchstone is ALIGNED (R60). -/
def execWaitLock (s : State) : Host.Outcome State Fault Refusal :=
  (if s.tsbState = .aligned then s.stepDone 1 (fun _ s => s) else s).go

/-- Released transmitters of a quadrant whose `LQCLK` is locked leave electrical idle (R388). -/
def State.txStart (s : State) : State :=
  (List.range 240).foldl (fun s l =>
    let q := l / 60
    if s.boot.outTx.getLsbD q && s.boot.lqclk.getLsbD q && s.pwr.quads.getLsbD q && decide (s.txMode l ≠ 0) then
      s.setLane l { s.lane l with txOn := true }
    else s) s

/-- The groups of outputs that a RELEASE_OUTPUTS argument names are released (R388). -/
def State.releaseOutputs (s : State) (arg : W32) : State :=
  let s1 : State := { s with boot := { s.boot with outDec := s.boot.outDec || arg.getLsbD 0, outCal := s.boot.outCal || arg.getLsbD 1,
                                                   outTx := s.boot.outTx ||| BitVec.ofNat 4 (bitsOf arg 7 4) } }
  let s2 : State := if arg.getLsbD 0 then { s1 with decPins := BitVec.ofNat 16 (s1.fld Reg.decCfg 15 0) } else s1
  s2.txStart

/-- RELEASE_OUTPUTS. -/
def execReleaseOutputs (s : State) : Host.Outcome State Fault Refusal := (s.stepDone 2 (fun a s => s.releaseOutputs a)).go

/-- RELEASE_SETRESET: masked sectors may join at the start of RUN. -/
def execReleaseSetreset (s : State) : Host.Outcome State Fault Refusal :=
  (s.stepDone 3 (fun a s => { s with boot := { s.boot with released := s.boot.released ||| BitVec.ofNat 16 a.toNat } })).go

/-- ENABLE_WRITES. -/
def execEnableWrites (s : State) : Host.Outcome State Fault Refusal :=
  (s.stepDone 4 (fun a s => { s with boot := { s.boot with enable := s.boot.enable ||| BitVec.ofNat 3 a.toNat } })).go

/-- Every lane that feeds a masked sector is WAIT_JOIN or HELD. -/
def State.lanesReady (s : State) (mask : W32) : Bool :=
  (List.range 240).all (fun l => decide (s.rxMode l = 0) || !mask.getLsbD (s.laneSec l) || decide (s.laneState l = 4 ∨ s.laneState l = 6))

/-- WAIT_ALIGN completes when its lanes are ready or its time has passed. -/
def execWaitAlign (timeout : Bool) (s : State) : Host.Outcome State Fault Refusal :=
  (match s.curStep with
   | some k => if k.op = 5 ∧ (timeout ∨ s.lanesReady k.arg) then s.nextStep else s
   | none => s).go

/-- The ADMIT step has triggered its admission, which waits or runs. -/
def State.admitting (s : State) : Bool :=
  s.adm.waiting.contains .start || (match s.adm.running with | some r => r.trigger == .start | none => false)

/-- ADMIT: the start's one trigger of admission (R351, R354). -/
def execAdmitStep (s : State) : Host.Outcome State Fault Refusal :=
  (match s.curStep with
   | some k => if k.op = 6 ∧ !s.boot.admitted ∧ !s.admitting then s.trigger .start else s
   | none => s).go

/-! ### RUN (R22, R60, R389) -/

/-- A released sector that admission has not dropped, powered and loaded. -/
def State.startsIn (s : State) (k : Nat) : Bool :=
  s.boot.released.getLsbD k && !s.adm.dropsec.getLsbD k && decide (s.secPower k = 2) && (Tbl.get none s.reloads (256 + k)).isNone

/-- The released sectors join, and their pinned engines take CROSS. -/
def State.sectorsStart (s : State) : State :=
  let ks := (List.range 16).filter s.startsIn
  let s1 := ks.foldl State.sectorJoin s
  s1.crossAll (ks.flatMap (fun k => (List.range 34).map (fun i => 34 * k + i)))

/-- RUN_START: the orbit start after the step list. -/
def State.runStart (s : State) : State :=
  let s0 := s.setFld Reg.bootStatus 31 28 4
  let s1 := ({ s0 with boot := { s0.boot with ran := true } } : State).sectorsStart
  let s2 := (s1.dptLoad).setFld Reg.dptStatus 31 30 1
  let s3 : State := { s2 with dpt := { s2.dpt with reloaded := true } }
  let slot := s3.fld Reg.bootStatus 13 13
  s3.commitAll.commitNow 0x11 (bytesLe 1 slot ++ bytesLe 1 (s3.fld Reg.bootStatus 14 14) ++ bytesLe 6 0)

def execRunStart (s : State) : Host.Outcome State Fault Refusal :=
  if s.runBegins then s.runStart.go else s.go

/-- LQCLK_LOCK: a quadrant's lane clock locks (R388). -/
def execLqclkLock (q : QuadNo) (s : State) : Host.Outcome State Fault Refusal :=
  if s.pwr.quads.getLsbD q then
    (({ s with boot := { s.boot with lqclk := s.boot.lqclk ||| BitVec.ofNat 4 (2 ^ q.val) } } : State).txStart).go
  else s.go

/-! ### Admission as a sequence (R351 to R354) -/

/-- The configuration that a trigger asks about, and its accord. -/
def State.candidateOf (s : State) (t : AdmTrigger) : State × Nat := match t with
  | .accord n _ => (s.candidateCfg n, n)
  | _ => (s, s.accordNow)

/-- ADMISSION_RUN: the oldest trigger's admission begins with its snapshot; `period` is the measured crossing period in ps. A
preparation whose snapshot held the same values gives its result (R406). -/
def execAdmissionRun (period : Nat) (s : State) : Host.Outcome State Fault Refusal :=
  match s.adm.running, s.adm.waiting with
  | none, t :: rest =>
    let z := s.snapshotNow period
    let c := s.candidateOf t
    let res := match t, s.acc.prepared with
      | .accord n _, some p => if p.num = n ∧ p.snap.values = z.values then p.res else c.1.admit_ t c.2 z
      | _, _ => c.1.admit_ t c.2 z
    let s1 : State := { s with adm := { s.adm with waiting := rest, running := some { trigger := t, snap := z, res := res } } }
    ((s1.setBit Reg.admStatus 27 true).setFld Reg.admStatus 26 24 rest.length).go
  | _, _ => s.go

/-- What the result of a start's admission does (R363): refused, the start fails; else the step completes. -/
def State.startAdmitted (s : State) (r : AdmResult) : State :=
  if r.result = 3 then s.startFails r.code r.object.toNat
  else
    let s1 := s.admForce r
    let s2 := (List.range 16).foldl (fun s k => if r.dropsec.getLsbD k then s.orderlyDown k else s) s1
    ({ s2 with boot := { s2.boot with admitted := true } } : State).stepDone 6 (fun _ s => s)

/-- Of a re-admission: refused, the sectors stay out; else it takes effect at the next orbit start, where they rejoin (R58). -/
def State.readmitted (s : State) (r : AdmResult) : State :=
  if r.result = 3 then s.fault 4
  else { s with adm := { s.adm with next := some r }, tsb := { s.tsb with ret := .none } }

/-- Of an ADOPT: each lane takes its A and waits to join, or stays HELD with the code (R94). -/
def State.adopted (s : State) (z : AdmSnap) (r : AdmResult) (ls : List Nat) : State :=
  if r.result = 3 then ls.foldl (fun s l => s.setFld (Reg.lanStatus l) 23 16 r.code) s
  else
    let s1 : State := { s with adm := { s.adm with next := some r } }
    ls.foldl (fun s l =>
      let t := (s.latAdmit z [l]).setFld (Reg.lanStatus l) 23 16 0
      if t.laneState l = 6 then (t.setLane l { t.lane l with joinSince := t.tsb.cx }).setLaneState l 4 else t) s1

/-- ADMISSION_COMPLETE: the report is written, `LAT_ADM` of the lanes in WAIT_JOIN or LIVE takes the A of the snapshot when the
configuration is admitted (R92), and the result takes effect as its trigger says (R353, R363). -/
def execAdmissionComplete (s : State) : Host.Outcome State Fault Refusal :=
  match s.adm.running with
  | none => s.go
  | some a =>
    let r := a.res
    let s1 := ({ s with adm := { s.adm with running := none } } : State).setBit Reg.admStatus 27 false
    let s2 := s1.admReport a.trigger r
    let s3 := if r.result = 2 then s2.fault 4 else s2
    let s4 := if r.result = 3 then s3 else s3.latAdmit a.snap a.snap.aligned
    let s5 := match a.trigger with
      | .start => s4.startAdmitted r
      | .readmit => s4.readmitted r
      | .adopt ls => s4.adopted a.snap r ls
      | .accord n _ => s4.accordAdmitted n a.snap r
    let prep := match a.trigger with | .accord _ p => p | _ => false
    (s5.retryHeld (if r.result = 3 ∨ prep then s5.adm.dropsec else r.dropsec)).go

end Sys2Proof.Machine
end

