-- ==== Sys2Proof/Machine/Hallmark.lean ====
section
/-!
DEFINITION. Sys2Proof/Machine/Hallmark.lean: the operations of Hallmark: challenge, authorised commands, the device key, the
certificate and attestation (R445 to R455, R509). An operation is taken up by its command's row, which decides what the
state at acceptance decides, and ends by HALLMARK_OP_COMPLETE.
-/
namespace Sys2Proof.Machine

/-! ### Results and acceptance (R455, Table 4) -/

/-- Codes of `HLM_STATUS.RESULT`. -/
inductive HlmResult where
  | ok | busy | auth | nochal | novfuse | fusefail | state | badcert | nocert
deriving DecidableEq, Repr
def HlmResult.code : HlmResult → Nat
  | .ok => 1 | .busy => 2 | .auth => 3 | .nochal => 4 | .novfuse => 5 | .fusefail => 6 | .state => 7 | .badcert => 8 | .nocert => 9

/-- Hallmark's commands are management writes: refused before ENABLE_WRITES and in base-note mode (R455). -/
def State.hlmOpen (s : State) : Bool := s.powered && !s.testMode && s.boot.enable.getLsbD 0 && decide (s.phase ≠ 5)

/-- Bytes of the mailbox. -/
def State.mailbox (s : State) (off n : Nat) : List Byte := s.bytes (Reg.hlmMailbox + off) n

/-- A command is taken up: `OUTV` clears, `LASTOP` and `BUSY` are set. While an operation runs the write is ignored, and the
result reads BUSY. -/
def State.hlmTake (s : State) (op : Nat) (f : State → State × Option HlmResult × List Byte × Nat) : State :=
  if !s.hlmOpen then s
  else if s.hlm.running.isSome then s.setFld Reg.hlmStatus 31 28 HlmResult.busy.code
  else
    let s1 := ((s.setBit Reg.hlmStatus 18 false).setFld Reg.hlmStatus 27 24 op).setBit Reg.hlmStatus 23 true
    let r := f s1
    { r.1 with hlm := { r.1.hlm with running := some { op := op, result := r.2.1.map (·.code), body := r.2.2.1, target := r.2.2.2 } } }

/-- The running operation ends with a result. -/
def State.hlmEnd (s : State) (r : Nat) : State :=
  let s1 := (s.setFld Reg.hlmStatus 31 28 r).setBit Reg.hlmStatus 23 false
  { s1 with hlm := { s1.hlm with running := none } }

/-! ### Authorised commands (R450 to R453) -/

/-- The 80 bytes that an authorised command signs (R451). -/
def State.authMessage (s : State) (op target : Nat) (arg : List Byte) : List Byte :=
  [0x48, 0x4C, 0x4D, 0x41] ++ bytesLe 1 op ++ bytesLe 1 target ++ bytesLe 2 0 ++ bytesLe 8 s.fuses.uid.toNat ++
    (List.range 8).flatMap (fun i => bytesLe 4 (s.reg (Reg.hlmChal i)).toNat) ++ arg

/-- The authorisation block of the mailbox passes (R451). -/
def State.authPasses (s : State) (op : Nat) : Bool :=
  let target := leAt (s.mailbox 0 1) 0 1
  let k := s.slot (leAt (s.mailbox 1 1) 0 1)
  let spk := s.mailbox 36 32
  decide (k.code = 1) && decide (sha256 spk = k.hash) &&
    Config.slhVerify spk (sha256 (s.authMessage op target (s.mailbox 4 32))) (s.mailbox 68 7856)

/-- Customer slots that are ACTIVE. -/
def State.customers (s : State) : List Nat := (List.range 4).filter (fun i => s.slotActive i)

/-- The further conditions of R452 on `TARGET` and `SIGNER`, apart from `VFUSE`. -/
def State.authConditions (s : State) (op target signer : Nat) : Bool :=
  if op = 5 then decide (target ≤ 3 ∧ (s.slot target).code = 0) && (s.customers.isEmpty || decide (signer ∈ s.customers))
  else if op = 6 then
    (if target ≤ 3 then decide (signer ∈ s.customers) && s.customers.any (fun i => i != target)
     else decide ((target = 4 ∧ signer = 5) ∨ (target = 5 ∧ signer = 4)) && s.slotActive signer)
  else decide (signer ∈ s.customers)

/-- What an authorised command comes to at its acceptance: a result decided there, or none where it goes on. -/
def State.authResult (s : State) (op : Nat) (chal vfuse : Bool) : Option HlmResult :=
  let target := leAt (s.mailbox 0 1) 0 1
  let signer := leAt (s.mailbox 1 1) 0 1
  if !chal then some .nochal
  else if !(decide (op = 5) && s.customers.isEmpty) && !s.authPasses op then some .auth
  else if !s.authConditions op target signer then some .state
  else if decide (op ≠ 7) && !vfuse then some .novfuse
  else none

/-- An authorised command is attempted: the challenge is spent, whatever comes of it (R450). -/
def State.authTake (s : State) (op : Nat) : State :=
  s.hlmTake op (fun s =>
    let r := s.authResult op (s.rbit Reg.hlmStatus 19) s.vfuse
    (s.setBit Reg.hlmStatus 19 false, r, s.mailbox 4 32, leAt (s.mailbox 0 1) 0 1))

/-! ### Attestation (R454, Table 3) -/

/-- The fuse fields other than the seeds. -/
def State.fuseBytes (s : State) : List Byte :=
  bytesLe 8 s.fuses.uid.toNat ++ (List.range 6).flatMap (fun i => (s.slot i).hash ++ bytesLe 1 (s.slot i).code) ++
    s.fuses.defaults.flatMap (fun d => bytesLe 5 d.1 ++ bytesLe 4 d.2.toNat) ++
    s.fuses.repairs.flatMap (fun r => bytesLe 2 r.1 ++ bytesLe 4 r.2.1 ++ bytesLe 2 r.2.2) ++
    s.fuses.tiles.flatMap (fun t => bytesLe 1 t.1 ++ bytesLe 1 t.2)

/-- The attestation body as taken at acceptance, with its nonce. -/
def State.attestBody (s : State) : List Byte :=
  let flags := (if s.rbit Reg.hlmStatus 22 then 1 else 0) + (if s.inRun then 2 else 0) + (if s.rbit Reg.bootStatus 14 then 4 else 0)
  let kstate := ((List.range 4).map (fun i => (s.slot i).code * 4 ^ i)).sum
  bytesLe 4 0xDE1EA77E ++ bytesLe 2 1 ++ bytesLe 2 0x4E16 ++ bytesLe 1 Config.stepping.toNat ++ bytesLe 1 flags ++
    bytesLe 1 (s.boot.kslot.getD 0xFF) ++ bytesLe 1 kstate ++ bytesLe 4 s.boot.imgver.toNat ++ bytesLe 8 s.fuses.uid.toNat ++
    s.devKey ++ digest32 s.boot.imgdig ++ digest32 s.boot.fwdig ++ sha256 (Config.fuseArray s.fuseBytes) ++
    (List.range 8).flatMap (fun i => bytesLe 4 (s.reg (Reg.admDigest i)).toNat) ++ s.mailbox 4 32 ++
    bytesLe 6 s.tsb.orbit.toNat ++ bytesLe 2 s.tsb.crossing ++ bytesLe 1 s.tsb.slot ++ bytesLe 1 (s.fld Reg.accordStatus 7 0) ++
    bytesLe 2 0 ++ bytesLe 4 (s.hlm.aseq.toNat + 1) ++ List.replicate 24 0

/-! ### The commands -/

/-- A command of `HLM_CMD`, by its `OP`; other values are ignored (Table 4). -/
def State.hlmCmd (s : State) (op : Nat) : State :=
  if op = 1 then s.hlmTake 1 (fun s => (s.setBit Reg.hlmStatus 19 false, none, [], 0))
  else if op = 2 then s.hlmTake 2 (fun s =>
    (s, if s.fuses.seeds.isSome then none else some .state, s.attestBody, 0))
  else if op = 3 then s.hlmTake 3 (fun s => (s, if s.rbit Reg.hlmStatus 20 then none else some .nocert, [], 0))
  else if op = 4 then s.hlmTake 4 (fun s =>
    let c := s.mailbox 0 certLength
    (s, if s.certOk c (some (s.mailbox certLength 32)) then none else some .badcert, c, 0))
  else if op = 5 ∨ op = 6 ∨ op = 7 then s.authTake op
  else if op = 8 then s.hlmTake 8 (fun s => (s, none, [], 0))
  else if op = 9 then s.hlmTake 9 (fun s =>
    (s, if s.vfuse && s.fuses.seeds.isNone && !s.fuses.spoilt then none else some .state, [], 0))
  else s

/-- CHALLENGE (R450). -/
def execChallenge (s : State) : Host.Outcome State Fault Refusal := (s.hlmCmd 1).go
/-- ATTEST (R454). -/
def execAttest (s : State) : Host.Outcome State Fault Refusal := (s.hlmCmd 2).go
/-- CERT_READ (R448). -/
def execCertRead (s : State) : Host.Outcome State Fault Refusal := (s.hlmCmd 3).go
/-- CERT_STORE (R448). -/
def execCertStore (s : State) : Host.Outcome State Fault Refusal := (s.hlmCmd 4).go
/-- KEY_SET (R452), with the level of `VFUSE`. -/
def execKeySet (vfuse : Bool) (s : State) : Host.Outcome State Fault Refusal := (({ s with vfuse := vfuse } : State).hlmCmd 5).go
/-- KEY_REVOKE (R452), with the level of `VFUSE`. -/
def execKeyRevoke (vfuse : Bool) (s : State) : Host.Outcome State Fault Refusal := (({ s with vfuse := vfuse } : State).hlmCmd 6).go
/-- DEBUG_UNLOCK (R453). -/
def execDebugUnlock (s : State) : Host.Outcome State Fault Refusal := (s.hlmCmd 7).go
/-- DEBUG_LOCK (R453). -/
def execDebugLock (s : State) : Host.Outcome State Fault Refusal := (s.hlmCmd 8).go
/-- GENKEY (R445), with the level of `VFUSE`. -/
def execGenkey (vfuse : Bool) (s : State) : Host.Outcome State Fault Refusal := (({ s with vfuse := vfuse } : State).hlmCmd 9).go

/-! ### Completion (R455) -/

/-- `8 × n` random bytes: free values. -/
def State.drawBytes (s : State) : Nat → State × List Byte
  | 0 => (s, [])
  | n + 1 => let d := s.draw; let r := d.2.drawBytes n; (r.1, bytesLe 8 d.1.toNat ++ r.2)

/-- What the fuses and `HLM_STATUS` show after a key slot changed. -/
def State.blowSlot (s : State) (i : Nat) (k : KeySlot) : State := (s.setSlot i k).showKeys

/-- Blow the seed fuses; seeds that are blown stay (R445). -/
def State.blowSeeds (s : State) (d : List Byte) : State :=
  { s with fuses := { s.fuses with seeds := s.fuses.seeds <|> some d } }

/-- The seed fuses do not read back: there can be no device key (R445). -/
def State.spoilSeeds (s : State) : State := { s with fuses := { s.fuses with spoilt := true } }

/-- A certificate record's payload: part header and data (R447). -/
def certPart (n : Nat) (data : List Byte) : List Byte := bytesLe 1 n ++ bytesLe 1 2 ++ bytesLe 2 certLength ++ bytesLe 4 0 ++ data

/-- The operation that reaches its end does what its command is for; `readBack` says whether the fuses it blows read back. -/
def State.hlmFinish (s : State) (o : HlmOp) (readBack : Bool) : State :=
  match o.op with
  | 1 =>
    let d := s.drawBytes 4
    ((d.1.set8 Reg.hlmChal d.2).setBit Reg.hlmStatus 19 true).hlmEnd 1
  | 2 =>
    let d := s.draw
    let s1 := d.2
    let sig := Config.slhSign (s1.fuses.seeds.getD []) (sha256 o.body) d.1
    let s2 := s1.setBytes Reg.hlmOutput (o.body ++ sig.take 17088)
    (({ s2 with hlm := { s2.hlm with aseq := s2.hlm.aseq + 1 } } : State).setBit Reg.hlmStatus 18 true).hlmEnd 1
  | 3 => ((s.setBytes Reg.hlmOutput (s.flash.cert.getD [])).setBit Reg.hlmStatus 18 true).hlmEnd 1
  | 4 =>
    let s1 := (s.commitAll.commitNow 0x40 (certPart 0 (o.body.take 4000))).commitNow 0x40 (certPart 1 (o.body.drop 4000))
    (s1.setBit Reg.hlmStatus 20 true).hlmEnd 1
  | 5 =>
    if readBack then (s.blowSlot o.target { hash := o.body, prog := true }).hlmEnd 1
    else
      let d := s.drawBytes 4
      (d.1.blowSlot o.target { hash := d.2, prog := true, rev := true }).hlmEnd 6
  | 6 =>
    if readBack then (s.blowSlot o.target { s.slot o.target with prog := true, rev := true }).hlmEnd 1 else s.hlmEnd 6
  | 7 => (s.setBit Reg.hlmStatus 22 true).hlmEnd 1
  | 8 => (s.setBit Reg.hlmStatus 22 false).hlmEnd 1
  | _ =>
    if readBack then
      (let d := s.drawBytes 6
       let s1 := d.1.blowSeeds d.2
       ((s1.set8 Reg.hlmDpk s1.devKey).setBit Reg.hlmStatus 21 true).hlmEnd 1)
    else s.spoilSeeds.hlmEnd 6

/-- The running operation completes, with the result its acceptance decided where it decided one. -/
def State.hlmComplete (s : State) (readBack : Bool) : State :=
  match s.hlm.running with
  | none => s
  | some o => match o.result with
    | some r => s.hlmEnd r
    | none => s.hlmFinish o readBack

/-- HALLMARK_OP_COMPLETE (R455). -/
def execHallmarkOpComplete (readBack : Bool) (s : State) : Host.Outcome State Fault Refusal := (s.hlmComplete readBack).go

/-- VFUSE_FALL: an operation that blows fuses ends with FUSEFAIL, as one whose fuses do not read back (R452, R509). -/
def execVfuseFall (s : State) : Host.Outcome State Fault Refusal :=
  let s1 : State := { s with vfuse := false }
  match s.hlm.running with
  | none => s1.go
  | some o => if (o.op = 5 ∨ o.op = 6 ∨ o.op = 9) ∧ o.result = none then (s1.hlmFinish o false).go else s1.go

end Sys2Proof.Machine
end

