-- ==== Sys2Proof/Machine/Bus.lean ====
section
/-!
DEFINITION. Sys2Proof/Machine/Bus.lean: reads and writes of the address map: what every register reads as, what a write of it
does, the memory windows, and the requests that make them (chapter 12, R328 to R340; chapter 21, R482 to R485).
-/
namespace Sys2Proof.Machine

/-! ### What registers read as -/

/-- The IDCODE value of R470. -/
def idcode : W32 := BitVec.ofNat 32 (Config.stepping.toNat * 2 ^ 28 + 0x04E16A9B)

/-- `ENG[p]_STATUS` as read (chapter 8, Table 11). -/
def State.engStatusRead (s : State) (p : Nat) : W32 :=
  let g := s.eng p
  let run : Nat := match g.run with
    | .reset => 0 | .idle => 1 | .running => 2 | .handler => 3 | .holding => 4 | .loading => 5 | .out => 6
  let log : Nat := match s.logOf p with
    | some e => e * 2 ^ 21 + 2 ^ 7
    | none => 0
  let d := s.engDesc p 0
  (s.reg (Reg.engStatus p) &&& (bm 31 30 ||| bm 13 8)) |||
    BitVec.ofNat 32 (log + bitsOf d 0 0 * 2 ^ 20 + bitsOf d 2 1 * 2 ^ 18 + run * 2 ^ 15 + (if g.handler.isSome then 2 ^ 14 else 0))

/-- A queue summary of cluster `n`: bit `b` of the 32 `QUE_STATUS` (R490). -/
def State.queueSummary (s : State) (n b : Nat) : W32 :=
  (List.range 32).foldl (fun w i => if s.rbit (Reg.queStatus (32 * n + i)) b then w ||| BitVec.ofNat 32 (2 ^ i) else w) 0

/-- `SEC[s]_QSUM` (R490). -/
def State.sectorSummary (s : State) (k : Nat) : W32 :=
  (List.range 16).foldl (fun w j =>
    if (List.range 32).any (fun i => s.reg (Reg.queStatus (32 * (16 * k + j) + i)) &&& bm 9 6 != 0) then w ||| BitVec.ofNat 32 (2 ^ j)
    else w) 0

/-- Bit of `QUE_STATUS` that QDROP, QUND, QPERR, QREF mirror, in that order. -/
def mirrorBit (i : Nat) : Nat := if i = 0 then 8 else if i = 1 then 7 else if i = 2 then 6 else 9

/-- A register of sector `k`'s window at an offset from B(k) + 0xF0_0000. -/
def State.sectorRead (s : State) (k o : Nat) : W32 :=
  if o = 0xC then s.sectorSummary k
  else if 0x200 ≤ o ∧ o < 0x300 then s.queueSummary (16 * k + (o - 0x200) / 16) (mirrorBit (o % 16 / 4))
  else if 0x100 ≤ o ∧ o < 0x180 ∧ o % 0x20 = 0x8 then s.drzPtrRead (4 * k + (o - 0x100) / 0x20)
  else if 0x100 ≤ o ∧ o < 0x180 ∧ o % 0x20 = 0xC then s.drzStatusRead (4 * k + (o - 0x100) / 0x20)
  else if 0x1000 ≤ o ∧ o < 0x1110 ∧ o % 8 = 0 then s.engStatusRead (34 * k + (o - 0x1000) / 8)
  else if 0x80000 ≤ o ∧ o < 0x84000 ∧ o % 0x20 = 4 then s.queStatusRead (512 * k + (o - 0x80000) / 0x20)
  else s.reg (Reg.sec k o)

/-- `GLB_CL[n]_STATE` as read (chapter 21, Table 3). -/
def State.clusterRead (s : State) (n : Nat) : W32 :=
  let spare := (s.spareOf (n / 16) (2 * (n % 16))).isSome || (s.spareOf (n / 16) (2 * (n % 16) + 1)).isSome
  let staged := s.acc.inflight.any (fun w => w.stage == 3 && w.hot.contains n)
  s.reg (Reg.glbCl n) ||| BitVec.ofNat 32 ((if spare then 8 else 0) + (if staged then 4 else 0))

/-- `NOC_EDGE[e]_STATUS` (chapter 21, Table 7). -/
def State.edgeRead (s : State) (e : Nat) : W32 :=
  if e = 25 ∨ (28 ≤ e ∧ e < 32) ∨ 57 ≤ e then 3
  else if 16 ≤ e ∧ e < 24 ∧ 2 ≤ s.fld Reg.dptStatus 31 30 then 1
  else if 32 ≤ e ∧ e < 48 ∧ !s.pwr.quads.getLsbD ((e - 32) / 4) then 2
  else 0

/-- A word of the global window at an offset. -/
def State.globalRead (s : State) (o : Nat) : W32 :=
  if o = 0 then idcode
  else if 0x400 ≤ o ∧ o < 0x800 then s.clusterRead ((o - 0x400) / 4)
  else if o = 0x1034 then s.nowRead.2
  else if o = 0x4004 then s.reg Reg.memStatus ||| (if s.prot.copies.isEmpty then 0 else 0x20)
  else if o = 0x7010 then s.reg Reg.mgtStatus ||| BitVec.ofNat 32 s.mgt.queue.length
  else if 0x8080 ≤ o ∧ o < 0x80C0 then
    s.reg (Reg.glb o) ||| BitVec.ofNat 32 ((s.ro ((o - 0x8080) / 4)).queue.length * 2 ^ 16)
  else if 0xA800 ≤ o ∧ o < 0xA900 then s.edgeRead ((o - 0xA800) / 4)
  else if 0x400000 ≤ o ∧ o < 0x800000 then BitVec.ofNat 32 (leAt s.adm.report (o - 0x400000) 4)
  else if 0x800000 ≤ o then BitVec.ofNat 32 (s.le (Reg.glb o) 4)
  else s.reg (Reg.glb o)

/-- A word of the dispatcher's register windows: descriptors and in-service table. -/
def State.dispatchRead (s : State) (a : Nat) : W32 :=
  if a < 0x2000040000 then
    (let t := (a - 0x2000000000) / 64
     let w := a % 64 / 4
     if 9 ≤ w ∧ w ≤ 13 then s.taskRead t w else s.reg a)
  else if 0x2000800000 ≤ a ∧ a < 0x2000802200 then
    BitVec.ofNat 32 ((s.inServiceRead ((a - 0x2000800000) / 8)).toNat / 2 ^ (8 * (a % 8)))
  else 0

/-- The word at an address of a register window (R482): no register and no table reads as 0. -/
def State.regRead (s : State) (a : Nat) : W32 :=
  match glbOff a with
  | some o => s.globalRead o
  | none => match secOff a with
    | some (k, o) => if o < 0xF00000 then BitVec.ofNat 32 (s.le a 4) else s.sectorRead k (o - 0xF00000)
    | none => if a < 0x2100000000 then s.dispatchRead a else s.reg a

/-- A read of one word, with the one side effect of R36 (R483). -/
def State.wordRead (s : State) (a : Nat) : State × W32 := if a = Reg.tsbNow then s.nowRead else (s, s.regRead a)

/-! ### Command registers -/

/-- `GLB_RESET_CMD` (R478). -/
def State.resetCmdWrite (s : State) (v : W32) : State :=
  if v &&& (bm 31 28 ||| bm 15 0) = 0 then s
  else match bitsOf v 31 28 with
    | 1 => s.resetSectors (bitsOf v 15 0)
    | 2 => s.resetQuads (bitsOf v 3 0)
    | _ => s.cmdErr

/-- `TSB_CMD`: SNAP, SWAP, REALIGN in that order (R488). -/
def State.tsbCmdWrite (s : State) (v : W32) : State :=
  let s1 := if bitsOf v 6 0 = 0 then s else s.snapshot (bitsOf v 6 0)
  let s2 := if v.getLsbD 31 then s1.tsbSwap else s1
  if v.getLsbD 30 then s2.tsbRealign else s2

/-- `BOOT_CMD`: the CLEAR record first (chapter 14, Table 11). -/
def State.bootCmdWrite (s : State) (v : W32) : State :=
  let s1 := if v.getLsbD 1 then s.clearFails else s
  if v.getLsbD 0 then s1.askRestart else s1

/-- `PWR_CMD` (chapter 17, Table 11). -/
def State.pwrCmdWrite (s : State) (v : W32) : State :=
  if v &&& (bm 31 28 ||| bm 15 0) = 0 then s
  else match bitsOf v 31 28 with
    | 1 => s.pwrRetry (bitsOf v 15 0)
    | 2 => s.pwrClearNow
    | _ => s.setBit Reg.pwrStatus 24 true

/-- `DPT_CMD` (chapter 10, Table 8; R293). -/
def State.dptCmdWrite (s : State) (v : W32) : State :=
  if v &&& (bm 31 16 ||| bm 4 0) = 0 then s
  else if bitsOf v 31 28 = 6 ∨ bitsOf v 31 28 = 7 then
    (s.dptCmd (fun s => s.applyFlag (bitsOf v 27 16) (bitsOf v 4 0) (decide (bitsOf v 31 28 = 6)))).readiness
  else (s.cycleCmd State.dispatcherResetNow (fun _ _ => false) v).readiness

/-- What a write of a command register of the global window does. -/
def State.cmdWrite (s : State) (o : Nat) (v : W32) : State :=
  if o = 0x18 then s.resetCmdWrite v
  else if o = 0x20 then s.accordCmdWrite v
  else if o = 0x1008 then s.tsbCmdWrite v
  else if o = 0x2004 then s.bootCmdWrite v
  else if o = 0x4028 then s.injArm v
  else if o = 0x5018 then s.pwrCmdWrite v
  else if o = 0x6000 then s.hlmCmd (bitsOf v 31 28)
  else if o = 0x9008 then s.dptCmdWrite v
  else if o = 0x9088 then (if v.getLsbD 0 then s.slgRestart else s)
  else s

/-! ### Writes of registers (R483) -/

/-- Bits of a register that the hardware has set in the current slot: a write of this slot does not clear them (R9). -/
def State.setNow (s : State) (a : Nat) : W32 := s.reg a &&& ~~~(s.reg0 a)

/-- Fields of the classes RW, RW1C and RWL are written; the second component says that a locked RWL field would have changed. -/
def State.fieldWrite (s : State) (r : RegSpec) (a : Nat) (v : W32) : State × Bool :=
  let old := s.reg a
  let w1 := ((old &&& ~~~(v &&& r.rw1c &&& ~~~s.setNow a)) &&& ~~~r.rw) ||| (v &&& r.rw)
  let w2 := if s.locked then w1 else (w1 &&& ~~~r.rwl) ||| (v &&& r.rwl)
  (s.setReg a w2, s.locked && ((v ^^^ old) &&& r.rwl != 0))

/-- `LAN[l]_CTRL`: enables, power-down, REALIGN and ADOPT act as R93, R94, R96 and R100 say. -/
def State.laneCtrlWrite (s : State) (r : RegSpec) (l a : Nat) (v : W32) : State × Bool :=
  let q := s.fieldWrite { r with rw := 0 } a v
  let s1 := ((q.1.rxEnWrite l (v.getLsbD 0)).txEnWrite l (v.getLsbD 1)).pdWrite l (v.getLsbD 2)
  let s2 := if v.getLsbD 3 then s1.laneRealign l else s1
  (if v.getLsbD 4 then s2.laneAdopt l else s2, q.2)

/-- A word of a task descriptor: its row is protected memory, and a write of half of it a merge (R412). -/
def State.descriptorWrite (s : State) (r : RegSpec) (a : Nat) (v : W32) : State × Bool :=
  if s.protIdle then s.fieldWrite r a v
  else
    let k := rowKey 0x8000 ((a - 0x2000000000) / 8)
    let q := s.readRow k .merge
    if q.2 then (q.1, false)
    else
      let w := q.1.fieldWrite r a v
      (w.1.rowWritten k, w.2)

/-- A write of one word of a register window: the state, and whether it is answered LOCKED. -/
def State.regWrite (s : State) (a : Nat) (v : W32) : State × Bool :=
  match regSpec a with
  | none => match glbOff a with
    | some o => if 0x800000 ≤ o ∧ o < 0x802000 then (s.setLe a 4 v.toNat, false) else (s, false)
    | none => (s, false)
  | some r =>
    match glbOff a with
    | some o =>
      if r.wo ≠ 0 then (s.cmdWrite o v, decide (o = 0x4028) && v.getLsbD 31 && !injectOpen s)
      else
        let q := s.fieldWrite r a v
        (match schedEntry a with
         | some i => (q.1.schedPar i, q.2)
         | none => q)
    | none => match secOff a with
      | some (k, o) =>
        let i := o - 0xF00000
        if 0x100 ≤ i ∧ i < 0x180 ∧ i % 0x20 = 0x8 then (s.rptrWrite (4 * k + (i - 0x100) / 0x20) (bitsOf v 14 0), false)
        else s.fieldWrite r a v
      | none =>
        if isLane a ∧ a < 0x30000F0000 ∧ a % 0x1000 = 4 then s.laneCtrlWrite r ((a - 0x3000000000) / 0x1000) a v
        else if a < 0x2000040000 then s.descriptorWrite r a v
        else s.fieldWrite r a v

/-! ### Writes of memory windows (R126, R137, R199, R274, R302, R310, R339) -/

/-- Bytes of a write that reaches into no row with an uncorrectable error it would have to merge with, in a persistent memory
(R412). -/
def State.mergeUe (s : State) (a : Nat) (b : List Byte) : Bool :=
  (rowPieces (b.length + 1) a b).any (fun p => decide (p.2.length < 8) && (match rowOf p.1 with
    | some (m, r) => persistent m && decide (1 < popCount (s.flips (rowKey m r)))
    | none => false))

/-- The tags of the scratch words that a write of `n` bytes at offset `o` of tile `t`'s data window touches become DATA (R126). -/
def State.scratchTagged (s : State) (t o n : Nat) : State :=
  (List.range ((o + n + 1) / 2 - o / 2)).foldl (fun s i =>
    let w := o / 2 + i
    let x := scratchTagAddr t w
    s.store x [putTag (s.byte x) w .data]) s

/-- A write of bytes to a memory window: the state, and the status of Table 5. -/
def State.memWrite (s : State) (a : Nat) (b : List Byte) : State × Nat :=
  let put (n : Nat) : State × Nat := (s.store a (b.take n), if s.mergeUe a (b.take n) then 5 else 0)
  if a < 0x2000000 then (s, 4)
  else match secOff a with
    | some (k, o) =>
      if o < 0x200000 then (s, 0)
      else if o < 0x240000 then
        (let q := put 256
         (q.1.scratchTagged (256 * k + (o - 0x200000) / 0x400) (o % 0x400) b.length, q.2))
      else if 0x300000 ≤ o ∧ o < 0x308000 then put 256
      else if 0x400000 ≤ o ∧ o < 0x400000 + 34 * 0x8000 then
        (let w := (o - 0x400000) % 0x8000
         if 0x6040 ≤ w then (s, 0)
         else if 0x2000 ≤ w ∧ w < 0x6000 then ((s.noteSecond a (b.take 256).length).store a (b.take 256), (put 256).2)
         else if s.locked then (s, 4)
         else if w < 0x2000 then put 256
         else put (0x6040 - w))
      else if 0x800000 ≤ o ∧ o < 0x840000 then
        (if s.locked then (s, 4) else put (0x2B0 - o % 0x400))
      else (s, 0)
    | none =>
      if (0x2000400000 ≤ a ∧ a < 0x2000800000) ∨ (0x2800000000 ≤ a ∧ a < 0x2800200000) then put 256 else (s, 0)

/-! ### Whole accesses (R329, R339, R340) -/

/-- A read of `n` bytes: the state, the status, the bytes, and the data units that carry `PSN`. A network reader of a derandomizer gets
the copy of a length word with an uncorrectable error (R312). -/
def State.busRead (s : State) (a n : Nat) (reg : Bool) : State × Nat × List Byte × BitVec 16 :=
  let r := s.read a n
  let ue (x : Nat) : Bool := match rowOf x with
    | some (m, w) => decide (1 < popCount (s.flips (rowKey m w)))
    | none => false
  let psn : BitVec 16 := (List.range (unitsOf a n)).foldl (fun p i =>
    let lo := max a (a - a % 16 + 16 * i)
    let hi := min (a + n) (a - a % 16 + 16 * i + 16)
    if ue lo || ue (hi - 1) then p ||| BitVec.ofNat 16 (2 ^ i) else p) 0
  let st := if r.2 then 5 else 0
  if reg then
    (let w := (List.range (n / 4)).foldl (fun (x : State × List Byte) i =>
        let y := x.1.wordRead (a + 4 * i)
        (y.1, x.2 ++ bytesLe 4 y.2.toNat)) (r.1, [])
     (w.1, st, w.2, psn))
  else
    let bad := (List.range n).filter (fun i => ue (a + i))
    (bad.foldl (fun t i => t.drainError (a + i)) r.1, st, (List.range n).map (fun i =>
      if ue (a + i) then (s.lengthByte (a + i)).getD (s.stored (a + i)) else s.seenByte (a + i)), psn)

/-- A write of bytes: the state and the status. -/
def State.busWrite (s : State) (a : Nat) (b : List Byte) (reg : Bool) : State × Nat :=
  if reg then
    (let w := (List.range (b.length / 4)).foldl (fun (x : State × Bool) i =>
        let y := x.1.regWrite (a + 4 * i) (BitVec.ofNat 32 (leAt b (4 * i) 4))
        (y.1, x.2 || y.2)) (s, false)
     (w.1, if w.2 then 4 else 0))
  else s.memWrite a b

/-! ### Requests over the network (R328) -/

/-- An access that reaches its endpoint: the statuses UNMAPPED and ALIGN, or the access itself. -/
def State.serve (s : State) (p : Packet) (bad : Nat → State → State) (f : Bool → State → State) : State :=
  match destOf (pAddr p) with
  | none => bad 2 s
  | some (d, reg) =>
    if d ≠ pDest p then bad 2 s
    else if !accessOk (pAddr p) (pCount p) reg then bad 3 s
    else f reg s

/-- The scratch tiles, by sector and offset, that `n` bytes at `a` lie in. -/
def scratchTiles (a n : Nat) : List Nat :=
  ((List.range n).map (fun i => a + i)).filterMap (fun x => match secOff x with
    | some (k, o) => if 0x200000 ≤ o ∧ o < 0x240000 then some (256 * k + (o - 0x200000) / 0x400) else none
    | none => none)

/-- A row that `n` bytes at `a` touch is being copied into its spare (R421). -/
def State.rowCopied (s : State) (a n : Nat) : Bool :=
  s.prot.copies.any (fun c => decide (rowKey c.memid c.row ∈ rowsOf a n))

/-- A packet of command `cmd` finds the scratch port that it needs used by a cell in this slot: the cell is served, and the packet
waits at its endpoint (R20, R124); a write waits too while its row is copied into a spare (R421). -/
def State.portBusy (s : State) (p : Packet) (cmd : Nat) : Bool :=
  !pBad p && decide (pCmd p = cmd) && !s.down (pDest p) (pTarget p) &&
    ((scratchTiles (pAddr p) (pCount p)).any (fun t => (if cmd = 0 then s.portsNow.rd else s.portsNow.wr).contains t) ||
      (decide (cmd ≠ 0) && s.rowCopied (pAddr p) (pCount p)))

/-- NOC_RD: answered by RDR; data units that an uncorrectable error touches carry `PSN` (R340). -/
def execNocRd (p : Packet) (s : State) : Host.Outcome State Fault Refusal :=
  if s.portBusy p 0 then s.go
  else s.request p 0 (fun s => s.serve p (fun e s => s.answer p e) (fun reg s =>
    let a := pAddr p
    let n := pCount p
    let r := s.busRead a n reg
    r.1.reply p 3 r.2.1 0 (List.replicate (a % 16) 0 ++ r.2.2.1 ++ List.replicate (16 * unitsOf a n - a % 16 - n) 0) r.2.2.2))

/-- The bytes that a write request carries. -/
def writeBytes (p : Packet) : List Byte := (p.data.drop (pAddr p % 16)).take (pCount p)

/-- NOC_WR: a write with `PSN` in a data unit is answered POISON and writes nothing. -/
def execNocWr (p : Packet) (s : State) : Host.Outcome State Fault Refusal :=
  if s.portBusy p 1 then s.go
  else s.request p 1 (fun s => s.serve p (fun e s => s.answer p e) (fun reg s =>
    if p.psn ≠ 0 then s.answer p 6
    else let r := s.busWrite (pAddr p) (writeBytes p) reg; r.1.answer p r.2))

/-- NOC_WRP: a posted write; its credit joins the return count (R334). -/
def execNocWrp (p : Packet) (s : State) : Host.Outcome State Fault Refusal :=
  if s.portBusy p 2 then s.go
  else s.request p 2 (fun s => s.serve p (fun _ s => s.freePosted p) (fun reg s =>
    if p.psn ≠ 0 then s.freePosted p
    else (s.busWrite (pAddr p) (writeBytes p) reg).1.freePosted p))

/-! ### Accesses of Crucible, the management port and JTAG

An access that these make is answered within the command that makes it: the statuses are those its packets would meet. On a scratch
port that a cell uses in the slot, it comes after the cell's access (R124). -/

/-- Where an access fails before it reaches its block: UNMAPPED, FENCED, DOWN or ALIGN. -/
def State.blocked (s : State) (a n : Nat) : Option (State × Nat) :=
  match destOf a with
  | none => some (s, 2)
  | some (d, reg) =>
    if d < 0x100 ∧ s.fenced d 0 then some (s, 7)
    else if s.down d a then some ((s.count (Reg.nocCnt 0) 15 0).setBit Reg.nocStatus 0 true, 1)
    else if !accessOk a n reg then some (s, 3)
    else none

/-- The kind of an address's window. -/
def isRegister (a : Nat) : Bool := match destOf a with
  | some (_, r) => r
  | none => false

/-- One access that reads. -/
def State.accessRead (s : State) (a n : Nat) : State × Nat × List Byte :=
  match s.blocked a n with
  | some (t, e) => (t, e, [])
  | none => let r := s.busRead a n (isRegister a); (r.1, r.2.1, r.2.2.1)

/-- One access that writes. -/
def State.accessWrite (s : State) (a : Nat) (b : List Byte) : State × Nat :=
  match s.blocked a b.length with
  | some (t, e) => (t, e)
  | none => s.busWrite a b (isRegister a)

/-- The network can be used: the global domain is powered (R434, R485). -/
def State.netOn (s : State) : Bool := s.pwr.globalOn && s.powered

/-- REGISTER_WRITE: a write of a word reaches its register (R483). -/
def execRegisterWrite (a : BitVec 40) (v : W32) (s : State) : Host.Outcome State Fault Refusal :=
  if !s.netOn || !isRegister a.toNat then s.go else (s.accessWrite a.toNat (bytesLe 4 v.toNat)).1.go

/-- Whether the access register of the TAP is open: `DEBUG` is set (R471). -/
def State.jtagOpen (s : State) : Bool := s.netOn && s.rbit Reg.hlmStatus 22

/-- The TAP takes up instruction 0x10: the balls follow the device again; while debug is locked it selects the bypass register. -/
def State.tapDebug (s : State) : State :=
  if s.powered then
    { s with mgt := { s.mgt with ir := 0x10, held := none, highz := false, tdr := if s.jtagOpen then s.mgt.tdr else 0 } }
  else s

/-- JTAG_ACCESS_READ: instruction 0x10 with op 0b01. -/
def execJtagAccessRead (a : BitVec 40) (s : State) : Host.Outcome State Fault Refusal :=
  let s0 := s.tapDebug
  if !s.jtagOpen then s0.go
  else
    let r := s0.accessRead a.toNat 4
    ({ r.1 with mgt := { r.1.mgt with accDone := true, accStatus := BitVec.ofNat 8 r.2.1,
                                      accData := BitVec.ofNat 32 (leAt r.2.2 0 4) } } : State).go

/-- JTAG_ACCESS_WRITE: op 0b10. -/
def execJtagAccessWrite (a : BitVec 40) (v : W32) (s : State) : Host.Outcome State Fault Refusal :=
  let s0 := s.tapDebug
  if !s.jtagOpen then s0.go
  else
    let r := s0.accessWrite a.toNat (bytesLe 4 v.toNat)
    ({ r.1 with mgt := { r.1.mgt with accDone := true, accStatus := BitVec.ofNat 8 r.2, accData := 0 } } : State).go

end Sys2Proof.Machine
end

