-- ==== Sys2Proof/Machine/Frames.lean ====
section
/-!
DEFINITION. Sys2Proof/Machine/Frames.lean: the Ethernet frames of the management port: filters, ARP, ICMP echo, IPv4 and UDP, and
the header of a request or a response (R457, R459, R460).
-/
namespace Sys2Proof.Machine

/-! ### Numbers in network order -/

/-- A big-endian number at an offset of a byte list. -/
def beAt (l : List Byte) (o n : Nat) : Nat := ((l.drop o).take n).foldl (fun a b => 256 * a + b.toNat) 0

/-- The sum of 16-bit big-endian words; an odd last byte counts as the high half of a word. -/
def sum16 : List Byte → Nat
  | [] => 0
  | [a] => 256 * a.toNat
  | a :: b :: l => 256 * a.toNat + b.toNat + sum16 l

/-- A ones'-complement sum folded to 16 bits. -/
def fold16 (n : Nat) : Nat :=
  let a := n / 65536 + n % 65536
  let b := a / 65536 + a % 65536
  b / 65536 + b % 65536

/-- The Internet checksum of some bytes. -/
def inetSum (l : List Byte) : Nat := 65535 - fold16 (sum16 l)

/-! ### The device's addresses -/

/-- The device's MAC address, first octet sent first. -/
def State.macBytes (s : State) : List Byte :=
  bytesBe 2 (s.fld Reg.mgtMacHi 15 0) ++ bytesBe 4 (s.reg Reg.mgtMacLo).toNat
/-- The device's IPv4 address. -/
def State.ipNow (s : State) : Nat := (s.reg Reg.mgtIp).toNat
def State.portNow (s : State) : Nat := s.fld Reg.mgtCfg 31 16

/-- A frame leaves the port. -/
def State.sendFrame (s : State) (f : List Byte) : State := { s with mgt := { s.mgt with sent := s.mgt.sent ++ [f] } }
/-- A payload is discarded and counted in `MGT_CNT1.DROP`. -/
def State.mgtDrop (s : State) : State := s.count Reg.mgtCnt1 31 16

/-! ### Datagrams -/

/-- An IPv4 header without options. Type of service, identification, the don't-fragment bit and time to live are free. -/
def ipHeader (free : BitVec 64) (src dst proto len : Nat) : List Byte :=
  let h (c : Nat) : List Byte := [0x45] ++ bytesBe 1 (bitsOf free 7 0) ++ bytesBe 2 (20 + len) ++ bytesBe 2 (bitsOf free 23 8) ++
    bytesBe 2 (bitsOf free 24 24 * 0x4000) ++ bytesBe 1 (bitsOf free 39 32) ++ bytesBe 1 proto ++ bytesBe 2 c ++ bytesBe 4 src ++ bytesBe 4 dst
  h (inetSum (h 0))

/-- The sum of the UDP pseudo header. -/
def udpPseudo (src dst len : Nat) : List Byte := bytesBe 4 src ++ bytesBe 4 dst ++ [0, 17] ++ bytesBe 2 len

/-- A UDP datagram with its checksum; a sum of 0 is sent as 0xFFFF (RFC 768). -/
def udpDatagram (src dst sport dport : Nat) (data : List Byte) : List Byte :=
  let len := 8 + data.length
  let h (c : Nat) : List Byte := bytesBe 2 sport ++ bytesBe 2 dport ++ bytesBe 2 len ++ bytesBe 2 c ++ data
  let c := inetSum (udpPseudo src dst len ++ h 0)
  h (if c = 0 then 0xFFFF else c)

/-- An Ethernet II frame, without check sequence and padding. -/
def etherFrame (dst src : List Byte) (typ : Nat) (data : List Byte) : List Byte := dst ++ src ++ bytesBe 2 typ ++ data

/-- An IPv4 datagram leaves for a MAC and an IPv4 address. -/
def State.sendIp (s : State) (mac : List Byte) (ip proto : Nat) (data : List Byte) : State × List Byte :=
  let d := s.draw
  let f := etherFrame mac d.2.macBytes 0x0800 (ipHeader d.1 d.2.ipNow ip proto data.length ++ data)
  (d.2.sendFrame f, f)

/-! ### ARP and ICMP echo (R457) -/

/-- The reply to an ARP request for the device's address (RFC 826). -/
def State.arp (s : State) (src p : List Byte) : State :=
  if beAt p 0 2 = 1 ∧ beAt p 2 2 = 0x0800 ∧ beAt p 4 1 = 6 ∧ beAt p 5 1 = 4 ∧ beAt p 6 2 = 1 ∧ beAt p 24 4 = s.ipNow ∧ 28 ≤ p.length then
    s.sendFrame (etherFrame src s.macBytes 0x0806
      (bytesBe 2 1 ++ bytesBe 2 0x0800 ++ [6, 4] ++ bytesBe 2 2 ++ s.macBytes ++ bytesBe 4 s.ipNow ++ (p.drop 8).take 10))
  else s

/-- The answer to an echo request with a good checksum (RFC 792). -/
def State.echo (s : State) (mac : List Byte) (ip : Nat) (d : List Byte) : State :=
  if s.rbit Reg.mgtCfg 0 ∧ 8 ≤ d.length ∧ beAt d 0 2 = 0x0800 ∧ inetSum d = 0 then
    (let r (c : Nat) : List Byte := [0, 0] ++ bytesBe 2 c ++ d.drop 4
     (s.sendIp mac ip 1 (r (inetSum (r 0)))).1)
  else s

/-! ### Requests (R459, Table 1) -/

/-- A request from a UDP payload; none where `MAGIC`, length or `LEN` are wrong. -/
def parseRequest (mac : List Byte) (ip port : Nat) (d : List Byte) : Option MgtReq :=
  let len := leAt d 6 2
  if d.length < 16 ∨ leAt d 0 2 ≠ 0x4D47 ∨ len % 4 ≠ 0 ∨ 1024 < len ∨ d.length ≠ 16 + len then none
  else
    let r : MgtReq := { mac := mac, ip := BitVec.ofNat 32 ip, port := BitVec.ofNat 16 port, op := BitVec.ofNat 8 (leAt d 2 1),
                        status := BitVec.ofNat 8 (leAt d 3 1), seq := BitVec.ofNat 16 (leAt d 4 2),
                        arg := BitVec.ofNat 64 (leAt d 8 8), data := d.drop 16 }
    some r

/-- A request is malformed: an unknown `OP`, a `STATUS`, or an `ARG` or `LEN` that breaks Table 2 or Table 4 (R459, R460, R466). -/
def MgtReq.bad (r : MgtReq) : Bool :=
  let n := r.data.length
  let count := bitsOf r.arg 51 40
  let total := bitsOf r.arg 63 40
  let v := bitsOf r.arg 63 32
  r.status != 0 || (match r.op.toNat with
    | 1 => decide (bitsOf r.arg 63 52 ≠ 0 ∨ count < 4 ∨ 1024 < count ∨ count % 4 ≠ 0 ∨ n ≠ 0)
    | 2 => decide (bitsOf r.arg 63 40 ≠ 0 ∨ n < 4)
    | 3 => decide (bitsOf r.arg 31 8 ≠ 0 ∨ n ≠ 0) || (match bitsOf r.arg 7 0 with
        | 0 => decide (v ≠ 0)
        | 1 => false
        | 2 => decide (543 < v)
        | _ => true)
    | 4 => decide (total < 4 ∨ total % 4 ≠ 0 ∨ n ≠ 0)
    | 5 => decide (bitsOf r.arg 63 33 ≠ 0 ∨ bitsOf r.arg 31 0 % 4 ≠ 0 ∨ n < 4)
    | 6 => decide (bitsOf r.arg 63 33 ≠ 0 ∨ n ≠ 0)
    | _ => true)

/-! ### Responses (R457, R459, R463) -/

/-- A response leaves for the source of its request: the frame as sent. -/
def State.respondTo (s : State) (r : MgtReq) (status : Nat) (arg : Nat) (data : List Byte) : State × List Byte :=
  let p := bytesLe 2 0x4D47 ++ [r.op] ++ bytesLe 1 status ++ bytesLe 2 r.seq.toNat ++ bytesLe 2 data.length ++ bytesLe 8 arg ++ data
  s.sendIp r.mac r.ip.toNat 17 (udpDatagram s.ipNow r.ip.toNat s.portNow r.port.toNat p)

/-- The response kept of a source: the last 16 sources answered. -/
def State.keep (s : State) (r : MgtReq) (status : Nat) (frame : List Byte) : State :=
  let l := s.mgt.kept.filter (fun k => !(k.ip == r.ip && k.port == r.port)) ++
    [{ ip := r.ip, port := r.port, op := r.op, seq := r.seq, status := BitVec.ofNat 8 status, frame := frame }]
  { s with mgt := { s.mgt with kept := l.drop (l.length - 16) } }

/-- The request is answered: sent, kept and counted. -/
def State.answered (s : State) (r : MgtReq) (status : Nat) (arg : Nat) (data : List Byte) : State :=
  let q := s.respondTo r status arg data
  let s1 := (q.1.keep r status q.2).count Reg.mgtCnt0 31 16
  if status = 0x10 then s1.count Reg.mgtCnt0 15 0 else s1

/-- The response kept for a request's source, where it answers the same request. -/
def State.keptFor (s : State) (r : MgtReq) : Option Kept :=
  s.mgt.kept.find? (fun k => k.ip == r.ip && k.port == r.port && k.op == r.op && k.seq == r.seq)

/-- The kept response is sent once more. -/
def State.resend (s : State) (k : Kept) : State := ((s.sendFrame k.frame).count Reg.mgtCnt1 15 0).count Reg.mgtCnt0 31 16

/-- The start has not reached step 6: every request is answered LOCKED (R458). -/
def State.tooEarly (s : State) : Bool := decide (s.phase = 0) || (decide (s.phase = 1) && decide (s.fld Reg.bootStatus 27 24 < 6))

/-- Malformed requests at the head of the queue are answered, so that the head is a request with a row of its own. -/
def State.settleBad : Nat → State → State
  | 0, s => s
  | n + 1, s => match s.mgt.queue with
    | r :: rest =>
      if r.bad then
        (let s1 : State := { s with mgt := { s.mgt with queue := rest } }
         State.settleBad n (match s1.keptFor r with
           | some k => if k.status = 0x10 ∨ k.status = 0x11 ∨ k.status = 4 then s1.answered r (if s1.tooEarly then 4 else 0x11) 0 [] else s1.resend k
           | none => s1.answered r (if s1.tooEarly then 4 else 0x11) 0 []))
      else s
    | [] => s

/-- The port is up: from the end of step 4 (R458). -/
def State.portOn (s : State) : Bool := s.netOn && (decide (s.fld Reg.pwrStatus 31 30 = 1) || decide (s.phase = 5))

/-- A UDP payload reaches the device: discarded, answered from a kept response, or queued (R459, R461, R463). -/
def State.payload (s : State) (mac : List Byte) (ip port : Nat) (d : List Byte) : State :=
  match parseRequest mac ip port d with
  | none => s.mgtDrop
  | some r => match s.keptFor r with
    | some k => s.resend k
    | none =>
      if 32 ≤ s.mgt.queue.length then s.mgtDrop
      else State.settleBad 33 { s with mgt := { s.mgt with queue := s.mgt.queue ++ [r] } }

/-- An IPv4 packet for the device. -/
def State.datagram (s : State) (mac p : List Byte) : State :=
  let len := beAt p 2 2
  let src := beAt p 12 4
  let d := (p.take len).drop 20
  if p.length < 20 ∨ beAt p 0 1 / 16 ≠ 4 ∨ beAt p 16 4 ≠ s.ipNow then s
  else if beAt p 0 1 % 16 ≠ 5 ∨ beAt p 6 2 % 0x4000 ≠ 0 ∨ inetSum (p.take 20) ≠ 0 ∨ len < 20 ∨ p.length < len then s.mgtDrop
  else if beAt p 9 1 = 1 then s.echo mac src d
  else if beAt p 9 1 ≠ 17 ∨ beAt d 2 2 ≠ s.portNow then s
  else
    let n := beAt d 4 2
    if beAt d 6 2 ≠ 0 ∧ inetSum (udpPseudo src s.ipNow n ++ d.take n) ≠ 0 then s.mgtDrop
    else if n < 8 ∨ d.length < n then s.mgtDrop
    else s.payload mac src (beAt d 0 2) ((d.take n).drop 8)

/-- MGMT_FRAME: a frame, from its destination address to its last payload byte, without check sequence (R457). -/
def execMgmtFrame (f : List Byte) (s : State) : Host.Outcome State Fault Refusal :=
  let dst := f.take 6
  let src := (f.drop 6).take 6
  let p := f.drop 14
  if !s.portOn ∨ f.length < 14 ∨ 1500 < p.length ∨ !(decide (dst = s.macBytes) || decide (dst = List.replicate 6 0xFF)) then s.go
  else if beAt f 12 2 = 0x0806 then (s.arp src p).go
  else if beAt f 12 2 = 0x0800 then (s.datagram src p).go
  else s.go

end Sys2Proof.Machine
end

