-- ==== Sys2Proof/Machine/Pins.lean ====
section
/-!
DEFINITION. Sys2Proof/Machine/Pins.lean: the ball map, the boundary register, and what the device drives on its output balls
(R470, R479, R492 to R496, R503, R506).
-/
namespace Sys2Proof.Machine

/-! ### The ball map (R492 to R496) -/

/-- What a ball is; `neg` is the N leg of a pair, `tx` the transmit pair of a lane, `b` timing lane B. -/
inductive Ball where
  | lane (l : Nat) (tx neg : Bool) | lqref (q : Nat) (neg : Bool) | lres (q : Nat)
  | timing (b neg : Bool) | sysRefclk (neg : Bool) | mgRx (neg : Bool) | mgTx (neg : Bool) | mgRefclk (neg : Bool)
  | xsClk | xsDqs | xsDq (i : Nat) | xsCs (i : Nat) | xsReset
  | i2cScl | i2cSda | i2cA (i : Nat) | pmbScl | pmbSda | tck | tms | tdi | tdo | trst | faultN | resetN | testEn | tdiode (neg : Bool)
  | dec (b : Nat) (neg : Bool) | cal (c : Nat) (neg : Bool) | throttle (n : Nat) (neg : Bool) | busy (neg : Bool)
  | cxClk (neg : Bool) | orbit (neg : Bool)
  | vinCore | vlane | vlaneH | vio18 | vaon | vfuse | nc | vss
deriving DecidableEq, Repr

/-- The letters of row names (Table 1). -/
def rowLetters : List String := ["A", "B", "C", "D", "E", "F", "G", "H", "J", "K", "L", "M", "N", "P", "T", "U", "V", "W", "Y"]

/-- Name of a row index, 1 to 65. -/
def rowName (r : Nat) : String :=
  (match (r - 1) / 19 with | 0 => "" | 1 => "A" | 2 => "B" | _ => "C") ++ rowLetters.getD ((r - 1) % 19) ""

/-- Name of a ball by row index and column. -/
def ballName (r c : Nat) : String := rowName r ++ toString c

/-- A ball of the lane fields: in the band of quadrant `q`, row `i` of the band from 0, the quads from `j0` on; `p` is 4k + 2 from the
field's outer edge for a P ball and 4k + 3 for an N ball (R494). -/
def laneBall (q i j0 p : Nat) : Ball :=
  if p % 4 = 2 ∨ p % 4 = 3 then .lane (4 * (15 * q + j0 + i / 2) + (p - 2) / 4) (i % 2 == 1) (p % 4 == 3) else .vss

/-- A ball of row A. -/
def rowABall (c : Nat) : Ball :=
  let n := c % 3 == 1
  if 36 ≤ c ∧ c ≤ 48 then
    (if c = 36 then .xsClk else if c = 37 then .xsDqs else if c ≤ 45 then .xsDq (c - 38) else if c ≤ 47 then .xsCs (c - 46) else .xsReset)
  else if c % 3 = 2 ∨ 35 ≤ c then .vss
  else match (c - 18) / 3 with
    | 0 => .timing false n | 1 => .timing true n | 2 => .sysRefclk n | 3 => .mgRx n | 4 => .mgTx n | _ => .mgRefclk n

/-- A ball of row B. -/
def rowBBall (c : Nat) : Ball :=
  if 42 ≤ c then .vaon else if 34 ≤ c then .vio18
  else ([.i2cScl, .i2cSda, .i2cA 0, .i2cA 1, .i2cA 2, .pmbScl, .pmbSda, .tck, .tms, .tdi, .tdo, .trst, .faultN, .resetN, .testEn,
    .tdiode false, .tdiode true] : List Ball).getD (c - 17) .vss

/-- A ball of the trigger row. -/
def triggerBall (c : Nat) : Ball :=
  let n := c % 2 == 0
  if c ≤ 32 then .dec ((c - 1) / 2) n
  else if c ≤ 40 then .cal ((c - 33) / 2) n
  else if c ≤ 48 then .throttle ((c - 41) / 2) n
  else if c ≤ 50 then .busy n else if c ≤ 52 then .cxClk n else if c ≤ 54 then .orbit n else .vss

/-- A ball of the supply core, row index 5 to 64, column 17 to 49. -/
def coreBall (r c : Nat) : Ball :=
  if c = 17 ∨ c = 49 then .vlane
  else if c = 18 ∨ c = 48 then (if (r - 5) % 3 = 0 then .vlaneH else .vss)
  else if (r + c) % 2 = 0 then .vinCore else .vss

/-- The ball at a row index and a column, 1 to 65 each. -/
def ballAt (r c : Nat) : Ball :=
  let q := (r - 1) / 16
  let i := (r - 1) % 16
  if r = 65 then triggerBall c
  else if c ≤ 16 then laneBall q i 0 c
  else if 50 ≤ c then
    (if i < 14 then laneBall q i 8 (66 - c)
     else if c = 64 then (if i = 14 then .lqref q false else .lres q)
     else if c = 63 ∧ i = 14 then .lqref q true else .vss)
  else if r = 1 then rowABall c
  else if r = 2 then rowBBall c
  else if r = 3 then (if c ≤ 32 then .vio18 else if c ≤ 34 then .vfuse else .vss)
  else if r = 4 then .nc
  else coreBall r c

/-- Every ball of the grid. -/
def allBalls : List Ball := (List.range 65).flatMap (fun r => (List.range 65).map (fun c => ballAt (r + 1) (c + 1)))

/-- A supply, or a ball without function. -/
def Ball.isSupply : Ball → Bool
  | .vinCore | .vlane | .vlaneH | .vio18 | .vaon | .vfuse | .nc | .vss => true
  | _ => false

/-! ### The boundary register (R506) -/

/-- A cell of the boundary register. -/
inductive CellKind where
  | data | enable | input | pullLow
deriving DecidableEq, Repr

/-- The ball, of a pair its P leg, and the kind of boundary cell `i` (Table 7). -/
def boundaryCell (i : Nat) : Ball × CellKind :=
  let out : CellKind := if i % 2 = 0 then .data else .enable
  if i < 32 then (.dec (i / 2) false, out)
  else if i < 40 then (.cal ((i - 32) / 2) false, out)
  else if i < 48 then (.throttle ((i - 40) / 2) false, out)
  else if i < 50 then (.busy false, out)
  else if i = 50 then (.cxClk false, .input)
  else if i = 51 then (.orbit false, .input)
  else if i < 54 then (.xsClk, out)
  else if i < 58 then (.xsCs ((i - 54) / 2), out)
  else if i < 60 then (.xsReset, out)
  else if i < 87 then
    (if i < 63 then .xsDqs else .xsDq ((i - 63) / 3), if i % 3 = 0 then .input else if i % 3 = 1 then .data else .enable)
  else if i < 95 then
    (if i < 89 then .i2cScl else if i < 91 then .i2cSda else if i < 93 then .pmbScl else .pmbSda, if i % 2 = 1 then .input else .pullLow)
  else if i < 98 then (.i2cA (i - 95), .input)
  else if i = 98 then (.resetN, .input)
  else (.faultN, if i = 99 then .input else .pullLow)

/-- Level and enable of an output of the device logic: `DEC` and `CAL` are enabled from their release on, `THROTTLE` and `BUSY` while the
global domain has power (R388, R503). -/
def State.logicOut (s : State) : Ball → Option (Bool × Bool)
  | .dec b _ => some (s.decPins.getLsbD b, s.boot.outDec)
  | .cal c _ => some (s.tsb.calPins.getLsbD c, s.boot.outCal)
  | .throttle n _ => some (s.rbit Reg.drzPins n, s.pwr.globalOn)
  | .busy _ => some (s.rbit Reg.drzPins 4, s.pwr.globalOn)
  | _ => none

/-- What cell `i` captures: of an output that the device logic drives, its level and its enable, 1 for driven (PRESUMED: R506 gives the
enable cell no polarity); of `FAULT_N`, whether the device pulls it low; elsewhere what stands at the ball. -/
def State.cellCaptures (s : State) (pins : BitVec 101) (i : Nat) : Bool :=
  let c := boundaryCell i
  match c.2, s.logicOut c.1 with
  | .data, some o => o.1
  | .enable, some o => o.2
  | .pullLow, _ => if c.1 = .faultN then !s.faultN else pins.getLsbD i
  | _, _ => pins.getLsbD i

/-- The boundary register after a capture, with `pins` at the balls that the device logic does not drive. -/
def State.ballsCaptured (s : State) (pins : BitVec 101) : BitVec 101 :=
  (List.range 101).foldl (fun v i => if s.cellCaptures pins i then v ||| BitVec.ofNat 101 (2 ^ i) else v) 0

/-- Level of an output pair at its balls, none where they are high-impedance: under EXTEST and CLAMP what the update stage holds, under
HIGHZ nothing, else what the device logic drives (R470, R506). -/
def State.ballLevel (s : State) (b : Ball) : Option Bool :=
  match s.mgt.held with
  | some u =>
    match (List.range 50).find? (fun i => decide (boundaryCell i = (b, .data))) with
    | some i => if u.getLsbD (i + 1) then some (u.getLsbD i) else none
    | none => none
  | none =>
    if s.mgt.highz then none
    else match s.logicOut b with
      | some (v, true) => some v
      | _ => none

/-- Level of the `FAULT_N` ball with nothing else on its wire: under EXTEST its pull-low cell drives it low, under every other
instruction the device does (R479, R506). -/
def State.faultBall (s : State) : Bool := match s.mgt.held with
  | some u => if s.mgt.ir = 0 then !u.getLsbD 100 else s.faultN
  | none => s.faultN

end Sys2Proof.Machine
end

