-- ==== Sys2Proof/Machine/Mgmt.lean ====
section
/-!
DEFINITION. Sys2Proof/Machine/Mgmt.lean: the requests of the management port, the I2C target and the TAP (chapter 19; R375, R376,
R389, R394). A row serves the request at the head of Crucible's queue, where it is of the row's kind.
-/
namespace Sys2Proof.Machine

/-! ### Who may do what (R389, R394, R458, R462) -/

/-- A source is on the allowlist. -/
def State.allowed (s : State) (ip : W32) : Bool :=
  (List.range 16).any (fun i =>
    let n := s.fld (Reg.mgtAllowCtl i) 5 0
    s.rbit (Reg.mgtAllowCtl i) 31 && decide (n ≤ 32) &&
      decide (ip.toNat / 2 ^ (32 - n) = (s.reg (Reg.mgtAllowAddr i)).toNat / 2 ^ (32 - n)))

/-- What becomes of a request before it is served: the status that refuses it. `k` is the bit of ENABLE_WRITES that opens it,
none for a request that reads; `base` says that base-note mode serves it. -/
def State.barred (s : State) (r : MgtReq) (k : Option Nat) (base : Bool) : Option Nat :=
  if s.tooEarly then some 4
  else if s.phase = 5 then (if base then none else some 4)
  else match k with
    | none => none
    | some b => if !s.boot.enable.getLsbD b then some 4 else if !s.allowed r.ip then some 0x10 else none

/-- What a request comes to: status, `ARG`, data. -/
abbrev Reply := Nat × Nat × List Byte

/-- The request at the head of the queue is served by `f` where it is one of the row's: a retry is answered from the kept
response, unless that was DENIED, BADREQ or LOCKED (R463, R467). -/
def State.serveHead (s : State) (mine : MgtReq → Bool) (k : Option Nat) (base : MgtReq → Bool)
    (f : State → MgtReq → State × Option Reply) : State :=
  match s.mgt.queue with
  | [] => s
  | r :: rest =>
    if !s.portOn || r.bad || !mine r then s
    else
      let s1 : State := { s with mgt := { s.mgt with queue := rest } }
      let run : State := match s1.barred r k (base r) with
        | some e => s1.answered r e (if r.op = 1 then r.arg.toNat else 0) []
        | none =>
          let q := f s1 r
          match q.2 with
          | some x => q.1.answered r x.1 x.2.1 x.2.2
          | none => q.1
      State.settleBad 33 (match s1.keptFor r with
        | some p => if p.status = 0x10 ∨ p.status = 0x11 ∨ p.status = 4 then run else s1.resend p
        | none => run)

/-! ### READ, WRITE, STREAM_READ (R461, R464) -/

/-- The accesses of a range: split at every aligned 256-byte boundary. -/
def pieces : Nat → Nat → Nat → List (Nat × Nat)
  | 0, _, _ => []
  | k + 1, a, n => if n = 0 then [] else let m := min n (256 - a % 256); (a, m) :: pieces k (a + m) (n - m)

/-- A range is read, up to the first access whose status is not OK. -/
def State.readRange (s : State) : List (Nat × Nat) → List Byte → State × Nat × List Byte
  | [], acc => (s, 0, acc)
  | (a, n) :: l, acc =>
    let r := s.accessRead a n
    if r.2.1 = 0 then r.1.readRange l (acc ++ r.2.2) else (r.1, r.2.1, [])

/-- A range is written, up to the first access whose status is not OK: status and bytes written before it. -/
def State.writeRange (s : State) (done : Nat) : List (Nat × Nat) → List Byte → State × Nat × Nat
  | [], _ => (s, 0, done)
  | (a, n) :: l, d =>
    let r := s.accessWrite a (d.take n)
    if r.2 = 0 then r.1.writeRange (done + n) l (d.drop n) else (r.1, r.2, done)

/-- READ. -/
def execMgmtRead (s : State) : Host.Outcome State Fault Refusal :=
  (s.serveHead (fun r => r.op == 1) none (fun _ => true) (fun s r =>
    let q := s.readRange (pieces 5 (bitsOf r.arg 39 0) (bitsOf r.arg 51 40)) []
    (q.1, some (q.2.1, r.arg.toNat, q.2.2)))).go

/-- WRITE; base-note mode serves a write of `BOOT_CMD` alone. -/
def execMgmtWrite (s : State) : Host.Outcome State Fault Refusal :=
  (s.serveHead (fun r => r.op == 2) (some 0) (fun r => decide (bitsOf r.arg 39 0 = Reg.bootCmd) && decide (r.data.length = 4)) (fun s r =>
    let q := s.writeRange 0 (pieces 5 (bitsOf r.arg 39 0) r.data.length) r.data
    (q.1, some (q.2.1, q.2.2, [])))).go

/-- The pieces of a stream, of up to 1,024 bytes each; a piece whose access fails ends it. -/
def State.stream : Nat → State → MgtReq → Nat → Nat → State
  | 0, s, _, _, _ => s
  | k + 1, s, r, a, n =>
    let m := min n 1024
    let q := s.readRange (pieces 5 a m) []
    let last := decide (n ≤ 1024) || decide (q.2.1 ≠ 0)
    let arg := a + (if last then 2 ^ 40 else 0)
    if last then q.1.answered r q.2.1 arg q.2.2
    else State.stream k (q.1.respondTo r q.2.1 arg q.2.2).1 r (a + m) (n - m)

/-- STREAM_READ. -/
def execStreamRead (s : State) : Host.Outcome State Fault Refusal :=
  (s.serveHead (fun r => r.op == 4) none (fun _ => false) (fun s r =>
    (State.stream 16384 s r (bitsOf r.arg 39 0) (bitsOf r.arg 63 40), none))).go

/-! ### Images (R375, R376, R465) -/

/-- The active slot of the directory in force, if there is one. -/
def State.activeSlot (s : State) : Option Nat := s.flash.directory.map (·.active)

/-- A slot that takes an image: not the active one, and there. -/
def State.slotOpen (s : State) (slot : Nat) : Bool :=
  s.activeSlot != some slot && (decide (slot = 0) || s.rbit Reg.bootStatus 11)

def State.mark (s : State) (slot : Nat) : Nat := if slot = 0 then s.mgt.markA else s.mgt.markB
def State.setMark (s : State) (slot n : Nat) : State :=
  if slot = 0 then { s with mgt := { s.mgt with markA := n } } else { s with mgt := { s.mgt with markB := n } }
def State.setDirty (s : State) (slot : Nat) (b : Bool) : State :=
  { s with mgt := { s.mgt with dirty := putBits s.mgt.dirty slot slot (if b then 1 else 0) } }

/-- A directory record with the length of one slot changed; `act` is the slot it makes active. -/
def State.putDirectory (s : State) (act slot len : Nat) : State :=
  let d := s.flash.directory
  let l (i : Nat) : Nat := if i = slot then len else match d with | some r => r.slotLen i | none => 0
  let mf := match d with | some r => r.maxFail | none => 3
  s.commitAll.commitNow 1 (dirPayload act mf (l 0) (l 1))

/-- The slot is marked EMPTY by the first IMAGE_WRITE since its last IMAGE_COMMIT. -/
def State.markEmpty (s : State) (slot : Nat) : State :=
  if s.mgt.dirty.getLsbD slot then s
  else (s.putDirectory ((s.activeSlot).getD (1 - slot)) slot 0).setDirty slot true

/-- Bytes are written into a slot: every block of 64 KiB whose first byte is among them is erased first. -/
def Flash.program (f : Flash) (slot off : Nat) (b : List Byte) : Flash :=
  let base := slot * 2 ^ 26
  let starts := (List.range (b.length / 65536 + 2)).map (fun i => (off / 65536 + i) * 65536)
  let blocks := starts.filter (fun x => decide (off ≤ x ∧ x < off + b.length))
  let img := f.img.filter (fun e => !blocks.any (fun x => decide (base + x ≤ e.1 ∧ e.1 < base + x + 65536)))
  { f with img := ((List.range b.length).zip b).foldl (fun m x => Tbl.set 0xFF m (base + off + x.1) x.2) img }

/-- IMAGE_WRITE; `flashOk` says whether the flash erased and programmed. What a failed write leaves in the bytes is free. -/
def execImageWrite (flashOk : Bool) (s : State) : Host.Outcome State Fault Refusal :=
  (s.serveHead (fun r => r.op == 5) (some 2) (fun _ => true) (fun s r =>
    let slot := bitsOf r.arg 32 32
    let off := bitsOf r.arg 31 0
    let n := r.data.length
    if !s.slotOpen slot then (s, some (0x12, 0, []))
    else if (off ≠ 0 ∧ off ≠ s.mark slot) ∨ 2 ^ 26 < off + n then (s, some (0x13, 0, []))
    else
      let s1 := if off = 0 then (s.markEmpty slot).setMark slot 0 else s
      if flashOk then
        (({ s1 with flash := s1.flash.program slot off r.data } : State).setMark slot (off + n), some (0, 0, []))
      else
        let d := s1.drawBytes ((n + 7) / 8)
        ({ d.1 with flash := d.1.flash.program slot off (d.2.take n) }, some (0x15, 0, [])))).go

/-- IMAGE_COMMIT: an operation that Hallmark runs comes first (R455). -/
def execImageCommit (flashOk : Bool) (s : State) : Host.Outcome State Fault Refusal :=
  if s.hlm.running.isSome then s.go
  else (s.serveHead (fun r => r.op == 6) (some 2) (fun _ => true) (fun s r =>
    let slot := bitsOf r.arg 32 32
    let len := bitsOf r.arg 31 0
    if !s.slotOpen slot then (s, some (0x12, 0, []))
    else if s.mark slot < len then (s, some (0x13, 0, []))
    else
      let s1 := s.setDirty slot false
      match s1.checkImage slot len with
      | .error e => (s1, some (0x14, e.code, []))
      | .ok _ => if flashOk then (s1.putDirectory slot slot len, some (0, 0, [])) else (s, some (0x15, 0, [])))).go

/-! ### COMMAND (R466) -/

/-- A COMMAND of a code. -/
def isCommand (c : Nat) (r : MgtReq) : Bool := r.op == 3 && bitsOf r.arg 7 0 == c

/-- PING: the time as served. -/
def execPing (s : State) : Host.Outcome State Fault Refusal :=
  (s.serveHead (isCommand 0) (some 0) (fun _ => false) (fun s _ =>
    (s, some (0, s.tsb.orbit.toNat % 2 ^ 32 * 2 ^ 32 + s.tsb.crossing * 2 ^ 16 + s.tsb.slot % 128, [])))).go

/-- ACCORD: the value is written to `GLB_ACCORD_CMD`. -/
def execAccord (s : State) : Host.Outcome State Fault Refusal :=
  (s.serveHead (isCommand 1) (some 0) (fun _ => false) (fun s r =>
    let q := s.accessWrite Reg.accordCmd (bytesLe 4 (bitsOf r.arg 63 32))
    (q.1, some (q.2, 0, [])))).go

/-- ENGINE_DEAD: an engine already dead, or a spare that serves no logical engine, stays as it is. -/
def execEngineDead (s : State) : Host.Outcome State Fault Refusal :=
  (s.serveHead (isCommand 2) (some 0) (fun _ => false) (fun s r =>
    let p := bitsOf r.arg 41 32
    (if 32 ≤ p % 34 ∧ s.logOf p = none then s else s.declareDead p, some (0, 0, [])))).go

/-- MGT_LINK_CHANGE. -/
def execMgtLinkChange (up : Bool) (s : State) : Host.Outcome State Fault Refusal :=
  if s.netOn then (s.setBit Reg.mgtStatus 31 up).go else s.go

/-! ### The I2C target (R468, R469) -/

/-- The target's 7-bit address. -/
def State.i2cAddr (s : State) : Nat := 0x58 + s.mgt.straps.toNat

/-- A pointer's register (Table 5). -/
def State.i2cReg (s : State) (p : Nat) : W32 :=
  if p = 0 then BitVec.ofNat 32 (0x4E160001 + Config.stepping.toNat * 256)
  else if p = 1 then s.reg Reg.bootStatus
  else if p = 2 then s.reg Reg.pwrStatus
  else if p = 3 then s.reg Reg.pwrSecState
  else if p = 4 then s.reg Reg.pwrOc
  else if p = 5 then s.reg Reg.pwrSensFail
  else if p ≤ 8 then s.reg (Reg.pwrRailTel (p - 6))
  else if p ≤ 0xB then s.reg (Reg.pwrRailStat (p - 9))
  else if p = 0xC then s.reg Reg.memLastUe0
  else if p = 0xD then s.reg Reg.memLastUe1
  else if 0x10 ≤ p ∧ p ≤ 0x1F then s.reg (Reg.pwrTemp (p - 0x10))
  else if p = 0x3F then s.mgt.i2cLast
  else if !s.pwr.globalOn then 0
  else if p = 0x20 then s.reg Reg.tsbStatus
  else if p = 0x21 then s.reg Reg.admStatus
  else if p = 0x22 then s.reg Reg.accordStatus
  else if p = 0x23 then s.reg Reg.hlmStatus
  else if p = 0x24 then s.reg Reg.hlmUidLo
  else if p = 0x25 then s.reg Reg.hlmUidHi
  else 0

/-- I2C_READ: the four bytes as captured, and the PEC over the whole transfer. -/
def execI2cRead (ptr : Byte) (s : State) : Host.Outcome State Fault Refusal :=
  if !s.powered then s.go
  else
    let d := bytesLe 4 (s.i2cReg ptr.toNat).toNat
    let pec := pecOf (bytesLe 1 (2 * s.i2cAddr) ++ [ptr] ++ bytesLe 1 (2 * s.i2cAddr + 1) ++ d)
    ({ s with mgt := { s.mgt with i2cOut := d ++ [pec] } } : State).go

/-- The device is in thermal off, or in rail-off. -/
def State.thermalOff (s : State) : Bool := decide (s.fld Reg.pwrStatus 31 30 = 2)
def State.inRailOff (s : State) : Bool := decide (s.fld Reg.pwrStatus 31 30 = 3) && !s.pwr.globalOn

/-- `I2C_LAST` after a command. -/
def State.i2cResult (s : State) (ptr code : Nat) : State :=
  { s with mgt := { s.mgt with i2cLast := BitVec.ofNat 32 (ptr * 2 ^ 24 + code) } }

/-- A command of the I2C target: PEC, confirm byte and permission, then its action with its result. `early` says that base-note
mode, thermal off and rail-off accept it. -/
def State.i2cCommand (s : State) (ptr : Nat) (confirm pec : Byte) (data : List Byte) (early : Bool) (f : State → State × Nat) : State :=
  if !s.powered then s
  else if pec ≠ pecOf (bytesLe 1 (2 * s.i2cAddr) ++ bytesLe 1 ptr ++ [confirm] ++ data) then s.i2cResult ptr 1
  else if confirm ≠ BitVec.ofNat 8 (ptr ^^^ 0xFF) then s.i2cResult ptr 2
  else if !(if s.phase = 5 ∨ s.thermalOff ∨ s.inRailOff then early else s.boot.enable.getLsbD 1) then s.i2cResult ptr 3
  else let q := f s; q.1.i2cResult ptr q.2

/-- I2C_RESTART. -/
def execI2cRestart (confirm pec : Byte) (s : State) : Host.Outcome State Fault Refusal :=
  (s.i2cCommand 0x80 confirm pec [] true (fun s =>
    if s.thermalOff && !s.rearmed then (s, 4) else (s.askRestart, 0))).go

/-- I2C_CLEAR_FAILS: held where the flash cannot be reached. -/
def execI2cClearFails (confirm pec : Byte) (s : State) : Host.Outcome State Fault Refusal :=
  (s.i2cCommand 0x81 confirm pec [] true (fun s =>
    (if s.thermalOff || s.inRailOff then { s with pwr := { s.pwr with heldClear := true } } else s.clearFails, 0))).go

/-- I2C_PWR_CLEAR. -/
def execI2cPwrClear (confirm pec : Byte) (s : State) : Host.Outcome State Fault Refusal :=
  (s.i2cCommand 0x82 confirm pec [] false (fun s => (s.pwrClearNow, 0))).go

/-- I2C_SECTOR_RETRY. -/
def execI2cSectorRetry (mask : BitVec 16) (confirm pec : Byte) (s : State) : Host.Outcome State Fault Refusal :=
  (s.i2cCommand 0x83 confirm pec (bytesLe 2 mask.toNat) false (fun s => (s.pwrRetry mask.toNat, 0))).go

/-! ### Boundary scan (R470, R506) -/

/-- The TAP takes up an instruction: EXTEST and CLAMP hold the balls at the boundary register's update stage, HIGHZ holds them
off, every other leaves them to the device. -/
def State.tapInstr (s : State) (ir : Byte) (held : Option (BitVec 101)) (hz : Bool) : State :=
  if s.powered then { s with mgt := { s.mgt with ir := ir, held := held, highz := hz } } else s

/-- EXTEST. -/
def execExtest (s : State) : Host.Outcome State Fault Refusal := (s.tapInstr 0 (some s.mgt.update) false).go

/-- SAMPLE_PRELOAD: the boundary register captures the balls, `pins` where the device logic drives none, and takes a preload. -/
def execSamplePreload (pins load : BitVec 101) (s : State) : Host.Outcome State Fault Refusal :=
  let s1 := s.tapInstr 1 none false
  if s.powered then ({ s1 with mgt := { s1.mgt with boundary := s.ballsCaptured pins, update := load } } : State).go else s1.go

/-- IDCODE. -/
def execIdcode (s : State) : Host.Outcome State Fault Refusal :=
  let s1 := s.tapInstr 2 none false
  if s.powered then ({ s1 with mgt := { s1.mgt with tdr := idcode } } : State).go else s1.go

/-- CLAMP: with the bypass register selected. -/
def execClamp (s : State) : Host.Outcome State Fault Refusal :=
  let s1 := s.tapInstr 3 (some s.mgt.update) false
  if s.powered then ({ s1 with mgt := { s1.mgt with tdr := 0 } } : State).go else s1.go

/-- HIGHZ: with the bypass register selected. -/
def execHighz (s : State) : Host.Outcome State Fault Refusal :=
  let s1 := s.tapInstr 4 none true
  if s.powered then ({ s1 with mgt := { s1.mgt with tdr := 0 } } : State).go else s1.go

/-- BYPASS. -/
def execBypass (s : State) : Host.Outcome State Fault Refusal :=
  let s1 := s.tapInstr 0xFF none false
  if s.powered then ({ s1 with mgt := { s1.mgt with tdr := 0 } } : State).go else s1.go

end Sys2Proof.Machine
end

