-- ==== Sys2Proof/Machine/Dispatch.lean ====
section
/-!
DEFINITION. Sys2Proof/Machine/Dispatch.lean: one arm for each command, each a direct call of its meaning.
-/
namespace Sys2Proof.Machine

def exec (i : Instr) (s : State) : Host.Outcome State Fault Refusal :=
  match i with
  | .slotAdvance => Sys2Proof.Machine.execSlotAdvance s
  | .crossingAdvance => Sys2Proof.Machine.execCrossingAdvance s
  | .orbitAdvance qref => Sys2Proof.Machine.execOrbitAdvance qref s
  | .tsbNowRead => Sys2Proof.Machine.execTsbNowRead s
  | .timingWord lane word => Sys2Proof.Machine.execTimingWord lane word s
  | .nop => Sys2Proof.Machine.execNop s
  | .orbit => Sys2Proof.Machine.execOrbit s
  | .orbitPinMarker => Sys2Proof.Machine.execOrbitPinMarker s
  | .accept => Sys2Proof.Machine.execAccept s
  | .resync => Sys2Proof.Machine.execResync s
  | .testpulse => Sys2Proof.Machine.execTestpulse s
  | .calstrobe => Sys2Proof.Machine.execCalstrobe s
  | .calPinFall pin => Sys2Proof.Machine.execCalPinFall pin s
  | .counterReset => Sys2Proof.Machine.execCounterReset s
  | .quietStart => Sys2Proof.Machine.execQuietStart s
  | .quietEnd => Sys2Proof.Machine.execQuietEnd s
  | .accordSwitch => Sys2Proof.Machine.execAccordSwitch s
  | .reservedCommand => Sys2Proof.Machine.execReservedCommand s
  | .timingLaneFailure lane lossOfLock => Sys2Proof.Machine.execTimingLaneFailure lane lossOfLock s
  | .failover => Sys2Proof.Machine.execFailover s
  | .timingLaneQualify lane steps => Sys2Proof.Machine.execTimingLaneQualify lane steps s
  | .tsbSwap => Sys2Proof.Machine.execTsbSwap s
  | .tsbRealign => Sys2Proof.Machine.execTsbRealign s
  | .tsbSnap mask => Sys2Proof.Machine.execTsbSnap mask s
  | .fclkLock => Sys2Proof.Machine.execFclkLock s
  | .lockTimeout noEdge => Sys2Proof.Machine.execLockTimeout noEdge s
  | .clockLoss => Sys2Proof.Machine.execClockLoss s
  | .clockReturn steps => Sys2Proof.Machine.execClockReturn steps s
  | .holdoverExpiry => Sys2Proof.Machine.execHoldoverExpiry s
  | .returnQualified => Sys2Proof.Machine.execReturnQualified s
  | .laneAcquireLock l => Sys2Proof.Machine.execLaneAcquireLock l s
  | .mirpelFrame l blocks ago => Sys2Proof.Machine.execMirpelFrame l blocks ago s
  | .rawCrossing l raw ago => Sys2Proof.Machine.execRawCrossing l raw ago s
  | .frameDelivery l => Sys2Proof.Machine.execFrameDelivery l s
  | .laneLoss l => Sys2Proof.Machine.execLaneLoss l s
  | .laneJoin l => Sys2Proof.Machine.execLaneJoin l s
  | .laneRealign l => Sys2Proof.Machine.execLaneRealign l s
  | .laneAdopt l => Sys2Proof.Machine.execLaneAdopt l s
  | .rxEnWrite l on => Sys2Proof.Machine.execRxEnWrite l on s
  | .txEnWrite l on => Sys2Proof.Machine.execTxEnWrite l on s
  | .pdWrite l on => Sys2Proof.Machine.execPdWrite l on s
  | .mirpelTxFrame l => Sys2Proof.Machine.execMirpelTxFrame l s
  | .systemTxFrame l => Sys2Proof.Machine.execSystemTxFrame l s
  | .readoutTxFrame l => Sys2Proof.Machine.execReadoutTxFrame l s
  | .cellNop c => Sys2Proof.Machine.execCellNop c s
  | .cellPass c => Sys2Proof.Machine.execCellPass c s
  | .cellConst c => Sys2Proof.Machine.execCellConst c s
  | .cellAdd c => Sys2Proof.Machine.execCellAdd c s
  | .cellSub c => Sys2Proof.Machine.execCellSub c s
  | .cellAdds c => Sys2Proof.Machine.execCellAdds c s
  | .cellMin c => Sys2Proof.Machine.execCellMin c s
  | .cellMax c => Sys2Proof.Machine.execCellMax c s
  | .cellAbs c => Sys2Proof.Machine.execCellAbs c s
  | .cellCmp c => Sys2Proof.Machine.execCellCmp c s
  | .cellThr c => Sys2Proof.Machine.execCellThr c s
  | .cellAnd c => Sys2Proof.Machine.execCellAnd c s
  | .cellOr c => Sys2Proof.Machine.execCellOr c s
  | .cellXor c => Sys2Proof.Machine.execCellXor c s
  | .cellNot c => Sys2Proof.Machine.execCellNot c s
  | .cellShl c => Sys2Proof.Machine.execCellShl c s
  | .cellShr c => Sys2Proof.Machine.execCellShr c s
  | .cellAsr c => Sys2Proof.Machine.execCellAsr c s
  | .cellMul8 c => Sys2Proof.Machine.execCellMul8 c s
  | .cellSel c => Sys2Proof.Machine.execCellSel c s
  | .cellLut4 c => Sys2Proof.Machine.execCellLut4 c s
  | .cellCnt c => Sys2Proof.Machine.execCellCnt c s
  | .cellAcc c => Sys2Proof.Machine.execCellAcc c s
  | .cellDelay c => Sys2Proof.Machine.execCellDelay c s
  | .cellSrd c => Sys2Proof.Machine.execCellSrd c s
  | .cellSwr c => Sys2Proof.Machine.execCellSwr c s
  | .decEdge b => Sys2Proof.Machine.execDecEdge b s
  | .sorterCapture k => Sys2Proof.Machine.execSorterCapture k s
  | .sorterEmit k => Sys2Proof.Machine.execSorterEmit k s
  | .mergeCapture => Sys2Proof.Machine.execMergeCapture s
  | .mergeEmit => Sys2Proof.Machine.execMergeEmit s
  | .queuePush q => Sys2Proof.Machine.execQueuePush q s
  | .queuePop q => Sys2Proof.Machine.execQueuePop q s
  | .markGapLand q => Sys2Proof.Machine.execMarkGapLand q s
  | .postResponse q => Sys2Proof.Machine.execPostResponse q s
  | .markRefusedLand q => Sys2Proof.Machine.execMarkRefusedLand q s
  | .streamSend q => Sys2Proof.Machine.execStreamSend q s
  | .budgetOverrun p => Sys2Proof.Machine.execBudgetOverrun p s
  | .slotEvent p => Sys2Proof.Machine.execSlotEvent p s
  | .engFault p => Sys2Proof.Machine.execEngFault p s
  | .watchdog p => Sys2Proof.Machine.execWatchdog p s
  | .holdoff p => Sys2Proof.Machine.execHoldoff p s
  | .inWake p => Sys2Proof.Machine.execInWake p s
  | .outWake p => Sys2Proof.Machine.execOutWake p s
  | .declareDead p => Sys2Proof.Machine.execDeclareDead p s
  | .spareCopyComplete p => Sys2Proof.Machine.execSpareCopyComplete p s
  | .engNop p => Sys2Proof.Machine.execEngNop p s
  | .illegalInstruction p => Sys2Proof.Machine.execIllegalInstruction p s
  | .engBr p => Sys2Proof.Machine.execEngBr p s
  | .engCall p => Sys2Proof.Machine.execEngCall p s
  | .engRet p => Sys2Proof.Machine.execEngRet p s
  | .engRep p => Sys2Proof.Machine.execEngRep p s
  | .engLoop p => Sys2Proof.Machine.execEngLoop p s
  | .engYield p => Sys2Proof.Machine.execEngYield p s
  | .engDone p => Sys2Proof.Machine.execEngDone p s
  | .engEvt p => Sys2Proof.Machine.execEngEvt p s
  | .engSync p => Sys2Proof.Machine.execEngSync p s
  | .engIn p => Sys2Proof.Machine.execEngIn p s
  | .engOut p => Sys2Proof.Machine.execEngOut p s
  | .engSignal p => Sys2Proof.Machine.execEngSignal p s
  | .engClrf p => Sys2Proof.Machine.execEngClrf p s
  | .engPost p => Sys2Proof.Machine.execEngPost p s
  | .aluAdd p => Sys2Proof.Machine.execAluAdd p s
  | .aluSub p => Sys2Proof.Machine.execAluSub p s
  | .aluAdds p => Sys2Proof.Machine.execAluAdds p s
  | .aluSubs p => Sys2Proof.Machine.execAluSubs p s
  | .aluAnd p => Sys2Proof.Machine.execAluAnd p s
  | .aluOr p => Sys2Proof.Machine.execAluOr p s
  | .aluXor p => Sys2Proof.Machine.execAluXor p s
  | .aluNot p => Sys2Proof.Machine.execAluNot p s
  | .aluNeg p => Sys2Proof.Machine.execAluNeg p s
  | .aluAbs p => Sys2Proof.Machine.execAluAbs p s
  | .aluMin p => Sys2Proof.Machine.execAluMin p s
  | .aluMax p => Sys2Proof.Machine.execAluMax p s
  | .aluCmp p => Sys2Proof.Machine.execAluCmp p s
  | .aluTst p => Sys2Proof.Machine.execAluTst p s
  | .aluShl p => Sys2Proof.Machine.execAluShl p s
  | .aluShr p => Sys2Proof.Machine.execAluShr p s
  | .aluAsr p => Sys2Proof.Machine.execAluAsr p s
  | .aluCnt p => Sys2Proof.Machine.execAluCnt p s
  | .aluLdi p => Sys2Proof.Machine.execAluLdi p s
  | .engLdx p => Sys2Proof.Machine.execEngLdx p s
  | .engLdy p => Sys2Proof.Machine.execEngLdy p s
  | .engStx p => Sys2Proof.Machine.execEngStx p s
  | .engSty p => Sys2Proof.Machine.execEngSty p s
  | .engMov p => Sys2Proof.Machine.execEngMov p s
  | .engMac p => Sys2Proof.Machine.execEngMac p s
  | .engMsu p => Sys2Proof.Machine.execEngMsu p s
  | .engMpy p => Sys2Proof.Machine.execEngMpy p s
  | .engClrmac p => Sys2Proof.Machine.execEngClrmac p s
  | .dispatcherCycle cmds posts flags => Sys2Proof.Machine.execDispatcherCycle cmds posts flags s
  | .flagSetArrival src => Sys2Proof.Machine.execFlagSetArrival src s
  | .itemCopyComplete p => Sys2Proof.Machine.execItemCopyComplete p s
  | .dispatch p => Sys2Proof.Machine.execDispatch p s
  | .dptCancel t => Sys2Proof.Machine.execDptCancel t s
  | .dptResume t => Sys2Proof.Machine.execDptResume t s
  | .dptDisable t => Sys2Proof.Machine.execDptDisable t s
  | .dptEnable t => Sys2Proof.Machine.execDptEnable t s
  | .dptDrain t => Sys2Proof.Machine.execDptDrain t s
  | .dptSignal t f => Sys2Proof.Machine.execDptSignal t f s
  | .dptClrf t f => Sys2Proof.Machine.execDptClrf t f s
  | .engDisable p => Sys2Proof.Machine.execEngDisable p s
  | .engEnable p => Sys2Proof.Machine.execEngEnable p s
  | .dispatcherReset => Sys2Proof.Machine.execDispatcherReset s
  | .dispatcherResume => Sys2Proof.Machine.execDispatcherResume s
  | .sillageWrite => Sys2Proof.Machine.execSillageWrite s
  | .sillageRestart => Sys2Proof.Machine.execSillageRestart s
  | .packetOpen k => Sys2Proof.Machine.execPacketOpen k s
  | .builderWord k => Sys2Proof.Machine.execBuilderWord k s
  | .packetClose k => Sys2Proof.Machine.execPacketClose k s
  | .readerTakePacket d => Sys2Proof.Machine.execReaderTakePacket d s
  | .rptrWrite d v => Sys2Proof.Machine.execRptrWrite d v s
  | .throttlePinEdge => Sys2Proof.Machine.execThrottlePinEdge s
  | .routerHeader r port p => Sys2Proof.Machine.execRouterHeader r port p s
  | .ageIncrement r port p => Sys2Proof.Machine.execAgeIncrement r port p s
  | .nocRd p => Sys2Proof.Machine.execNocRd p s
  | .nocWr p => Sys2Proof.Machine.execNocWr p s
  | .nocWrp p => Sys2Proof.Machine.execNocWrp p s
  | .nocRdr p => Sys2Proof.Machine.execNocRdr p s
  | .nocWra p => Sys2Proof.Machine.execNocWra p s
  | .nocCret p => Sys2Proof.Machine.execNocCret p s
  | .nocPost p => Sys2Proof.Machine.execNocPost p s
  | .nocPrsp p => Sys2Proof.Machine.execNocPrsp p s
  | .nocStrm p => Sys2Proof.Machine.execNocStrm p s
  | .nocRstn p => Sys2Proof.Machine.execNocRstn p s
  | .cretSend pool req => Sys2Proof.Machine.execCretSend pool req s
  | .replyTimeout src tag => Sys2Proof.Machine.execReplyTimeout src tag s
  | .fenceBroadcast => Sys2Proof.Machine.execFenceBroadcast s
  | .admissionRun period => Sys2Proof.Machine.execAdmissionRun period s
  | .admissionComplete => Sys2Proof.Machine.execAdmissionComplete s
  | .powerOnReset env => Sys2Proof.Machine.execPowerOnReset env s
  | .warmRestart env => Sys2Proof.Machine.execWarmRestart env s
  | .waitLock => Sys2Proof.Machine.execWaitLock s
  | .releaseOutputs => Sys2Proof.Machine.execReleaseOutputs s
  | .releaseSetreset => Sys2Proof.Machine.execReleaseSetreset s
  | .enableWrites => Sys2Proof.Machine.execEnableWrites s
  | .waitAlign timeout => Sys2Proof.Machine.execWaitAlign timeout s
  | .admitStep => Sys2Proof.Machine.execAdmitStep s
  | .runStart => Sys2Proof.Machine.execRunStart s
  | .recordCommit => Sys2Proof.Machine.execRecordCommit s
  | .bootRestart => Sys2Proof.Machine.execBootRestart s
  | .bootClearFails => Sys2Proof.Machine.execBootClearFails s
  | .reloadComplete k => Sys2Proof.Machine.execReloadComplete k s
  | .regionRejoin k => Sys2Proof.Machine.execRegionRejoin k s
  | .accordStagingComplete => Sys2Proof.Machine.execAccordStagingComplete s
  | .glbSwitch n => Sys2Proof.Machine.execGlbSwitch n s
  | .glbPrepare n => Sys2Proof.Machine.execGlbPrepare n s
  | .glbUnprepare n => Sys2Proof.Machine.execGlbUnprepare n s
  | .scrubRead x => Sys2Proof.Machine.execScrubRead x s
  | .scrubRewrite x => Sys2Proof.Machine.execScrubRewrite x s
  | .repairCopyStart m => Sys2Proof.Machine.execRepairCopyStart m s
  | .repairCopyComplete m => Sys2Proof.Machine.execRepairCopyComplete m s
  | .injectionArm w => Sys2Proof.Machine.execInjectionArm w s
  | .railPoll r v => Sys2Proof.Machine.execRailPoll r v s
  | .sectorPowerGood k => Sys2Proof.Machine.execSectorPowerGood k s
  | .sectorPowerTimeout k => Sys2Proof.Machine.execSectorPowerTimeout k s
  | .orderlyDownComplete k => Sys2Proof.Machine.execOrderlyDownComplete k s
  | .sectorOvercurrent k => Sys2Proof.Machine.execSectorOvercurrent k s
  | .sensorSample vi v => Sys2Proof.Machine.execSensorSample vi v s
  | .throttleUpdate => Sys2Proof.Machine.execThrottleUpdate s
  | .thermalTrip vi => Sys2Proof.Machine.execThermalTrip vi s
  | .pwrRetry mask => Sys2Proof.Machine.execPwrRetry mask s
  | .pwrClear => Sys2Proof.Machine.execPwrClear s
  | .challenge => Sys2Proof.Machine.execChallenge s
  | .attest => Sys2Proof.Machine.execAttest s
  | .certRead => Sys2Proof.Machine.execCertRead s
  | .certStore => Sys2Proof.Machine.execCertStore s
  | .keySet vfuse => Sys2Proof.Machine.execKeySet vfuse s
  | .keyRevoke vfuse => Sys2Proof.Machine.execKeyRevoke vfuse s
  | .debugUnlock => Sys2Proof.Machine.execDebugUnlock s
  | .debugLock => Sys2Proof.Machine.execDebugLock s
  | .genkey vfuse => Sys2Proof.Machine.execGenkey vfuse s
  | .hallmarkOpComplete readBack => Sys2Proof.Machine.execHallmarkOpComplete readBack s
  | .mgmtFrame f => Sys2Proof.Machine.execMgmtFrame f s
  | .mgmtRead => Sys2Proof.Machine.execMgmtRead s
  | .mgmtWrite => Sys2Proof.Machine.execMgmtWrite s
  | .streamRead => Sys2Proof.Machine.execStreamRead s
  | .imageWrite flashOk => Sys2Proof.Machine.execImageWrite flashOk s
  | .imageCommit flashOk => Sys2Proof.Machine.execImageCommit flashOk s
  | .ping => Sys2Proof.Machine.execPing s
  | .accord => Sys2Proof.Machine.execAccord s
  | .engineDead => Sys2Proof.Machine.execEngineDead s
  | .i2cRead ptr => Sys2Proof.Machine.execI2cRead ptr s
  | .i2cRestart confirm pec => Sys2Proof.Machine.execI2cRestart confirm pec s
  | .i2cClearFails confirm pec => Sys2Proof.Machine.execI2cClearFails confirm pec s
  | .i2cPwrClear confirm pec => Sys2Proof.Machine.execI2cPwrClear confirm pec s
  | .i2cSectorRetry mask confirm pec => Sys2Proof.Machine.execI2cSectorRetry mask confirm pec s
  | .extest => Sys2Proof.Machine.execExtest s
  | .samplePreload pins load => Sys2Proof.Machine.execSamplePreload pins load s
  | .idcode => Sys2Proof.Machine.execIdcode s
  | .clamp => Sys2Proof.Machine.execClamp s
  | .highz => Sys2Proof.Machine.execHighz s
  | .bypass => Sys2Proof.Machine.execBypass s
  | .jtagAccessRead a => Sys2Proof.Machine.execJtagAccessRead a s
  | .jtagAccessWrite a v => Sys2Proof.Machine.execJtagAccessWrite a v s
  | .glbResetSector mask => Sys2Proof.Machine.execGlbResetSector mask s
  | .glbResetQuad mask => Sys2Proof.Machine.execGlbResetQuad mask s
  | .registerWrite a v => Sys2Proof.Machine.execRegisterWrite a v s
  | .powerRemoval => Sys2Proof.Machine.execPowerRemoval s
  | .vfuseFall => Sys2Proof.Machine.execVfuseFall s
  | .sensorNotUpdated vi => Sys2Proof.Machine.execSensorNotUpdated vi s
  | .lqclkLock q => Sys2Proof.Machine.execLqclkLock q s
  | .mgtLinkChange up => Sys2Proof.Machine.execMgtLinkChange up s
  | .emergencyDownComplete k => Sys2Proof.Machine.execEmergencyDownComplete k s

end Sys2Proof.Machine
end

