-- ==== Sys2Proof/Safety.lean ====
section
/-!
DEFINITION. Sys2Proof/Safety.lean: what a safe step is, the forms of the state that every step keeps, and what no step undoes.
-/
namespace Sys2Proof

open Sys2Proof.Machine

/-- A step is safe when it answers a next state: it neither faults nor is refused. -/
def Safe (o : Host.Outcome State Fault Refusal) : Prop := ∃ t, o = .next t

/-- The memory windows are in their canonical form. -/
abbrev Memory.wf (m : List Host.Cell) : Bool := Tbl.wf 0 m

/-- The form of a state: every sparse table has its keys strictly rising and lists no entry that its own key reads as, and no stream
queue holds more than its 8 stages (R179). -/
structure Machine.State.Inv (s : State) : Prop where
  mem : Memory.wf s.mem = true
  regs : Tbl.wfBy regReset s.regs = true
  cells : Tbl.wf CellSt.dflt s.cells = true
  sorters : Tbl.wf Sorter.dflt s.sorters = true
  lanes : Tbl.wf LaneSt.dflt s.lanes = true
  queues : Tbl.wf Queue.dflt s.queues = true
  engines : Tbl.wf EngSt.dflt s.engines = true
  readout : Tbl.wf Readout.dflt s.readout = true
  drz : Tbl.wf Drz.dflt s.drz = true
  tasks : Tbl.wf TaskSt.dflt s.dpt.tasks = true
  engDpt : Tbl.wf EngDpt.dflt s.dpt.eng = true
  reloads : Tbl.wf none s.reloads = true
  flips : Tbl.wf 0 s.prot.flips = true
  stages : ∀ q, (s.queue q).stages.length ≤ 8

/-- What no command undoes in the fuses: the identifier stands, a key slot never goes back to an earlier state, the device key's seeds
and a spoilt seed field stay (R444, R445). -/
structure FusesKept (f g : Fuses) : Prop where
  uid : g.uid = f.uid
  slots : ∀ i : Fin 6, (f.slots.get i).code ≤ (g.slots.get i).code
  seeds : f.seeds ≠ none → g.seeds = f.seeds
  spoilt : f.spoilt = true → g.spoilt = true

/-- The command answers a next state, and that state has `P`. -/
def Completes (c : Instr) (s : State) (P : State → Prop) : Prop := ∃ t, exec c s = .next t ∧ P t

/-- Every register outside a list reads as before. -/
def RegsKept (but : List Nat) (s t : State) : Prop := ∀ a, a ∉ but → t.reg a = s.reg a

/-- Every byte of the memory windows reads as before. -/
def BytesKept (s t : State) : Prop := ∀ a, t.byte a = s.byte a

/-- The count stands: orbit, crossing, slot, and the model's own two time bases. -/
structure CountKept (s t : State) : Prop where
  orbit : t.tsb.orbit = s.tsb.orbit
  crossing : t.tsb.crossing = s.tsb.crossing
  slot : t.tsb.slot = s.tsb.slot
  cx : t.tsb.cx = s.tsb.cx
  tick : t.tsb.tick = s.tsb.tick

/-- The commands that may move the count: an edge of `FCLK`, an orbit marker, the lock from which the count starts, and what resets
Touchstone or removes its clock. -/
def movesCount : Instr → Bool
  | .slotAdvance | .crossingAdvance | .orbitAdvance _ | .orbit | .orbitPinMarker | .fclkLock | .powerOnReset _ | .warmRestart _
  | .railPoll _ _ | .thermalTrip _ | .powerRemoval => true
  | _ => false

/-- The orbit marker that a command gives, and the ORBIT payload: the crossing it marks, in the model's crossing count (R37, R39,
R50). -/
def MarkerOf (c : Instr) (s : State) (k : Int) (p : Option Byte) : Prop :=
  (c = .orbit ∧ s.fld Reg.tsbCtrl 1 0 = 1 ∧ ∃ j b, s.tsb.orbitDue = some (j, b) ∧ k = (j : Int) ∧ p = some b) ∨
  (c = .orbitPinMarker ∧ s.fld Reg.tsbCtrl 1 0 = 0 ∧ k = (s.tsb.cx : Int) + (if s.fld Reg.tsbPhase 9 0 = 0 then 0 else 1) ∧ p = none)

/-- With a frame or raw crossing of row `row` and these flags of invalid sync headers, oldest first, an aligned lane meets no condition
of a loss (R90). -/
def StaysAligned (s : State) (l : LaneNo) (bad : List Bool) (row : Nat) : Prop :=
  (s.lane l).unlocked = false ∧ (((bad.reverse ++ (s.lane l).sync).take 64).filter id).length < 16 ∧
    (if row = 2 ∨ row = 3 then (s.lane l).badHdr + 1 else 0) < (if s.fld (Reg.lanCfg l) 3 0 = 0 then 4 else s.fld (Reg.lanCfg l) 3 0) ∧
    ((s.lane l).late = false ∨ s.laneState l ≠ 5)

/-- The lane is lost in the cycle in which it checked the frame of crossing `x` of the model's count: it aligns from ACQUIRE, the loss
counts, and that frame will be dark (R90, R91). -/
def LostWith (l : LaneNo) (x : Nat) (s t : State) : Prop :=
  t.laneState l = 1 ∧ t.rbit (Reg.lanLat l) 31 = false ∧ t.rbit (Reg.lanStatus l) 6 = true ∧
  t.fld (Reg.lanEvtcnt l) 15 8 = satAdd 255 (s.fld (Reg.lanEvtcnt l) 15 8) 1 ∧
  (∃ f ∈ (t.lane l).frames, f.cx = x + s.fld (Reg.lanEq l) 29 24 ∧ f.lost = true) ∧
  (∀ k, k ≠ l.val → t.lane k = s.lane k) ∧ CountKept s t ∧ BytesKept s t ∧
  RegsKept [Reg.lanErrcnt l, Reg.lanStatus l, Reg.lanLat l, Reg.lanEvtcnt l, Reg.glbFault] s t

/-- The cell field in force for a cell in the current slot. -/
def fieldNow (s : State) (c : CellNo) : BitVec 64 := s.cellField (c.val / 4) (s.curCtx (c.val / 4)) (c.val % 4)

/-- The command issues an operation in the cell, with `P` of what it makes; nothing else of the device changes (R115). -/
def Issues (i : Instr) (c : CellNo) (s : State) (P : Issue → Prop) : Prop :=
  Completes i s (fun t => (∃ u, t.cell c = { s.cell c with issued := some u } ∧ u.field = fieldNow s c ∧ P u) ∧
    (∀ k, k ≠ c.val → t.cell k = s.cell k) ∧ t = { s with cells := t.cells })

/-! ### Engines -/

/-- The command of a cycle that an engine instruction names. -/
def Machine.EngOp.row : EngOp → Option (EngineNo → Instr)
  | .nop => some .engNop | .br => some .engBr | .call => some .engCall | .ret => some .engRet | .rep => some .engRep
  | .loop => some .engLoop | .yield => some .engYield | .done => some .engDone | .evt => some .engEvt | .sync => some .engSync
  | .inp => some .engIn | .out => some .engOut | .signal => some .engSignal | .clrf => some .engClrf | .post => some .engPost
  | .ldx => some .engLdx | .ldy => some .engLdy | .stx => some .engStx | .sty => some .engSty | .mov => some .engMov
  | .illegal => some .illegalInstruction
  | .mac op => if op = 0 then some .engMac else if op = 1 then some .engMsu else if op = 2 then some .engMpy
    else if op = 3 then some .engClrmac else none
  | .alu op => [Instr.aluAdd, .aluSub, .aluAdds, .aluSubs, .aluAnd, .aluOr, .aluXor, .aluNot, .aluNeg, .aluAbs, .aluMin, .aluMax,
    .aluCmp, .aluTst, .aluShl, .aluShr, .aluAsr, .aluCnt, .aluLdi][op]?

/-- The instructions in stages D, A, R, M and W. -/
def Machine.EngSt.stages (g : EngSt) : List (Option PSlot) := [g.stD, g.stA, g.stR, g.stM, g.stW]

/-- A cycle of a solo engine is due whose pipeline moves; no event is visible, and its memories hold no bit in error. -/
structure Moves (s : State) (p : EngineNo) : Prop where
  solo : s.gang p = [p.val]
  due : s.cycleDue p = true
  noIn : s.inHold p = false
  noOut : s.outHold p = false
  noPost : s.postHold p = false
  runs : (s.eng p).run = .running ∨ (s.eng p).run = .handler
  calm : (s.eng p).irq = none
  clean : s.protIdle = true

/-- Such a cycle with nothing left to fetch. -/
def Drains (s : State) (p : EngineNo) : Prop := Moves s p ∧ (s.eng p).fetching = false

/-- Such a cycle that fetches at the next address: no loop, no repetition, nothing to be fetched again. -/
def FetchesOn (s : State) (p : EngineNo) (b : Bank) : Prop :=
  Moves s p ∧ (s.eng p).fetching = true ∧ b = (s.eng p).bank (s.eng p).handler.isSome ∧ b.again = [] ∧ b.rep = none ∧ b.loop = none

/-- The instruction at a program address of an engine. -/
def progSlot (s : State) (p : EngineNo) (a : BitVec 11) (sh copy : Bool) : PSlot :=
  { word := BitVec.ofNat 32 (s.le (engWin p + 4 * a.toNat) 4), addr := a, shadow := sh, copy := copy }

/-- The command changes nothing but the engine, which then has `P`. -/
def EngDoes (i : Instr) (p : EngineNo) (s : State) (P : EngSt → Prop) : Prop :=
  Completes i s (fun t => P (t.eng p) ∧ (∀ k, k ≠ p.val → t.eng k = s.eng k) ∧ t = { s with engines := t.engines })

/-- Everything of an engine but its pipeline and the bank `sh` stands. -/
def RestKept (sh : Bool) (g g' : EngSt) : Prop :=
  g'.bank (!sh) = g.bank (!sh) ∧
  g' = { g with fg := g'.fg, sh := g'.sh, stD := g'.stD, stA := g'.stA, stR := g'.stR, stM := g'.stM, stW := g'.stW, cycled := g'.cycled }

/-- The fetching of a bank stands. -/
def FetchKept (b b' : Bank) : Prop :=
  b'.loop = b.loop ∧ b'.rep = b.rep ∧ b'.again = b.again ∧ b'.next = b.next ∧ b'.xfer1 = b.xfer1 ∧ b'.xfer2 = b.xfer2

/-- A 16-bit word as a register takes it and gives it back (R245); `st` is what ST held. -/
def narrowed (code : Nat) (v st : W16) : W16 :=
  if (0x10 ≤ code ∧ code < 0x18) ∨ (0x20 ≤ code ∧ code < 0x28) then v &&& 0x0FFF
  else if code = 0x0A ∨ code = 0x0E then (v.setWidth 8).signExtend 16
  else if code = 0x2A then (st &&& 0x0300) ||| (v &&& 0x00FF)
  else if code = 0x2B then v &&& 0x0007
  else v

/-- A register code was written in the bank `sh`, and no other register of the engine. -/
def WritesCode (sh : Bool) (code : Nat) (v : W16) (g g' : EngSt) : Prop :=
  (∀ x, readable x = true → x < 0x30 →
    g'.readReg sh x = if x = code then narrowed code v (g.readReg sh 0x2A) else g.readReg sh x) ∧
  (∀ i, i < 2 → (g'.bank sh).cf i = ((g.bank sh).cf i && !decide (8 + 4 * i ≤ code ∧ code ≤ 10 + 4 * i))) ∧
  FetchKept (g.bank sh) (g'.bank sh) ∧
  RestKept sh { g with poi := g'.poi, und := g'.und, sat := g'.sat, gov := g'.gov, govp := g'.govp, ev := g'.ev } g'

/-- Post-modification (R213). -/
def PostModified (circular : Bool) (a base len : BitVec 12) (m : W16) (a' : BitVec 12) : Prop :=
  (a'.toNat : Int) = (if circular = true ∧ len ≠ 0 then (base.toNat : Int) + ((a.toNat : Int) - base.toNat + m.toInt) % len.toNat
    else (a.toNat : Int) + m.toInt) % 4096

/-- An address register of X memory is used and post-modified by a modifier; only that register changes. -/
def UsesX (b b' : Bank) (i m : Nat) (a : BitVec 12) : Prop :=
  a = b.ax.toArray.getD i 0 ∧
  PostModified (decide (i < 2)) a (b.base.toArray.getD i 0) (b.len.toArray.getD i 0) (b.mx.toArray.getD m 0) (b'.ax.toArray.getD i 0) ∧
  (∀ j, j ≠ i → b'.ax.toArray.getD j 0 = b.ax.toArray.getD j 0)
/-- The same of Y memory. -/
def UsesY (b b' : Bank) (i m : Nat) (a : BitVec 12) : Prop :=
  a = b.ay.toArray.getD i 0 ∧
  PostModified (decide (i < 2)) a (b.base.toArray.getD (2 + i) 0) (b.len.toArray.getD (2 + i) 0) (b.my.toArray.getD m 0)
    (b'.ay.toArray.getD i 0) ∧
  (∀ j, j ≠ i → b'.ay.toArray.getD j 0 = b.ay.toArray.getD j 0)

/-- The source of a store, move or OUT in stage W (R211, R255): as stage A read it, or an accumulator or a part of one now. -/
def StoreSource (g : EngSt) (k : PSlot) (code sh : Nat) (v : W16) (sat : Bool) : Prop :=
  if code = 0x30 ∨ code = 0x31 then
    (v.toInt = max (-32768) (min 32767 (((g.bank k.shadow).ac (code - 0x30)).toInt * 2 ^ sh / 65536)) ∧
     sat = decide (v.toInt ≠ ((g.bank k.shadow).ac (code - 0x30)).toInt * 2 ^ sh / 65536))
  else (v = (if accCode code then g.readReg k.shadow code else k.a) ∧ sat = false)

/-! ### Tasks -/

/-- No engine's prefetch slot holds an item of the task. -/
def NotPrefetched (s : State) (t : Nat) : Prop := ∀ p v, (s.engDpt p).prefetch = some v → v.task ≠ t

/-- The command changes one task, evaluates its readiness, and changes no other task and nothing an engine holds. -/
def TaskGets (c : Instr) (t : TaskNo) (s : State) (but : List Nat) (P : TaskSt → Prop) : Prop :=
  Completes c s (fun u => P (u.task t) ∧ (u.task t).ready = u.dispatchable t ∧ (∀ x, x ≠ t.val → u.task x = s.task x) ∧
    u.dpt.eng = s.dpt.eng ∧ u.engines = s.engines ∧ u.dpt.posts = s.dpt.posts ∧ u.dpt.dirty = [] ∧
    RegsKept (Reg.slgLost :: but) s u ∧ BytesKept s u)

/-! ### Packets -/

/-- A packet of a command with a good header stands at its destination, its domain is up, and no other packet is in the mesh. -/
def Arrived (s : State) (p : Packet) (cmd : Nat) : Prop :=
  (∃ x, s.net.transit = [x] ∧ x.pkt = p ∧ nextHop x.at_ x.tag = none) ∧ pBad p = false ∧ pCmd p = cmd ∧
  s.down (pDest p) (pTarget p) = false

/-- A packet is the response to a request: swapped endpoints, the request's tag and class, AGE 0, a good header. -/
def ResponseTo (p q : Packet) (cmd status aux : Nat) : Prop :=
  pDest q = pSrc p ∧ pSrc q = pDest p ∧ pCmd q = cmd ∧ pTag q = pTag p ∧ pClass q = pClass p ∧ pAge q = 0 ∧ pBad q = false ∧
  pStatus q = status ∧ pAux q % 65536 = aux

/-- Hops from a router to the destination of a route tag. -/
def hops (r : Nat) (t : BitVec 11) : Nat := ((rtX r : Int) - tagX t).natAbs + ((rtY r : Int) - tagY t).natAbs

/-! ### Accords -/

/-- The command is a request for accord `n`, with its source, the orbit start that it names and whether it is a preparation: a timing
command names the first orbit from two ahead whose low four bits are its extension (R40, R404). -/
def Requests (c : Instr) (s : State) (n : Byte) (src : Nat) (o : Option (BitVec 48)) (prep : Bool) : Prop :=
  (c = .glbSwitch n ∧ src = 2 ∧ o = none ∧ prep = false) ∨ (c = .glbPrepare n ∧ src = 2 ∧ o = none ∧ prep = true) ∨
  (c = .accordSwitch ∧ src = 0 ∧ prep = false ∧ ∃ (e : BitVec 4) (j : Nat), s.tsb.due = some (0x9#4 ++ e, n) ∧ j < 16 ∧
    o = some (s.tsb.orbit + 2 + BitVec.ofNat 48 j) ∧ (s.tsb.orbit + 2 + BitVec.ofNat 48 j).toNat % 16 = e.toNat)

/-- What staging does to the hot clusters of a switch (R401): bytes of their differing contexts as the new configuration has them, those of
the slot maps in the pending copy, every other byte as before. -/
def Staged (w : Switch) (s t : State) : Prop :=
  let ds := (s.accordDiffs w.num).filter (fun a => w.hot.any (fun c => clusterTarget c a))
  let new := s.configOn ((loadAddrs (s.accordLoads s.accordNow) ++ loadAddrs (s.accordLoads w.num) ++ s.acc.stale).eraseDups) w.num
  (∀ x, t.byte x = if ds.any (fun a => !isMapWord a && decide (a ≤ x ∧ x < a + 4)) then new.byte x else s.byte x) ∧
  (∀ x b, (x, b) ∈ t.acc.maps ↔ ((∃ a ∈ ds, isMapWord a = true ∧ a ≤ x ∧ x < a + 4) ∧ b = new.byte x))

/-! ### The management port -/

/-- A request waits alone at the head of the queue, well formed, of a source that has had no response yet; the port serves it. -/
structure Waits (s : State) (r : MgtReq) : Prop where
  port : s.portOn = true
  queue : s.mgt.queue = [r]
  fresh : s.mgt.kept = []
  good : r.bad = false
  late : s.tooEarly = false
  noted : s.phase ≠ 5
  mac : r.mac.length = 6

/-- The request is answered: one frame leaves for its source with its header and data, it is kept and counted, and the queue is empty. -/
def Answers (s t : State) (r : MgtReq) (status arg : Nat) (data : List Byte) : Prop :=
  (∃ f, t.mgt.sent = s.mgt.sent ++ [f] ∧ f.take 6 = r.mac ∧ f.drop 42 = bytesLe 2 0x4D47 ++ [r.op] ++ bytesLe 1 status ++
      bytesLe 2 r.seq.toNat ++ bytesLe 2 data.length ++ bytesLe 8 arg ++ data ∧
    ∃ k ∈ t.mgt.kept, k.ip = r.ip ∧ k.port = r.port ∧ k.op = r.op ∧ k.seq = r.seq ∧ k.frame = f) ∧
  t.mgt.queue = [] ∧ t.fld Reg.mgtCnt0 31 16 = satAdd 65535 (s.fld Reg.mgtCnt0 31 16) 1

end Sys2Proof
end

