-- ==== Sys2Proof/Certificates/Slice0/Obligations.lean ====
section
/-!
DEFINITION. Sys2Proof/Certificates/Slice0/Obligations.lean: the statements about the model, each a closed Prop.
-/
open Sys2Proof Sys2Proof.Machine

/-! ### The block -/

/-- A step takes the command at the front of the queue and answers what exec answers for it on the state with the queue's rest.

With no command waiting the block idles: the step answers the state as it is. That an empty queue idles is the model's choice (log
row 1). -/
def Obligations.StepRunsFrontCommand : Prop :=
  (
  ∀ (s : State) (c : Instr) (rest : List Instr), s.pending = c :: rest → step s = exec c { s with pending := rest }
  ) ∧
  (
∀ s : State, s.pending = [] → step s = .next s
  )

/-- Every step from a state in form answers a state in form: every table of registers, memory bytes and units keeps its keys rising and
lists no entry that reads as its reset value, and no stream queue ever holds more than its 8 stages. -/
def Obligations.StepKeepsStateForm : Prop := ∀ s t : State, s.Inv → step s = .next t → t.Inv

/-- The state after reset is in form: nothing is listed, so every register reads as its reset word, every memory byte as 0, and no stream
queue holds a word; Touchstone is UNLOCKED and no sector is in the fixed plane. -/
def Obligations.ResetStateHasForm : Prop :=
  State.reset.Inv ∧ State.reset.pending = [] ∧ (∀ a, State.reset.reg a = regReset a) ∧ (∀ a, State.reset.byte a = 0) ∧
    (∀ q, (State.reset.queue q).stages = []) ∧ State.reset.tsbState = .unlocked ∧ ∀ k : SectorNo, State.reset.secIn k = false

/-- Fuses can only be blown: whatever the step, the identifier stands, no key slot goes back to an earlier state, a device key's seeds
once blown stay as they are, and a spoilt seed field stays spoilt. -/
def Obligations.FusesNeverGoBack : Prop := ∀ s t : State, step s = .next t → FusesKept s.fuses t.fuses

/-- Every command, in every state, answers a next state: ordinary data never stops the block. The queue of waiting commands is left as it
is. -/
def Obligations.EveryCommandAnswersNext : Prop := ∀ (c : Instr) (s : State), Completes c s (fun t => t.pending = s.pending)

/-- Only an edge of FCLK, an orbit marker, the first lock of FCLK and what resets Touchstone or takes its clock away move the count:
every other command leaves orbit, crossing and slot as they are. -/
def Obligations.OnlyClockMovesTheCount : Prop :=
  ∀ (c : Instr) (s t : State), movesCount c = false → exec c s = .next t → CountKept s t

/-! ### Touchstone: the count, its markers, the timing words and commands (chapter 2) -/

/-- The slot advances on every FCLK cycle, the crossing when the slot wraps from M - 1 to 0, the orbit when the crossing wraps from L - 1
to 0, with M and L taken from TSB_GEOM; a count within its range stays within it. SLOT_ADVANCE is any edge, CROSSING_ADVANCE the edge
that ends slot M - 1, ORBIT_ADVANCE the one that ends the orbit.

The commands whose completion this states: SLOT_ADVANCE, CROSSING_ADVANCE, ORBIT_ADVANCE. -/
def Obligations.FclkEdgeAdvancesCount : Prop :=
  ∀ (s : State) (m l : Nat), s.tsbState ≠ .unlocked → m = bitsOf (s.reg Reg.tsbGeom) 7 0 → l = bitsOf (s.reg Reg.tsbGeom) 31 16 → 1 ≤ m →
    (Completes .slotAdvance s (fun t => t.tsb.tick = s.tsb.tick + 1 ∧
      (s.tsb.slot + 1 < m → t.tsb.slot = s.tsb.slot + 1 ∧ t.tsb.crossing = s.tsb.crossing ∧ t.tsb.orbit = s.tsb.orbit) ∧
      (¬s.tsb.slot + 1 < m → t.tsb.slot = 0 ∧
        (s.tsb.crossing + 1 < l → t.tsb.crossing = s.tsb.crossing + 1 ∧ t.tsb.orbit = s.tsb.orbit) ∧
        (¬s.tsb.crossing + 1 < l → t.tsb.crossing = 0 ∧ t.tsb.orbit = s.tsb.orbit + 1)) ∧
      (s.tsb.slot < m → t.tsb.slot < m) ∧ (s.tsb.crossing < l → t.tsb.crossing < l))) ∧
    (s.tsb.slot + 1 = m →
      Completes .crossingAdvance s (fun t => t.tsb.slot = 0 ∧ t.tsb.crossing = (if s.tsb.crossing + 1 < l then s.tsb.crossing + 1 else 0)) ∧
      (s.tsb.crossing + 1 = l → ∀ q, Completes (.orbitAdvance q) s (fun t =>
        t.tsb.slot = 0 ∧ t.tsb.crossing = 0 ∧ t.tsb.orbit = s.tsb.orbit + 1)))

/-- A word on the active timing lane decides the command of its crossing k: a good word is used, unless the lane has failed with no
other to take its place; for a bad one the standby lane's good word for k is used where that lane is qualified, and counted in
TSB_SUBST_CNT; with neither, crossing k waits for a standby word. An ORBIT command stands as a marker of k itself. A bad word counts on
its lane. Two good words that differ count in TSB_AB_MISMATCH, and the active one is used. A good word on the standby lane is used and
counted in TSB_SUBST_CNT where that lane is qualified and crossing k waits for it, or where the active lane's recovery has no lock and
nothing was decided for k.

At its effect crossing NOP and TESTPULSE change nothing but that the command is done; a reserved code counts one in TSB_CMD_UNKNOWN
and does nothing else.

The commands whose completion this states: TIMING_WORD, NOP, TESTPULSE, RESERVED_COMMAND. -/
def Obligations.TimingWordsAndIdleCommands : Prop :=
  (
  (∀ (s : State) (i : Fin 2) (w : TimingChars) (k : Nat), s.Inv → i.val = s.activeLane →
    k = ((s.tsb.cx : Int) + s.laneOffset i).toNat → (∀ d ∈ s.tsb.decided, d.1 ≠ k) →
    Completes (.timingWord i w) s (fun t =>
      CountKept s t ∧ BytesKept s t ∧
      RegsKept [Reg.tlnStatus i, Reg.tlnErrcnt i, Reg.tsbStatus, Reg.tsbSubstCnt, Reg.tsbAbMismatch] s t ∧
      t.fld (Reg.tlnErrcnt i) 31 16 = satAdd 65535 (s.fld (Reg.tlnErrcnt i) 31 16) (if goodWord w = none then 1 else 0) ∧
      match (if s.activeUsed then goodWord w else none), (s.tlane (1 - i)).wordFor k, s.qualified (1 - i) with
      | some v, o, _ => (k, v) ∈ t.tsb.decided ∧ t.tsb.orbitDue = (if bitsOf v.1 7 4 = 1 then some (k, v.2) else s.tsb.orbitDue) ∧
          (t.reg Reg.tsbSubstCnt = s.reg Reg.tsbSubstCnt) ∧
          t.fld Reg.tsbAbMismatch 31 0 = satAdd (2 ^ 32 - 1) (s.fld Reg.tsbAbMismatch 31 0) (if o = none ∨ o = some v then 0 else 1)
      | none, some v, true => (k, v) ∈ t.tsb.decided ∧
          t.tsb.orbitDue = (if bitsOf v.1 7 4 = 1 then some (k, v.2) else s.tsb.orbitDue) ∧
          t.fld Reg.tsbSubstCnt 31 0 = satAdd (2 ^ 32 - 1) (s.fld Reg.tsbSubstCnt 31 0) 1
      | none, _, _ => t.tsb.decided = s.tsb.decided ∧ k ∈ t.tsb.awaiting)) ∧
  (∀ (s : State) (i : Fin 2) (w : TimingChars) (v : Byte × Byte) (k : Nat), s.Inv → i.val = 1 - s.activeLane →
    k = ((s.tsb.cx : Int) + s.laneOffset i).toNat → (∀ d ∈ s.tsb.decided, d.1 ≠ k) → goodWord w = some v → s.qualified i = true →
    (((s.tlane i).hist.take 15).filter id).length ≤ 1 → (k ∈ s.tsb.awaiting ∨ s.rbit (Reg.tlnStatus s.activeLane) 7 = false) →
    Completes (.timingWord i w) s (fun t =>
      CountKept s t ∧ BytesKept s t ∧ RegsKept [Reg.tlnStatus i, Reg.tsbSubstCnt] s t ∧
      (k, v) ∈ t.tsb.decided ∧ k ∉ t.tsb.awaiting ∧
      t.tsb.orbitDue = (if bitsOf v.1 7 4 = 1 then some (k, v.2) else s.tsb.orbitDue) ∧
      t.fld Reg.tsbSubstCnt 31 0 = satAdd (2 ^ 32 - 1) (s.fld Reg.tsbSubstCnt 31 0) 1))
  ) ∧
  (
  ∀ (s : State) (c p : Byte), s.tsb.due = some (c, p) →
    (bitsOf c 7 4 = 0 → exec .nop s = .next { s with tsb := { s.tsb with due := none } }) ∧
    (bitsOf c 7 4 = 4 → exec .testpulse s = .next { s with tsb := { s.tsb with due := none } }) ∧
    (10 ≤ bitsOf c 7 4 → s.Inv → Completes .reservedCommand s (fun t =>
      t.fld Reg.tsbCmdUnknown 31 0 = satAdd (2 ^ 32 - 1) (s.fld Reg.tsbCmdUnknown 31 0) 1 ∧ RegsKept [Reg.tsbCmdUnknown] s t ∧
      t = { s with regs := t.regs, tsb := { s.tsb with due := none } }))
  )

/-- The first marker after the lock of FCLK makes the crossing it marks crossing 0 of orbit TSB_ORBIT_INIT; a second marker exactly L
crossings later confirms the count and Touchstone enters ALIGNED, with a COUNTER_RESET of the orbit number that waits taking effect and a
payload other than the orbit number that begins counted in TSB_ORBIT_NUM_ERR; one at any other distance counts one in TSB_ORBIT_ERR_CNT and
establishes the count again from that marker, and where three in succession measure the same wrong distance the start fails.

In ALIGNED and HOLDOVER the count stands at every orbit marker but one that RESYNC, a write of REALIGN or a COUNTER_RESET calls for.
A marker in place counts one in TSB_ORBIT_NUM_ERR where its payload differs from the low 8 bits of the orbit that begins. A misplaced
marker counts one in TSB_ORBIT_ERR_CNT, its time goes to TSB_ORBIT_ERR_TIME, and TSB_STATUS.ORBIT_SLIP stands from the time it has come
at the same crossing in ORBIT_N consecutive orbits.

The commands whose completion this states: ORBIT, ORBIT_PIN_MARKER. -/
def Obligations.MarkersEstablishAndKeepTheCount : Prop :=
  (
  ∀ (c : Instr) (s : State) (k : Int) (p : Option Byte), s.Inv → s.tsbState = .locking → MarkerOf c s k p → 1 ≤ s.L → 0 ≤ k →
    (s.tsb.est = none → Completes c s (fun t => (t.crossingPlus (k - s.tsb.cx)) = (BitVec.ofNat 48 (s.reg Reg.tsbOrbitInit).toNat, 0) ∧
      t.tsb.est = some k.toNat ∧ t.regs = s.regs ∧ t.mem = s.mem)) ∧
    (∀ e, s.tsb.est = some e → k = (e : Int) + s.L → Completes c s (fun t =>
      t.tsbState = .aligned ∧ t.tsb.est = none ∧ BytesKept s t ∧ RegsKept [Reg.tsbStatus, Reg.tsbOrbitNumErr] s t ∧
      t.tsb.orbitReset = false ∧ (s.tsb.orbitReset = false → CountKept s t) ∧
      (s.tsb.orbitReset = true → (t.crossingPlus (k - s.tsb.cx)).1 = BitVec.ofNat 48 (s.reg Reg.tsbOrbitInit).toNat) ∧
      t.fld Reg.tsbOrbitNumErr 31 0 = satAdd (2 ^ 32 - 1) (s.fld Reg.tsbOrbitNumErr 31 0)
        (match p with | some b => if b.toNat = (t.crossingPlus (k - s.tsb.cx)).1.toNat % 256 then 0 else 1 | none => 0))) ∧
    (∀ e d : Nat, s.tsb.est = some e → k = (e : Int) + d → d ≠ s.L → s.tsb.wrong.take 2 ≠ [d, d] → Completes c s (fun t =>
      (t.crossingPlus (k - s.tsb.cx)) = (BitVec.ofNat 48 (s.reg Reg.tsbOrbitInit).toNat, 0) ∧ t.tsb.est = some k.toNat ∧
      t.fld Reg.tsbOrbitErrCnt 31 0 = satAdd (2 ^ 32 - 1) (s.fld Reg.tsbOrbitErrCnt 31 0) 1 ∧
      RegsKept [Reg.tsbOrbitErrCnt] s t ∧ t.mem = s.mem)) ∧
    (∀ e d : Nat, s.tsb.est = some e → k = (e : Int) + d → d ≠ s.L → s.tsb.wrong.take 2 = [d, d] → s.phase = 2 →
      Completes c s (fun t => t.boot.restart = true))
  ) ∧
  (
  ∀ (c : Instr) (s : State) (k : Int) (p : Option Byte), s.Inv → (s.tsbState = .aligned ∨ s.tsbState = .holdover) → MarkerOf c s k p →
    s.tsb.moveArmed = false → s.tsb.orbitReset = false →
    Completes c s (fun t => CountKept s t ∧ BytesKept s t ∧
      if (s.crossingPlus (k - s.tsb.cx)).2 = 0 then
        RegsKept [Reg.tsbOrbitNumErr] s t ∧ t.fld Reg.tsbOrbitNumErr 31 0 = satAdd (2 ^ 32 - 1) (s.fld Reg.tsbOrbitNumErr 31 0)
          (match p with | some b => if b.toNat = (s.crossingPlus (k - s.tsb.cx)).1.toNat % 256 then 0 else 1 | none => 0)
      else
        RegsKept [Reg.tsbOrbitErrCnt, Reg.tsbOrbitErrTime, Reg.tsbStatus, Reg.glbFault] s t ∧
        t.fld Reg.tsbOrbitErrCnt 31 0 = satAdd (2 ^ 32 - 1) (s.fld Reg.tsbOrbitErrCnt 31 0) 1 ∧
        t.reg Reg.tsbOrbitErrTime = BitVec.ofNat 32
          ((s.crossingPlus (k - s.tsb.cx)).2 * 65536 + (s.crossingPlus (k - s.tsb.cx)).1.toNat % 65536) ∧
        (1 ≤ s.fld Reg.tsbFail 14 12 →
          s.fld Reg.tsbFail 14 12 ≤ slipLen s.tsb (s.crossingPlus (k - s.tsb.cx)).2 (s.crossingPlus (k - s.tsb.cx)).1 →
          t.rbit Reg.tsbStatus 10 = true ∧ t.rbit Reg.glbFault 1 = true) ∧
        ((s.crossingPlus (k - s.tsb.cx)).2, (s.crossingPlus (k - s.tsb.cx)).1,
          slipLen s.tsb (s.crossingPlus (k - s.tsb.cx)).2 (s.crossingPlus (k - s.tsb.cx)).1) ∈ t.tsb.slips)
  )

/-- QUIET_START sets TSB_STATUS.QUIET, QUIET_END clears it, and nothing else. With QUIET_FOLLOW set, an edge into slot M - 1 with a
quiet command for the crossing that follows leaves in every sector a change of map waiting exactly where it runs another map than the
command calls for.

CALSTROBE: the masked CAL pins rise in the start slot of the effect crossing, a start slot of M or more taken as slot 0, and
stand for M slots; before the outputs are released, and while Touchstone does not run the fixed plane, they stay low. When a pin's
pulses are over it falls; a pin with another pulse under way stays high.

COUNTER_RESET: payload bit 0 makes the orbit number TSB_ORBIT_INIT at the next in-place marker and clears ORBIT_UNCERTAIN, bit 1
resets the event number, bit 2 clears the counters (those of Touchstone are named here) of what they held as the slot began; snapshot
copies are not cleared.

The commands whose completion this states: SLOT_ADVANCE, CALSTROBE, CAL_PIN_FALL, COUNTER_RESET, QUIET_START, QUIET_END. -/
def Obligations.QuietCalAndCounterResetCommands : Prop :=
  (
  (∀ (s : State) (c p : Byte), s.Inv → s.tsb.due = some (c, p) → ∀ (b : Bool), bitsOf c 7 4 = (if b then 7 else 8) →
    Completes (if b then .quietStart else .quietEnd) s (fun t =>
      t.rbit Reg.tsbStatus 7 = b ∧ (∀ i, i ≠ 7 → t.rbit Reg.tsbStatus i = s.rbit Reg.tsbStatus i) ∧
      RegsKept [Reg.tsbStatus] s t ∧ t = { s with regs := t.regs, tsb := { s.tsb with due := none } })) ∧
  (∀ s : State, s.Inv → s.counting = true → Completes .slotAdvance s (fun t =>
    t.tsb.slot + 1 = t.M → t.rbit Reg.tsbCtrl 7 = true → t.tsb.cx ≠ 0 → t.tsbState ≠ .unlocked → t.tsbState ≠ .locking →
    ∀ (c p : Byte) (x b : Bool), t.wordUsed (t.tsb.cx - 1) = some ((c, p), x) → bitsOf c 7 4 = (if b then 7 else 8) →
      ∀ k : SectorNo, t.rbit (Reg.secMapsel k) 1 = decide (t.fld (Reg.secMapsel k) 0 0 ≠ if b then 1 else 0)))
  ) ∧
  (
  ∀ (s : State), (∀ (c p : Byte), s.tsb.due = some (c, p) → bitsOf c 7 4 = 5 → ∀ u, u = (if bitsOf p 6 0 < s.M then bitsOf p 6 0 else 0) →
      Completes .calstrobe s (fun t =>
        t.tsb.cal = s.tsb.cal ++ [{ mask := BitVec.ofNat 4 (bitsOf c 3 0), rise := s.tsb.tick + u - s.tsb.slot,
                                    fall := s.tsb.tick + u - s.tsb.slot + s.M }] ∧
        (s.tsb.slot = u → s.boot.outCal = true → s.planeRuns = true → ∀ i : Fin 4, (BitVec.ofNat 4 (bitsOf c 3 0)).getLsbD i = true → t.tsb.calPins.getLsbD i = true) ∧
        (s.boot.outCal = false ∨ s.planeRuns = false → t.tsb.calPins = s.tsb.calPins) ∧
        t = { s with tsb := { s.tsb with due := none, cal := t.tsb.cal, calPins := t.tsb.calPins } })) ∧
    (∀ pin : Fin 4, (∃ c ∈ s.tsb.cal, c.mask.getLsbD pin = true ∧ c.fall ≤ s.tsb.tick) →
      Completes (.calPinFall pin) s (fun t =>
        t.tsb.calPins.getLsbD pin = (s.tsb.calPins.getLsbD pin &&
          decide (∃ c ∈ s.tsb.cal, c.mask.getLsbD pin = true ∧ s.tsb.tick < c.fall ∧ c.rise ≤ s.tsb.tick)) ∧
        (∀ i : Fin 4, i ≠ pin → t.tsb.calPins.getLsbD i = s.tsb.calPins.getLsbD i) ∧
        (∀ c ∈ t.tsb.cal, c.mask.getLsbD pin = true → s.tsb.tick < c.fall) ∧
        t = { s with tsb := { s.tsb with cal := t.tsb.cal, calPins := t.tsb.calPins } }))
  ) ∧
  (
  ∀ (s : State) (c p : Byte), s.Inv → s.tsb.due = some (c, p) → bitsOf c 7 4 = 6 →
    Completes .counterReset s (fun t =>
      CountKept s t ∧ BytesKept s t ∧ t.tsb.due = none ∧
      (p.getLsbD 0 = true → t.tsb.orbitReset = true ∧ t.rbit Reg.tsbStatus 9 = false) ∧
      (p.getLsbD 0 = false → t.tsb.orbitReset = s.tsb.orbitReset ∧ t.reg Reg.tsbStatus = s.reg Reg.tsbStatus) ∧
      t.reg Reg.tsbEvn = (if p.getLsbD 1 then 0 else s.reg Reg.tsbEvn) ∧
      (∀ i : Fin 7, (t.reg (Reg.tsbCnt i)).toNat = (if p.getLsbD 2 ∧ (s.reg0 (Reg.tsbCnt i)).toNat ≤ (s.reg (Reg.tsbCnt i)).toNat then
          (s.reg (Reg.tsbCnt i)).toNat - (s.reg0 (Reg.tsbCnt i)).toNat else (s.reg (Reg.tsbCnt i)).toNat) ∧
        t.reg (Reg.tsbCntSnap i) = s.reg (Reg.tsbCntSnap i))) ∧
    (∀ t, s.tsbState = .aligned → s.tsb.moveArmed = false → s.tsb.orbitReset = true → ∀ k o b, MarkerOf o s k b →
      (s.crossingPlus (k - s.tsb.cx)).2 = 0 → exec o s = .next t →
      t.crossingPlus (k - s.tsb.cx) = (BitVec.ofNat 48 (s.reg Reg.tsbOrbitInit).toNat, 0) ∧ t.tsb.orbitReset = false)
  )

/-- A timing lane that loses lock, misses its comma COMMA_N times or has ERR_N bad words of 16 is no longer qualified; where it was the
active lane and the standby lane is qualified, the lanes change over at the next crossing boundary. Neither moves the count.

At the crossing boundary after a failover or a swap was called for, the qualified standby lane becomes active, TSB_STATUS.FAILOVER is
set, and the slot grid and the counts do not move. Writing 1 to TSB_CMD.SWAP calls for it; when the standby lane is not qualified the
write has no effect and sets TSB_STATUS.SWAP_REFUSED.

A lane with its recovery locked and its comma in place for 256 crossings, at most 1 of its last 16 words bad and its edge
within 2 steps of the grid qualifies, and has no longer failed; one that misses any of these is not qualified. A write of REALIGN
lets the next marker move the count. A lane that is not active takes over only where the active lane has failed, or with
AUTO_REVERT set where it is TIMING_A.

The commands whose completion this states: TIMING_LANE_FAILURE, FAILOVER, TIMING_LANE_QUALIFY, TSB_SWAP, TSB_REALIGN. -/
def Obligations.TimingLanesFailOverAndQualify : Prop :=
  (
  ∀ (s : State) (i : Fin 2) (lol : Bool), s.Inv →
    (lol = true ∨ (1 ≤ s.fld Reg.tsbFail 3 0 ∧ s.fld Reg.tsbFail 3 0 ≤ (s.tlane i).noComma) ∨
      (1 ≤ s.fld Reg.tsbFail 8 4 ∧ s.fld Reg.tsbFail 8 4 ≤ ((s.tlane i).hist.filter id).length)) →
    Completes (.timingLaneFailure i lol) s (fun t =>
      t.qualified i = false ∧ (t.tlane i).failed = true ∧ t.tlane (1 - i) = s.tlane (1 - i) ∧
      (i.val = s.activeLane → s.qualified (1 - i) = true → t.tsb.swapDue ≠ none) ∧ t.activeLane = s.activeLane ∧
      CountKept s t ∧ BytesKept s t ∧ RegsKept [Reg.tsbStatus, Reg.tlnStatus i, Reg.tlnErrcnt i] s t)
  ) ∧
  (
  ∀ s : State, s.Inv →
    (∀ c, s.tsb.swapDue = some c → c < s.tsb.cx → s.tsb.slot = 0 →
      Completes .failover s (fun t => t.activeLane = 1 - s.activeLane ∧ t.rbit Reg.tsbStatus 12 = true ∧ t.tsb.swapDue = none ∧
        CountKept s t ∧ BytesKept s t ∧ RegsKept [Reg.tsbStatus, Reg.glbFault, Reg.tsbAbOffset] s t)) ∧
    (s.qualified (1 - s.activeLane) = true → Completes .tsbSwap s (fun t => t.tsb.swapDue ≠ none ∧
      t = { s with tsb := { s.tsb with swapDue := t.tsb.swapDue } })) ∧
    (s.qualified (1 - s.activeLane) = false → Completes .tsbSwap s (fun t => t.rbit Reg.tsbStatus 18 = true ∧
      (∀ i, i ≠ 18 → t.rbit Reg.tsbStatus i = s.rbit Reg.tsbStatus i) ∧ RegsKept [Reg.tsbStatus] s t ∧ t = { s with regs := t.regs }))
  ) ∧
  (
  ∀ (s : State) (i : Fin 2) (n : Int), s.Inv →
    (s.rbit (Reg.tlnStatus i) 7 = true → 256 ≤ (s.tlane i).clean → ((s.tlane i).hist.filter id).length ≤ 1 → n.natAbs ≤ 2 →
      Completes (.timingLaneQualify i n) s (fun t =>
        t.qualified i = true ∧ (t.tlane i).failed = false ∧ t.activeLane = s.activeLane ∧
        (i.val ≠ s.activeLane → (s.tlane s.activeLane).failed = false → (i.val = 1 ∨ s.rbit Reg.tsbCtrl 8 = false) →
          t.tsb.swapDue = s.tsb.swapDue) ∧
        (i.val ≠ s.activeLane → ((s.tlane s.activeLane).failed = true ∨ (i.val = 0 ∧ s.rbit Reg.tsbCtrl 8 = true)) → t.tsb.swapDue ≠ none) ∧
        CountKept s t ∧ BytesKept s t ∧ RegsKept [Reg.tsbStatus, Reg.tlnStatus i, Reg.tsbAbOffset] s t)) ∧
    (s.rbit (Reg.tlnStatus i) 7 = false ∨ (s.tlane i).clean < 256 ∨ 1 < ((s.tlane i).hist.filter id).length ∨ 2 < n.natAbs →
      Completes (.timingLaneQualify i n) s (fun t =>
        t.qualified i = false ∧ RegsKept [Reg.tsbStatus, Reg.tlnStatus i] s t ∧ t = { s with regs := t.regs })) ∧
    exec .tsbRealign s = .next { s with tsb := { s.tsb with moveArmed := true } }
  )

/-- A snapshot copies every counter of each selected group, all at once and as the slot found it, into its copy, records the time and
changes nothing else. A mask of no group does nothing.

A read of TSB_NOW returns the crossing in [31:16] and the slot in [6:0] and in the same cycle copies the orbit number into
TSB_ORBIT_LO and TSB_ORBIT_HI; it changes nothing else.

The commands whose completion this states: TSB_NOW_READ, TSB_SNAP. -/
def Obligations.SnapshotAndNowRead : Prop :=
  (
  ∀ (s : State) (mask : BitVec 7), s.Inv →
    (mask ≠ 0 → Completes (.tsbSnap mask) s (fun t =>
      (mask.getLsbD 0 = true → (∀ i : Fin 7, t.reg (Reg.tsbCntSnap i) = s.reg0 (Reg.tsbCnt i)) ∧
        ∀ i : Fin 2, t.reg (Reg.tlnErrcntSnap i) = s.reg0 (Reg.tlnErrcnt i)) ∧
      (mask.getLsbD 1 = true → ∀ l : LaneNo, t.reg (Reg.lanErrcntSnap l) = s.reg0 (Reg.lanErrcnt l) ∧
        t.reg (Reg.lanEvtcntSnap l) = s.reg0 (Reg.lanEvtcnt l)) ∧
      (mask.getLsbD 2 = true → ∀ q : QueueNo, t.reg (Reg.queCnt0Snap q) = s.reg0 (Reg.queCnt0 q) ∧
        t.reg (Reg.queCnt1Snap q) = s.reg0 (Reg.queCnt1 q)) ∧
      (mask.getLsbD 3 = true → ∀ k : SectorNo, t.reg (Reg.secEngCntSnap k) = s.reg0 (Reg.secEngCnt k)) ∧
      (mask.getLsbD 4 = true → (∀ i : Fin 7, t.reg (Reg.dptCntSnap i) = s.reg0 (Reg.dptCnt i)) ∧
        ∀ k : SectorNo, t.reg (Reg.secEvtCntSnap k) = s.reg0 (Reg.secEvtCnt k)) ∧
      (mask.getLsbD 5 = true → (∀ d : Fin 64, t.reg (Reg.drzCntSnap d) = s.reg0 (Reg.drzCnt d)) ∧
        ∀ k : SectorNo, t.reg (Reg.roCntSnap k) = s.reg0 (Reg.roCnt k)) ∧
      (mask.getLsbD 6 = true → ∀ i : Fin 4, t.reg (Reg.nocCntSnap i) = s.reg0 (Reg.nocCnt i)) ∧
      t.reg Reg.tsbSnapTimeLo = BitVec.ofNat 32 s.tsb.orbit.toNat ∧
      t.fld Reg.tsbSnapTimeHi 31 16 = s.tsb.crossing % 65536 ∧ t.fld Reg.tsbSnapTimeHi 14 8 = s.tsb.slot % 128 ∧
      t.fld Reg.tsbSnapTimeHi 7 0 = s.tsb.orbit.toNat / 2 ^ 32 % 256 ∧
      (∀ a, (∀ g : Fin 7, mask.getLsbD g = true → a ∉ (snapPairs g).map (·.2)) → a ≠ Reg.tsbSnapTimeLo → a ≠ Reg.tsbSnapTimeHi →
        t.reg a = s.reg a) ∧
      t = { s with regs := t.regs })) ∧
    exec (.tsbSnap 0) s = .next s
  ) ∧
  (
  ∀ s : State, s.Inv → s.tsb.crossing < 65536 → s.tsb.slot < 128 →
    Completes .tsbNowRead s (fun t =>
      bitsOf t.mgt.read 31 16 = s.tsb.crossing ∧ bitsOf t.mgt.read 6 0 = s.tsb.slot ∧
      (t.reg Reg.tsbOrbitLo).toNat + 2 ^ 32 * (t.reg Reg.tsbOrbitHi).toNat = s.tsb.orbit.toNat ∧
      CountKept s t ∧ BytesKept s t ∧ RegsKept [Reg.tsbNow, Reg.tsbOrbitLo, Reg.tsbOrbitHi] s t ∧
      t = { s with regs := t.regs, mgt := { s.mgt with read := t.mgt.read } })
  )

/-- When FCLK locks at the start, Touchstone goes from UNLOCKED to LOCKING, its count at orbit TSB_ORBIT_INIT, crossing 0, slot 0; in a
return from LOST it then waits for the first marker. The lock time running out fails the start: 0x50 without an edge, 0x52 without lock,
0x54 without a qualified timing lane, 0x53 without a confirmed count.

On loss of the crossing clock in ALIGNED, with a holdover time, Touchstone enters HOLDOVER and sets HOLDOVER_EVT; a return within
that time and 2 steps of the held grid resumes ALIGNED; nothing else is disturbed. Where a failover is due, or CX_SRC selects a timing
lane that stands or has a qualified lane to take its place, no holdover begins.

When the holdover time is over without a return, at the next crossing boundary Touchstone is LOST: CLK_LOST and VIRTUAL are
set, no sector is in the fixed plane, the CAL pins are low and the THROTTLE and BUSY pins high; a holdover time of 0 sends it
there at the loss of the clock. From LOST a clock that comes back is qualified for TSB_RETURN_QUAL crossings before FCLK is locked
again.

The commands whose completion this states: FCLK_LOCK, LOCK_TIMEOUT, CLOCK_LOSS, CLOCK_RETURN, HOLDOVER_EXPIRY, RETURN_QUALIFIED. -/
def Obligations.LockHoldoverAndLost : Prop :=
  (
  ∀ s : State, s.Inv →
    (s.tsbState = .unlocked → 1 ≤ s.L → 8 ≤ s.M → s.phase ≠ 5 → Completes .fclkLock s (fun t =>
      t.tsbState = .locking ∧ t.tsb.fclk = true ∧ t.tsb.est = none ∧ t.tsb.crossing = 0 ∧ t.tsb.slot = 0 ∧
      t.tsb.orbit = BitVec.ofNat 48 (s.reg Reg.tsbOrbitInit).toNat ∧ BytesKept s t ∧ RegsKept [Reg.tsbStatus] s t)) ∧
    (s.tsbState = .returning → s.tsb.ret = .locking → exec .fclkLock s =
      .next { s with tsb := { s.tsb with fclk := true, ret := .marker, est := none, wrong := [] } }) ∧
    (∀ b, s.tsbState = .unlocked → s.cxTiming = false → exec (.lockTimeout b) s = .next (s.startFails (if b then 0x50 else 0x52) 0)) ∧
    (∀ b, s.tsbState = .unlocked → s.cxTiming = true → exec (.lockTimeout b) s =
      .next (s.startFails (if s.qualified 0 ∨ s.qualified 1 then 0x52 else 0x54) 0)) ∧
    (∀ b, s.tsbState = .locking → exec (.lockTimeout b) s = .next (s.startFails 0x53 0))
  ) ∧
  (
  ∀ s : State, s.Inv →
    (s.tsbState = .aligned → s.tsb.swapDue = none → s.cxTiming = false → s.fld Reg.tsbHoldover 11 0 ≠ 0 → Completes .clockLoss s (fun t =>
      t.tsbState = .holdover ∧ t.rbit Reg.tsbStatus 13 = true ∧ t.tsb.holdAt = s.tsb.cx ∧ CountKept s t ∧
      RegsKept [Reg.tsbStatus, Reg.glbFault] s t ∧ t = { s with regs := t.regs, tsb := { s.tsb with holdAt := s.tsb.cx } })) ∧
    (∀ n : Int, s.tsbState = .holdover → s.cxTiming = false → n.natAbs ≤ 2 → s.tsb.cx ≤ s.tsb.holdAt + s.fld Reg.tsbHoldover 11 0 →
      Completes (.clockReturn n) s (fun t => t.tsbState = .aligned ∧ CountKept s t ∧
        (∀ i, 3 ≤ i → t.rbit Reg.tsbStatus i = s.rbit Reg.tsbStatus i) ∧ RegsKept [Reg.tsbStatus] s t ∧ t = { s with regs := t.regs })) ∧
    (s.tsb.swapDue ≠ none ∨ s.cxTiming = true ∧ ((s.tlane s.activeLane).failed = false ∨ s.qualified (1 - s.activeLane) = true) →
      exec .clockLoss s = .next s)
  ) ∧
  (
  ∀ s : State, s.Inv →
    (s.tsbState = .holdover → s.tsb.slot = 0 → s.tsb.holdAt + s.fld Reg.tsbHoldover 11 0 < s.tsb.cx →
      Completes .holdoverExpiry s (fun t => t.tsbState = .lost ∧ t.rbit Reg.tsbStatus 14 = true ∧ t.rbit Reg.tsbStatus 8 = true ∧
        (∀ k : SectorNo, t.secIn k = false) ∧ t.tsb.calPins = 0 ∧ t.fld Reg.drzPins 4 0 = 31 ∧ CountKept s t)) ∧
    (s.tsbState = .aligned → s.tsb.swapDue = none → s.cxTiming = false → s.fld Reg.tsbHoldover 11 0 = 0 →
      Completes .clockLoss s (fun t => t.tsbState = .lost ∧ (∀ k : SectorNo, t.secIn k = false) ∧ CountKept s t)) ∧
    (∀ n, s.tsbState = .lost → s.cxTiming = false → Completes (.clockReturn n) s (fun t => t.tsbState = .returning ∧
      t.tsb.ret = .qualifying ∧ t.tsb.goodAt = some s.tsb.cx ∧ CountKept s t ∧ RegsKept [Reg.tsbStatus] s t ∧ BytesKept s t)) ∧
    (∀ g, s.tsb.goodAt = some g → s.tsbState = .returning → s.tsb.ret = .qualifying → g + s.fld Reg.tsbReturnQual 15 0 ≤ s.tsb.cx →
      exec .returnQualified s = .next { s with tsb := { s.tsb with ret := .locking } })
  )


/-! ### Lanes (chapter 3) -/

/-- The descrambler undoes the scrambler, block for block and across frames: whatever stands in the shift registers, if it is the same at
both ends, every block arrives as it was sent and the registers are again the same. -/
def Obligations.DescramblerUndoesScrambler : Prop :=
  ∀ (st : BitVec 58) (bs : List (BitVec 2 × BitVec 64)),
    descrambleBlocks st (scrambleBlocks st bs).2 = ((scrambleBlocks st bs).1, bs)

/-- A powered lane that recovers its clock and gains block lock, its quadrant reference in lock, enters FRAMING. A LIVE, WAIT_JOIN or HELD
lane whose clock recovery is lost counts one in LOSS, sets LOST_EVT, clears LAT.VALID and enters ACQUIRE; a frame checked in that cycle is
delivered as MARK DARK, one checked before it as for a LIVE lane. A lane that a commanded loss took in this same cycle counts the loss and
changes no further. No other lane changes.

A lane that has waited a crossing, M slots, in WAIT_JOIN becomes LIVE at an orbit start. A write of REALIGN loses the lane at the next
crossing boundary; one in the cycle of a loss only counts. A write of ADOPT on a HELD lane asks for an admission, and on any other lane does
nothing.

The commands whose completion this states: LANE_ACQUIRE_LOCK, LANE_LOSS, LANE_JOIN, LANE_REALIGN, LANE_ADOPT. -/
def Obligations.LanesLockJoinAndAreLost : Prop :=
  (
  ∀ (s : State) (l : LaneNo), s.Inv →
    (s.rxPowered l = true → s.laneState l ≤ 1 → s.rbit (Reg.lanStatus l) 5 = false → Completes (.laneAcquireLock l) s (fun t =>
      t.laneState l = 2 ∧ t.rbit (Reg.lanLat l) 31 = false ∧ (∀ k, k ≠ l.val → t.lane k = s.lane k) ∧
      RegsKept [Reg.lanStatus l, Reg.lanLat l] s t ∧ t = { s with regs := t.regs, lanes := t.lanes })) ∧
    (4 ≤ s.laneState l → s.laneState l ≤ 6 → (s.lane l).goneTick ≠ some s.tsb.tick → Completes (.laneLoss l) s (fun t =>
      t.laneState l = 1 ∧ t.rbit (Reg.lanLat l) 31 = false ∧ t.rbit (Reg.lanStatus l) 6 = true ∧
      t.fld (Reg.lanEvtcnt l) 15 8 = satAdd 255 (s.fld (Reg.lanEvtcnt l) 15 8) 1 ∧
      (s.inRun = true → t.rbit Reg.glbFault 3 = true) ∧
      (∀ f ∈ (t.lane l).frames, f.tick = s.tsb.tick → f.lost = true) ∧
      (s.laneState l = 5 → (s.lane l).joinTick ≠ some s.tsb.tick →
        ∀ f ∈ (t.lane l).frames, f.tick ≠ s.tsb.tick → s.rxOnBefore l f.cx = true → f.live = true) ∧
      (∀ k, k ≠ l.val → t.lane k = s.lane k) ∧
      RegsKept [Reg.lanStatus l, Reg.lanLat l, Reg.lanEvtcnt l, Reg.glbFault] s t ∧ t = { s with regs := t.regs, lanes := t.lanes })) ∧
    ((s.lane l).goneTick = some s.tsb.tick → Completes (.laneLoss l) s (fun t =>
      t.laneState l = s.laneState l ∧ (t.lane l).frames = (s.lane l).frames ∧ t.rbit (Reg.lanStatus l) 6 = true ∧
      t.fld (Reg.lanEvtcnt l) 15 8 = satAdd 255 (s.fld (Reg.lanEvtcnt l) 15 8) 1 ∧ (∀ k, k ≠ l.val → t.lane k = s.lane k) ∧
      RegsKept [Reg.lanStatus l, Reg.lanEvtcnt l, Reg.glbFault] s t ∧ t = { s with regs := t.regs, lanes := t.lanes }))
  ) ∧
  (
  ∀ (s : State) (l : LaneNo), s.Inv →
    (s.laneState l = 4 → s.planeRuns = true → s.tsb.ret = .none → s.tsb.crossing = 0 → s.tsb.slot = 0 →
      (s.lane l).joinSince + s.M ≤ s.tsb.tick →
      Completes (.laneJoin l) s (fun t => t.laneState l = 5 ∧ (∀ i, 3 ≤ i → t.rbit (Reg.lanStatus l) i = s.rbit (Reg.lanStatus l) i) ∧
        (t.lane l).frames = (s.lane l).frames ∧ (∀ k, k ≠ l.val → t.lane k = s.lane k) ∧
        RegsKept [Reg.lanStatus l] s t ∧ t = { s with regs := t.regs, lanes := t.lanes })) ∧
    (s.laneState l = 4 → (s.tsb.crossing ≠ 0 ∨ s.tsb.tick < (s.lane l).joinSince + s.M) → exec (.laneJoin l) s = .next s) ∧
    ((s.lane l).lossTick ≠ some s.tsb.tick →
      Completes (.laneRealign l) s (fun t => (t.lane l).realignAt = some (s.tsb.cx + 1) ∧ (∀ k, k ≠ l.val → t.lane k = s.lane k) ∧
        t = { s with lanes := t.lanes })) ∧
    ((s.lane l).lossTick = some s.tsb.tick →
      Completes (.laneRealign l) s (fun t => t.fld (Reg.lanEvtcnt l) 7 0 = satAdd 255 (s.fld (Reg.lanEvtcnt l) 7 0) 1 ∧
        RegsKept [Reg.lanEvtcnt l] s t ∧ t = { s with regs := t.regs })) ∧
    (s.laneState l = 6 → Completes (.laneAdopt l) s (fun t => (∃ ls, .adopt ls ∈ t.adm.waiting ∧ l.val ∈ ls) ∧
      t.fld Reg.admStatus 26 24 = t.adm.waiting.length % 8 ∧ RegsKept [Reg.admStatus] s t ∧
      t = { s with regs := t.regs, adm := { s.adm with waiting := t.adm.waiting, fresh := t.adm.fresh } })) ∧
    (s.laneState l ≠ 6 → exec (.laneAdopt l) s = .next s)
  )

/-- A write of RX_EN governs from the next crossing boundary on; one of TX_EN from the next frame on. A write that would leave PD = 1 with
RX_EN or TX_EN = 1 leaves PD as it is; a lane powered down is OFF, one powered up aligns from ACQUIRE.

A Mirpel frame, or on a system lane a system frame that completes no report, that reaches an aligned lane waits for its
delivery under the first row of Table 7 that its own contents meet: a bad header (row 2), not the expected crossing (3), DARK (4),
PSN (5), a bad payload sync header or FCRC (6), else its words (7), word 0 tagged FRAME and the rest DATA. Invalid sync headers
count in CODE_ERR as they arrive. A raw crossing waits likewise under row 7, or row 2 where its marker is missing. Where with it
16 of the last 64 sync headers are invalid or LOSS_N consecutive headers are bad, the lane is lost in that same cycle: it enters
ACQUIRE, counts one in LOSS, and this frame will be MARK DARK.

The commands whose completion this states: MIRPEL_FRAME, RAW_CROSSING, RX_EN_WRITE, TX_EN_WRITE, PD_WRITE. -/
def Obligations.LaneEnablesAndArrivals : Prop :=
  (
  ∀ (s : State) (l : LaneNo) (b : Bool), s.Inv →
    Completes (.rxEnWrite l b) s (fun t => t.rbit (Reg.lanCtrl l) 0 = b ∧ (∀ i, i ≠ 0 → t.rbit (Reg.lanCtrl l) i = s.rbit (Reg.lanCtrl l) i) ∧
      t.rxOn l s.tsb.cx = s.rxOn l s.tsb.cx ∧ (∀ c, s.tsb.cx < c → t.rxOn l c = b) ∧ (t.lane l).frames = (s.lane l).frames ∧
      (∀ k, k ≠ l.val → t.lane k = s.lane k) ∧
      RegsKept [Reg.lanCtrl l] s t ∧ t = { s with regs := t.regs, lanes := t.lanes }) ∧
    Completes (.txEnWrite l b) s (fun t => t.rbit (Reg.lanCtrl l) 1 = b ∧ (∀ i, i ≠ 1 → t.rbit (Reg.lanCtrl l) i = s.rbit (Reg.lanCtrl l) i) ∧
      RegsKept [Reg.lanCtrl l] s t ∧ t = { s with regs := t.regs }) ∧
    (s.fld (Reg.lanCtrl l) 1 0 ≠ 0 → exec (.pdWrite l true) s = .next s) ∧
    (s.fld (Reg.lanCtrl l) 1 0 = 0 → s.rbit (Reg.lanCtrl l) 2 = false → Completes (.pdWrite l true) s (fun t =>
      t.rbit (Reg.lanCtrl l) 2 = true ∧ t.laneState l = 0 ∧ (t.lane l).frames = [] ∧ (∀ k, k ≠ l.val → t.lane k = s.lane k) ∧
      RegsKept [Reg.lanCtrl l, Reg.lanStatus l, Reg.lanLat l] s t ∧ t = { s with regs := t.regs, lanes := t.lanes })) ∧
    (s.rbit (Reg.lanCtrl l) 2 = true → s.rxMode l ≠ 0 → s.pwr.quads.getLsbD (l.val / 60) = true → Completes (.pdWrite l false) s (fun t =>
      t.rbit (Reg.lanCtrl l) 2 = false ∧ t.laneState l = 1 ∧ (∀ k, k ≠ l.val → t.lane k = s.lane k) ∧
      RegsKept [Reg.lanCtrl l, Reg.lanStatus l, Reg.lanLat l] s t ∧ t = { s with regs := t.regs, lanes := t.lanes }))
  ) ∧
  (
  ∀ (s : State) (l : LaneNo) (ago : Nat), s.Inv → 4 ≤ s.laneState l → s.laneState l ≤ 6 →
    (∀ blocks h pay x r, s.rxMode l = 1 → (s.rxSys l = true → (s.lane l).report.length < 15) → blocks.length = s.fld (Reg.lanCfg l) 15 8 →
      (descrambleBlocks (s.lane l).rxScr blocks).2 = h :: pay → (s.lane l).next = some x →
      r = (if h.1 ≠ 2 ∨ bitsOf h.2 7 0 ≠ (if s.rxSys l then 0xE1 else 0xD2) ∨ bitsOf h.2 63 56 ≠ mirHcrc h.2 then 2
           else if bitsOf h.2 19 8 ≠ s.numberAt x % 4096 then 3
           else if h.2.getLsbD 28 = true then 4 else if h.2.getLsbD 30 = true then 5
           else if (∃ b ∈ pay, b.1 ≠ 1) ∨ bitsOf h.2 55 40 ≠ mirFcrc (pay.map (·.2)) then 6 else 7) →
      (StaysAligned s l (blocks.map (fun b => syncBad b.1)) r → Completes (.mirpelFrame l blocks ago) s (fun t =>
        (∃ f, (t.lane l).frames = (s.lane l).frames.filter (fun g => decide (s.tsb.cx ≤ g.cx) && g.cx != f.cx) ++ [f] ∧
          f.cx = x + s.fld (Reg.lanEq l) 29 24 ∧ f.tick = s.tsb.tick ∧ f.lost = false ∧
          f.words = tagWords (pay.flatMap (fun b => blockWords b.2)) ∧ f.row = r) ∧
        (t.lane l).next = some (x + 1) ∧ t.laneState l = s.laneState l ∧
        t.fld (Reg.lanErrcnt l) 15 0 = satAdd 65535 (s.fld (Reg.lanErrcnt l) 15 0) (blocks.filter (fun b => syncBad b.1)).length ∧
        (∀ k, k ≠ l.val → t.lane k = s.lane k) ∧ CountKept s t ∧ BytesKept s t ∧
        RegsKept [Reg.lanErrcnt l, Reg.lanStatus l] s t)) ∧
      (¬StaysAligned s l (blocks.map (fun b => syncBad b.1)) r → Completes (.mirpelFrame l blocks ago) s (fun t => LostWith l x s t))) ∧
    (∀ raw m ws x, s.rawTake l raw = some (m, ws) → (s.lane l).next = some x →
      let bad := (match raw with | .r64 bs => bs.map (fun b => syncBad b.1) | .r8 _ => [])
      (StaysAligned s l bad (if m then 7 else 2) → Completes (.rawCrossing l raw ago) s (fun t =>
        (∃ f, (t.lane l).frames = (s.lane l).frames.filter (fun g => decide (s.tsb.cx ≤ g.cx) && g.cx != f.cx) ++ [f] ∧
          f.cx = x + s.fld (Reg.lanEq l) 29 24 ∧ f.lost = false ∧ f.words = ws ∧ f.row = (if m then 7 else 2)) ∧
        t.laneState l = s.laneState l ∧ (∀ k, k ≠ l.val → t.lane k = s.lane k) ∧ CountKept s t ∧ BytesKept s t ∧
        RegsKept [Reg.lanErrcnt l] s t)) ∧
      (¬StaysAligned s l bad (if m then 7 else 2) → Completes (.rawCrossing l raw ago) s (fun t => LostWith l x s t)))
  )

/-- At slot DS a lane starts the delivery of the frame that waits for this crossing: a LIVE lane with RX_EN = 1, or one that was so when it
was lost after the frame was checked, delivers it as its row says, POISON 0x0002 under rows 2, 3, 5 and 6, MARK DARK with the lane's region
number under row 4, its words under row 7, and counts it in that row's counter; any other delivers MARK DARK and counts nothing. With no
frame waiting it delivers MARK DARK, and a LIVE lane is lost in that cycle.

The commands whose completion this states: FRAME_DELIVERY. -/
def Obligations.DeliveryFollowsTable7 : Prop :=
  ∀ (s : State) (l : LaneNo), s.Inv → s.planeRuns = true → s.rxMode l ≠ 0 → s.fld (Reg.lanEq l) 22 16 = s.tsb.slot →
    (s.lane l).deliver.map (·.start) ≠ some s.tsb.tick →
    (∀ f, (s.lane l).frames.find? (fun g => g.cx == s.tsb.cx) = some f →
      let on := f.lost = false ∧ ((s.laneState l = 5 ∧ s.rxOn l s.tsb.cx = true) ∨ f.live = true)
      Completes (.frameDelivery l) s (fun t =>
        (∃ d, (t.lane l).deliver = some d ∧ d.start = s.tsb.tick ∧ d.dark = f.dark ∧ d.sreset = f.sreset ∧
          (¬on → d.words = List.replicate (s.laneW l) (FWord.dark (0x100 + l.val))) ∧
          (on → d.words = (if f.row = 4 then List.replicate (s.laneW l) (FWord.dark (0x100 + l.val))
            else if f.row = 7 then f.words else List.replicate (s.laneW l) (FWord.poison 2)))) ∧
        (on → t.fld (Reg.lanEvtcnt l) 31 24 = satAdd 255 (s.fld (Reg.lanEvtcnt l) 31 24) (if f.row = 2 then 1 else 0) ∧
          t.fld (Reg.lanEvtcnt l) 23 16 = satAdd 255 (s.fld (Reg.lanEvtcnt l) 23 16) (if f.row = 3 then 1 else 0) ∧
          t.fld (Reg.lanErrcnt l) 31 16 = satAdd 65535 (s.fld (Reg.lanErrcnt l) 31 16) (if f.row = 6 then 1 else 0)) ∧
        (¬on → t.regs = s.regs) ∧ t.laneState l = s.laneState l ∧
        (∀ k, k ≠ l.val → t.lane k = s.lane k) ∧ RegsKept [Reg.lanEvtcnt l, Reg.lanErrcnt l, Reg.lanStatus l] s t ∧
        t = { s with regs := t.regs, lanes := t.lanes })) ∧
    ((s.lane l).frames.find? (fun g => g.cx == s.tsb.cx) = none → Completes (.frameDelivery l) s (fun t =>
      (∃ d, (t.lane l).deliver = some d ∧ d.start = s.tsb.tick ∧ d.words = List.replicate (s.laneW l) (FWord.dark (0x100 + l.val))) ∧
      (s.laneState l = 5 → t.laneState l = 1 ∧ t.rbit (Reg.lanLat l) 31 = false ∧ t.rbit (Reg.lanStatus l) 6 = true ∧
        t.fld (Reg.lanEvtcnt l) 15 8 = satAdd 255 (s.fld (Reg.lanEvtcnt l) 15 8) 1) ∧
      (∀ k, k ≠ l.val → t.lane k = s.lane k) ∧
      RegsKept [Reg.lanEvtcnt l, Reg.lanStatus l, Reg.lanLat l, Reg.glbFault] s t ∧ t = { s with regs := t.regs, lanes := t.lanes }))

/-- A frame sent in Mirpel, system or readout mode descrambles to a header block and BLK - 1 payload blocks; the header carries the mode's
block type, its crossing stamp and both checks over what is sent. A Mirpel frame stamps the crossing TXLAT before now, the others the
crossing of transmission. With TX_EN = 0 the frame has DARK set and a payload of zeros.

The commands whose completion this states: MIRPEL_TX_FRAME, SYSTEM_TX_FRAME, READOUT_TX_FRAME. -/
def Obligations.SentFrameIsWellFormed : Prop :=
  ∀ (s : State) (l : LaneNo) (m : Fin 4), s.Inv → 1 ≤ m.val → s.txDue l m = true →
    Completes (if m = 1 then .mirpelTxFrame l else if m = 2 then .systemTxFrame l else .readoutTxFrame l) s (fun t =>
      ∃ (h : BitVec 64) (pay : List (BitVec 64)),
        descrambleBlocks (s.lane l).txScr (t.lane l).sent = ((t.lane l).txScr, (2, h) :: pay.map (fun b => (1, b))) ∧
        pay.length = s.fld (Reg.lanCfg l) 15 8 - 1 ∧
        bitsOf h 7 0 = (if m = 1 then 0xD2 else if m = 2 then 0xE1 else 0xB4) ∧
        bitsOf h 19 8 = (if m = 1 then s.numberAt ((s.tsb.cx : Int) - (s.fld (Reg.lanCtrl l) 13 8 : Int)) % 4096 else s.tsb.crossing % 4096) ∧
        bitsOf h 63 56 = mirHcrc h ∧ bitsOf h 55 40 = mirFcrc pay ∧
        (s.rbit (Reg.lanCtrl l) 1 = false → h.getLsbD (if m = 3 then 29 else 28) = true ∧ ∀ b ∈ pay, b = 0) ∧
        (t.lane l).txAt = some s.tsb.cx ∧ (∀ k, k ≠ l.val → t.lane k = s.lane k) ∧ CountKept s t)


/-! ### Cells (chapter 4) -/

/-- The arithmetic cell operations on DATA operands with good parity: each makes the result and the flag of Table 7, and issuing one
changes nothing but the cell.

The commands whose completion this states: CELL_ADD, CELL_SUB, CELL_ADDS, CELL_MIN, CELL_MAX, CELL_ABS, CELL_CMP, CELL_THR, CELL_MUL8,
CELL_CNT. -/
def Obligations.CellArithmetic : Prop :=
  ∀ (s : State) (c : CellNo) (f : BitVec 64) (a b : W16), s.Inv → f = fieldNow s c →
    s.opA c f = FWord.data a → s.opB c f = FWord.data b →
    let sg := (cfMod f).getLsbD 0
    let less (x y : W16) : Bool := if sg then decide (x.toInt < y.toInt) else decide (x.toNat < y.toNat)
    (s.cellDue c 0x03 = true → Issues (.cellAdd c) c s (fun u => u.res = FWord.data (a + b) ∧
      u.flag = some (decide (65536 ≤ a.toNat + b.toNat)) ∧ u.scr = none)) ∧
    (s.cellDue c 0x04 = true → Issues (.cellSub c) c s (fun u => u.res = FWord.data (a - b) ∧
      u.flag = some (decide (a.toNat < b.toNat)) ∧ u.scr = none)) ∧
    (s.cellDue c 0x05 = true → sg = false → Issues (.cellAdds c) c s (fun u =>
      u.res = FWord.data (BitVec.ofNat 16 (min 65535 (a.toNat + b.toNat))) ∧ u.flag = some (decide (65535 < a.toNat + b.toNat)) ∧ u.scr = none)) ∧
    (s.cellDue c 0x05 = true → sg = true → Issues (.cellAdds c) c s (fun u => u.res.tag = .data ∧
      u.res.d.toInt = max (-32768) (min 32767 (a.toInt + b.toInt)) ∧
      u.flag = some (decide (u.res.d.toInt ≠ a.toInt + b.toInt)) ∧ u.scr = none)) ∧
    (s.cellDue c 0x06 = true → Issues (.cellMin c) c s (fun u => u.res = FWord.data (if less b a then b else a) ∧
      u.flag = some (less b a) ∧ u.scr = none)) ∧
    (s.cellDue c 0x07 = true → Issues (.cellMax c) c s (fun u => u.res = FWord.data (if less a b then b else a) ∧
      u.flag = some (less a b) ∧ u.scr = none)) ∧
    (s.cellDue c 0x08 = true → Issues (.cellAbs c) c s (fun u => u.res.tag = .data ∧ u.res.d.toNat = min 32767 a.toInt.natAbs ∧
      u.flag = some (decide (a.toInt < 0)) ∧ u.scr = none)) ∧
    (s.cellDue c 0x09 = true → ∀ p : Prop, (p ↔ match (cfMod f).toNat with
        | 0 => a = b | 1 => a ≠ b | 2 => a.toNat < b.toNat | 3 => b.toNat ≤ a.toNat
        | 4 => a.toInt < b.toInt | 5 => b.toInt ≤ a.toInt | 6 => b.toInt < a.toInt | _ => a.toInt ≤ b.toInt) →
      Issues (.cellCmp c) c s (fun u => (p → u.res = FWord.data 1 ∧ u.flag = some true) ∧ (¬p → u.res = FWord.data 0 ∧ u.flag = some false) ∧
        u.scr = none)) ∧
    (s.cellDue c 0x0A = true → Issues (.cellThr c) c s (fun u =>
      u.flag = some (!less a (cfImm f)) ∧ u.res.tag = .data ∧ u.scr = none ∧
      (less a (cfImm f) = true → u.res.d = cfImmb f) ∧
      (less a (cfImm f) = false → (cfMod f).getLsbD 1 = false → u.res.d = a) ∧
      (less a (cfImm f) = false → (cfMod f).getLsbD 1 = true → sg = false → u.res.d.toNat = a.toNat - (cfImm f).toNat) ∧
      (less a (cfImm f) = false → (cfMod f).getLsbD 1 = true → sg = true → u.res.d.toInt = min 32767 (a.toInt - (cfImm f).toInt)))) ∧
    (s.cellDue c 0x12 = true → Issues (.cellMul8 c) c s (fun u => u.res.tag = .data ∧ u.flag = none ∧ u.scr = none ∧
      (sg = false → u.res.d.toNat = (a.toNat % 256) * (b.toNat % 256)) ∧
      (sg = true → u.res.d.toInt = (a.setWidth 8).toInt * (b.setWidth 8).toInt))) ∧
    (s.cellDue c 0x15 = true → Issues (.cellCnt c) c s (fun u => u.res.tag = .data ∧ u.scr = none ∧
      u.res.d.toNat = ((List.range 16).filter (fun i => a.getLsbD i && (cfImm f).getLsbD i)).length ∧
      u.flag = some (decide (u.res.d ≠ 0))))

/-- The logic, shift, constant, copy and selection operations of the cells on good words. A shift of 0 clears the flag, another sets it to
the last bit shifted out. PASS and SEL hand their word on verbatim, a MARK as DATA 0 where MKZ is set; SEL examines only the operand it
selects. NOP issues nothing.

The commands whose completion this states: CELL_NOP, CELL_PASS, CELL_CONST, CELL_AND, CELL_OR, CELL_XOR, CELL_NOT, CELL_SHL, CELL_SHR,
CELL_ASR, CELL_SEL, CELL_LUT4. -/
def Obligations.CellLogic : Prop :=
  ∀ (s : State) (c : CellNo) (f : BitVec 64), s.Inv → f = fieldNow s c →
    (∀ a b : W16, s.opA c f = FWord.data a → s.opB c f = FWord.data b →
      let n := b.toNat % 16
      (s.cellDue c 0x0B = true → Issues (.cellAnd c) c s (fun u => u.res = FWord.data (a &&& b) ∧ u.flag = some (decide (a &&& b ≠ 0)) ∧ u.scr = none)) ∧
      (s.cellDue c 0x0C = true → Issues (.cellOr c) c s (fun u => u.res = FWord.data (a ||| b) ∧ u.flag = some (decide (a ||| b ≠ 0)) ∧ u.scr = none)) ∧
      (s.cellDue c 0x0D = true → Issues (.cellXor c) c s (fun u => u.res = FWord.data (a ^^^ b) ∧ u.flag = some (decide (a ≠ b)) ∧ u.scr = none)) ∧
      (s.cellDue c 0x0E = true → Issues (.cellNot c) c s (fun u => u.res = FWord.data (~~~a) ∧ u.flag = some (decide (a ≠ 0xFFFF)) ∧ u.scr = none)) ∧
      (s.cellDue c 0x0F = true → Issues (.cellShl c) c s (fun u => u.res.tag = .data ∧ u.res.d.toNat = a.toNat * 2 ^ n % 65536 ∧
        u.flag = some (decide (n ≠ 0) && a.getLsbD (16 - n)) ∧ u.scr = none)) ∧
      (s.cellDue c 0x10 = true → Issues (.cellShr c) c s (fun u => u.res.tag = .data ∧ u.res.d.toNat = a.toNat / 2 ^ n ∧
        u.flag = some (decide (n ≠ 0) && a.getLsbD (n - 1)) ∧ u.scr = none)) ∧
      (s.cellDue c 0x11 = true → Issues (.cellAsr c) c s (fun u => u.res.tag = .data ∧ u.res.d.toInt = a.toInt / 2 ^ n ∧
        u.flag = some (decide (n ≠ 0) && a.getLsbD (n - 1)) ∧ u.scr = none))) ∧
    (s.cellDue c 0x01 = true → (s.opA c f).bad = false → Issues (.cellPass c) c s (fun u =>
      u.res = (if cfMkz f = true ∧ (s.opA c f).tag = .mark then FWord.data 0 else s.opA c f) ∧ u.flag = none ∧ u.scr = none)) ∧
    (s.cellDue c 0x02 = true → Issues (.cellConst c) c s (fun u => u.res = FWord.data (cfImm f) ∧ u.flag = none ∧ u.scr = none)) ∧
    (s.cellDue c 0x13 = true → ∀ w, w = (if (s.flagsSeen c).getLsbD (bitsOf (cfMod f) 1 0) then s.opA c f else s.opB c f) → w.bad = false →
      Issues (.cellSel c) c s (fun u => u.res = (if cfMkz f = true ∧ w.tag = .mark then FWord.data 0 else w) ∧ u.flag = none ∧ u.scr = none)) ∧
    (s.cellDue c 0x14 = true → Issues (.cellLut4 c) c s (fun u =>
      u.res = FWord.data (if (cfImm f).getLsbD (s.flagsSeen c).toNat then 1 else 0) ∧
      u.flag = some ((cfImm f).getLsbD (s.flagsSeen c).toNat) ∧ u.scr = none)) ∧
    exec (.cellNop c) s = .next s

/-- ACC adds its operand to the local register that DST names, or loads it with MOD[0]; DELAY, SRD and SWR make the scratch accesses of
R123 and R125 in their second stage, and SRD and SWR with a POISON or MARK address make none.

The commands whose completion this states: CELL_ACC, CELL_DELAY, CELL_SRD, CELL_SWR. -/
def Obligations.CellMemoryOperations : Prop :=
  ∀ (s : State) (c : CellNo) (f : BitVec 64) (a : W16), s.Inv → f = fieldNow s c → s.opA c f = FWord.data a →
    (s.cellDue c 0x16 = true → (cfMod f).getLsbD 0 = true → Issues (.cellAcc c) c s (fun u => u.res = FWord.data a ∧ u.flag = some false ∧ u.scr = none)) ∧
    (s.cellDue c 0x16 = true → (cfMod f).getLsbD 0 = false → ∀ d l, cfDst f = some d → (s.cell c).loc d = FWord.data l →
      Issues (.cellAcc c) c s (fun u => u.res.tag = .data ∧ u.flag = some (decide (65536 ≤ l.toNat + a.toNat)) ∧ u.scr = none ∧
        u.res.d.toNat = (if (cfMod f).getLsbD 1 then min 65535 (l.toNat + a.toNat) else (l.toNat + a.toNat) % 65536))) ∧
    (s.cellDue c 0x17 = true → Issues (.cellDelay c) c s (fun u => u.flag = none ∧
      u.scr = some (.delay (bitsOf (cfImm f) 8 0) (bitsOf (cfImm f) 15 9 + 1) (s.curCtx (c.val / 4)) (FWord.data a)))) ∧
    (∀ b : W16, s.opB c f = FWord.data b →
      (s.cellDue c 0x18 = true → Issues (.cellSrd c) c s (fun u => u.flag = none ∧ u.scr = some (.read (((cfImm f).toNat + b.toNat) % 512)))) ∧
      (s.cellDue c 0x19 = true → Issues (.cellSwr c) c s (fun u => u.flag = none ∧ u.res = FWord.data a ∧
        u.scr = some (.write (((cfImm f).toNat + b.toNat) % 512) (FWord.data a))))) ∧
    (∀ d : W16, ∀ g : Tag, (g = .poison ∨ (g = .mark ∧ cfMkz f = false)) → s.opB c f = { tag := g, d := d } →
      (s.cellDue c 0x18 = true → Issues (.cellSrd c) c s (fun u => u.res = { tag := g, d := d } ∧ u.scr = none)) ∧
      (s.cellDue c 0x19 = true → Issues (.cellSwr c) c s (fun u => u.res = { tag := g, d := d } ∧ u.scr = none)))

/-- Tags of the two-operand operations: with good parity, the first POISON operand makes the result, else the first MARK with MKZ clear,
and a result over a FRAME is FRAME exactly with FP set. An operand with failing parity makes POISON 0x0001 and counts one in
SEC_PERR_CNT for each such operand.

The commands whose completion this states: CELL_ADD, CELL_SUB, CELL_ADDS, CELL_MIN, CELL_MAX, CELL_CMP, CELL_AND, CELL_OR, CELL_XOR,
CELL_SHL, CELL_SHR, CELL_ASR, CELL_MUL8. -/
def Obligations.CellTags : Prop :=
  ∀ (s : State) (c : CellNo) (f : BitVec 64) (a b : FWord), s.Inv → f = fieldNow s c → s.opA c f = a → s.opB c f = b →
    ∀ p ∈ ([(.cellAdd, 0x03), (.cellSub, 0x04), (.cellAdds, 0x05), (.cellMin, 0x06), (.cellMax, 0x07), (.cellCmp, 0x09), (.cellAnd, 0x0B),
        (.cellOr, 0x0C), (.cellXor, 0x0D), (.cellShl, 0x0F), (.cellShr, 0x10), (.cellAsr, 0x11), (.cellMul8, 0x12)] : List ((CellNo → Instr) × Nat)),
      s.cellDue c p.2 = true →
      (a.bad = false → b.bad = false → Issues (p.1 c) c s (fun u =>
        (a.tag = .poison → u.res = a) ∧
        (a.tag ≠ .poison → b.tag = .poison → u.res = b) ∧
        (cfMkz f = false → a.tag = .mark → b.tag ≠ .poison → u.res = a) ∧
        (cfMkz f = false → (a.tag = .data ∨ a.tag = .frame) → b.tag = .mark → u.res = b) ∧
        ((a.tag = .data ∨ a.tag = .frame) → (b.tag = .data ∨ b.tag = .frame) →
          u.res.tag = (if cfFp f = true ∧ (a.tag = .frame ∨ b.tag = .frame) then .frame else .data) ∧ u.res.bad = false))) ∧
      (a.bad = true → Completes (p.1 c) s (fun t => (∃ u, (t.cell c).issued = some u ∧ u.res = FWord.poison 1) ∧
        t.fld (Reg.secPerrCnt (c.val / 1024)) 31 0 =
          satAdd (2 ^ 32 - 1) (s.fld (Reg.secPerrCnt (c.val / 1024)) 31 0) (if b.bad then 2 else 1) ∧
        RegsKept [Reg.secPerrCnt (c.val / 1024), Reg.secPerrLast (c.val / 1024)] s t ∧ BytesKept s t))

/-- A result with OUTH clear reaches the cell's output register at the third slot boundary after its issue, and not before; its local
register and its flag as the cell's own operations see them change at the first. With FM = 1 the flag stays, with 2 and 3 it is forced.

A scratch word stored by a cell is read back with its tag, and every other word of the tile's scratch stands, tag and all; no byte
outside the tile's scratch and its tags changes, and no register. -/
def Obligations.ResultStagesAndScratch : Prop :=
  (
  ∀ (k : CellSt) (u : Issue), k.issued = some u → k.stage2 = none → k.stage3 = none → cfOuth u.field = false → u.res.bad = false →
    k.advance.out = k.out ∧ k.advance.advance.out = k.out ∧ k.advance.advance.advance.out = u.res ∧
    k.advance.own = u.res ∧ k.advance.flagVis = k.flagVis ∧ k.advance.advance.advance.flagVis = k.advance.flag ∧
    (∀ d, cfDst u.field = some d → k.advance.loc d = u.res) ∧
    k.advance.flag = (match (cfFm u.field).toNat with
      | 0 => match u.flag with
        | none => k.flag
        | some b => b && decide (u.res.tag ≠ .poison) && decide (u.res.tag ≠ .mark)
      | 1 => k.flag
      | 2 => false
      | _ => true)
  ) ∧
  (
  ∀ (s : State) (tile : TileNo) (w : Fin 512) (v : FWord), s.Inv → s.protIdle = true → v.bad = false →
    ((s.scratchWrite tile w v).scratchRead tile w).2 = v ∧
    (∀ x : Fin 512, x ≠ w → ((s.scratchWrite tile w v).scratchRead tile x).2 = (s.scratchRead tile x).2) ∧
    (∀ a, (a < scratchAddr tile w ∨ scratchAddr tile w + 2 ≤ a) → a ≠ scratchTagAddr tile w → (s.scratchWrite tile w v).byte a = s.byte a) ∧
    s.scratchWrite tile w v = { s with mem := (s.scratchWrite tile w v).mem, ports := (s.scratchWrite tile w v).ports }
  )


/-! ### Sorters, the merge unit and the DEC outputs (chapters 5 and 6) -/

/-- At its sample slot a sorter ranks the 64 pairs it holds: the good ones by descending key, equal keys by ascending input index, the bad
ones below them, above them or not at all as BADRANK selects, by ascending index; ranks with no pair are DATA 0. It counts the pairs it
found good and bad and those that did not fit, and every written bit clears. The ranks will be emitted 24 slots later.

The commands whose completion this states: SORTER_CAPTURE. -/
def Obligations.SorterRanksPairs : Prop :=
  ∀ (s : State) (k : SectorNo), s.Inv → s.planeRuns = true → s.secIn k = true → s.srtOn k = true →
    s.fld (Reg.srtCfg k) 6 0 = s.tsb.slot → (∀ c ∈ (s.sorter k).captures, c.tick ≠ s.tsb.tick + 24) →
    let key (i : Nat) : Option FWord := Tbl.get none (s.sorter k).inputs i
    let val (i : Nat) : Nat := ((key i).getD FWord.zero).taken.d.toNat
    let bs := (List.range 64).filter (fun i => decide (keyClass (key i) = .bad))
    Completes (.sorterCapture k) s (fun t => ∃ (gs : List Nat) (c : Capture),
      gs.Pairwise (fun i j => val j < val i ∨ (val i = val j ∧ i < j)) ∧ (∀ i, i ∈ gs ↔ i < 64 ∧ keyClass (key i) = .good) ∧
      (t.sorter k).captures = (s.sorter k).captures ++ [c] ∧ c.tick = s.tsb.tick + 24 ∧
      c.ranks = (((if s.fld (Reg.srtCfg k) 15 14 = 1 then bs ++ gs else if s.fld (Reg.srtCfg k) 15 14 = 2 then gs else gs ++ bs).map
        (fun i => travel (key i) (key (64 + i)))) ++ List.replicate 16 (FWord.zero, FWord.zero)).take 16 ∧
      (t.sorter k).inputs = [] ∧ (t.sorter k).live = (s.sorter k).live ∧ (t.sorter k).emitted = (s.sorter k).emitted ∧
      t.fld (Reg.srtStatus k) 14 8 = gs.length ∧ t.fld (Reg.srtStatus k) 22 16 = bs.length ∧
      t.fld (Reg.srtCnt k) 15 0 = satAdd 65535 (s.fld (Reg.srtCnt k) 15 0) bs.length ∧
      (∀ j, j ≠ k.val → t.sorter j = s.sorter j) ∧ RegsKept [Reg.srtStatus k, Reg.srtCnt k] s t ∧
      t = { s with regs := t.regs, sorters := t.sorters })

/-- Merging ranked lists ranks as one sort would: the top 16 of the sector lists' top 16 are the top 16 of all pairs together, in the order
of the lists and then of their inputs, wherever bad pairs are placed. -/
def Obligations.MergeRanksAsOneSort : Prop :=
  ∀ (br : Nat) (ls : List (List (Option FWord × Option FWord))), br ≤ 2 →
    (rankPairs br (ls.flatMap (fun l => (rankPairs br l).ranks.map (fun e => (some e.1, some e.2))))).ranks =
      (rankPairs br ls.flatten).ranks

/-- The merge unit at its slot takes the list that each masked sector's sorter emits in that slot, and POISON 6 for one that left the
plane in this crossing and MARK DARK of the sector for one that left in an earlier crossing; 12 slots later it emits.
A sorter emits a capture 24 slots after it.

Four slots after a word is presented to a DEC attachment its ball follows it: bit 0 of a DATA or FRAME word, or whether the word is not
0 where DEC_CFG selects that; POISON and MARK give the safe level, set the bit in DEC_STATUS and count in DEC_BADCNT; a departure of the
sector gives the safe level. The other balls stand; before the outputs are released the ball stands.

The commands whose completion this states: DEC_EDGE, SORTER_EMIT, MERGE_CAPTURE, MERGE_EMIT. -/
def Obligations.SortersAndBallsEmitOnTime : Prop :=
  (
  ∀ s : State, s.Inv → s.planeRuns = true →
    (∀ (k : SectorNo) (c : Capture), s.secIn k = true → (s.sorter k).captures.find? (fun c => c.tick == s.tsb.tick) = some c →
      Completes (.sorterEmit k) s (fun t => (t.sorter k).emitted = some c ∧ (t.sorter k).live = true ∧
        (∀ x ∈ (t.sorter k).captures, x.tick ≠ s.tsb.tick) ∧ (t.sorter k).inputs = (s.sorter k).inputs ∧
        (∀ j, j ≠ k.val → t.sorter j = s.sorter j) ∧ t = { s with sorters := t.sorters })) ∧
    (s.rbit Reg.mrgCfg 13 = true → s.fld Reg.mrgCfg 6 0 = s.tsb.slot → (∀ c ∈ s.merge.captures, c.tick ≠ s.tsb.tick + 12) →
      (∀ e : Nat → List Rank, (∀ k ∈ maskList (s.reg Reg.mrgCfg >>> 16) 16,
          (s.secIn k = true ∧ ∃ c, (s.sorter k).captures.find? (fun c => c.tick == s.tsb.tick) = some c ∧ c.ranks = e k) ∨
          (s.secIn k = false ∧ (Tbl.get (0, 0) s.leaves (256 + k)).1 ≠ s.tsb.cx ∧
            e k = List.replicate 16 (FWord.dark (0x400 + k), FWord.dark (0x400 + k))) ∨
          (s.secIn k = false ∧ s.fld (Reg.glbSecState k) 29 26 ≠ 0 ∧ (Tbl.get (0, 0) s.leaves (256 + k)).1 = s.tsb.cx ∧
            e k = List.replicate 16 (FWord.poison 6, FWord.poison 6))) →
        Completes .mergeCapture s (fun t => (∃ c, t.merge.captures = s.merge.captures ++ [c] ∧ c.tick = s.tsb.tick + 12 ∧
            c.ranks = (rankPairs (s.fld Reg.mrgCfg 15 14) (((maskList (s.reg Reg.mrgCfg >>> 16) 16).flatMap e).map
              (fun x => (some x.1, some x.2)))).ranks) ∧
          t.merge.emitted = s.merge.emitted ∧ RegsKept [Reg.mrgCnt] s t ∧ t = { s with regs := t.regs, merge := t.merge }))) ∧
    (∀ c, s.merge.captures.find? (fun c => c.tick == s.tsb.tick) = some c →
      Completes .mergeEmit s (fun t => t.merge.emitted = some c ∧ t = { s with merge := t.merge }))
  ) ∧
  (
  ∀ (s : State) (b : Fin 16) (p : DecPres), s.Inv →
    s.dec.find? (fun p => p.bit == b.val && p.tick + 4 == s.tsb.tick) = some p →
    Completes (.decEdge b) s (fun t =>
      (s.boot.outDec = false → t.decPins = s.decPins) ∧
      (s.boot.outDec = true → (∀ i : Fin 16, i ≠ b → t.decPins.getLsbD i = s.decPins.getLsbD i) ∧
        ∀ w, p.word = some w → w.bad = false →
          ((w.tag = .data ∨ w.tag = .frame) →
            t.decPins.getLsbD b = (if s.rbit Reg.decCfg (16 + b.val) then decide (w.d ≠ 0) else w.d.getLsbD 0) ∧
            t.rbit Reg.decStatus b = false ∧ t.reg Reg.decBadcnt = s.reg Reg.decBadcnt) ∧
          ((w.tag = .mark ∨ w.tag = .poison) → t.decPins.getLsbD b = s.rbit Reg.decCfg b ∧ t.rbit Reg.decStatus b = true ∧
            t.fld Reg.decBadcnt 31 0 = satAdd (2 ^ 32 - 1) (s.fld Reg.decBadcnt 31 0) 1)) ∧
      (s.boot.outDec = true → p.word = none → t.decPins.getLsbD b = s.rbit Reg.decCfg b ∧ t.rbit Reg.decStatus b = true ∧
        t.reg Reg.decBadcnt = s.reg Reg.decBadcnt) ∧
      t.dec = s.dec.erase p ∧ RegsKept [Reg.decStatus, Reg.decBadcnt] s t ∧
      t = { s with regs := t.regs, dec := t.dec, decPins := t.decPins })
  )


/-! ### Stream queues (chapter 7) -/

/-- A push of a fixed producer's word, outside resync and with no marker pending, lands behind the last word when a stage is free;
with all 8 full it is dropped: the gap count rises, a MARK GAP is pending, DROP counts and DROP_EVT is set. With a marker pending
and a stage just freed the push is still dropped, and the marker that then lands counts it. Nothing but this queue and its
registers changes.

In resync a word that is not tagged FRAME is discarded and counts in DISC; a FRAME word ends resync: a MARK GAP with the number of words
discarded lands, and the word behind it.

RESYNC at its effect crossing empties every queue whose domain is not held in reset, keeps the last word it delivered, lands MARK RESYNC
in stage 0 and enters resync; a RET queue takes no marker and does not. The event number restarts and the next orbit marker may move the
count; the count itself stands.

The commands whose completion this states: RESYNC, QUEUE_PUSH, MARK_GAP_LAND. -/
def Obligations.PushesResyncAndReset : Prop :=
  (
  ∀ (s : State) (q : QueueNo) (w : FWord), s.Inv → s.qRuns q = true → (s.queue q).pushTick ≠ some s.tsb.tick →
    (s.queue q).offer = some w → s.inResync q = false →
    ((s.queue q).pend = false → (s.queue q).stages.length < 8 → Completes (.queuePush q) s (fun t =>
      (t.queue q).stages = (s.queue q).stages ++ [w] ∧ (t.queue q).last = (s.queue q).last ∧ (t.queue q).pend = false ∧
      (t.queue q).offer = none ∧ (∀ k, k ≠ q.val → t.queue k = s.queue k) ∧ t = { s with queues := t.queues })) ∧
    ((s.queue q).pend = false → (s.queue q).stages.length = 8 → Completes (.queuePush q) s (fun t =>
      (t.queue q).stages = (s.queue q).stages ∧ (t.queue q).pend = true ∧ (t.queue q).gap = min ((s.queue q).gap + 1) 4095 ∧
      t.rbit (Reg.queStatus q) 8 = true ∧ t.fld (Reg.queCnt0 q) 31 16 = satAdd 65535 (s.fld (Reg.queCnt0 q) 31 16) 1 ∧
      (∀ k, k ≠ q.val → t.queue k = s.queue k) ∧ RegsKept [Reg.queStatus q, Reg.queCnt0 q] s t ∧
      t = { s with regs := t.regs, queues := t.queues })) ∧
    ((s.queue q).pend = true → (s.queue q).stages.length = 7 → (s.queue q).popTick = some s.tsb.tick → (s.queue q).gap < 4095 →
      Completes (.queuePush q) s (fun t => (t.queue q).stages = (s.queue q).stages ∧ (t.queue q).pend = true ∧
        Completes (.markGapLand q) t (fun v => (v.queue q).stages = (s.queue q).stages ++ [FWord.gap ((s.queue q).gap + 1)] ∧
          (v.queue q).pend = false ∧ (v.queue q).gap = 0 ∧ v.regs = t.regs ∧ v = { t with queues := v.queues })))
  ) ∧
  (
  ∀ (s : State) (q : QueueNo) (w : FWord), s.Inv → s.qRuns q = true → (s.queue q).pushTick ≠ some s.tsb.tick →
    (s.queue q).offer = some w → s.inResync q = true → (s.queue q).pend = false →
    (w.tag ≠ .frame → Completes (.queuePush q) s (fun t => (t.queue q).stages = (s.queue q).stages ∧ t.inResync q = true ∧
      (t.queue q).disc = (s.queue q).disc + 1 ∧ t.fld (Reg.queCnt0 q) 15 0 = satAdd 65535 (s.fld (Reg.queCnt0 q) 15 0) 1 ∧
      (∀ k, k ≠ q.val → t.queue k = s.queue k) ∧ RegsKept [Reg.queCnt0 q] s t ∧ t = { s with regs := t.regs, queues := t.queues })) ∧
    (w.tag = .frame → (s.queue q).stages.length ≤ 6 → Completes (.queuePush q) s (fun t =>
      (t.queue q).stages = (s.queue q).stages ++ [FWord.gap (s.queue q).disc, w] ∧ t.inResync q = false ∧
      (∀ k, k ≠ q.val → t.queue k = s.queue k) ∧ t = { s with queues := t.queues }))
  ) ∧
  (
  ∀ (s : State) (c p : Byte), s.Inv → s.tsb.due = some (c, p) → bitsOf c 7 4 = 3 →
    Completes .resync s (fun t =>
      (∀ q : QueueNo, s.qRuns q = true → (t.queue q).last = (s.queue q).last ∧ (t.queue q).pend = false ∧ (t.queue q).gap = 0 ∧
        (if s.qFar q = 3 ∧ s.qDir q = 2 then (t.queue q).stages = [] ∧ t.inResync q = false
         else (t.queue q).stages = [FWord.resync] ∧ t.inResync q = true)) ∧
      (∀ q : QueueNo, s.qRuns q = false → t.queue q = s.queue q) ∧
      t.fld Reg.tsbEvn 23 0 = 0 ∧ t.tsb.moveArmed = true ∧ t.tsb.due = none ∧ CountKept s t ∧ BytesKept s t)
  )

/-- A fixed consumer's pop of an IN queue delivers the head, POISON where its parity fails, and every other word moves forward; a
pop of an empty queue, or of one that RESYNC has emptied in this same cycle, delivers the last word delivered, sets UNDERRUN and
counts one in UNDER. The port shows the word before until the slot is over, then the word delivered.

The commands whose completion this states: QUEUE_POP. -/
def Obligations.PopDeliversHeadOrLast : Prop :=
  ∀ (s : State) (q : QueueNo), s.Inv → s.qRuns q = true → (s.queue q).popTick ≠ some s.tsb.tick → (s.queue q).pushTick ≠ some s.tsb.tick →
    s.qDir q = 2 → s.clIn (q.val / 32) = true → s.popsNow q = true → (s.queue q).pend = false →
    (∀ w rest, (s.queue q).resyncTick ≠ some s.tsb.tick → (s.queue q).stages = w :: rest → Completes (.queuePop q) s (fun t =>
      (t.queue q).stages = rest ∧ (t.queue q).last = (if w.bad then { w with tag := .poison } else w) ∧
      t.queueSeen q = s.queueSeen q ∧
      (t.queue q).credits = (if s.qFar q = 2 then min 8 ((s.queue q).credits + 1) else (s.queue q).credits) ∧
      (w.bad = false → t.regs = s.regs) ∧
      (w.bad = true → t.rbit (Reg.queStatus q) 6 = true ∧ t.fld (Reg.queCnt1 q) 7 0 = satAdd 255 (s.fld (Reg.queCnt1 q) 7 0) 1) ∧
      (∀ k, k ≠ q.val → t.queue k = s.queue k) ∧ RegsKept [Reg.queStatus q, Reg.queCnt1 q] s t ∧
      t = { s with regs := t.regs, queues := t.queues })) ∧
    ((s.queue q).stages = [] ∨ (s.queue q).resyncTick = some s.tsb.tick → Completes (.queuePop q) s (fun t =>
      (t.queue q).stages = (s.queue q).stages ∧ (t.queue q).last = (s.queue q).last ∧ (t.queue q).credits = (s.queue q).credits ∧
      t.queueSeen q = s.queueSeen q ∧ t.rbit (Reg.queStatus q) 7 = true ∧
      t.fld (Reg.queCnt1 q) 15 8 = satAdd 255 (s.fld (Reg.queCnt1 q) 15 8) 1 ∧
      (∀ k, k ≠ q.val → t.queue k = s.queue k) ∧ RegsKept [Reg.queStatus q, Reg.queCnt1 q] s t ∧
      t = { s with regs := t.regs, queues := t.queues })) ∧
    ((s.queueReset q).queue q).last = FWord.data 0 ∧ ((s.queueReset q).queue q).stages = []

/-- A post unit with fewer than 4 posts awaiting starts an item at a FRAME word and takes the DATA words that follow; the word
that completes it posts the item, its flow first, to the task of FARID. A response takes its post off the count; REFUSED, DISABLED
and DOWN count one in REFUSED and, with RETEN, in the return count, which lands as MARK REFUSED in the RET queue once that has a
free stage.

An OUT NET queue that holds a credit sends its head to its stream interface and spends the credit; an IN NET queue's interface
pushes its oldest word against a credit. No queue of either kind ever sends or takes without one.

The commands whose completion this states: QUEUE_PUSH, QUEUE_POP, POST_RESPONSE, MARK_REFUSED_LAND, STREAM_SEND. -/
def Obligations.PostUnitAndStreamInterface : Prop :=
  (
  ∀ (s : State) (q : QueueNo), s.Inv → s.qRuns q = true → s.qDir q = 1 → s.qFar q = 1 →
    ((s.queue q).popTick ≠ some s.tsb.tick → (s.queue q).pushTick ≠ some s.tsb.tick → (s.queue q).posts < 4 → (s.queue q).pend = false →
      (s.queue q).resyncTick ≠ some s.tsb.tick →
      ∀ w rest, (s.queue q).stages = w :: rest → w.bad = false →
      ((s.queue q).item = none → w.tag = .frame → 0 < s.fld (Reg.queCfg q) 27 23 → Completes (.queuePop q) s (fun t =>
        (t.queue q).item = some [w.d] ∧ (t.queue q).stages = rest ∧ t.dpt = s.dpt ∧ t.regs = s.regs ∧ t = { s with queues := t.queues })) ∧
      (∀ it, (s.queue q).item = some it → w.tag = .data → it.length = s.fld (Reg.queCfg q) 27 23 → Completes (.queuePop q) s (fun t =>
        (t.queue q).item = none ∧ (t.queue q).posts = (s.queue q).posts + 1 ∧
        t.dpt.posts = s.dpt.posts ++
          [⟨BitVec.ofNat 16 (0x8000 + q.val), s.qFarId q % 4096, (postWords (it ++ [w.d])).1, (postWords (it ++ [w.d])).2, false⟩] ∧
        t = { s with queues := t.queues, dpt := { s.dpt with posts := t.dpt.posts } })) ∧
      (∀ it, (s.queue q).item = some it → (w.tag = .mark ∨ w.tag = .poison) → Completes (.queuePop q) s (fun t =>
        (t.queue q).item = none ∧ t.dpt = s.dpt ∧
        t.fld (Reg.queCnt0 q) 15 0 = satAdd 65535 (s.fld (Reg.queCnt0 q) 15 0) (it.length + 1)))) ∧
    (∀ r, s.dpt.responses.find? (fun r => r.1 == BitVec.ofNat 16 (0x8000 + q.val)) = some r → Completes (.postResponse q) s (fun t =>
      (t.queue q).posts = (s.queue q).posts - 1 ∧
      ((r.2 = 1 ∨ r.2 = 2 ∨ r.2 = 4) → t.rbit (Reg.queStatus q) 9 = true ∧
        t.fld (Reg.queCnt1 q) 31 16 = satAdd 65535 (s.fld (Reg.queCnt1 q) 31 16) 1 ∧
        (t.queue q).refusals = (s.queue q).refusals + (if s.rbit (Reg.queCfg q) 17 then 1 else 0)) ∧
      (¬(r.2 = 1 ∨ r.2 = 2 ∨ r.2 = 4) → t.regs = s.regs ∧ (t.queue q).refusals = (s.queue q).refusals) ∧
      t.dpt.responses = s.dpt.responses.erase r ∧ RegsKept [Reg.queStatus q, Reg.queCnt1 q] s t ∧ BytesKept s t)) ∧
    (∀ r : Nat, r = 32 * (q.val / 32) + s.fld (Reg.queCfg q) 22 18 → r ≠ q.val → s.rbit (Reg.queCfg q) 17 = true → 0 < (s.queue q).refusals →
      (s.queue r).pushTick ≠ some s.tsb.tick → (s.queue r).pend = false → (s.queue r).stages.length < 8 →
      Completes (.markRefusedLand q) s (fun t => (t.queue r).stages = (s.queue r).stages ++ [FWord.refused (s.queue q).refusals] ∧
        (t.queue q).refusals = 0 ∧ (t.queue q).stages = (s.queue q).stages ∧ (∀ k, k ≠ r → k ≠ q.val → t.queue k = s.queue k) ∧
        t = { s with queues := t.queues }))
  ) ∧
  (
  ∀ (s : State) (q : QueueNo), s.Inv → s.qRuns q = true → s.qFar q = 2 → (s.queue q).popTick ≠ some s.tsb.tick →
    (s.queue q).pushTick ≠ some s.tsb.tick → (s.queue q).pend = false →
    (∀ w rest, s.qDir q = 1 → (s.queue q).resyncTick ≠ some s.tsb.tick → (s.queue q).stages = w :: rest → 0 < (s.queue q).credits → w.bad = false → Completes (.streamSend q) s (fun t =>
      (t.queue q).stages = rest ∧ (t.queue q).buffer = (s.queue q).buffer ++ [w] ∧ (t.queue q).credits = (s.queue q).credits - 1 ∧
      (∀ k, k ≠ q.val → t.queue k = s.queue k) ∧ t = { s with queues := t.queues })) ∧
    (s.qDir q = 1 → (s.queue q).credits = 0 → exec (.streamSend q) s = .next s) ∧
    (∀ w rest, s.qDir q = 2 → (s.queue q).offer = none → (s.queue q).buffer = w :: rest → s.inResync q = false →
      0 < (s.queue q).credits → (s.queue q).stages.length < 8 → Completes (.queuePush q) s (fun t =>
        (t.queue q).stages = (s.queue q).stages ++ [w] ∧ (t.queue q).buffer = rest ∧ (t.queue q).credits = (s.queue q).credits - 1 ∧
        (∀ k, k ≠ q.val → t.queue k = s.queue k) ∧ t = { s with queues := t.queues })) ∧
    (s.qDir q = 2 → (s.queue q).offer = none → (s.queue q).credits = 0 → exec (.queuePush q) s = .next s)
  )

/-! ### Engines (chapters 8 and 9) -/

/-- A cycle of a solo engine that fetches: the word at the next address enters stage D, every instruction in flight moves one stage on, and
the next address is the one after it. This is the cycle of ENG_NOP and, by name, of every other engine instruction and of a reserved
encoding: what stands in the stages besides acts as the statements that follow say.

Stage A reads operands and addresses and post-modifies address registers: of MAC class, ALU, memory moves, MOV, OUT and SYNC. -/
def Obligations.CyclesFetchAndReadOperands : Prop :=
  (
  ∀ (s : State) (p : EngineNo) (b : Bank) (c : EngineNo → Instr), s.Inv → FetchesOn s p b →
    let g := s.eng p
    let sh := g.handler.isSome
    (progSlot s p b.next sh false).op.row = some c →
    (∀ st ∈ g.stages.take 4, ∀ k, st = some k → k.op = .nop ∧ k.shadow = sh) → (∀ k, g.stW = some k → k.op = .nop) →
    EngDoes (c p) p s (fun g' => g'.stages = [some (progSlot s p b.next sh false), g.stD, g.stA, g.stR, g.stM] ∧
      (g'.bank sh).next = b.next + 1 ∧ (g'.bank sh).loop = none ∧ (g'.bank sh).rep = none ∧ (g'.bank sh).again = [] ∧
      g'.bank sh = { b with next := b.next + 1, xfer1 := (g'.bank sh).xfer1, xfer2 := (g'.bank sh).xfer2 } ∧ RestKept sh g g')
  ) ∧
  (
  ∀ (s : State) (p : EngineNo) (k : PSlot) (c : EngineNo → Instr), s.Inv → Drains s p → (s.eng p).stages = [none, some k, none, none, none] →
    k.op.row = some c → k.op.transfer = false → k.op ≠ .loop →
    let g := s.eng p
    let b := g.bank k.shadow
    EngDoes (c p) p s (fun g' => ∃ k', g'.stages = [none, none, some k', none, none] ∧ k'.word = k.word ∧ k'.addr = k.addr ∧
      k'.shadow = k.shadow ∧
      (let b' := g'.bank k.shadow
       (∀ o, k.op = .mac o →
         k'.a = b.D (k.f 26 23) ∧ k'.b = b.D (k.f 22 19) ∧
         (if k.f 18 18 = 1 then UsesX b b' (k.f 13 12) (k.f 11 10) k'.xa else b'.ax = b.ax) ∧
         (if k.f 9 9 = 1 then UsesY b b' (k.f 4 3) (k.f 2 1) k'.ya else b'.ay = b.ay)) ∧
       (∀ o, k.op = .alu o → k'.a = b.D (k.f 19 17) ∧ k'.b = (if k.f 31 28 = 9 then BitVec.ofNat 16 (k.f 15 0) else b.D (k.f 16 14)) ∧
         (k.f 31 28 = 8 → k.f 13 13 = 1 → k.f 12 12 = 0 → UsesX b b' (k.f 7 6) (k.f 5 4) k'.xa ∧ b'.ay = b.ay) ∧
         (k.f 31 28 = 8 → k.f 13 13 = 1 → k.f 12 12 = 1 → UsesY b b' (k.f 7 6) (k.f 5 4) k'.ya ∧ b'.ax = b.ax) ∧
         (k.f 31 28 = 9 ∨ k.f 13 13 = 0 → b' = b)) ∧
       ((k.op = .ldx ∨ k.op = .stx) → k'.a = g.readReg k.shadow (k.f 24 19) ∧ b'.ay = b.ay ∧
         (if k.f 25 25 = 1 then k'.xa = BitVec.ofNat 12 (k.f 14 3) ∧ b' = b else UsesX b b' (k.f 14 13) (k.f 12 11) k'.xa)) ∧
       ((k.op = .ldy ∨ k.op = .sty) → k'.a = g.readReg k.shadow (k.f 24 19) ∧ b'.ax = b.ax ∧
         (if k.f 25 25 = 1 then k'.ya = BitVec.ofNat 12 (k.f 14 3) ∧ b' = b else UsesY b b' (k.f 14 13) (k.f 12 11) k'.ya)) ∧
       (k.op = .mov → k'.a = g.readReg k.shadow (k.f 21 16)) ∧ (k.op = .out → k'.a = g.readReg k.shadow (k.f 24 19)) ∧
       (k.op = .sync → k'.a = b.D (k.f 21 19)) ∧
       b' = { b with ax := b'.ax, ay := b'.ay }) ∧ RestKept k.shadow g g')
  )

/-- Each ALU operation in stage M writes the result and the condition bits of Table 7, and nothing else of the engine; CMP and TST write no
register, LDI no condition bit.

The commands whose completion this states: ALU_ADD, ALU_SUB, ALU_ADDS, ALU_SUBS, ALU_AND, ALU_OR, ALU_XOR, ALU_NOT, ALU_NEG, ALU_ABS,
ALU_MIN, ALU_MAX, ALU_CMP, ALU_TST, ALU_SHL, ALU_SHR, ALU_ASR, ALU_CNT, ALU_LDI. -/
def Obligations.AluInstructions : Prop :=
  ∀ (s : State) (p : EngineNo) (k : PSlot) (o : Nat) (c : EngineNo → Instr), s.Inv → Drains s p →
    (s.eng p).stages = [none, none, none, some k, none] → k.op = .alu o → k.op.row = some c →
    let g := s.eng p
    let b := g.bank k.shadow
    let x := k.a
    let y := k.b
    let n := y.toNat % 16
    let sat (i : Int) : W16 := BitVec.ofInt 16 (max (-32768) (min 32767 i))
    let out (i : Int) : Bool := decide (i < -32768 ∨ 32767 < i)
    ∀ (r : W16) (w : Bool) (v : Option Bool), (o, r, w, v) ∈ ([
      (0x00, x + y, true, some (out (x.toInt + y.toInt))), (0x01, x - y, true, some (out (x.toInt - y.toInt))),
      (0x02, sat (x.toInt + y.toInt), true, some (out (x.toInt + y.toInt))), (0x03, sat (x.toInt - y.toInt), true, some (out (x.toInt - y.toInt))),
      (0x04, x &&& y, true, some false), (0x05, x ||| y, true, some false), (0x06, x ^^^ y, true, some false), (0x07, ~~~x, true, some false),
      (0x08, 0 - x, true, some (decide (x = 0x8000))), (0x09, sat x.toInt.natAbs, true, some (decide (x = 0x8000))),
      (0x0A, BitVec.ofInt 16 (min x.toInt y.toInt), true, some false), (0x0B, BitVec.ofInt 16 (max x.toInt y.toInt), true, some false),
      (0x0C, x - y, false, some (out (x.toInt - y.toInt))), (0x0D, x &&& y, false, some false),
      (0x0E, BitVec.ofNat 16 (x.toNat * 2 ^ n), true, some false), (0x0F, BitVec.ofNat 16 (x.toNat / 2 ^ n), true, some false),
      (0x10, BitVec.ofInt 16 (x.toInt / 2 ^ n), true, some false),
      (0x11, BitVec.ofNat 16 ((List.range 16).filter (fun i => x.getLsbD i)).length, true, some false),
      (0x12, y, true, none)] : List (Nat × W16 × Bool × Option Bool)) →
    EngDoes (c p) p s (fun g' =>
      let b' := g'.bank k.shadow
      (∀ i, i < 8 → b'.D i = if w = true ∧ i = k.f 22 20 then r else b.D i) ∧
      (match v with
        | some v => b'.z = decide (r = 0) ∧ b'.n = decide (r.toInt < 0) ∧ b'.v = v
        | none => b'.z = b.z ∧ b'.n = b.n ∧ b'.v = b.v) ∧
      b' = { b with d := b'.d, z := b'.z, n := b'.n, v := b'.v } ∧ g'.stages = [none, none, none, none, some k] ∧ RestKept k.shadow g g')

/-- A MAC-class instruction in stage W: the exact result, clamped into 40 bits; CF, GOV and the condition bits; the other accumulator and
everything else of the engine stand.

The commands whose completion this states: MAC, MSU, MPY, CLRMAC. -/
def Obligations.MacInstructions : Prop :=
  ∀ (s : State) (p : EngineNo) (k : PSlot) (o : Nat) (c : EngineNo → Instr), s.Inv → Drains s p →
    (s.eng p).stages = [none, none, none, none, some k] → k.op = .mac o → k.op.row = some c →
    let g := s.eng p
    let b := g.bank k.shadow
    let i := k.f 27 27
    let prod : Int := (if k.f 26 23 = 8 then k.xv else k.a).toInt * (if k.f 22 19 = 8 then k.yv else k.b).toInt
    let e : Int := if o = 0 then (b.ac i).toInt + prod else if o = 1 then (b.ac i).toInt - prod else if o = 2 then prod else 0
    let past : Bool := decide (e < -(2 ^ 39) ∨ 2 ^ 39 ≤ e)
    EngDoes (c p) p s (fun g' =>
      let b' := g'.bank k.shadow
      (b'.ac i).toInt = max (-(2 ^ 39)) (min (2 ^ 39 - 1) e) ∧ b'.cf i = (past || (decide (o < 2) && b.cf i)) ∧
      b'.ac (1 - i) = b.ac (1 - i) ∧ b'.cf (1 - i) = b.cf (1 - i) ∧
      b'.z = decide (b'.ac i = 0) ∧ b'.n = decide ((b'.ac i).toInt < 0) ∧
      b'.v = decide ((b'.ac i).toInt < -(2 ^ 31) ∨ 2 ^ 31 ≤ (b'.ac i).toInt) ∧ g'.gov = (g.gov || past) ∧
      b' = { b with ac0 := b'.ac0, ac1 := b'.ac1, cf0 := b'.cf0, cf1 := b'.cf1, z := b'.z, n := b'.n, v := b'.v } ∧
      g'.stages = [none, none, none, none, none] ∧ RestKept k.shadow { g with gov := g'.gov } g')

/-- LDX and LDY write their destination in stage R from the word at their address; STX and STY store in stage W; MOV moves in stage M, or in
stage W from an accumulator; SYNC writes in stage M. A store changes the two bytes of its word and no other byte of memory; what the second
port of the memory wrote in this cycle the load does not see and the store does not undo.

The commands whose completion this states: SYNC, LDX, LDY, STX, STY, MOV. -/
def Obligations.MovesLoadsAndStores : Prop :=
  ∀ (s : State) (p : EngineNo) (k : PSlot), s.Inv → Drains s p →
    let g := s.eng p
    let code := k.f 24 19
    (g.stages = [none, none, some k, none, none] →
      (k.op = .ldx → EngDoes (.engLdx p) p s (fun g' => WritesCode k.shadow code (s.seenHalf (xAddr p k.xa)) g g' ∧
        g'.stages = [none, none, none, some { k with xv := s.seenHalf (xAddr p k.xa) }, none])) ∧
      (k.op = .ldy → EngDoes (.engLdy p) p s (fun g' => WritesCode k.shadow code (s.seenHalf (yAddr p k.ya)) g g' ∧
        g'.stages = [none, none, none, some { k with yv := s.seenHalf (yAddr p k.ya) }, none]))) ∧
    (g.stages = [none, none, none, none, some k] → ∀ v sat, StoreSource g k code (k.f 18 15) v sat →
      ∀ x : (EngineNo → Instr) × Nat, ((k.op = .stx ∧ x = (.engStx, xAddr p k.xa)) ∨ (k.op = .sty ∧ x = (.engSty, yAddr p k.ya))) →
        Completes (x.1 p) s (fun t =>
          ((∀ e ∈ s.portsNow.second, e.1 ≠ x.2 ∧ e.1 ≠ x.2 + 1) → t.half x.2 = v) ∧
          (∀ e ∈ s.portsNow.second, t.byte e.1 = s.byte e.1) ∧ (∀ a, a ≠ x.2 → a ≠ x.2 + 1 → t.byte a = s.byte a) ∧
          (t.eng p).sat = (g.sat || sat) ∧ (t.eng p).stages = [none, none, none, none, none] ∧
          t.eng p = { g with sat := (g.sat || sat), stW := none, cycled := some s.tsb.tick } ∧
          (∀ q, q ≠ p.val → t.eng q = s.eng q) ∧ t = { s with mem := t.mem, ports := t.ports, engines := t.engines })) ∧
    (g.stages = [none, none, none, some k, none] → k.op = .mov → accCode (k.f 21 16) = false → EngDoes (.engMov p) p s (fun g' =>
      WritesCode k.shadow (k.f 27 22) k.a g g' ∧ g'.stages = [none, none, none, none, some k])) ∧
    (g.stages = [none, none, none, none, some k] → k.op = .mov → accCode (k.f 21 16) = true → k.f 27 22 ≠ 0x2A →
      ∀ v sat, StoreSource g k (k.f 21 16) (k.f 15 12) v sat → EngDoes (.engMov p) p s (fun g' =>
        WritesCode k.shadow (k.f 27 22) v { g with sat := g.sat || sat } g' ∧ g'.stages = [none, none, none, none, none])) ∧
    (g.stages = [none, none, none, some k, none] → k.op = .sync → EngDoes (.engSync p) p s (fun g' =>
      WritesCode k.shadow (k.f 24 22) k.a g g' ∧ g'.stages = [none, none, none, none, some k]))

/-- IN and OUT of a pinned engine, and SIGNAL, CLRF and POST: IN takes its port's word, sets ITAG, POI, UND and the taint word and
clears the fresh bit; OUT writes its port in stage W, DATA or FRAME, or the taint word; SIGNAL and CLRF send their flag; POST
offers 32 words of X memory, holds, and takes its response into a register.

The commands whose completion this states: IN, OUT, SIGNAL, CLRF, POST. -/
def Obligations.PortAndDispatcherInstructions : Prop :=
  ∀ (s : State) (p : EngineNo) (k : PSlot), s.Inv →
    let g := s.eng p
    let b := g.bank k.shadow
    let i := k.f 26 25
    (Drains s p → s.pooled p = false → g.stages = [none, none, some k, none, none] → k.op = .inp →
      ∀ w w0 : FWord, w0 = g.si.toArray.getD i FWord.zero → w = (if w0.bad then FWord.poison 1 else w0) →
      let und := !(g.fresh.toArray.getD i false)
      EngDoes (.engIn p) p s (fun g' => (g'.bank k.shadow).D (k.f 24 19) = w.d ∧
        (∀ j, j < 8 → j ≠ k.f 24 19 → (g'.bank k.shadow).D j = b.D j) ∧ g'.bank k.shadow = { b with d := (g'.bank k.shadow).d } ∧
        g'.itag = w.tag.bits ∧ g'.poi = (g.poi || decide (w.tag = .poison)) ∧ g'.und = (g.und || und) ∧
        (∀ j, j < 4 → g'.fresh.toArray.getD j false = (decide (j ≠ i) && g.fresh.toArray.getD j false)) ∧
        (s.engTaint p = false → g'.taint = none) ∧
        (s.engTaint p = true →
          (w.tag = .poison → (∀ x, g.taint = some x → x.tag ≠ .poison) → g'.taint = some w) ∧
          (∀ x, g.taint = some x → (x.tag = .poison ∨ w.tag ≠ .poison) → g'.taint = some x) ∧
          (g.taint = none → w.tag = .mark → g'.taint = some w) ∧
          (g.taint = none → (w.tag = .data ∨ w.tag = .frame) → g'.taint = (if und then some (FWord.gap 1) else none))) ∧
        g'.stages = [none, none, none, some k, none] ∧
        RestKept k.shadow { g with itag := g'.itag, poi := g'.poi, und := g'.und, fresh := g'.fresh, taint := g'.taint } g')) ∧
    (Drains s p → s.pooled p = false → g.stages = [none, none, none, none, some k] → k.op = .out → g.soPoi.toArray.getD i false = false →
      ∀ v sat, StoreSource g k (k.f 24 19) (k.f 18 15) v sat →
      EngDoes (.engOut p) p s (fun g' =>
        (g.taint = none → (g.govp = false ∨ k.f 24 19 < 8) →
          g'.so.toArray.getD i FWord.zero = { tag := if k.f 14 14 = 1 then .frame else .data, d := v }) ∧
        (g.taint = none → g.govp = true → 0x30 ≤ k.f 24 19 → b.cf (k.f 24 19 - 0x30) = true →
          g'.so.toArray.getD i FWord.zero = FWord.poison 5) ∧
        (∀ w, g.taint = some w → (g.govp = false ∨ k.f 24 19 < 8 ∨ w.tag = .poison) → g'.so.toArray.getD i FWord.zero = w) ∧
        (∀ j, j < 4 → j ≠ i → g'.so.toArray.getD j FWord.zero = g.so.toArray.getD j FWord.zero) ∧
        g'.sat = (g.sat || sat) ∧ g'.fg = g.fg ∧ g'.sh = g.sh ∧ g'.stages = [none, none, none, none, none] ∧
        g' = { g with sat := g'.sat, so := g'.so, soPrev := g'.soPrev, soTick := g'.soTick, soDone := g'.soDone, stW := none,
                      cycled := g'.cycled })) ∧
    (Drains s p → g.stages = [none, none, none, none, some k] → (k.op = .signal ∨ k.op = .clrf) →
      Completes ((if k.op = .signal then Instr.engSignal else Instr.engClrf) p) s (fun t =>
        t.dpt.msgs = s.dpt.msgs ++ [{ src := .engine p, task := if k.f 25 25 = 1 then bitsOf k.a 11 0 else k.f 11 0,
                                      flag := k.f 16 12, set := decide (k.op = .signal) }] ∧
        t.eng p = { g with stW := none, cycled := some s.tsb.tick } ∧ (∀ q, q ≠ p.val → t.eng q = s.eng q) ∧
        t = { s with engines := t.engines, dpt := { s.dpt with msgs := t.dpt.msgs } })) ∧
    (s.gang p = [p.val] → s.cycleDue p = true → s.illegalD p = false → g.stW = some k → k.op = .post → g.post = .none →
      Completes (.engPost p) s (fun t =>
        t.dpt.posts = s.dpt.posts ++ [{ src := BitVec.ofNat 16 (s.logNo p), task := k.f 11 0, flow := k.a,
                                        words := (List.range 32).map (fun j => s.half (xAddr p (k.xa + BitVec.ofNat 12 j))) }] ∧
        t.eng p = { g with post := .waiting, run := .holding, cycled := some s.tsb.tick } ∧ (∀ q, q ≠ p.val → t.eng q = s.eng q) ∧
        t = { s with engines := t.engines, dpt := { s.dpt with posts := t.dpt.posts } })) ∧
    (∀ code, s.gang p = [p.val] → s.cycleDue p = true → g.run = .holding → g.fetching = false → g.irq = none →
      g.stages = [none, none, none, none, some k] → k.op = .post → g.post = .answered code → g.handler = none →
      EngDoes (.engPost p) p s (fun g' => WritesCode k.shadow (k.f 20 18) code { g with run := .running, post := .none } g' ∧
        g'.stages = [none, none, none, none, none]))

/-- Transfers in stage A, REP and LOOP in stage D, the turn of a loop, DONE, YIELD and EVT. The cycle is that of whatever
instruction it fetches. A taken transfer sets the next address, with the two delay slots behind it in flight; CALL writes D7, DEC0
and DEC1 their counter.

The commands whose completion this states: ENG_NOP, BR, CALL, RET, REP, LOOP, YIELD, DONE, EVT. -/
def Obligations.ControlInstructions : Prop :=
  ∀ (s : State) (p : EngineNo) (k : PSlot) (c : EngineNo → Instr), s.Inv →
    let g := s.eng p
    let sh := g.handler.isSome
    let b := g.bank sh
    (FetchesOn s p b → k.shadow = sh → (progSlot s p b.next sh false).op.row = some c →
      (g.stages = [none, some k, none, none, none] → k.op.transfer = true →
        EngDoes (c p) p s (fun g' =>
          let b' := g'.bank sh
          let cond := k.f 25 22
          let taken : Prop := match cond with
            | 0x0 => True | 0x1 => b.z = true | 0x2 => b.z = false | 0x3 => b.n = true | 0x4 => b.n = false | 0x5 => b.v = true
            | 0x6 => b.v = false | 0x7 => b.n ≠ b.v | 0x8 => b.n = b.v | 0x9 => b.z = false ∧ b.n = b.v | 0xA => b.z = true ∨ b.n ≠ b.v
            | 0xB => b.lc0 ≠ 1 | 0xC => b.lc1 ≠ 1 | 0xD => (g.itag = Tag.mark.bits ∨ g.itag = Tag.poison.bits) | _ => False
          (taken → b'.next = if k.op = .ret then (b.D 7).setWidth 11 else BitVec.ofNat 11 (k.f 10 0)) ∧
          (¬taken → b'.next = b.next + 1) ∧
          b'.lc0 = (if cond = 0xB then b.lc0 - 1 else b.lc0) ∧ b'.lc1 = (if cond = 0xC then b.lc1 - 1 else b.lc1) ∧
          b'.D 7 = (if k.op = .call then (k.addr + 3).setWidth 16 else b.D 7) ∧ (∀ i, i < 7 → b'.D i = b.D i) ∧
          g'.stD = some (progSlot s p b.next sh false) ∧ g'.stA = none ∧ (∃ k', g'.stR = some k' ∧ k'.word = k.word) ∧
          b' = { b with next := b'.next, lc0 := b'.lc0, lc1 := b'.lc1, d := b'.d } ∧ RestKept sh g g')) ∧
      (g.stages = [some k, none, none, none, none] → s.illegalD p = false → b.next = k.addr + 1 →
        (k.op = .rep → EngDoes (c p) p s (fun g' =>
          g'.stages = [if k.f 15 0 = 0 then none else some (progSlot s p (k.addr + 1) sh true), some k, none, none, none] ∧
          (g'.bank sh).next = k.addr + 2 ∧ (g'.bank sh).rep = (if k.f 15 0 ≤ 1 then none else some (k.addr + 1, k.f 15 0 - 1)) ∧
          (g'.bank sh).D = b.D ∧ RestKept sh g g')) ∧
        (k.op = .loop → k.f 25 25 = 0 → EngDoes (c p) p s (fun g' => g'.stages = [none, some k, none, none, none] ∧
          (let b' := g'.bank sh
           let i := k.f 26 26
           let last : BitVec 11 := BitVec.ofNat 11 (k.f 24 14)
           b'.lc i = BitVec.ofNat 16 (k.f 13 0) ∧ b'.lc (1 - i) = b.lc (1 - i) ∧
           (k.f 13 0 = 0 → b'.loop = none ∧ b'.next = last + 1) ∧
           (k.f 13 0 ≠ 0 → b'.loop = some { first := k.addr + 1, last := last, lc1 := decide (i = 1) } ∧ b'.next = k.addr + 1)) ∧
          RestKept sh g g')) ∧
        ((k.op = .done ∨ k.op = .yield) → EngDoes (c p) p s (fun g' => g'.fetching = false ∧ g'.stages = [none, some k, none, none, none] ∧
          RestKept sh { g with fetching := false } g')) ∧
        (k.op = .evt → g.handler = some .slot → EngDoes (c p) p s (fun g' => g'.handler = none ∧ g'.run = .running ∧ g'.fg = g.fg ∧
          g'.stages = [none, some k, none, none, none])))) ∧
    (∀ a n, Moves s p → g.fetching = true → b.again = [] → b.rep = some (a, n) → (progSlot s p a sh true).op.row = some c →
      g.stages = [none, none, none, none, none] → EngDoes (c p) p s (fun g' =>
        g'.stages = [some (progSlot s p a sh true), none, none, none, none] ∧ (g'.bank sh).next = b.next ∧
        (g'.bank sh).rep = (if n ≤ 1 then none else some (a, n - 1)))) ∧
    (∀ l : LoopSt, Moves s p → g.fetching = true → b.again = [] → b.rep = none → b.loop = some l → b.next = l.last →
      (progSlot s p b.next sh false).op.row = some c → g.stages = [none, none, none, none, none] → EngDoes (c p) p s (fun g' =>
        let i := if l.lc1 then 1 else 0
        (g'.bank sh).lc i = b.lc i - 1 ∧ (g'.bank sh).lc (1 - i) = b.lc (1 - i) ∧
        (b.lc i ≠ 1 → (g'.bank sh).next = l.first ∧ (g'.bank sh).loop = some l) ∧
        (b.lc i = 1 → (g'.bank sh).next = l.last + 1 ∧ (g'.bank sh).loop = none))) ∧
    (Drains s p → g.stages = [none, none, none, none, some k] →
      (k.op = .done → s.pooled p = false → EngDoes (.engDone p) p s (fun g' =>
        g'.run = .idle ∧ g'.ended = true ∧ g'.fg = g.fg ∧ g'.sh = g.sh ∧ g'.stages = [none, none, none, none, none])) ∧
      (k.op = .yield → s.pooled p = true → g.handler = none → Completes (.engYield p) s (fun t =>
        (t.eng p).run = .idle ∧ (t.eng p).yieldAt = some (k.addr + 1, bitsOf g.tk 27 16) ∧ (t.eng p).wd = 0 ∧ (t.eng p).fg = g.fg ∧
        t.reg (Reg.engStCopy p) = (g.readReg false 0x2A).setWidth 32 ∧ (t.engDpt p).running = none)) ∧
      (k.op = .nop → EngDoes (.engNop p) p s (fun g' => g' = { g with stW := none, cycled := some s.tsb.tick })))

/-- A reserved encoding in stage D raises FAULT with cause ILLEGAL, at once also under a hold, and the instruction goes no
further. A visible SLOT event is taken: the instructions in F and D are kept to be fetched again, the handler's first fetch is at
0x7E8. FAULT and WATCHDOG, enabled, start their handlers at 0x7F8 and 0x7F0.

A pinned engine whose budget ends without DONE discards what is in flight, poisons the ports that ENGSO reads and raises
OVERRUN; a gang of 4 or 8 that has held a SLOT off beyond H raises HOLDOFF, and so does a pinned engine whose port has passed its
deadline unwritten, whether or not its run goes on. A held IN or OUT of a pooled engine wakes when its queue can be popped or
pushed: the whole pipeline goes on.

The commands whose completion this states: BUDGET_OVERRUN, SLOT_EVENT, FAULT, WATCHDOG, HOLDOFF, IN_WAKE, OUT_WAKE, ILLEGAL_INSTRUCTION,
IN. -/
def Obligations.EngineInterruptsAndEvents : Prop :=
  (
  ∀ (s : State) (p : EngineNo), s.Inv →
    let g := s.eng p
    (Moves s p → s.illegalD p = true → g.stages.drop 1 = [none, none, none, none] → g.inFault = false → s.pooled p = true →
      Completes (.illegalInstruction p) s (fun t =>
        t.fld (Reg.engStatus p) 11 8 = 4 ∧ t.rbit (Reg.engStatus p) 12 = true ∧ (t.eng p).irq = some .fault ∧
        (t.eng p).stD = none ∧ (t.eng p).stA = none ∧ t.reg (Reg.engStCopy p) = ((t.eng p).readReg g.handler.isSome 0x2A).setWidth 32 ∧
        RegsKept [Reg.engStatus p, Reg.engStCopy p] s t ∧ BytesKept s t)) ∧
    (s.gang p = [p.val] → s.cycleDue p = true → s.illegalD p = true → s.holds p = true → g.handles .fault = true → g.irq = none →
      Completes (.illegalInstruction p) s (fun t =>
        t.fld (Reg.engStatus p) 11 8 = 4 ∧ t.rbit (Reg.engStatus p) 12 = true ∧ (t.eng p).irq = some .fault ∧
        (t.eng p).run = .holding ∧ (t.eng p).stages = g.stages ∧ (t.eng p).fg = g.fg ∧ (t.eng p).sh = g.sh ∧ t.queues = s.queues ∧
        RegsKept [Reg.engStatus p, Reg.engStCopy p] s t ∧ BytesKept s t)) ∧
    (∀ b, s.gang p = [p.val] → s.cycleDue p = true → s.inHold p = false → s.outHold p = false → s.postHold p = false → g.run = .running →
      g.irq = some .slot → s.slotFree p = true → s.illegalD p = false → s.protIdle = true → g.handler = none →
      b = g.fg → b.again = [] → b.rep = none → b.loop = none → g.stages.drop 1 = [none, none, none, none] → g.fetching = true →
      (∀ k, g.stD = some k → k.op = .nop) → EngDoes (.slotEvent p) p s (fun g' =>
        g'.handler = some .slot ∧ g'.run = .handler ∧ g'.sh.next = 0x7E8 ∧ g'.sh.rep = none ∧ g'.irq = none ∧ g'.slotWait = 0 ∧
        g'.stages = [none, none, none, none, none] ∧
        g'.fg.again = (g.stD.toList.map (fun k => (k.addr, k.copy))) ++ [(b.next, false)] ∧ g'.fg.next = b.next + 1 ∧
        g'.fg.D = g.fg.D)) ∧
    (s.gang p = [p.val] → s.engIn p = true → g.irq = some .fault → g.inRun = true → g.inFault = false → g.ev.getLsbD 0 = true →
      Completes (.engFault p) s (fun t => let g' := t.eng p
        g'.handler = some .fault ∧ g'.run = .handler ∧ g'.fetching = true ∧
        g'.sh.next = 0x7F8 ∧ g'.sh = { g.sh with rep := none, again := [], next := 0x7F8, xfer1 := false, xfer2 := false } ∧ g'.irq = none ∧
        g'.stages = (if g.run = .holding then [none, none, none, none, none] else [none, none, g.stR, g.stM, g.stW]) ∧ g'.fg = g.fg ∧
        g'.wd = (if s.pooled p then g.wd else 0) ∧
        (∀ q, q ≠ p.val → t.eng q = s.eng q) ∧ t = { s.dropPost p with engines := t.engines })) ∧
    (s.gang p = [p.val] → s.engIn p = true → g.irq = some .fault → g.run = .running → g.ev.getLsbD 0 = false → s.pooled p = false →
      Completes (.engFault p) s (fun t => let g' := t.eng p
        g'.handler = none ∧ g'.run = .idle ∧ g'.fetching = false ∧ g'.irq = none ∧ g'.ended = true ∧
        (∀ q, q ≠ p.val → t.eng q = s.eng q) ∧ t = { s.dropPost p with engines := t.engines } ∧
        g'.stages = [none, none, none, none, none] ∧ g'.fg = g.fg ∧
        (∀ i, i < 4 → s.engsoRead (s.logNo p) i = true → g.soPoi.toArray.getD i false = false →
          g'.so.toArray.getD i FWord.zero = FWord.poison 1) ∧
        (∀ i, i < 4 → s.engsoRead (s.logNo p) i = false → g'.so.toArray.getD i FWord.zero = g.so.toArray.getD i FWord.zero))) ∧
    (s.gang p = [p.val] → s.engIn p = true → s.pooled p = true → g.inRun = true → g.run ≠ .holding → g.inFault = false → g.wdDone = false →
      0 < s.engWdog p → s.engWdog p ≤ g.wd → g.ev.getLsbD 2 = true → g.irq = none → Completes (.watchdog p) s (fun t =>
        (t.eng p).handler = some .watchdog ∧ (t.eng p).sh.next = 0x7F0 ∧ (t.eng p).run = .handler ∧ (t.eng p).fg = g.fg ∧
        t.fld (Reg.engStatus p) 11 8 = 8 ∧ t.rbit (Reg.engStatus p) 12 = true ∧
        t.fld (Reg.secEngCnt (p / 34)) 15 8 = satAdd 255 (s.fld (Reg.secEngCnt (p / 34)) 15 8) 1 ∧
        RegsKept [Reg.engStatus p, Reg.engStCopy p, Reg.secEngCnt (p / 34)] s t ∧ BytesKept s t))
  ) ∧
  (
  ∀ (s : State) (p : EngineNo), s.Inv →
    let g := s.eng p
    (s.gang p = [p.val] → s.engIn p = true → s.pooled p = false → g.ended = false → g.run = .running → g.handler = none → g.irq = none →
      s.engBudget p < s.ecycle p → Completes (.budgetOverrun p) s (fun t =>
        (t.eng p).stages = [none, none, none, none, none] ∧ (t.eng p).irq = some .fault ∧ (t.eng p).ended = true ∧
        t.fld (Reg.engStatus p) 11 8 = 1 ∧ t.rbit (Reg.engStatus p) 12 = true ∧
        t.fld (Reg.secEngCnt (p / 34)) 31 24 = satAdd 255 (s.fld (Reg.secEngCnt (p / 34)) 31 24) 1 ∧
        (∀ i, i < 4 → s.engsoRead (s.logNo p) i = true → g.soPoi.toArray.getD i false = false →
          (t.eng p).so.toArray.getD i FWord.zero = FWord.poison 4) ∧
        (∀ i, i < 4 → s.engsoRead (s.logNo p) i = false → (t.eng p).so.toArray.getD i FWord.zero = g.so.toArray.getD i FWord.zero) ∧
        (t.eng p).fg = g.fg ∧ (t.eng p).sh = g.sh ∧
        RegsKept [Reg.engStatus p, Reg.engStCopy p, Reg.secEngCnt (p / 34)] s t ∧ BytesKept s t)) ∧
    (s.leader p = p.val → s.engIn p = true → 4 ≤ s.gangSize p → s.pooled p = true → g.run = .running → g.handler = none → g.irq = some .slot →
      s.engHoldoff p < g.slotWait → Completes (.holdoff p) s (fun t =>
        (t.eng p).irq = some .fault ∧ t.rbit (Reg.engStatus p) 13 = true ∧
        t.fld (Reg.secEngCnt (p / 34)) 23 16 = satAdd 255 (s.fld (Reg.secEngCnt (p / 34)) 23 16) 1 ∧ BytesKept s t)) ∧
    (∀ d, s.gang p = [p.val] → s.gangSize p < 4 → s.engIn p = true → s.pooled p = false → g.irq = none →
      d ∈ s.soDeadlines (s.logNo p) 0 → d.2 < s.tsb.slot → g.soDone.toArray.getD d.1 false = false → g.soPoi.toArray.getD d.1 false = false →
      Completes (.holdoff p) s (fun t =>
        (t.eng p).irq = some .fault ∧ t.fld (Reg.engStatus p) 11 8 = (if g.inFault then 5 else 2) ∧ t.rbit (Reg.engStatus p) 12 = true ∧
        (t.eng p).stages = g.stages ∧ (t.eng p).fg = g.fg ∧ (t.eng p).sh = g.sh ∧
        t.fld (Reg.secEngCnt (p / 34)) 23 16 = satAdd 255 (s.fld (Reg.secEngCnt (p / 34)) 23 16) 1 ∧
        (∀ i, i < 4 → s.engsoRead (s.logNo p) i = true → g.soPoi.toArray.getD i false = false →
          (t.eng p).so.toArray.getD i FWord.zero = FWord.poison 4) ∧
        RegsKept [Reg.engStatus p, Reg.engStCopy p, Reg.secEngCnt (p / 34)] s t ∧ BytesKept s t)) ∧
    (∀ k q w rest, s.gang p = [p.val] → s.cycleDue p = true → g.run = .holding → g.handler = none → g.irq = none → g.fetching = false →
      s.protIdle = true → g.stages = [none, none, some k, none, none] → k.op = .inp → s.pooled p = true → s.engTaint p = false →
      s.engQueue p (k.f 26 25) true = some q → s.qFar q = 0 → (s.queue q).stages = w :: rest → (s.queue q).popTick ≠ some s.tsb.tick →
      (s.queue q).pushTick ≠ some s.tsb.tick → (s.queue q).resyncTick ≠ some s.tsb.tick → (s.queue q).pend = false → w.bad = false →
      Completes (.inWake p) s (fun t =>
        (t.queue q).stages = rest ∧ (t.queue q).last = w ∧ ((t.eng p).bank k.shadow).D (k.f 24 19) = w.d ∧ (t.eng p).itag = w.tag.bits ∧
        (t.eng p).und = g.und ∧ (t.eng p).run = .running ∧ (t.eng p).stages = [none, none, none, some k, none] ∧
        (∀ x, x ≠ q → t.queue x = s.queue x) ∧ t = { s with queues := t.queues, engines := t.engines })) ∧
    (∀ k q, s.gang p = [p.val] → s.cycleDue p = true → g.run = .holding → g.handler = none → g.irq = none → g.fetching = false →
      s.protIdle = true → g.stages = [none, none, none, none, some k] → k.op = .out → k.f 24 19 < 8 → s.pooled p = true → g.taint = none →
      s.engQueue p (k.f 26 25) false = some q → (s.queue q).stages.length < 8 → (s.queue q).pushTick ≠ some s.tsb.tick →
      (s.queue q).pend = false → s.inResync q = false → Completes (.outWake p) s (fun t =>
        (t.queue q).stages = (s.queue q).stages ++ [{ tag := if k.f 14 14 = 1 then .frame else .data, d := k.a }] ∧
        (t.eng p).run = .running ∧ (t.eng p).stages = [none, none, none, none, none] ∧ (∀ x, x ≠ q → t.queue x = s.queue x) ∧
        t = { s with queues := t.queues, engines := t.engines }))
  )

/-! ### The dispatcher and Sillage (chapter 10) -/

/-- The commands of DPT_CMD on a configured task, on an unconfigured one, on an engine, and while the dispatcher does not run. A clear of a
flag that the present cycle has set leaves it set.

The commands whose completion this states: DPT_CANCEL, DPT_RESUME, DPT_DISABLE, DPT_ENABLE, DPT_DRAIN, DPT_SIGNAL, DPT_CLRF,
ENG_DISABLE, ENG_ENABLE. -/
def Obligations.DispatcherCommandsActOnTasks : Prop :=
  ∀ (s : State) (t : TaskNo), s.Inv → s.dpt.dirty = [] →
    let k := s.task t
    (s.dptRuns = true → s.tValid t = true → NotPrefetched s t →
      (k.parked = false → k.disabled = false →
        TaskGets (.dptCancel t) t s [] (fun u => u = { k with parked := true, ready := false })) ∧
      ((k.parked = true ∨ k.disabled = true) → exec (.dptCancel t) s = .next s) ∧
      (k.parked = true → k.disabled = false →
        TaskGets (.dptResume t) t s [] (fun u => u = { k with parked := false, ready := u.ready, readyStamp := u.readyStamp })) ∧
      (k.disabled = false →
        TaskGets (.dptDisable t) t s [] (fun u => u = { k with parked := true, disabled := true, ready := false })) ∧
      (k.disabled = true →
        TaskGets (.dptEnable t) t s []
          (fun u => u = { k with parked := false, disabled := false, ready := u.ready, readyStamp := u.readyStamp })) ∧
      (k.disabled = true →
        TaskGets (.dptDrain t) t s [Reg.dptDisc] (fun u => u.ring = k.ring.filter (fun i => i.serv) ∧
          u = { k with ring := u.ring, qhead := u.qhead, ready := false }) ∧
        Completes (.dptDrain t) s (fun u => u.fld Reg.dptDisc 31 0 =
          satAdd (2 ^ 32 - 1) (s.fld Reg.dptDisc 31 0) (k.ring.filter (fun i => !i.serv)).length)) ∧
      (∀ f : Fin 32,
        TaskGets (.dptSignal t f) t s [] (fun u => (∀ i, i < 32 → u.flags.getLsbD i = (decide (i = f.val) || k.flags.getLsbD i)) ∧
          u = { k with flags := u.flags, ready := u.ready, readyStamp := u.readyStamp }) ∧
        ((t.val, f.val) ∉ s.dpt.fresh →
          TaskGets (.dptClrf t f) t s [] (fun u => (∀ i, i < 32 → u.flags.getLsbD i = (decide (i ≠ f.val) && k.flags.getLsbD i)) ∧
            u = { k with flags := u.flags, ready := u.ready, readyStamp := u.readyStamp })) ∧
        ((t.val, f.val) ∈ s.dpt.fresh → exec (.dptClrf t f) s = .next s))) ∧
    (s.dptRuns = true → s.tValid t = false → ∀ f : Fin 32,
      ∀ c ∈ [Instr.dptCancel t, .dptResume t, .dptDisable t, .dptEnable t, .dptDrain t, .dptSignal t f, .dptClrf t f],
        Completes c s (fun u => u.fld Reg.dptEvtDisc 31 0 = satAdd (2 ^ 32 - 1) (s.fld Reg.dptEvtDisc 31 0) 1 ∧
          u.rbit Reg.dptStatus 0 = true ∧ RegsKept [Reg.dptEvtDisc, Reg.dptStatus] s u ∧ u = { s with regs := u.regs })) ∧
    (∀ p : EngineNo, s.dptRuns = true → s.engCmdOk p = true → (s.engDpt p).prefetch = none →
      ∀ x ∈ [(Instr.engDisable (BitVec.ofNat 10 p), true), (.engEnable (BitVec.ofNat 10 p), false)],
        Completes x.1 s (fun u => u.engDpt p = { s.engDpt p with parked := x.2 } ∧ (∀ q, q ≠ p.val → u.engDpt q = s.engDpt q) ∧
          u.dpt.tasks = s.dpt.tasks ∧ u.engines = s.engines ∧ RegsKept [Reg.slgLost] s u ∧ BytesKept s u)) ∧
    (s.dptRuns = false → ∀ (f : Fin 32) (p : BitVec 10),
      ∀ c ∈ [Instr.dptCancel t, .dptResume t, .dptDisable t, .dptEnable t, .dptDrain t, .dptSignal t f, .dptClrf t f, .engDisable p,
        .engEnable p], Completes c s (fun u => u.rbit Reg.dptStatus 4 = true ∧ RegsKept [Reg.dptStatus] s u ∧ u = { s with regs := u.regs }))

/-- A dispatcher cycle accepts a post into its task's ring, with its flags and its item's bytes, or refuses it with a code and
counts it; the answer sets out to the poster. The flag message that arrives with a cycle sets or clears its flag. In reset a cycle
refuses a command with CMD_ERR. A cycle assigns the candidate of the chosen task to the one engine that requests work, and clears
the task's AUTOCLR flags but those set in the same cycle.

The commands whose completion this states: DISPATCHER_CYCLE. -/
def Obligations.DispatcherCycleServesPosts : Prop :=
  (∀ (s : State) (w : W32), s.Inv → s.dptRuns = false → bitsOf w 31 28 ≠ 15 → Completes (.dispatcherCycle [w] 0 0) s (fun u =>
    u.rbit Reg.dptStatus 4 = true ∧ RegsKept [Reg.dptStatus] s u ∧
    u = { s with regs := u.regs, dpt := { s.dpt with cycle := s.dpt.cycle + 1, fresh := [] } })) ∧
  ∀ (s : State), s.Inv → s.dptRuns = true → s.dpt.dirty = [] →
    (∀ q rest, s.dpt.posts = q :: rest → (∀ p, s.requests p = false) → s.protIdle = true → q.task < 4096 →
      let t := q.task
      let k := s.task t
      let code : W16 := if s.tValid t = false then 3 else if k.disabled = true then 2 else if s.tCap t ≤ k.ring.length then 1 else 0
      Completes (.dispatcherCycle [] 1 0) s (fun u =>
        u.dpt.posts = rest ∧ u.dpt.msgs = s.dpt.msgs ∧ u.dpt.responses = s.dpt.responses ++ [(q.src, code)] ∧
        u.dpt.cycle = s.dpt.cycle + 1 ∧ (∀ x, x ≠ t → u.task x = s.task x) ∧ u.engines = s.engines ∧
        (code ≠ 0 → (u.task t).ring = k.ring ∧ (u.task t).flags = k.flags ∧ u.rbit Reg.dptStatus 1 = true ∧
          u.fld Reg.dptRef 31 0 = satAdd (2 ^ 32 - 1) (s.fld Reg.dptRef 31 0) 1 ∧
          (code ≠ 3 → (u.task t).refused = satAdd 65535 k.refused 1) ∧
          RegsKept [Reg.dptRef, Reg.dptStatus, Reg.slgLost] s u ∧ BytesKept s u) ∧
        (code = 0 → ∃ i : RingItem, (u.task t).ring = k.ring ++ [i] ∧ i.flow = q.flow ∧ i.stamp = s.stamp ∧ i.src = q.src ∧ i.serv = false ∧
          i.slot ∉ k.ring.map (fun r => r.slot) ∧
          (u.task t).flags = (k.flags ||| 1 ||| (if s.fld (Reg.task t 8) 15 0 ≠ 0 ∧ k.ring.length + 1 = s.fld (Reg.task t 8) 15 0 then 2 else 0)) ∧
          (u.task t).accepted = satAdd (2 ^ 32 - 1) k.accepted 1 ∧ (u.task t).ready = u.dispatchable t ∧
          (∀ j, j < q.words.length → u.half (itemAddr i.slot + 2 * j) = q.words.getD j 0) ∧
          (∀ a, (a < itemAddr i.slot ∨ itemAddr i.slot + 2 * q.words.length ≤ a) → u.byte a = s.byte a) ∧
          u.fld Reg.dptAcc 31 0 = satAdd (2 ^ 32 - 1) (s.fld Reg.dptAcc 31 0) 1 ∧ RegsKept [Reg.dptAcc, Reg.slgLost] s u))) ∧
    (∀ m rest, s.dpt.msgs = m :: rest → (∀ p, s.requests p = false) → m.task < 4096 → m.flag < 32 → s.tValid m.task = true →
      Completes (.dispatcherCycle [] 0 1) s (fun u =>
        u.dpt.msgs = rest ∧ u.dpt.posts = s.dpt.posts ∧ u.dpt.cycle = s.dpt.cycle + 1 ∧
        (∀ i, i < 32 → (u.task m.task).flags.getLsbD i = (if i = m.flag then
          m.set || (decide ((m.task, m.flag) ∈ s.dpt.fresh) && (s.task m.task).flags.getLsbD i) else (s.task m.task).flags.getLsbD i)) ∧
        (u.task m.task).ring = (s.task m.task).ring ∧
        (∀ x, x ≠ m.task → u.task x = s.task x) ∧ u.engines = s.engines ∧ RegsKept [Reg.slgLost] s u ∧ BytesKept s u)) ∧
    (∀ (p : EngineNo) t i, (∀ q, s.requests q = decide (q = p.val)) → s.choose p = some t → s.candidate t = some i →
      let k := s.task t
      Completes (.dispatcherCycle [] 0 0) s (fun u =>
        (∃ w, (u.engDpt p).prefetch = some { task := t, flow := i.flow, slot := some i.slot, stamp := i.stamp, win := w, copied := false } ∧
          (∀ w', (s.engDpt p).lastWin = some w' → w = !w')) ∧
        (u.engDpt p).running = (s.engDpt p).running ∧ (∀ q, q ≠ p.val → (u.engDpt q).prefetch = (s.engDpt q).prefetch) ∧
        (u.task t).inserv = k.inserv + 1 ∧
        (u.task t).ring = k.ring.map (fun r => if r.slot = i.slot then { r with serv := true } else r) ∧
        (∀ i, i < 32 → (u.task t).flags.getLsbD i =
          (k.flags.getLsbD i && (!(s.reg (Reg.task t 5)).getLsbD i || decide ((t, i) ∈ s.dpt.fresh)))) ∧ (∀ x, x ≠ t → u.task x = s.task x) ∧
        u.dpt.responses = s.dpt.responses ∧ u.engines = s.engines ∧ RegsKept [Reg.slgLost] s u ∧ BytesKept s u))

/-- A flag message that arrives sets or clears its flag, but clears none that the present cycle has set; the copy of an assigned
item puts its 64 bytes into the engine's Y window; DISPATCH starts the copied item on the idle engine.

The commands whose completion this states: FLAG_SET_ARRIVAL, ITEM_COPY_COMPLETE, DISPATCH. -/
def Obligations.ItemsReachTheirEngine : Prop :=
  ∀ (s : State), s.Inv →
    (∀ src m, s.dpt.msgs.find? (fun m => decide (m.src = src)) = some m → s.dpt.dirty = [] → m.task < 4096 → m.flag < 32 →
      Completes (.flagSetArrival src) s (fun u => u.dpt.msgs = s.dpt.msgs.erase m ∧
        (s.dptRuns = false → u = { s with dpt := { s.dpt with msgs := u.dpt.msgs } }) ∧
        (s.dptRuns = true → s.tValid m.task = true →
          (∀ i, i < 32 → (u.task m.task).flags.getLsbD i = if i = m.flag then
            m.set || (decide ((m.task, m.flag) ∈ s.dpt.fresh) && (s.task m.task).flags.getLsbD i) else (s.task m.task).flags.getLsbD i) ∧
          (u.task m.task).ring = (s.task m.task).ring ∧ (∀ x, x ≠ m.task → u.task x = s.task x) ∧ RegsKept [Reg.slgLost] s u) ∧
        (s.dptRuns = true → s.tValid m.task = false → u.dpt.tasks = s.dpt.tasks ∧
          u.fld Reg.dptEvtDisc 31 0 = satAdd (2 ^ 32 - 1) (s.fld Reg.dptEvtDisc 31 0) 1 ∧ RegsKept [Reg.dptEvtDisc, Reg.dptStatus] s u) ∧
        u.dpt.eng = s.dpt.eng ∧ BytesKept s u)) ∧
    (∀ (p : EngineNo) v sl, s.dptRuns = true → (s.engDpt p).prefetch = some v → v.copied = false → v.slot = some sl → s.gang p = [p.val] →
      s.protIdle = true →
      let y := engWin p + 0x4000 + 2 * (if v.win = true then 0xFE0 else 0xFC0)
      Completes (.itemCopyComplete p) s (fun u =>
        (∀ j, j < 64 → u.byte (y + j) = s.byte (itemAddr sl + j)) ∧ (∀ a, (a < y ∨ y + 64 ≤ a) → u.byte a = s.byte a) ∧
        u.engDpt p = { s.engDpt p with prefetch := some { v with copied := true } } ∧ (∀ q, q ≠ p.val → u.engDpt q = s.engDpt q) ∧
        u = { s with mem := u.mem, ports := u.ports, dpt := { s.dpt with eng := u.dpt.eng } })) ∧
    (∀ (p : EngineNo) v, (s.engDpt p).prefetch = some v → v.copied = true → v.task < 4096 → s.pooled p = true → s.gang p = [p.val] →
      s.engIn p = true → (s.eng p).run = .idle →
      let g := s.eng p
      Completes (.dispatch p) s (fun u =>
        (u.eng p).run = .running ∧ (u.eng p).fetching = true ∧
        (u.eng p).fg.next = (match g.yieldAt with
          | some (a, t) => if t = v.task then a else BitVec.ofNat 11 (s.fld (Reg.task v.task 0) 26 16)
          | none => BitVec.ofNat 11 (s.fld (Reg.task v.task 0) 26 16)) ∧
        (u.eng p).fg.loop = none ∧ (u.eng p).fg.rep = none ∧ (u.eng p).fg.D = g.fg.D ∧ (u.eng p).sh = g.sh ∧
        bitsOf (u.eng p).tk 27 16 = v.task ∧ (u.eng p).tk.getLsbD 15 = v.win ∧ bitsOf (u.eng p).tk 14 0 = 0 ∧ bitsOf (u.eng p).tk 31 28 = 0 ∧
        (u.eng p).poi = false ∧ (u.eng p).und = false ∧ (u.eng p).sat = false ∧ (u.eng p).gov = false ∧ (u.eng p).taint = none ∧
        (u.eng p).wd = 0 ∧ (u.engDpt p).running = some v ∧ (u.engDpt p).prefetch = none ∧
        (u.task v.task).last = some (s.logNo p) ∧ (u.task v.task).ring = (s.task v.task).ring ∧
        u.fld Reg.dptDisp 31 0 = satAdd (2 ^ 32 - 1) (s.fld Reg.dptDisp 31 0) 1 ∧
        (∀ q, q ≠ p.val → u.eng q = s.eng q) ∧ RegsKept [Reg.dptDisp, Reg.slgLost] s u ∧ BytesKept s u))

/-- A selected record waits in Sillage's buffer as the four words of Table 3, its time never before that of an earlier record, or
is lost and counted where 64 wait. SILLAGE_WRITE puts the oldest at the write pointer and moves it; after the last index the ring
wraps, or stops under STOP. SILLAGE_RESTART clears the pointer. A dispatcher reset discards what is queued, reloads, and waits; it
resumes at an orbit start.

The commands whose completion this states: DISPATCHER_RESET, DISPATCHER_RESUME, SILLAGE_WRITE, SILLAGE_RESTART. -/
def Obligations.SillageAndDispatcherReset : Prop :=
  ∀ (s : State), s.Inv →
    (∀ (ty : SlgType) (task engine flow reason : Nat), s.rbit Reg.slgCfg 31 = true → s.rbit Reg.slgCfg ty.code = true →
      s.rbit Reg.slgStatus 31 = false →
      (s.dpt.slg.length < 64 → ∃ r : Vector W32 4, (s.record ty task engine flow reason).dpt.slg = s.dpt.slg ++ [r] ∧
        (s.record ty task engine flow reason).dpt.slgTime = s.slgNow ∧ s.dpt.slgTime ≤ s.slgNow ∧
        (s.tsb.crossing < 65536 → s.tsb.slot < 128 → s.dpt.slgTime ≤ (s.tsb.orbit.toNat * 2 ^ 16 + s.tsb.crossing) * 2 ^ 7 + s.tsb.slot →
          bitsOf r[0] 31 0 = s.tsb.orbit.toNat % 2 ^ 32 ∧ bitsOf r[1] 31 16 = s.tsb.orbit.toNat / 2 ^ 32 ∧
          bitsOf r[1] 15 0 = s.tsb.crossing ∧ bitsOf r[2] 31 25 = s.tsb.slot) ∧
        bitsOf r[0] 31 0 = s.slgNow / 2 ^ 23 % 2 ^ 32 ∧ bitsOf r[1] 15 0 = s.slgNow / 2 ^ 7 % 2 ^ 16 ∧
        bitsOf r[3] 15 0 = reason % 2 ^ 16 ∧ bitsOf r[3] 31 16 = (flow + reason / 2 ^ 16) % 2 ^ 16 ∧
        (engine < 1024 → task < 4096 → bitsOf r[2] 9 0 = engine ∧ bitsOf r[2] 21 10 = task ∧ bitsOf r[2] 24 22 = ty.code ∧
          bitsOf r[2] 31 25 = s.slgNow % 2 ^ 7)) ∧
      (s.dpt.slg.length = 64 → (s.record ty task engine flow reason).dpt.slg = s.dpt.slg ∧
        (s.record ty task engine flow reason).fld Reg.slgLost 31 0 = satAdd (2 ^ 32 - 1) (s.fld Reg.slgLost 31 0) 1)) ∧
    (∀ r rest, s.dpt.slg = r :: rest → s.rbit Reg.slgStatus 31 = false → s.protIdle = true →
      let i := s.fld Reg.slgStatus 16 0
      Completes .sillageWrite s (fun u =>
        (∀ j : Fin 3, u.le (slgAddr i + 4 * j.val) 4 = r[j.val].toNat) ∧
        u.le (slgAddr i + 12) 4 = (if s.dpt.slgLost then r[3] ||| 0x4000 else r[3]).toNat ∧
        (∀ a, (a < slgAddr i ∨ slgAddr i + 16 ≤ a) → u.byte a = s.byte a) ∧ u.dpt.slg = rest ∧ u.dpt.slgLost = false ∧
        (i < 131071 → u.fld Reg.slgStatus 16 0 = i + 1 ∧ u.rbit Reg.slgStatus 31 = false ∧ u.rbit Reg.slgStatus 30 = s.rbit Reg.slgStatus 30) ∧
        (i = 131071 → s.rbit Reg.slgCfg 30 = false → u.fld Reg.slgStatus 16 0 = 0 ∧ u.rbit Reg.slgStatus 30 = true ∧
          u.rbit Reg.slgStatus 31 = false) ∧
        (i = 131071 → s.rbit Reg.slgCfg 30 = true → u.rbit Reg.slgStatus 31 = true) ∧
        RegsKept [Reg.slgStatus] s u)) ∧
    Completes .sillageRestart s (fun u => u.reg Reg.slgStatus = 0 ∧ RegsKept [Reg.slgStatus] s u ∧ u = { s with regs := u.regs }) ∧
    Completes .dispatcherReset s (fun u => u.fld Reg.dptStatus 31 30 = 3 ∧ u.rbit Reg.dptStatus 3 = true ∧
      (∀ p, (u.engDpt p).prefetch = none ∧ (u.engDpt p).running = none) ∧ (∀ t, (u.task t).ring = [] ∧ (u.task t).inserv = 0) ∧
      (∀ t, t < 4096 → (u.task t).flags = u.reg (Reg.task t 6) ∧ (u.task t).qhead = u.tBase t) ∧ u.dpt.msgs = [] ∧ u.engines = s.engines) ∧
    (s.fld Reg.dptStatus 31 30 = 3 → s.dpt.reloaded = true → s.tsb.crossing = 0 → s.tsb.slot = 0 → Completes .dispatcherResume s (fun u =>
      u.dptRuns = true ∧ RegsKept [Reg.dptStatus] s u ∧ u.dpt = s.dpt ∧ BytesKept s u))

/-! ### Accepts and readout (chapter 11) -/

/-- An ACCEPT at its effect crossing takes the event number and is offered to every sector whose readout is enabled: it waits there, or is
missed, counted and carried.

The commands whose completion this states: ACCEPT. -/
def Obligations.AcceptIsOfferedToSectors : Prop :=
  ∀ (s : State) (c p : Byte), s.Inv → s.tsb.due = some (c, p) → bitsOf c 7 4 = 2 → s.tsb.crossing < s.L →
    let n := s.fld Reg.tsbEvn 23 0
    let lat := s.fld Reg.tsbAcceptLat 15 0
    Completes .accept s (fun t => t.tsb.due = none ∧ t.fld Reg.tsbEvn 23 0 = (n + 1) % 2 ^ 24 ∧ CountKept s t ∧ BytesKept s t ∧
      (∃ e : AccEntry, e.event.toNat = n ∧ e.cls.toNat = bitsOf c 3 0 ∧ e.typ = p ∧ e.effect = s.tsb.cx ∧
        (lat ≤ s.tsb.orbit.toNat * s.L + s.tsb.crossing → e.crossing < s.L ∧
          e.orbit.toNat * s.L + e.crossing = s.tsb.orbit.toNat * s.L + s.tsb.crossing - lat) ∧
        (∀ k : SectorNo,
          let r := s.ro k
          (s.rbit (Reg.roCfg1 k) 31 = false → t.ro k = r) ∧
          (s.rbit (Reg.roCfg1 k) 31 = true → r.queue.length < 16 → s.secIn k = true → s.drzIn (s.target k) = true →
            t.ro k = { r with queue := r.queue ++ [e] } ∧ t.reg (Reg.drzAccq k) = s.reg (Reg.drzAccq k)) ∧
          (s.rbit (Reg.roCfg1 k) 31 = true → (r.queue.length = 16 ∨ s.secIn k = false ∨ s.drzIn (s.target k) = false) →
            t.ro k = { r with carry := r.carry + 1, joined := (s.tsb.tick, r.joinedIn s.tsb.tick + 1) } ∧
            t.fld (Reg.drzAccq k) 15 0 = satAdd 65535 (s.fld (Reg.drzAccq k) 15 0) 1))) ∧
      RegsKept (Reg.tsbEvn :: (List.range 16).map Reg.drzAccq) s t)

/-- A ready builder whose derandomizer is free opens the packet of its oldest entry: it reserves the length slot, which reads 0,
and takes the carry as MISS, what joins the carry in that same cycle left for the following packet; with the derandomizer's sector
out the entry is abandoned and carried. Words 1 to 4 are those of Table 2; word 5 is reserved; a block's words follow one by one.
Once a block is the next one to be written, its status entry has been read a first time (`first`), and the block is gone if either
read shows it so.

The commands whose completion this states: PACKET_OPEN, BUILDER_WORD. -/
def Obligations.BuilderOpensAndWritesPackets : Prop :=
  ∀ (s : State) (k : SectorNo), s.Inv → s.protIdle = true →
    let r := s.ro k
    let d := s.target k
    let z := s.drzOf d
    (∀ e rest, r.build = none → r.queue = e :: rest → s.secIn k = true → 128 * (e.effect + 1) ≤ s.now → r.lastClose ≤ s.now →
      (s.drzIn d = true → z.openBy = none → s.roBehind k d (max (128 * (e.effect + 1)) r.lastClose) = false → z.occ ≤ 32765 →
        z.wptr < 32768 → Completes (.packetOpen k) s (fun t =>
          (∃ b : Build, (t.ro k).build = some b ∧ b.entry = e ∧ b.drz = d ∧ b.start = z.wptr ∧ b.count = 1 ∧
            b.miss = min (r.carry - r.joinedIn s.tsb.tick) 15 ∧ (∀ c, c < 15 → b.chan c = s.reg (Reg.roCh k c)) ∧ b.first = (false, false) ∧
            b.written = [] ∧ b.out = [] ∧ b.xoff = 0 ∧ b.ch = 0 ∧ b.srl = false ∧ b.late = false ∧ b.poison = false ∧ b.dark = false ∧
            b.trunc = false) ∧
          (t.ro k).queue = rest ∧ (t.ro k).carry = r.joinedIn s.tsb.tick ∧ (t.drzOf d).wptr = (z.wptr + 1) % 32768 ∧ (t.drzOf d).rptr = z.rptr ∧
          (t.drzOf d).openBy = some (k.val, z.wptr) ∧ t.half (drzAddr d z.wptr) = 0 ∧
          (∀ a, (a < drzAddr d z.wptr ∨ drzAddr d z.wptr + 2 ≤ a) → t.byte a = s.byte a) ∧ t.regs = s.regs ∧
          t = { s with mem := t.mem, readout := t.readout, drz := t.drz })) ∧
      (s.drzIn d = false → Completes (.packetOpen k) s (fun t =>
        t.ro k = { r with queue := rest, carry := r.carry + 1, joined := (s.tsb.tick, r.joinedIn s.tsb.tick + 1) } ∧
        t.fld (Reg.roCnt k) 7 0 = satAdd 255 (s.fld (Reg.roCnt k) 7 0) 1 ∧ RegsKept [Reg.roCnt k] s t ∧
        t = { s with regs := t.regs, readout := t.readout }))) ∧
    (∀ b, r.build = some b → s.secIn k = true →
      let y := s.drzOf b.drz
      y.occ ≤ 32765 → y.wptr < 32768 →
      let writes (v : W16) (t : State) : Prop :=
        t.half (drzAddr b.drz y.wptr) = v ∧ (∀ a, (a < drzAddr b.drz y.wptr ∨ drzAddr b.drz y.wptr + 2 ≤ a) → t.byte a = s.byte a) ∧
        t.drzOf b.drz = { y with wptr := (y.wptr + 1) % 32768 } ∧
        t = { s with mem := t.mem, readout := t.readout, drz := t.drz }
      let puts (b0 : Build) (v : W16) (t : State) : Prop :=
        writes v t ∧ ∃ f, t.ro k = { r with build := some { b0 with count := b.count + 1, written := b.written ++ [v], first := f } } ∧
          ((b.count < 5 ∨ b0.out ≠ [] ∨ b0.trunc = true ∨ s.nextBlock k b0 = none) → f = b0.first) ∧
          (0 < s.ringP k → 5 ≤ b.count → b0.out = [] → b0.trunc = false → ∀ o ch, s.nextBlock k b0 = some (o, ch) →
            f = s.entryGone k ch (s.winX k b0 o))
      (b.count < 6 → 1 ≤ b.count → ∀ v : W16, v.toNat = (if b.count = 1 then b.entry.event.toNat % 65536
          else if b.count = 2 then b.entry.typ.toNat * 256 + b.entry.event.toNat / 65536
          else if b.count = 3 then b.entry.crossing % 65536 else if b.count = 4 then b.entry.orbit.toNat % 65536 else 0) →
        Completes (.builderWord k) s (puts b v)) ∧
      (∀ w rest, 6 ≤ b.count → b.out = w :: rest → Completes (.builderWord k) s (puts { b with out := rest } w)) ∧
      (∀ o ch, 6 ≤ b.count → b.out = [] → b.trunc = false → s.winN k ≤ 16 → s.nextBlock k b = some (o, ch) →
        b.count + (s.block k b o ch).words.length + 1 ≤ 4095 →
        ∀ h rest, (s.block k b o ch).words = h :: rest → Completes (.builderWord k) s (fun t =>
          (∃ b', puts b' h t ∧ b'.out = rest ∧ b'.xoff = o ∧ b'.trunc = false ∧ b'.chans = b.chans ∧ b'.drz = b.drz ∧
            b'.ch = ch + 1 ∧ b'.entry = b.entry ∧ b'.miss = b.miss ∧ (b.first.1 = true ∨ b.first.2 = true → h.getLsbD 4 = true) ∧ bitsOf h 15 12 = ch ∧ bitsOf h 11 8 = o ∧
            (h.getLsbD 4 = true → rest = [] ∧ (b'.srl = true ∨ b'.late = true)) ∧ (h.getLsbD 5 = true → b'.poison = true ∧ rest = []) ∧
            (h.getLsbD 7 = true → b'.dark = true ∧ rest = []) ∧ (b.srl = true → b'.srl = true) ∧ (b.late = true → b'.late = true)))) ∧
      (∀ o ch, 6 ≤ b.count → b.out = [] → b.trunc = false → s.nextBlock k b = some (o, ch) →
        4095 < b.count + (s.block k b o ch).words.length + 1 → Completes (.builderWord k) s (fun t =>
          (t.ro k).build = some { b with trunc := true } ∧ BytesKept s t ∧ t.drz = s.drz)))

/-- A packet closes with its trailer, word 5 and its length word, and is counted; its reader takes the oldest closed packet from the next
cycle on. A write of RPTR under network drain moves it within its range, is an error otherwise, and is ignored in the cycle of a
RESYNC. The pins take their levels at slot 2.

The commands whose completion this states: PACKET_CLOSE, READER_TAKE_PACKET, RPTR_WRITE, THROTTLE_PIN_EDGE. -/
def Obligations.PacketsCloseAndAreRead : Prop :=
  ∀ (s : State), s.Inv → s.protIdle = true →
    (∀ (k : SectorNo) b, (s.ro k).build = some b → s.secIn k = true → 6 ≤ b.count → b.count < 4095 → b.out = [] →
      (b.trunc = true ∨ s.nextBlock k b = none) → b.start < 32768 →
      let d := b.drz
      let z := s.drzOf d
      z.occ ≤ 32766 → z.wptr = (b.start + b.count) % 32768 → b.written.length = b.count - 1 → b.miss < 16 → d < 64 →
      Completes (.packetClose k) s (fun t =>
        bitsOf (t.half (drzAddr d b.start)) 11 0 = b.count + 1 ∧ (t.half (drzAddr d b.start)).getLsbD 15 = b.trunc ∧
        (t.half (drzAddr d b.start)).getLsbD 14 = b.poison ∧ (t.half (drzAddr d b.start)).getLsbD 13 = b.dark ∧
        (t.half (drzAddr d b.start)).getLsbD 12 = false ∧
        bitsOf (t.half (drzAddr d (b.start + 5))) 15 12 = b.entry.cls.toNat ∧ bitsOf (t.half (drzAddr d (b.start + 5))) 11 8 = k.val ∧
        bitsOf (t.half (drzAddr d (b.start + 5))) 7 4 = b.miss ∧
        (t.half (drzAddr d (b.start + 5))).getLsbD 3 = b.srl ∧ (t.half (drzAddr d (b.start + 5))).getLsbD 2 = b.late ∧
        t.half (drzAddr d z.wptr) = packetCrc (b.written.set 4 (t.half (drzAddr d (b.start + 5)))) ∧
        (t.drzOf d).wptr = (z.wptr + 1) % 32768 ∧ (t.drzOf d).openBy = none ∧ (t.drzOf d).closed = z.closed ++ [(b.start, b.count + 1)] ∧
        (t.ro k).build = none ∧ (t.ro k).queue = (s.ro k).queue ∧ (t.ro k).carry = (s.ro k).carry ∧
        t.fld (Reg.drzCnt d) 31 16 = satAdd 65535 (s.fld (Reg.drzCnt d) 31 16) 1 ∧
        t.fld (Reg.roCnt k) 31 16 = satAdd 65535 (s.fld (Reg.roCnt k) 31 16) 1 ∧
        t.fld (Reg.roCnt k) 15 8 = satAdd 255 (s.fld (Reg.roCnt k) 15 8) (if b.trunc then 1 else 0) ∧
        RegsKept [Reg.drzCnt d, Reg.roCnt k] s t)) ∧
    (∀ (d : DrzNo) pos len rest, (s.drzOf d).closed = (pos, len) :: rest → (s.drzOf d).sending = none → s.drzIn d = true →
      ((s.drzOf d).closeTick ≠ s.tsb.tick ∨ rest ≠ []) → bitsOf (s.half (drzAddr d pos)) 11 0 = len → len ≠ 0 →
      Completes (.readerTakePacket d) s (fun t => t.drzOf d = { s.drzOf d with closed := rest, sending := some (pos, len, 0) } ∧
        (∀ x, x ≠ d.val → t.drzOf x = s.drzOf x) ∧ t = { s with drz := t.drz })) ∧
    (∀ (d : DrzNo) (v : BitVec 15),
      let z := s.drzOf d
      let k := (v.toNat + 32768 - z.rptr) % 32768
      let now := z.resynced.any (fun r => r.1 == s.tsb.tick)
      (now = true → exec (.rptrWrite d v) s = .next s) ∧
      (now = false → s.fld (Reg.drzCtrl d) 7 0 = 0xFF → z.rptr < 32768 → z.wptr < 32768 →
        (∀ b pos, z.openBy = some (b, pos) → pos < 32768 → k ≤ (pos + 32768 - z.rptr) % 32768) → (z.openBy = none → k ≤ z.occ) →
        (∀ b pos, z.openBy = some (b, pos) → pos < 32768) →
        Completes (.rptrWrite d v) s (fun t => (t.drzOf d).rptr = v.toNat ∧ (t.drzOf d).wptr = z.wptr ∧ (t.drzOf d).openBy = z.openBy ∧
          (∀ x, x ≠ d.val → t.drzOf x = s.drzOf x) ∧ t = { s with drz := t.drz })) ∧
      (now = false → (s.fld (Reg.drzCtrl d) 7 0 ≠ 0xFF ∨ (z.openBy = none ∧ z.occ < k)) → Completes (.rptrWrite d v) s (fun t =>
        t.rbit (Reg.drzStatus d) 28 = true ∧ RegsKept [Reg.drzStatus d] s t ∧ t = { s with regs := t.regs }))) ∧
    (s.tsb.slot = 2 → Completes .throttlePinEdge s (fun t =>
      ((s.inRun = false ∨ s.tsbState = .lost) → t.fld Reg.drzPins 4 0 = 0x1F) ∧
      (s.inRun = true → s.tsbState ≠ .lost →
        (∀ n : Fin 4, t.rbit Reg.drzPins n.val = true ↔ ∃ d : Fin 64, s.drzIn d = true ∧ (s.drzOf d).throttle = true ∧
          (if d.val < 32 then s.rbit (Reg.drzTmaskLo n) d else s.rbit (Reg.drzTmaskHi n) (d - 32)) = true) ∧
        (t.rbit Reg.drzPins 4 = true ↔ (∃ d : Fin 64, s.drzIn d = true ∧ (s.drzOf d).full = true ∧
            (if d.val < 32 then s.rbit Reg.drzBmaskLo d else s.rbit Reg.drzBmaskHi (d - 32)) = true) ∨
          (∃ k : SectorNo, s.rbit (Reg.roCfg1 k) 31 = true ∧ (s.ro k).qfull = true))) ∧
      RegsKept [Reg.drzPins] s t ∧ t = { s with regs := t.regs }))

/-! ### The packet network (chapter 12) -/

/-- XY routing: at every router a header that is not at its destination has a next router one hop nearer, and moves north or south
only once x matches. A header that enters by a local port that its router has, with a credit and a reply buffer where it needs
them and with room at the input, stands at that router; by a mesh port it comes from the neighbour on its route, once it has won
its output there: of the headers that compete for an output none is more urgent than the one that wins, and at the same urgency a
response goes before a request. A packet for an endpoint that is not assigned is answered UNMAPPED or discarded. The words of a
stream packet leave the buffer of their queue. AGE rises by 1 to at most 63 and the check still holds. A packet of a fenced engine
is dropped and counted; a broadcast sets fences and map.

The commands whose completion this states: ROUTER_HEADER, AGE_INCREMENT, FENCE_BROADCAST. -/
def Obligations.PacketsFollowTheirRoute : Prop :=
  (∀ (r : RouterNo) (t : BitVec 11), (nextHop r t = none ↔ hops r t = 0) ∧
    (∀ x q, nextHop r t = some (x, q) → x < 256 ∧ q < 4 ∧ hops x t + 1 = hops r t ∧ (rtY x ≠ rtY r → rtX r = tagX t))) ∧
  (∀ (n : Net) (x y : Transit), n.wins x = true → y ∈ n.transit → y.at_ = x.at_ → y.output = x.output → n.competes y = true →
    pUrgency y.pkt ≤ pUrgency x.pkt ∧ (pUrgency y.pkt = pUrgency x.pkt → y.resp = true → x.resp = true)) ∧
  (∀ (s : State) (r : RouterNo) (port : Fin 9) (p : Packet), s.Inv →
    (∀ t, 4 ≤ port.val → hasPort r (port.val - 4) = true → s.fenced r (port.val - 4) = false → s.resolve (pDest p) = some t →
      (isResponse (pCmd p) = true ∨ s.hasCredit (pSrc p) (pDest p) = true) → (isAsked (pCmd p) = true → s.hasReply p = true) →
      s.net.room r port.val (isResponse (pCmd p)) = true → (nextHop r t ≠ none ∨ s.fenced r (tagExit t) = false) →
      let stands (u : State) : Prop :=
        u.net.transit = s.net.transit ++
          [{ pkt := p, tag := t, at_ := r.val, port := port.val, resp := isResponse (pCmd p), prev := none }] ∧
        u.net.outbox = s.net.outbox.erase p ∧
        (isAsked (pCmd p) = true → ∃ w, u.net.awaiting = s.net.awaiting ++ [w] ∧ w.src = pSrc p ∧ w.tag = pTag p ∧ w.dest = pDest p) ∧
        (isAsked (pCmd p) = false → u.net.awaiting = s.net.awaiting) ∧
        (isResponse (pCmd p) = false → u.net.spent = Tbl.modify 0 s.net.spent (1024 * pSrc p + pDest p) (· + 1))
      ((pCmd p ≠ 8 ∨ 0x100 ≤ pSrc p) → Completes (.routerHeader r port p) s (fun u => stands u ∧ u = { s with net := u.net })) ∧
      (∀ q, pCmd p = 8 → pSrc p < 0x100 → s.strmQueue p = some q → 1 ≤ pAux p % 16 → pAux p % 16 ≤ 8 →
        (List.range (pAux p % 16)).map (strmWord p) = (s.queue q).buffer.take (pAux p % 16) →
        Completes (.routerHeader r port p) s (fun u => stands u ∧ u.queue q = { s.queue q with
            buffer := (s.queue q).buffer.drop (pAux p % 16), credits := (s.queue q).credits + pAux p % 16 } ∧
          (∀ o, o ≠ q → u.queue o = s.queue o) ∧ u = { s with net := u.net, queues := u.queues }))) ∧
    (4 ≤ port.val → hasPort r (port.val - 4) = true → s.fenced r (port.val - 4) = false → s.resolve (pDest p) = none →
      (isAsked (pCmd p) = true → s.hasReply p = true) → (pCmd p ≠ 8 ∨ 0x100 ≤ pSrc p) →
      s.net.room r port.val (isResponse (pCmd p)) = true → Completes (.routerHeader r port p) s (fun u =>
        u.net.transit = s.net.transit ∧ u.net.spent = s.net.spent ∧ BytesKept s u ∧
        (isAsked (pCmd p) = true → (∃ q, u.net.outbox = s.net.outbox.erase p ++ [q] ∧
          ResponseTo p q (if pCmd p = 0 then 3 else if pCmd p = 1 then 4 else 7) 2 (if pCmd p = 6 then 4 else 0)) ∧ u.regs = s.regs) ∧
        (isAsked (pCmd p) = false → u.net.outbox = s.net.outbox.erase p ∧
          u.fld (Reg.nocCnt 1) 15 0 = satAdd 65535 (s.fld (Reg.nocCnt 1) 15 0) 1 ∧ RegsKept [Reg.nocCnt 1] s u))) ∧
    (4 ≤ port.val → s.fenced r (port.val - 4) = false → (hasPort r (port.val - 4) = false ∨ s.canSend p = false ∨
      s.net.room r port.val (isResponse (pCmd p)) = false) → exec (.routerHeader r port p) s = .next s) ∧
    (∀ x, port.val < 4 → s.net.transit = [x] → x.pkt = p → x.prev ≠ some (r.val, port.val) →
      nextHop x.at_ x.tag = some (r.val, port.val) →
      (nextHop r x.tag ≠ none ∨ s.fenced r (tagExit x.tag) = false) → Completes (.routerHeader r port p) s (fun u =>
        u.net.transit = [{ x with at_ := r.val, port := port.val, resp := isResponse (pCmd p), prev := some (x.at_, x.port) }] ∧
        u = { s with net := { s.net with transit := u.net.transit, granted := u.net.granted } })) ∧
    (port.val < 4 → (∀ x ∈ s.net.transit, x.pkt = p → nextHop x.at_ x.tag = some (r.val, port.val) → s.net.wins x = false) →
      exec (.routerHeader r port p) s = .next s) ∧
    (5 ≤ port.val → port.val ≤ 7 → hasPort r (port.val - 4) = true → s.fenced r (port.val - 4) = true → Completes (.routerHeader r port p) s (fun u =>
      u.fld (Reg.nocCnt 2) 31 16 = satAdd 65535 (s.fld (Reg.nocCnt 2) 31 16) 1 ∧ u.rbit Reg.nocStatus 4 = true ∧
      u.net.transit = s.net.transit ∧ u.net.outbox = s.net.outbox.erase p ∧ RegsKept [Reg.nocCnt 2, Reg.nocStatus] s u ∧ BytesKept s u)) ∧
    (∀ x, s.net.transit = [x] → x.pkt = p → x.at_ = r.val → x.port = port.val → Completes (.ageIncrement r port p) s (fun u =>
      ∃ q, u.net.transit = [{ x with pkt := q }] ∧ pAge q = min 63 (pAge p + 1) ∧ nocHcrc q.hdr = nocHcrc p.hdr ∧
        (∀ i, (i < 82 ∨ 88 ≤ i) → q.hdr.getLsbD i = p.hdr.getLsbD i) ∧ q.data = p.data ∧ q.psn = p.psn ∧
        u = { s with net := { s.net with transit := u.net.transit } })) ∧
    (∀ (n : RouterNo) w e q, s.net.bcast = [{ fences := [(n.val, w)], map := [(e, q)] }] → s.net.map = [] →
      Completes .fenceBroadcast s (fun u => u.reg (Reg.nocFence n) = w ∧ RegsKept [Reg.nocFence n] s u ∧ u.net.bcast = [] ∧
        u.netPhys e = q ∧ (∀ x, x ≠ e → u.netPhys x = s.netPhys x) ∧ BytesKept s u)))

/-- A request at its endpoint: RD answers with the bytes, as they stood before what a cell or an engine writes in the same cycle, WR writes
them and answers, WRP writes and returns its credit, POST reaches the dispatcher, which takes its item or refuses it, and answers its code,
STRM joins the partner's buffer where that has room and waits where it has none, RSTN starts its resync. An access whose scratch port a
cell uses in the slot waits, and so does a write to a row that is copied into its spare.

The commands whose completion this states: NOC_RD, NOC_WR, NOC_WRP, NOC_RDR, NOC_WRA, NOC_CRET, NOC_POST, NOC_PRSP, NOC_STRM, NOC_RSTN. -/
def Obligations.RequestsAreServed : Prop :=
  ∀ (s : State) (p : Packet), s.Inv → s.protIdle = true →
    let a := pAddr p
    let n := pCount p
    (Arrived s p 0 → destOf a = some (pDest p, false) → accessOk a n false = true →
      (∀ t ∈ scratchTiles a n, t ∉ s.portsNow.rd) → Completes (.nocRd p) s (fun u =>
      (∃ q, u.net.outbox = s.net.outbox ++ [q] ∧ ResponseTo p q 3 0 0 ∧ q.psn = 0 ∧ q.data.length = 16 * unitsOf a n ∧
        (∀ j, j < n → q.data.getD (a % 16 + j) 0 = s.seenByte (a + j))) ∧ u.net.transit = [] ∧ u = { s with net := u.net })) ∧
    (∀ t ∈ scratchTiles a n, (Arrived s p 0 → t ∈ s.portsNow.rd → exec (.nocRd p) s = .next s) ∧
      (Arrived s p 1 → t ∈ s.portsNow.wr → exec (.nocWr p) s = .next s) ∧
      (Arrived s p 2 → t ∈ s.portsNow.wr → exec (.nocWrp p) s = .next s)) ∧
    (s.rowCopied a n = true → (Arrived s p 1 → exec (.nocWr p) s = .next s) ∧ (Arrived s p 2 → exec (.nocWrp p) s = .next s)) ∧
    (Arrived s p 0 → destOf a = some (pDest p, true) → accessOk a n true = true → n = 4 → a ≠ Reg.tsbNow →
      Completes (.nocRd p) s (fun u =>
        (∃ q, u.net.outbox = s.net.outbox ++ [q] ∧ ResponseTo p q 3 0 0 ∧ leAt q.data (a % 16) 4 = (s.regRead a).toNat) ∧
        u.net.transit = [] ∧ u = { s with net := u.net })) ∧
    (∀ e : EngineNo, engWin e + 0x2000 ≤ a → a + n ≤ engWin e + 0x6000 → destOf a = some (pDest p, false) → accessOk a n false = true →
      p.psn = 0 → a % 16 + n ≤ p.data.length → s.rowCopied a n = false →
      (Arrived s p 1 → Completes (.nocWr p) s (fun u =>
        (∀ j, j < n → u.byte (a + j) = p.data.getD (a % 16 + j) 0) ∧ (∀ x, (x < a ∨ a + n ≤ x) → u.byte x = s.byte x) ∧
        (∃ q, u.net.outbox = s.net.outbox ++ [q] ∧ ResponseTo p q 4 0 0) ∧ u.net.transit = [] ∧
        u = { s with net := u.net, mem := u.mem, ports := u.ports })) ∧
      (Arrived s p 2 → Completes (.nocWrp p) s (fun u =>
        (∀ j, j < n → u.byte (a + j) = p.data.getD (a % 16 + j) 0) ∧ (∀ x, (x < a ∨ a + n ≤ x) → u.byte x = s.byte x) ∧
        u.net.outbox = s.net.outbox ∧ u.net.returns = Tbl.modify 0 s.net.returns (1024 * pDest p + pSrc p) (· + 1) ∧
        u = { s with net := u.net, mem := u.mem, ports := u.ports }))) ∧
    (Arrived s p 6 → p.psn = 0 → destOf a = some (pDest p, true) → 0x2000000000 ≤ a → a < 0x2000040000 →
      s.dptRuns = true → s.tValid ((a - 0x2000000000) / 64) = false → Completes (.nocPost p) s (fun u =>
        (∃ q, u.net.outbox = s.net.outbox ++ [q] ∧ ResponseTo p q 7 0 3) ∧
        u.fld Reg.dptRef 31 0 = satAdd (2 ^ 32 - 1) (s.fld Reg.dptRef 31 0) 1 ∧ BytesKept s u)) ∧
    (∀ t, Arrived s p 6 → p.psn = 0 → destOf a = some (pDest p, true) → a = 0x2000000000 + 64 * t → t < 4096 → s.dptRuns = true →
      s.tValid t = true → (s.task t).disabled = false → (s.task t).ring.length < s.tCap t → s.dpt.dirty = [] →
      let k := s.task t
      let wm := s.fld (Reg.task t 8) 15 0
      Completes (.nocPost p) s (fun u =>
        (∃ q, u.net.outbox = s.net.outbox ++ [q] ∧ ResponseTo p q 7 0 0) ∧
        (∃ i : RingItem, (u.task t).ring = k.ring ++ [i] ∧ i.flow = BitVec.ofNat 16 (pAux p) ∧ i.stamp = s.stamp ∧ i.serv = false ∧
          i.slot ∉ k.ring.map (fun r => r.slot) ∧ (0x300 ≤ pSrc p → s.net.awaiting = [] → s.dpt.posts = [] → i.src = 0xFFFF) ∧
          (∀ j, j < 32 → (u.half (itemAddr i.slot + 2 * j)).toNat = leAt p.data (2 * j) 2) ∧
          (∀ x, (x < itemAddr i.slot ∨ itemAddr i.slot + 64 ≤ x) → u.byte x = s.byte x)) ∧
        (u.task t).flags = (k.flags ||| 1 ||| (if wm ≠ 0 ∧ k.ring.length + 1 = wm then 2 else 0)) ∧
        (u.task t).accepted = satAdd (2 ^ 32 - 1) k.accepted 1 ∧ (∀ x, x ≠ t → u.task x = s.task x) ∧
        u.fld Reg.dptAcc 31 0 = satAdd (2 ^ 32 - 1) (s.fld Reg.dptAcc 31 0) 1 ∧ RegsKept [Reg.dptAcc, Reg.slgLost] s u)) ∧
    (Arrived s p 8 → p.psn = 0 → s.qDir (pQueue p) = 2 → s.qFar (pQueue p) = 2 →
      8 < (s.queue (pQueue p)).buffer.length + min 8 (pAux p % 16) → exec (.nocStrm p) s = .next s) ∧
    (Arrived s p 8 → p.psn = 0 → s.qDir (pQueue p) = 2 → s.qFar (pQueue p) = 2 →
      (s.queue (pQueue p)).buffer.length + min 8 (pAux p % 16) ≤ 8 → Completes (.nocStrm p) s (fun u =>
      (u.queue (pQueue p)).buffer = (s.queue (pQueue p)).buffer ++ (List.range (min 8 (pAux p % 16))).map (fun i =>
        FWord.ofBits (BitVec.ofNat 19 (leAt p.data (16 * (i / 6)) 16 / 2 ^ (19 * (i % 6))))) ∧
      (∀ q, q ≠ pQueue p → u.queue q = s.queue q) ∧
      u.net.returns = Tbl.modify 0 s.net.returns (1024 * pDest p + pSrc p) (· + 1) ∧ u = { s with net := u.net, queues := u.queues })) ∧
    (Arrived s p 9 → s.qDir (pQueue p) = 2 → s.qFar (pQueue p) = 2 → Completes (.nocRstn p) s (fun u =>
      u.queue (pQueue p) = { s.queue (pQueue p) with resync := true, disc := 0 } ∧ (∀ q, q ≠ pQueue p → u.queue q = s.queue q) ∧
      u = { s with net := u.net, queues := u.queues })) ∧
    (∀ c ∈ [Instr.nocRd p, .nocWr p, .nocWrp p, .nocPost p, .nocStrm p, .nocRstn p, .nocRdr p, .nocWra p, .nocPrsp p, .nocCret p],
      pBad p = true → s.net.transit = [] → Completes c s (fun u =>
        u.fld (Reg.nocCnt 0) 31 16 = satAdd 65535 (s.fld (Reg.nocCnt 0) 31 16) 1 ∧ u.rbit Reg.nocStatus 1 = true ∧
        u.net.outbox = s.net.outbox ∧ RegsKept [Reg.nocCnt 0, Reg.nocCnt 3, Reg.nocStatus] s u ∧ BytesKept s u))

/-- A response completes the request that awaits it and returns its credit; a response that nobody awaits is counted. CRET returns
credits; a pool sends what has joined its return count once that is 16 or `CRET_WAIT` cycles of its clock have passed, and not
before. A reply timer that runs out completes the request with TIMEOUT, and its credit is lost.

The commands whose completion this states: NOC_RDR, NOC_WRA, NOC_CRET, NOC_PRSP, CRET_SEND, REPLY_TIMEOUT. -/
def Obligations.ResponsesCompleteRequests : Prop :=
  ∀ (s : State) (p : Packet), s.Inv →
    (∀ c ∈ [(Instr.nocRdr p, 3), (.nocWra p, 4), (.nocPrsp p, 7)], Arrived s p c.2 →
      (∀ w, s.net.awaiting = [w] → w.src = pDest p → w.tag = pTag p → Completes c.1 s (fun u =>
        u.net.awaiting = [] ∧ u.net.transit = [] ∧ u.net.outbox = s.net.outbox ∧
        (∃ k ∈ u.net.replies, k.src = w.src ∧ k.tag = w.tag ∧ k.status = pStatus p ∧ k.data = p.data ∧ k.psn = p.psn) ∧
        u.net.spent = Tbl.modify 0 s.net.spent (1024 * w.src + w.dest) (· - 1) ∧ u.regs = s.regs ∧ BytesKept s u ∧
        (c.2 = 7 → 0x100 ≤ w.src → w.src < 0x300 → w.stale = false → (s.eng (s.physOf (w.src - 0x100))).post = .waiting →
          (u.eng (s.physOf (w.src - 0x100))).post = .answered (BitVec.ofNat 16 (pAux p))))) ∧
      (s.net.awaiting = [] → Completes c.1 s (fun u => u.fld (Reg.nocCnt 1) 15 0 = satAdd 65535 (s.fld (Reg.nocCnt 1) 15 0) 1 ∧
        RegsKept [Reg.nocCnt 1] s u ∧ u.net.transit = [] ∧ BytesKept s u))) ∧
    (Arrived s p 5 → Completes (.nocCret p) s (fun u =>
      u.net.spent = Tbl.modify 0 s.net.spent (1024 * pDest p + pSrc p) (· - (pAux p % 65536)) ∧ u.net.transit = [] ∧
      u = { s with net := u.net })) ∧
    (∀ (pool req : BitVec 10) k, s.net.returns = [(1024 * pool.toNat + req.toNat, k)] → 0 < k → k ≤ 65535 →
      let waited := Config.nclkAt s.tsb.tick - Config.nclkAt (Tbl.get 0 s.net.returnsAt (1024 * pool.toNat + req.toNat))
      (k < 16 → waited < s.fld Reg.nocCfg 7 0 → exec (.cretSend pool req) s = .next s) ∧
      ((16 ≤ k ∨ s.fld Reg.nocCfg 7 0 ≤ waited) → Completes (.cretSend pool req) s (fun u => u.net.returns = [] ∧
        (∃ q, u.net.outbox = s.net.outbox ++ [q] ∧ pDest q = req.toNat ∧ pSrc q = pool.toNat ∧ pCmd q = 5 ∧ pAux q = k ∧ pBad q = false) ∧
        u = { s with net := u.net }))) ∧
    (∀ w tag, s.net.awaiting = [w] → w.src < 1024 → w.tag = (tag : Byte).toNat → w.post = none →
      Completes (.replyTimeout (BitVec.ofNat 10 w.src) tag) s (fun u => u.net.awaiting = [] ∧
        (∃ k ∈ u.net.replies, k.src = w.src ∧ k.tag = w.tag ∧ k.status = 8) ∧ u.net.spent = s.net.spent ∧
        u.fld (Reg.nocCnt 3) 31 16 = satAdd 65535 (s.fld (Reg.nocCnt 3) 31 16) 1 ∧
        u.fld (Reg.nocCnt 3) 15 0 = satAdd 65535 (s.fld (Reg.nocCnt 3) 15 0) 1 ∧ u.rbit Reg.nocStatus 2 = true ∧
        u.rbit Reg.nocStatus 3 = true ∧ RegsKept [Reg.nocCnt 3, Reg.nocStatus] s u ∧ BytesKept s u))

/-! ### Accords (chapter 15) -/

/-- A request for a declared accord that is not in force, with no switch in flight and none prepared, is taken: it is in flight with its
source, its orbit and stage admitting, and its admission waits; nothing else of the device changes. Before RUN, for an accord that is not
declared, for the accord in force, and against a switch in flight for another orbit start, only the status says so. UNPREPARE discards the
preparation.

Staging of hot clusters writes the bytes of their differing contexts as the new configuration has them, keeps the differing words of
their slot maps in a pending copy, and changes no other byte. A switch is then due at the first orbit start a crossing ahead, or at the
orbit start that it names; a preparation is held; a named orbit start that comes too soon refuses the switch with code 0x1F.

The commands whose completion this states: ACCORD_SWITCH, ACCORD_STAGING_COMPLETE, GLB_SWITCH, GLB_PREPARE, GLB_UNPREPARE. -/
def Obligations.AccordsAreTakenAndStaged : Prop :=
  (
  (∀ (c : Instr) (s : State) (n : Byte) (src : Nat) (o : Option (BitVec 48)) (prep : Bool), s.Inv → s.acc.prepared = none →
    Requests c s n src o prep →
    (s.inRun = true → s.accordOf n.toNat ≠ none → n.toNat ≠ s.accordNow → s.acc.inflight = none → Completes c s (fun t =>
      t.acc.inflight = some { num := n.toNat, source := src, orbit := o, stage := 1, since := s.tsb.cx, prep := prep } ∧
      t.adm.waiting = s.placed (.accord n.toNat prep) ∧
      (s.adm.fresh.1 ≠ s.tsb.tick → t.adm.waiting = s.adm.waiting ++ [.accord n.toNat prep]) ∧ t.fld Reg.accordStatus 31 29 = 1 ∧
      t.fld Reg.accordStatus 15 8 = n.toNat ∧ t.fld Reg.accordStatus 23 22 = src ∧ t.accordNow = s.accordNow ∧
      t.fld Reg.accordStatus 27 24 = s.fld Reg.accordStatus 27 24 ∧ RegsKept [Reg.accordStatus, Reg.admStatus] s t ∧
      t = { s with regs := t.regs, adm := { s.adm with waiting := t.adm.waiting, fresh := t.adm.fresh },
                   acc := { s.acc with inflight := t.acc.inflight },
                   tsb := { s.tsb with due := t.tsb.due } })) ∧
    (∀ r, (s.inRun = false ∧ r = 6) ∨ (s.inRun = true ∧ s.accordOf n.toNat = none ∧ r = 5) ∨
        (s.inRun = true ∧ s.accordOf n.toNat ≠ none ∧ n.toNat = s.accordNow ∧ s.acc.inflight = none ∧ r = 2) → Completes c s (fun t =>
      t.fld Reg.accordStatus 27 24 = r ∧ t.fld Reg.accordStatus 23 22 = src ∧ RegsKept [Reg.accordStatus] s t ∧
      t = { s with regs := t.regs, tsb := { s.tsb with due := t.tsb.due } })) ∧
    (∀ w, s.inRun = true → s.accordOf n.toNat ≠ none → s.acc.inflight = some w → w.prep = false → s.sameStart w o = false →
      Completes c s (fun t => t.fld Reg.accordStatus 27 24 = 4 ∧ t.fld Reg.accordStatus 23 22 = src ∧ t.rbit Reg.tsbStatus 17 = true ∧
        RegsKept [Reg.accordStatus, Reg.tsbStatus] s t ∧ t = { s with regs := t.regs, tsb := { s.tsb with due := t.tsb.due } }))) ∧
  (∀ (s : State) (n : Byte) p, s.Inv → s.acc.prepared = some p → s.acc.inflight = none → Completes (.glbUnprepare n) s (fun t =>
    t.acc.prepared = none ∧ t.rbit Reg.accordStatus 28 = false ∧ t.fld Reg.accordStatus 15 8 = 0 ∧ t.accordNow = s.accordNow ∧
    RegsKept [Reg.accordStatus] s t ∧ t = { s with regs := t.regs, acc := t.acc }))
  ) ∧
  (
  ∀ (s : State) (w : Switch), s.Inv → s.protIdle = true → s.acc.inflight = some w → w.stage = 2 →
    (∀ o : Nat, w.prep = false → (w.orbit = none ∧ o = s.firstStart ∨ w.orbit = some (BitVec.ofNat 48 o) ∧ o < 2 ^ 48 ∧ s.firstStart ≤ o) →
      Completes .accordStagingComplete s (fun t =>
        t.acc.inflight = some { w with stage := 3, effect := some (BitVec.ofNat 48 o) } ∧ t.fld Reg.accordStatus 31 29 = 3 ∧
        t.reg Reg.accordOrbitLo = BitVec.ofNat 32 o ∧ t.reg Reg.accordOrbitHi = BitVec.ofNat 32 (o / 2 ^ 32 % 65536) ∧
        (∀ k, k < 16 → t.rbit Reg.accordCold k = w.cold.any (fun r => (if r < 256 then r / 16 else r - 256) == k)) ∧
        RegsKept [Reg.accordStatus, Reg.accordOrbitLo, Reg.accordOrbitHi, Reg.accordCold] s t ∧ Staged w s t ∧
        t = { s with regs := t.regs, mem := t.mem, acc := t.acc })) ∧
    (∀ z r, w.prep = true → w.snap = some z → w.res = some r → Completes .accordStagingComplete s (fun t =>
      t.acc.inflight = none ∧
      t.acc.prepared = some { num := w.num, snap := z, res := r, hot := w.hot, cold := w.cold, staged := true } ∧
      t.fld Reg.accordStatus 31 29 = 0 ∧ t.fld Reg.accordStatus 27 24 = 8 ∧ t.rbit Reg.accordStatus 28 = true ∧
      RegsKept [Reg.accordStatus] s t ∧ Staged w s t ∧ t = { s with regs := t.regs, mem := t.mem, acc := t.acc })) ∧
    (∀ o, w.prep = false → w.orbit = some o → o.toNat < s.firstStart → Completes .accordStagingComplete s (fun t =>
      t.acc.inflight = none ∧ t.fld Reg.accordStatus 31 29 = 0 ∧ t.fld Reg.accordStatus 27 24 = 3 ∧ t.fld Reg.admStatus 31 30 = 3 ∧
      t.fld Reg.admStatus 23 16 = 0x1F ∧ t.rbit Reg.glbFault 4 = true ∧ t.accordNow = s.accordNow ∧
      RegsKept [Reg.accordStatus, Reg.admStatus, Reg.admObject, Reg.glbFault] s t ∧
      t = { s with regs := t.regs, mem := t.mem, acc := t.acc, adm := t.adm }))
  )

/-! ### Admission (chapter 13) -/

/-- The ADMIT step triggers the start's one admission. An admission begins with the oldest trigger, whose snapshot it takes at once, and its
result is that of the checks on the snapshot, or of a preparation whose snapshot held the same values. When it completes, the report with
its digest and the admission registers hold the result, and `LAT_ADM` of the lanes in WAIT_JOIN or LIVE takes their A unless it is
refused.

The commands whose completion this states: ADMISSION_RUN, ADMISSION_COMPLETE, ADMIT. -/
def Obligations.AdmissionRunsItsTriggers : Prop :=
  ∀ (s : State), s.Inv →
    (∀ k, s.curStep = some k → k.op = 6 → s.boot.admitted = false → s.admitting = false → Completes .admitStep s (fun t =>
      t.adm.waiting = s.placed .start ∧ (s.adm.fresh.1 ≠ s.tsb.tick → t.adm.waiting = s.adm.waiting ++ [.start]) ∧ t.fld Reg.admStatus 26 24 = (s.adm.waiting.length + 1) % 8 ∧
      RegsKept [Reg.admStatus] s t ∧ t = { s with regs := t.regs, adm := { s.adm with waiting := t.adm.waiting, fresh := t.adm.fresh } })) ∧
    (∀ (period : Nat) tr rest, s.adm.running = none → s.adm.waiting = tr :: rest → Completes (.admissionRun period) s (fun t =>
      (∃ a, t.adm.running = some a ∧ a.trigger = tr ∧ a.snap = s.snapshotNow period ∧
        (s.acc.prepared = none → a.res = (s.candidateOf tr).1.admit_ tr (s.candidateOf tr).2 a.snap) ∧
        (∀ n p pr, tr = .accord n pr → s.acc.prepared = some p → p.num = n → p.snap.values = a.snap.values → a.res = p.res)) ∧
      t.adm.waiting = rest ∧ t.rbit Reg.admStatus 27 = true ∧ t.fld Reg.admStatus 26 24 = rest.length % 8 ∧
      RegsKept [Reg.admStatus] s t ∧ t = { s with regs := t.regs, adm := { s.adm with waiting := rest, running := t.adm.running } })) ∧
    (∀ a, s.adm.running = some a → a.trigger = .readmit → s.pwr.retry = 0 → (a.res.result = 1 ∨ a.res.result = 3) → a.res.code < 256 →
      Completes .admissionComplete s (fun t =>
        t.adm.running = none ∧ t.rbit Reg.admStatus 27 = false ∧ t.adm.report = a.res.report ∧ t.fld Reg.admStatus 31 30 = a.res.result ∧
        t.fld Reg.admStatus 29 28 = 2 ∧ t.fld Reg.admStatus 23 16 = a.res.code ∧ t.fld Reg.admStatus 15 0 = a.res.dropsec.toNat ∧
        t.reg Reg.admObject = a.res.object ∧
        (∀ i, i < 8 → t.reg (Reg.admDigest i) = BitVec.ofNat 32 (leAt (sha256 a.res.report) (4 * i) 4)) ∧
        (a.res.result = 1 → t.adm.next = some a.res ∧ t.tsb.ret = .none ∧
          (∀ l : LaneNo, t.reg (Reg.lanLatAdm l) = if l.val ∈ a.snap.aligned then (a.snap.lanes.getD l.val (0, 0, 0)).1 ||| 0x80000000
            else s.reg (Reg.lanLatAdm l))) ∧
        (a.res.result = 3 → t.adm.next = s.adm.next ∧ t.tsb = s.tsb ∧ t.rbit Reg.glbFault 4 = true) ∧ BytesKept s t ∧
        t = { s with regs := t.regs, adm := t.adm, tsb := { s.tsb with ret := t.tsb.ret } })) ∧
    (∀ a, s.adm.running = some a → a.trigger = .start → a.res.result = 3 → s.phase = 2 → s.boot.restart = false → s.pwr.retry = 0 →
      Completes .admissionComplete s (fun t => t.boot.restart = true ∧ t.adm.running = none ∧
        t.fld (Reg.bootHist 0) 23 16 = a.res.code % 256 ∧ t.fld (Reg.bootHist 0) 28 24 = 16 + s.fld Reg.bootStatus 27 24 ∧ BytesKept s t))

/-! ### The start (chapter 14) -/

/-- Each step of the step list completes as Table 8 says, with its effect: the start then stands at the next entry, or after the last one
waits for the orbit start.

RUN begins at the orbit start after the list: the released sectors that admission has not dropped join the fixed plane, a RUN record is
committed, and the dispatcher runs. The lock of a quadrant's lane clock lets its released transmitters send.

The commands whose completion this states: WAIT_LOCK, RELEASE_OUTPUTS, RELEASE_SETRESET, ENABLE_WRITES, WAIT_ALIGN, RUN_START,
LQCLK_LOCK. -/
def Obligations.StartStepsReachRun : Prop :=
  (
  ∀ (s : State) (k : StartStep), s.Inv → s.curStep = some k →
    let Next (t : State) : Prop := RegsKept [Reg.bootStatus] s t ∧ t.fld Reg.bootStatus 23 0 = s.fld Reg.bootStatus 23 0 ∧
      (if s.fld Reg.bootStatus 27 24 + 1 < s.boot.steps.length then
        t.phase = 2 ∧ t.fld Reg.bootStatus 27 24 = (s.fld Reg.bootStatus 27 24 + 1) % 16
       else t.phase = 3 ∧ t.fld Reg.bootStatus 27 24 = s.fld Reg.bootStatus 27 24)
    (k.op = 1 → s.tsbState = .aligned → Completes .waitLock s (fun t => Next t ∧ t = { s with regs := t.regs })) ∧
    (k.op = 2 → s.boot.lqclk = 0 → Completes .releaseOutputs s (fun t => Next t ∧
      t.boot.outDec = (s.boot.outDec || k.arg.getLsbD 0) ∧ t.boot.outCal = (s.boot.outCal || k.arg.getLsbD 1) ∧
      (∀ q : QuadNo, t.boot.outTx.getLsbD q = (s.boot.outTx.getLsbD q || k.arg.getLsbD (4 + q.val))) ∧
      t.decPins = (if k.arg.getLsbD 0 then BitVec.ofNat 16 (s.fld Reg.decCfg 15 0) else s.decPins) ∧
      t = { s with regs := t.regs, decPins := t.decPins,
                   boot := { s.boot with outDec := t.boot.outDec, outCal := t.boot.outCal, outTx := t.boot.outTx } })) ∧
    (k.op = 3 → Completes .releaseSetreset s (fun t => Next t ∧
      (∀ i : SectorNo, t.boot.released.getLsbD i = (s.boot.released.getLsbD i || k.arg.getLsbD i)) ∧
      t = { s with regs := t.regs, boot := { s.boot with released := t.boot.released } })) ∧
    (k.op = 4 → Completes .enableWrites s (fun t => Next t ∧
      (∀ i : Fin 3, t.boot.enable.getLsbD i = (s.boot.enable.getLsbD i || k.arg.getLsbD i)) ∧
      t = { s with regs := t.regs, boot := { s.boot with enable := t.boot.enable } })) ∧
    (k.op = 5 → Completes (.waitAlign true) s (fun t => Next t ∧ t = { s with regs := t.regs })) ∧
    (k.op = 5 → (∀ l : LaneNo, s.rxMode l ≠ 0 → k.arg.getLsbD (s.laneSec l) = true → s.laneState l = 4 ∨ s.laneState l = 6) →
      Completes (.waitAlign false) s (fun t => Next t ∧ t = { s with regs := t.regs })) ∧
    (k.op = 5 → (∃ l : LaneNo, s.rxMode l ≠ 0 ∧ k.arg.getLsbD (s.laneSec l) = true ∧ s.laneState l ≠ 4 ∧ s.laneState l ≠ 6) →
      Completes (.waitAlign false) s (fun t => t = s))
  ) ∧
  (
  ∀ (s : State), s.Inv →
    (s.phase = 3 → s.boot.restart = false → s.planeRuns = true → s.tsb.crossing = 0 → s.tsb.slot = 0 → Completes .runStart s (fun t =>
      t.inRun = true ∧ t.fld Reg.dptStatus 31 30 = 1 ∧
      (∀ k : SectorNo, s.startsIn k = true → t.secIn k = true ∧ t.secPower k = 3 ∧
        t.reg (Reg.glbSecJoin k) = BitVec.ofNat 32 s.tsb.orbit.toNat) ∧
      (∀ k : SectorNo, s.startsIn k = false → t.reg (Reg.glbSecState k) = s.reg (Reg.glbSecState k) ∧ t.secPower k = s.secPower k) ∧
      (∃ (f : Flash) (r : Record), t.flash = f.putLog r ∧ r.typ = 0x11 ∧ r.seq = f.nextSeq ∧ r.time = s.recordTime ∧
        r.payload = bytesLe 1 (s.fld Reg.bootStatus 13 13) ++ bytesLe 1 (s.fld Reg.bootStatus 14 14) ++ bytesLe 6 0) ∧
      t.commits = [] ∧ BytesKept s t ∧ CountKept s t)) ∧
    (∀ q : QuadNo, s.pwr.quads.getLsbD q = true → Completes (.lqclkLock q) s (fun t =>
      (∀ j : QuadNo, t.boot.lqclk.getLsbD j = (s.boot.lqclk.getLsbD j || decide (j = q))) ∧
      (∀ l : LaneNo, (t.lane l).txOn = ((s.lane l).txOn || (s.boot.outTx.getLsbD (l.val / 60) && t.boot.lqclk.getLsbD (l.val / 60) &&
        s.pwr.quads.getLsbD (l.val / 60) && decide (s.txMode l ≠ 0)))) ∧
      t = { s with lanes := t.lanes, boot := { s.boot with lqclk := t.boot.lqclk } }))
  )

/-- A power-on reset keeps flash, fuses and failing cells and nothing else of the device's history, samples the straps, and runs
the fixed phase; under EXTEST a low RESET_N does nothing. A warm restart that is due keeps what no reset takes and runs the fixed phase again. The fixed phase commits an
ATTEMPT record on the slot it takes, and where that slot's image can be read, its signatures hold, its sections decompress, no
load check refuses it and the rails hold their new levels, it ends with the image loaded and the start at the first step of the
image's step list. With the fuse map unreadable it ends in base-note mode. BOOT_RESTART makes it due; a record that was asked for
is committed; CLEAR_FAILS commits a CLEAR record behind them, and no attempt counts as failed.

The commands whose completion this states: POWER_ON_RESET, WARM_RESTART, RECORD_COMMIT, BOOT_RESTART, BOOT_CLEAR_FAILS. -/
def Obligations.StartsAndRestarts : Prop :=
  (∀ (s : State) (env : StartEnv), s.Inv →
    (∀ q ∈ [(Instr.powerOnReset env, s.powerOnClear env, true), (Instr.warmRestart env, s.restartClear, false)],
      (q.2.2 = true → env.testEn = false ∧ (env.resetN && s.inExtest) = false) → (q.2.2 = false → s.boot.restart = true ∧ s.powered = true ∧ s.testMode = false) →
      Completes q.1 s (fun t =>
        t.fuses = s.fuses ∧ t.pending = s.pending ∧ t.testMode = false ∧ t.vfuse = s.vfuse ∧ t.accordNow = 0 ∧ t.inRun = false ∧
        (∀ k : SectorNo, t.secIn k = false) ∧ (q.2.2 = true → t.mgt.straps = env.straps) ∧
        ∀ (a : State) (slot len : Nat) (i : Img), q.2.1.reachSlot env q.2.2 = (a, some (slot, len)) →
          (∃ (f : Flash) (r : Record), a.flash = f.putLog r ∧ r.typ = 0x10 ∧ r.payload.take 1 = bytesLe 1 slot) ∧
          ((a.atStep 7).readImage slot len = .ok i →
            let c := ((a.atStep 7).keepSections slot i.secs).atStep 8
            let g := ((c.verified slot i).atStep 9).sectorsUp env
            c.signatures slot i = none → (∀ x ∈ g.boot.sections, g.sectionOk x = true) → g.loadAll.loadChecks = none → env.vout = true →
            t.phase = 2 ∧ t.fld Reg.bootStatus 27 24 = 0 ∧ t.fld Reg.bootStatus 13 13 = slot ∧
            t.boot.steps = (parseSteps 16 ((g.loadAll.sectionOf 1).getD [])).map (·.1) ∧ t.boot.imgver = BitVec.ofNat 32 i.imgver ∧
            t.boot.kslot = some (leAt i.sig 0 1) ∧ t.boot.imgdig = i.digest ∧ t.mem = g.loadAll.mem ∧ t.flash = a.flash))) ∧
    (env.resetN = true → s.inExtest = true → exec (.powerOnReset env) s = .next s) ∧
    (env.testEn = true → (env.resetN && s.inExtest) = false → Completes (.powerOnReset env) s (fun t => 
      t = { State.reset with
        flash := s.flash, fuses := s.fuses, prot := { stuck := s.prot.stuck }, pwr := { rails := if env.resetN then s.pwr.rails else 0 },
        mgt := { straps := env.straps }, testMode := true, vfuse := s.vfuse, free := s.free, pending := s.pending })) ∧
    (env.testEn = false → (env.resetN && s.inExtest) = false → env.fuses = false → (env.rails[0]?).any (·.1) = true → Completes (.powerOnReset env) s (fun t =>
      t.phase = 5 ∧ t.fld Reg.bootStatus 23 16 = 0x61 ∧ t.reg (Reg.bootHist 0) = 0x8361FFFF ∧ t.fld Reg.pwrStatus 31 30 = 1 ∧
      t.pwr.globalOn = true ∧ t.flash = s.flash ∧ t.fuses = s.fuses ∧ t.mgt.straps = env.straps ∧ t.secsIn = [] ∧
      t.pending = s.pending ∧ t.mem = [])) ∧
    (s.boot.restart = true → s.powered = true → s.testMode = false → s.commits = [] → s.prot.owed = [] → env.fuses = false →
      (env.rails[0]?).any (·.1) = true → Completes (.warmRestart env) s (fun t =>
        t.phase = 5 ∧ t.fld Reg.bootStatus 23 16 = 0x61 ∧ t.boot.restart = false ∧ t.accordNow = 0 ∧ t.mem = [] ∧ t.flash = s.flash ∧
        t.prot.spares = s.prot.spares ∧ t.prot.stuck = s.prot.stuck ∧ t.pwr.rails.getLsbD 0 = true ∧ t.decPins = 0 ∧
        t.pending = s.pending ∧ (∀ i : SectorNo, t.secIn i = false)))) ∧
  (∀ (s : State), s.Inv →
    (s.pwr.globalOn = true → Completes .bootRestart s (fun t => t = { s with boot := { s.boot with restart := true } })) ∧
    (s.pwr.globalOn = true → (∀ r ∈ s.flash.records, r.seq.toNat + s.flash.records.length + 1 < 2 ^ 32) →
      s.commits = [] → Completes .bootClearFails s (fun t =>
        (∃ r, t.flash = s.flash.putLog r ∧ r.typ = 0x13 ∧ r.payload = [] ∧ r.seq = s.flash.nextSeq) ∧ t.flash.failCount = 0 ∧
        t = { s with flash := t.flash })) ∧
    (∀ x rest, s.commits = x :: rest → Completes .recordCommit s (fun t => t.commits = rest ∧
      (∃ r, t.flash = (if x.typ = 1 then s.flash.putDir r else s.flash.putLog r) ∧ r.typ = x.typ ∧ r.payload = x.payload ∧
        r.seq = s.flash.nextSeq ∧ r.time = s.recordTime) ∧ t = { s with flash := t.flash, commits := rest })))

/-! ### Resets, reloads and spares (chapters 8, 15, 20) -/

/-- A region reset is asked for or made only in RUN; otherwise it is a command error. GLB_RESET_SECTOR asks for the reset of the
masked sectors in the fixed plane; GLB_RESET_QUAD sends the powered lanes of the masked quadrants back to ACQUIRE, where the rest
of a delivery under way is MARK DARK, and touches no other lane. A reload that completes leaves the region's memory and registers
as the base sections and its accord give them; a region that may rejoin enters the fixed plane with its engines idle, its pinned
engines running, and no other region's plane changes.

The commands whose completion this states: RELOAD_COMPLETE, REGION_REJOIN, GLB_RESET_SECTOR, GLB_RESET_QUAD. -/
def Obligations.RegionsResetReloadAndRejoin : Prop :=
  ∀ (s : State), s.Inv →
    (∀ (mask : BitVec 16), s.inRun = true → Completes (.glbResetSector mask) s (fun t => t = { s with
      sectorResets := s.sectorResets ++ ((List.range 16).filter (fun k => mask.getLsbD k && s.secIn k)).map (fun k => (k, 3)) })) ∧
    (∀ (mask : BitVec 4), s.inRun = true → Completes (.glbResetQuad mask) s (fun t =>
      (∀ l : LaneNo, if mask.getLsbD (l.val / 60) = true ∧ s.rxPowered l = true then
          t.laneState l = 1 ∧ t.rbit (Reg.lanLat l) 31 = false ∧ (t.lane l).frames = [] ∧ (t.lane l).locked = false ∧
          (t.lane l).deliver = (s.lane l).deliver.map (s.darkRest l) ∧ (t.lane l).txOn = (s.lane l).txOn
        else t.lane l = s.lane l ∧ t.reg (Reg.lanStatus l) = s.reg (Reg.lanStatus l)) ∧
      (∀ a, (∀ l : LaneNo, a ≠ Reg.lanStatus l ∧ a ≠ Reg.lanLat l) → t.reg a = s.reg a) ∧
      t = { s with regs := t.regs, lanes := t.lanes })) ∧
    (∀ m n, ∀ c ∈ [Instr.glbResetSector m, .glbResetQuad n], s.inRun = false → Completes c s (fun t =>
      t.rbit Reg.glbFault 12 = true ∧ RegsKept [Reg.glbFault] s t ∧ t = { s with regs := t.regs })) ∧
    (∀ (k : RegionNo) r, Tbl.get none s.reloads k = some r → r.doneAt = none → s.prot.flips = [] →
      s.adm.dropsec.getLsbD (if k.val < 256 then k.val / 16 else k.val - 256) = false → Completes (.reloadComplete k) s (fun t =>
        let ns := if k.val < 256 then [k.val] else sectorClusters (k.val - 256)
        Tbl.get none t.reloads k = some { r with doneAt := some s.tsb.cx } ∧
        (∀ j, j ≠ k.val → Tbl.get none t.reloads j = Tbl.get none s.reloads j) ∧ (∀ n ∈ ns, t.rbit (Reg.glbCl n) 1 = false) ∧
        RegsKept (ns.map Reg.glbCl) (s.reloadRegion k r.accord) t ∧
        t = { s.reloadRegion k r.accord with regs := t.regs, reloads := t.reloads })) ∧
    (∀ (k : RegionNo), s.mayJoin k = true → s.acc.inflight = none → Completes (.regionRejoin k) s (fun t =>
      Tbl.get none t.reloads k = none ∧ BytesKept s t ∧ CountKept s t ∧
      (k.val < 256 → t.clIn k = true ∧ (∀ n, n < 256 → n ≠ k.val → t.clIn n = s.clIn n) ∧ (∀ i : SectorNo, t.secIn i = s.secIn i) ∧
        (∀ p q, p = s.physOf (2 * k.val) → q = s.physOf (2 * k.val + 1) → (s.eng p).run = .reset → (s.eng q).run = .reset →
          (∀ x ∈ s.gang p ++ s.gang q, s.pooled x = true ∨ s.gang x = [x]) → (s.eng p).dead = false → (s.eng q).dead = false → s.pooled q = true →
          (t.eng q).run = .idle ∧ (s.pooled p = true → (t.eng p).run = .idle) ∧
          (s.pooled p = false → s.leads p = true → s.gang p = [p] → (t.eng p).run = .running ∧ (t.eng p).fetching = true))) ∧
      (256 ≤ k.val → t.secIn (k.val - 256) = true ∧ t.reg (Reg.glbSecJoin (k.val - 256)) = BitVec.ofNat 32 s.tsb.orbit.toNat ∧
        (s.secPower (k.val - 256) = 2 → t.secPower (k.val - 256) = 3) ∧
        (∀ n ∈ sectorClusters (k.val - 256), Tbl.get none s.reloads n = none → t.clIn n = true) ∧
        (∀ i : SectorNo, i.val ≠ k.val - 256 → t.secIn i = s.secIn i ∧ t.secPower i = s.secPower i))))

/-- An engine declared dead after its second CHECK leaves its plane with fault cause DEAD; the sector's free spare takes its place
in the map and begins loading, and the network is told to fence the dead port. Without a spare it stays mapped and out, with the
fault. Once the spare's memories are loaded it holds the dead engine's X and Y memory and rejoins at a later orbit start.

The commands whose completion this states: DECLARE_DEAD, SPARE_COPY_COMPLETE. -/
def Obligations.SpareTakesADeadEnginesPlace : Prop :=
  ∀ (s : State) (p : EngineNo), s.Inv →
    (∀ e, (2 ≤ (s.eng p).checks ∨ s.inRun = false) → (s.eng p).dead = false → p.val % 34 < 32 → s.logOf p = some e →
      Completes (.declareDead p) s (fun t =>
        (t.eng p).dead = true ∧ (t.eng p).run = .out ∧ t.rbit (Reg.engStatus p) 31 = true ∧ t.rbit Reg.glbFault 6 = true ∧
        t.fld (Reg.engStatus p) 11 8 = 7 ∧ t.rbit (Reg.engStatus p) 12 = true ∧
        (∃ x, t.commits = s.commits ++ [x] ∧ x.typ = 0x30 ∧ leAt x.payload 0 2 = 2 ∧ leAt x.payload 14 2 = p.val) ∧
        (∀ e', e' < 512 → e' ≠ e → t.physOf e' = s.physOf e') ∧ BytesKept s t ∧ CountKept s t ∧
        (∀ q, s.freeSpare (p.val / 34) = some q → t.physOf e = q ∧ t.logOf q = some e ∧ (t.eng q).run = .loading ∧
          (t.eng q).copyFrom = some p.val ∧
          t.net.bcast = s.net.bcast ++ [{ fences := [((engPort p).1, s.reg (Reg.nocFence (engPort p).1) |||
            BitVec.ofNat 32 (2 ^ (engPort p).2))], map := [(e, q)] }]) ∧
        (s.freeSpare (p.val / 34) = none → t.physOf e = s.physOf e ∧ t.rbit Reg.glbFault 5 = true ∧
          t.net.bcast = s.net.bcast))) ∧
    (∀ q, (s.eng p).copyFrom = some q → (s.eng p).run = .loading → (s.eng p).rejoinAt = none → s.protIdle = true → q < 544 → q ≠ p.val →
      Completes (.spareCopyComplete p) s (fun t =>
        (∀ i, 0x2000 ≤ i → i < 0x6000 → t.byte (engWin p + i) = s.byte (engWin q + i)) ∧
        t.eng p = { s.eng p with rejoinAt := some (s.tsb.cx + 1) } ∧ (∀ k, k ≠ p.val → t.eng k = s.eng k) ∧ CountKept s t))

/-! ### Scrubbing and repair (chapter 16) -/

/-- A scrubber reads the next row of its walk: a clean row changes only its place in the walk; a single-bit error is corrected, counted,
entered in the repeat table and owed a rewrite; a double error is counted, recorded and owed a reset of its owner. A rewrite clears the
error. In a slot in which a cell uses the scratch port concerned, the scrubber of its tile does nothing. A hard row is copied to the lowest free spare, or recorded without one; when the copy completes the spare serves the row and a REPAIR
record is asked for. No byte that a reader receives changes. An injection is armed as written.

The commands whose completion this states: SCRUB_READ, SCRUB_REWRITE, REPAIR_COPY_START, REPAIR_COPY_COMPLETE, INJECTION_ARM. -/
def Obligations.ScrubbersRepairRows : Prop :=
  ∀ (s : State), s.Inv →
    (∀ (x : Scrubber) k, s.fld Reg.memScrubCfg (scrubField x + 3) (scrubField x) ≠ 0 → s.scrubOn x = true →
      walkRow (scrubMems x) (Tbl.get 0 s.prot.scrub (scrubKey x)) = some k →
      (cellHolds k s.portsNow.rd = true → exec (.scrubRead x) s = .next s) ∧
      (cellHolds k s.portsNow.rd = false → s.portsNow.cor = [] → Completes (.scrubRead x) s (fun t =>
        let moved := Tbl.set 0 s.prot.scrub (scrubKey x) ((Tbl.get 0 s.prot.scrub (scrubKey x) + 1) % ((scrubMems x).map rowCount).sum)
        t.prot.scrub = moved ∧ BytesKept s t ∧
        (s.flips k = 0 → t = { s with prot := { s.prot with scrub := moved } }) ∧
        (popCount (s.flips k) = 1 → s.prot.copies = [] → s.rptFind k = none → (∃ i, i < 64 ∧ s.rbit (Reg.memRptRow i) 31 = false) →
          t.fld Reg.memCnt0 31 16 = satAdd 65535 (s.fld Reg.memCnt0 31 16) 1 ∧ t.rbit Reg.memStatus 0 = true ∧ k ∈ t.prot.rewrite ∧
          t.flips k = s.flips k ∧ ∃ i, i < 64 ∧ s.rbit (Reg.memRptRow i) 31 = false ∧ t.fld (Reg.memRptId i) 31 16 = keyMem k ∧
            t.rbit (Reg.memRptRow i) 31 = true ∧ t.fld (Reg.memRptRow i) 30 29 = 0 ∧ t.fld (Reg.memRptRow i) 28 22 = lowBit (s.flips k) ∧
            t.fld (Reg.memRptRow i) 21 0 = keyRow k) ∧
        (1 < popCount (s.flips k) → t.fld Reg.memCnt1 31 16 = satAdd 65535 (s.fld Reg.memCnt1 31 16) 1 ∧ t.rbit Reg.memStatus 1 = true ∧
          t.fld Reg.memLastUe0 31 16 = keyMem k ∧ t.fld Reg.memLastUe1 31 30 = 1 ∧ t.fld Reg.memLastUe1 21 0 = keyRow k ∧
          ownerOf (keyMem k) ∈ t.prot.owed ∧ t.rbit Reg.glbFault 7 = true)))) ∧
    (∀ (x : Scrubber) k, s.prot.rewrite.find? (fun j => decide (keyMem j ∈ scrubMems x)) = some k → s.scrubOn x = true →
      (cellHolds k s.portsNow.wr = true → exec (.scrubRewrite x) s = .next s) ∧
      (cellHolds k s.portsNow.wr = false → s.copyHolds k = false →
      Tbl.get 0 s.prot.stuck k = 0 → s.prot.inject = none → Completes (.scrubRewrite x) s (fun t =>
        t.flips k = 0 ∧ (∀ j, j ≠ k → t.flips j = s.flips j) ∧ t.prot.rewrite = s.prot.rewrite.filter (· != k) ∧
        (s.rptFind k ≠ none → k ∈ t.prot.written) ∧ t = { s with prot := t.prot }))) ∧
    (∀ (m : BitVec 16) row rest, s.prot.copies = [] → s.prot.hard = (m.toNat, row) :: rest → row < 2 ^ 22 →
      Completes (.repairCopyStart m) s (fun t => t.prot.hard = rest.filter (· != (m.toNat, row)) ∧ BytesKept s t ∧
        (∀ sp, s.freeSpareRow m.toNat = some sp → (∃ c, t.prot.copies = [c] ∧ c.memid = m.toNat ∧ c.row = row ∧ c.spare = sp) ∧
          t.regs = s.regs) ∧
        (s.freeSpareRow m.toNat = none → t.prot.copies = [] ∧ t.fld Reg.memNospare0 31 16 = m.toNat ∧ t.rbit Reg.memNospare1 31 = true ∧
          t.fld Reg.memNospare1 21 0 = row ∧ t.rbit Reg.memStatus 3 = true ∧
          t.fld Reg.memCnt2 15 8 = satAdd 255 (s.fld Reg.memCnt2 15 8) 1 ∧ t.rbit Reg.glbFault 8 = true ∧
          ∀ i, s.rptFind (rowKey m.toNat row) = some i → t.fld (Reg.memRptRow i) 30 29 = 3))) ∧
    (∀ (m : BitVec 16) c, s.prot.copies = [c] → c.memid = m.toNat → popCount (s.flips (rowKey c.memid c.row)) ≤ 1 →
      Completes (.repairCopyComplete m) s (fun t =>
        t.prot.copies = [] ∧ t.flips (rowKey c.memid c.row) = 0 ∧ Tbl.get none t.prot.spares (rowKey c.memid c.row) = some c.spare ∧
        t.fld Reg.memCnt2 31 16 = satAdd 65535 (s.fld Reg.memCnt2 31 16) 1 ∧ t.rbit Reg.memStatus 2 = true ∧
        (∀ i, s.rptFind (rowKey c.memid c.row) = some i → t.reg (Reg.memRptRow i) = 0) ∧
        (∃ x, t.commits = s.commits ++ [x] ∧ x.typ = 0x20 ∧ leAt x.payload 0 4 = m.toNat * 2 ^ 16 ∧ leAt x.payload 8 2 = c.spare % 65536 ∧
          leAt x.payload 10 1 = 1 ∧ x.payload.length = 16) ∧ BytesKept s t)) ∧
    (∀ (w : W32), w.getLsbD 31 = true → (s.locked = false ∨ s.rbit Reg.hlmStatus 22 = true) →
      bitsOf w 28 22 ≤ (if w.getLsbD 30 then 70 else 71) → Completes (.injectionArm w) s (fun t =>
        ∃ i, t = { s with prot := { s.prot with inject := some i } } ∧ i.memid = s.fld Reg.memInjId 31 16 ∧ i.row = bitsOf w 21 0 ∧
          ∀ j, j < 72 → i.bits.getLsbD j = (decide (j = bitsOf w 28 22) || (w.getLsbD 30 && decide (j = bitsOf w 28 22 + 1)))))

/-! ### Power (chapter 17) -/

/-- A sector regulator's transitions: power-good brings the sector to OUT, gives its registers their reset values and begins its reload, a timeout or an overcurrent takes
it down as an emergency with its record, and a completed down leaves it OFF. A retry powers up the masked sectors that an
overcurrent took down.

A rail poll writes the telemetry; `FAIL_N` bad polls in a row are a rail fault, which turns rails 1 and 2 off and leads to
base-note mode, or for rail 0 turns every rail off. A sensor reading is taken, or fails the sensor, and `TMAX` is the highest good
reading. The throttle level moves by at most one step, or is held at 7. A trip comparator shuts the device down. Removal of power
loses everything but fuses, flash and failing cells.

The commands whose completion this states: RAIL_POLL, SECTOR_POWER_GOOD, SECTOR_POWER_TIMEOUT, ORDERLY_DOWN_COMPLETE,
SECTOR_OVERCURRENT, SENSOR_SAMPLE, THROTTLE_UPDATE, THERMAL_TRIP, PWR_RETRY, PWR_CLEAR, POWER_REMOVAL, SENSOR_NOT_UPDATED,
EMERGENCY_DOWN_COMPLETE. -/
def Obligations.PowerAndTemperatureFollow : Prop :=
  (
  ∀ (s : State) (k : SectorNo), s.Inv →
    (s.pwr.up.getLsbD k.val = true → Completes (.sectorPowerGood k) s (fun t =>
      t.secPower k = 2 ∧ t.pwr.up.getLsbD k.val = false ∧ (∀ i : SectorNo, i ≠ k → t.secPower i = s.secPower i) ∧
      (2 ≤ s.phase → s.phase ≤ 4 → Tbl.get none t.reloads (256 + k.val) = some { accord := s.accordNow, doneAt := none } ∧
        (∀ n ∈ sectorClusters k, Tbl.get none t.reloads n = none ∧ t.rbit (Reg.glbCl n) 1 = true)) ∧
      (s.phase < 2 ∨ 4 < s.phase → t.reloads = s.reloads) ∧
      (∀ a, a ∉ Reg.pwrSecState :: (sectorClusters k).map Reg.glbCl →
        (targetSector a ≠ some k.val ∨ s.phase < 2 ∨ 4 < s.phase → t.reg a = s.reg a) ∧
        (targetSector a = some k.val → 2 ≤ s.phase → s.phase ≤ 4 → (∀ p : EngineNo, a ≠ Reg.engStCopy p) → t.reg a = regReset a)) ∧
      t = { s with regs := t.regs, reloads := t.reloads, pwr := { s.pwr with up := t.pwr.up } })) ∧
    (∀ c ∈ [Instr.sectorPowerTimeout k, .sectorOvercurrent k], s.pwr.up.getLsbD k.val = true → s.secPower k ≠ 0 → Completes c s (fun t =>
      t.secPower k = 1 ∧ t.pwr.emergency.getLsbD k.val = true ∧ t.pwr.up.getLsbD k.val = false ∧ t.secIn k = false ∧
      t.fld (Reg.glbSecState k) 31 30 = 2 ∧ t.rbit Reg.pwrOc k = true ∧ t.rbit Reg.pwrStatus 27 = true ∧ t.rbit Reg.glbFault 11 = true ∧
      (∃ x, t.commits = s.commits ++ [x] ∧ x.typ = 0x30 ∧ leAt x.payload 0 2 = 7 ∧ leAt x.payload 14 2 = k.val) ∧
      Tbl.get none t.reloads (256 + k.val) = none ∧ (∀ i : SectorNo, i ≠ k → t.secIn i = s.secIn i ∧ t.secPower i = s.secPower i) ∧
      CountKept s t)) ∧
    (s.secPower k = 3 → s.secIn k = true → Completes (.sectorOvercurrent k) s (fun t =>
      t.secPower k = 1 ∧ t.fld (Reg.glbSecState k) 31 30 = 2 ∧ t.fld (Reg.glbSecState k) 29 26 = 6 ∧ t.rbit Reg.pwrOc k = true ∧
      (∀ n ∈ sectorClusters k, t.clIn n = false) ∧ (∀ i : SectorNo, i ≠ k → t.secIn i = s.secIn i) ∧ CountKept s t)) ∧
    (s.pwr.emergency.getLsbD k.val = true → Completes (.emergencyDownComplete k) s (fun t =>
      t.secPower k = 0 ∧ t.pwr.emergency.getLsbD k.val = false ∧ (∀ i : SectorNo, i ≠ k → t.secPower i = s.secPower i) ∧
      RegsKept [Reg.pwrSecState] s t ∧ t = { s with regs := t.regs, pwr := { s.pwr with emergency := t.pwr.emergency } })) ∧
    (s.pwr.orderly.getLsbD k.val = true → s.net.awaiting = [] → Completes (.orderlyDownComplete k) s (fun t =>
      t.secPower k = 0 ∧ t.pwr.orderly.getLsbD k.val = false ∧ (∀ i : SectorNo, i ≠ k → t.secPower i = s.secPower i) ∧
      (∀ n ∈ sectorClusters k, ∀ c, c / 4 / 16 = n → t.cell c = CellSt.dflt) ∧ CountKept s t)) ∧
    (∀ (mask : BitVec 16), (s.adm.running ≠ none → Completes (.pwrRetry mask) s (fun t =>
        t = { s with pwr := { s.pwr with retry := s.pwr.retry ||| mask } })) ∧
      (s.adm.running = none → s.pwr.emergency = 0 → Completes (.pwrRetry mask) s (fun t =>
        (∀ i : SectorNo, mask.getLsbD i.val = true → s.rbit Reg.pwrOc i = true → s.secPower i = 0 →
          t.secPower i = 1 ∧ t.pwr.up.getLsbD i.val = true ∧ t.rbit Reg.pwrOc i = false) ∧
        (∀ i : SectorNo, mask.getLsbD i.val = true → s.rbit Reg.pwrOc i = false → t.rbit Reg.pwrStatus 24 = true) ∧
        (∀ i : SectorNo, mask.getLsbD i.val = false → t.secPower i = s.secPower i ∧ t.rbit Reg.pwrOc i = s.rbit Reg.pwrOc i ∧
          t.pwr.up.getLsbD i.val = s.pwr.up.getLsbD i.val) ∧ t = { s with regs := t.regs, pwr := { s.pwr with up := t.pwr.up } })))
  ) ∧
  (
  ∀ (s : State), s.Inv →
    (∀ (r : Fin 3) (v : RailReading), s.fld Reg.pwrStatus 31 30 = 1 → s.pwr.rails.getLsbD r.val = true →
      let bad : Prop := v.failed = true ∨ v.status &&& 0xE874 ≠ 0 ∨ linear11Above v.iout (railLimit r) = true ∨
        s.fld Reg.pwrTelCfg 7 0 * s.fld (Reg.pwrRailCfg r) 15 0 < ((v.vout.toNat : Int) - s.fld (Reg.pwrRailCfg r) 15 0).natAbs * 1000
      (¬ bad ∨ s.pwr.bad.get r + 1 < s.fld Reg.pwrTelCfg 15 8 → Completes (.railPoll r v) s (fun t =>
        (v.failed = false → t.fld (Reg.pwrRailTel r) 31 16 = v.iout.toNat ∧ t.fld (Reg.pwrRailTel r) 15 0 = v.vout.toNat ∧
          t.fld (Reg.pwrRailStat r) 31 16 = v.status.toNat ∧ t.fld (Reg.pwrRailStat r) 15 0 = v.temp.toNat) ∧
        (v.failed = true → t.regs = s.regs) ∧ (bad → t.pwr.bad.get r = s.pwr.bad.get r + 1) ∧ (¬ bad → t.pwr.bad.get r = 0) ∧
        RegsKept [Reg.pwrRailTel r, Reg.pwrRailStat r] s t ∧ t = { s with regs := t.regs, pwr := { s.pwr with bad := t.pwr.bad } })) ∧
      (bad → s.fld Reg.pwrTelCfg 15 8 ≤ s.pwr.bad.get r + 1 → (∀ i : SectorNo, s.secIn i = true → s.secPower i ≠ 0) → Completes (.railPoll r v) s (fun t =>
        t.rbit Reg.pwrStatus 28 = true ∧ t.fld Reg.pwrStatus 23 22 = r.val ∧ (∀ i : SectorNo, t.secIn i = false) ∧ t.pwr.quads = 0 ∧
        t.commits = [] ∧ t.decPins = 0 ∧
        (r.val ≠ 0 → t.phase = 5 ∧ t.fld Reg.bootStatus 23 16 = 0x44 ∧ t.pwr.rails.getLsbD 1 = false ∧ t.pwr.rails.getLsbD 2 = false ∧
          t.pwr.rails.getLsbD 0 = s.pwr.rails.getLsbD 0 ∧ t.pwr.sent = s.pwr.sent ++ [(2, 1, 0), (1, 1, 0)] ∧
          t.fld Reg.pwrStatus 31 30 = 1) ∧
        (r.val = 0 → t.pwr.rails = 0 ∧ t.pwr.globalOn = false ∧ t.fld Reg.pwrStatus 31 30 = 3 ∧
          t.pwr.sent = s.pwr.sent ++ [(2, 1, 0), (1, 1, 0), (0, 1, 0)])))) ∧
    Completes .pwrClear s (fun t => t = { s with pwr := { s.pwr with sent := s.pwr.sent ++ [(0, 3, 0), (1, 3, 0), (2, 3, 0)] } }) ∧
    (∀ (i : Fin 32), (∀ (v : BitVec 16), Completes (.sensorSample i v) s (fun t =>
        t.sensor i = v.toInt ∧ (∀ j : Fin 32, j ≠ i → t.sensor j = s.sensor j) ∧
        ((v.toInt < -440 ∨ 1200 < v.toInt) → t.rbit Reg.pwrSensFail i = true ∧ t.rbit Reg.pwrStatus 25 = true ∧
          t.rbit Reg.glbFault 10 = true) ∧
        (-440 ≤ v.toInt → v.toInt ≤ 1200 → t.rbit Reg.pwrSensFail i = false) ∧
        (∀ j ∈ t.goodSensors, t.sensor j ≤ toSigned 16 (t.fld Reg.pwrStatus 15 0)) ∧
        (t.goodSensors = [] → t.fld Reg.pwrStatus 15 0 = 0x7FFF) ∧
        (t.goodSensors ≠ [] → ∃ j ∈ t.goodSensors, toSigned 16 (t.fld Reg.pwrStatus 15 0) = t.sensor j) ∧
        RegsKept [Reg.pwrTemp (i.val / 2), Reg.pwrSensFail, Reg.pwrStatus, Reg.glbFault] s t ∧ t = { s with regs := t.regs })) ∧
      Completes (.sensorNotUpdated i) s (fun t => t.rbit Reg.pwrSensFail i = true ∧ t.rbit Reg.pwrStatus 25 = true ∧
        t.rbit Reg.glbFault 10 = true ∧ RegsKept [Reg.pwrSensFail, Reg.pwrStatus, Reg.glbFault] s t ∧ t = { s with regs := t.regs }) ∧
      (s.fld Reg.pwrStatus 31 30 ≠ 2 → Completes (.thermalTrip i) s (fun t =>
        t.fld Reg.pwrStatus 31 30 = 2 ∧ t.rbit Reg.pwrStatus 29 = true ∧ t.pwr.rails = 0 ∧ t.pwr.globalOn = false ∧ t.pwr.quads = 0 ∧
        (∀ j : SectorNo, t.secIn j = false ∧ (s.secPower j ≠ 0 → t.secPower j = 1 ∧ t.pwr.emergency.getLsbD j.val = true)) ∧
        t.fld Reg.drzPins 4 0 = 0x1F ∧ t.tsb.calPins = 0 ∧ t.fuses = s.fuses ∧ t.commits = [] ∧
        (∃ (f : Flash) (r : Record), t.flash = f.putLog r ∧ r.typ = 0x30 ∧ leAt r.payload 0 2 = 5 ∧ leAt r.payload 14 2 = i.val)))) ∧
    (s.fld Reg.pwrStatus 31 30 < 2 → Completes .throttleUpdate s (fun t =>
      let lv := s.fld Reg.pwrStatus 21 19
      let tm := toSigned 16 (s.fld Reg.pwrStatus 15 0)
      let held : Prop := s.goodSensors = [] ∨ ∃ k : SectorNo, s.secPowered k = true ∧ s.rbit Reg.pwrSensFail (2 * k.val) = true ∧
        s.rbit Reg.pwrSensFail (2 * k.val + 1) = true
      let thr : Int := 8 * s.fld Reg.pwrCfg 23 16
      let hys : Int := 8 * s.fld Reg.pwrCfg 15 12
      (held → t.fld Reg.pwrStatus 21 19 = 7) ∧ (¬ held → thr ≤ tm → t.fld Reg.pwrStatus 21 19 = min 7 (lv + 1)) ∧
      (¬ held → tm < thr → tm ≤ thr - hys → t.fld Reg.pwrStatus 21 19 = lv - 1) ∧
      (¬ held → thr - hys < tm → tm < thr → t.fld Reg.pwrStatus 21 19 = lv) ∧
      (lv = 0 → t.fld Reg.pwrStatus 21 19 ≠ 0 → t.rbit Reg.pwrStatus 26 = true ∧ t.rbit Reg.glbFault 9 = true) ∧
      RegsKept [Reg.pwrStatus, Reg.glbFault] s t ∧ t = { s with regs := t.regs })) ∧
    Completes .powerRemoval s (fun t => t = { State.reset with
      flash := s.flash, fuses := s.fuses, prot := { stuck := s.prot.stuck }, powered := false, free := s.free, pending := s.pending })
  )

/-! ### Hallmark (chapter 18) -/

/-- A command of Hallmark is taken up: it runs, `OUTV` clears, an authorised command and CHALLENGE spend the challenge, and what
its acceptance decides is decided. While an operation runs the result reads BUSY and nothing else happens; before ENABLE_WRITES
and in base-note mode the command is refused.

An operation ends with the result decided at its acceptance, or with its effect: the challenge, the attestation, the
certificate, a key slot set or revoked, debug unlocked or locked, the device key. A fuse that does not read back, or a fall of
`VFUSE` while fuses are blown, ends it with FUSEFAIL. Nothing unblows.

The commands whose completion this states: CHALLENGE, ATTEST, CERT_READ, CERT_STORE, KEY_SET, KEY_REVOKE, DEBUG_UNLOCK, DEBUG_LOCK,
GENKEY, HALLMARK_OP_COMPLETE, VFUSE_FALL. -/
def Obligations.HallmarkTakesAndEndsCommands : Prop :=
  (
  ∀ (s : State) (v : Bool), s.Inv →
    ∀ x ∈ [(Instr.challenge, 1), (.attest, 2), (.certRead, 3), (.certStore, 4), (.keySet v, 5), (.keyRevoke v, 6), (.debugUnlock, 7),
        (.debugLock, 8), (.genkey v, 9)],
      let vf := if x.2 = 5 ∨ x.2 = 6 ∨ x.2 = 9 then v else s.vfuse
      let open_ : Prop := s.powered = true ∧ s.testMode = false ∧ s.boot.enable.getLsbD 0 = true ∧ s.phase ≠ 5
      (open_ → s.hlm.running = none → Completes x.1 s (fun t => ∃ o, t.hlm.running = some o ∧ o.op = x.2 ∧
        t.fld Reg.hlmStatus 27 24 = x.2 ∧ t.rbit Reg.hlmStatus 23 = true ∧ t.rbit Reg.hlmStatus 18 = false ∧
        t.rbit Reg.hlmStatus 19 = (s.rbit Reg.hlmStatus 19 && !decide (x.2 = 1 ∨ x.2 = 5 ∨ x.2 = 6 ∨ x.2 = 7)) ∧
        t.fld Reg.hlmStatus 31 28 = s.fld Reg.hlmStatus 31 28 ∧ t.rbit Reg.hlmStatus 22 = s.rbit Reg.hlmStatus 22 ∧
        t.fld Reg.hlmStatus 15 0 = s.fld Reg.hlmStatus 15 0 ∧ RegsKept [Reg.hlmStatus] s t ∧
        t = { s with regs := t.regs, hlm := { s.hlm with running := some o }, vfuse := vf } ∧
        (x.2 = 1 ∨ x.2 = 8 → o.result = none) ∧
        (x.2 = 2 → (o.result = none ↔ s.fuses.seeds ≠ none) ∧ (s.fuses.seeds = none → o.result = some 7) ∧ o.body.length = 256 ∧
          o.body.take 4 = bytesLe 4 0xDE1EA77E ∧ (o.body.drop 184).take 32 = s.mailbox 4 32 ∧ leAt o.body 228 4 = (s.hlm.aseq.toNat + 1) % 2 ^ 32) ∧
        (x.2 = 3 → o.result = if s.rbit Reg.hlmStatus 20 then none else some 9) ∧
        (x.2 = 4 → o.body = s.mailbox 0 7984 ∧ (s.certOk o.body (some (s.mailbox 7984 32)) = false → o.result = some 8)) ∧
        ((x.2 = 5 ∨ x.2 = 6 ∨ x.2 = 7) → s.rbit Reg.hlmStatus 19 = false → o.result = some 4) ∧
        ((x.2 = 6 ∨ x.2 = 7) → s.rbit Reg.hlmStatus 19 = true → s.authPasses x.2 = false → o.result = some 3) ∧
        (x.2 = 5 → s.rbit Reg.hlmStatus 19 = true → s.customers = [] → o.target = leAt (s.mailbox 0 1) 0 1 ∧ o.body = s.mailbox 4 32 ∧
          (o.result = none ↔ o.target ≤ 3 ∧ (s.slot o.target).code = 0 ∧ v = true)) ∧
        (x.2 = 9 → (o.result = none ↔ v = true ∧ s.fuses.seeds = none ∧ s.fuses.spoilt = false) ∧ (o.result ≠ none → o.result = some 7)))) ∧
      (open_ → s.hlm.running ≠ none → Completes x.1 s (fun t => t.fld Reg.hlmStatus 31 28 = 2 ∧
        t.fld Reg.hlmStatus 27 0 = s.fld Reg.hlmStatus 27 0 ∧ RegsKept [Reg.hlmStatus] s t ∧ t = { s with regs := t.regs, vfuse := vf })) ∧
      (¬ open_ → Completes x.1 s (fun t => t = { s with vfuse := vf }))
  ) ∧
  (
  ∀ (s : State) (o : HlmOp) (rb : Bool), s.Inv → s.hlm.running = some o →
    let Ends (t : State) (r : Nat) : Prop := t.hlm.running = none ∧ t.fld Reg.hlmStatus 31 28 = r ∧ t.rbit Reg.hlmStatus 23 = false
    (∀ r, o.result = some r → r < 16 → Completes (.hallmarkOpComplete rb) s (fun t => Ends t r ∧ RegsKept [Reg.hlmStatus] s t ∧
      t = { s with regs := t.regs, hlm := { s.hlm with running := none } })) ∧
    (o.result = none →
      (o.op = 1 → Completes (.hallmarkOpComplete rb) s (fun t => Ends t 1 ∧ t.rbit Reg.hlmStatus 19 = true ∧
        RegsKept (Reg.hlmStatus :: (List.range 8).map Reg.hlmChal) s t ∧
        t = { s with regs := t.regs, hlm := { s.hlm with running := none }, free := t.free })) ∧
      (o.op = 2 → o.body.length = 256 → Completes (.hallmarkOpComplete rb) s (fun t => Ends t 1 ∧ t.rbit Reg.hlmStatus 18 = true ∧
        (∀ i, i < 256 → t.byte (Reg.hlmOutput + i) = o.body.getD i 0) ∧ t.hlm.aseq = s.hlm.aseq + 1 ∧
        (∀ a, (a < Reg.hlmOutput ∨ Reg.hlmOutput + 17344 ≤ a) → t.byte a = s.byte a) ∧ RegsKept [Reg.hlmStatus] s t ∧
        t = { s with regs := t.regs, mem := t.mem, hlm := { s.hlm with running := none, aseq := t.hlm.aseq }, free := t.free })) ∧
      (∀ c, o.op = 3 → s.flash.cert = some c → Completes (.hallmarkOpComplete rb) s (fun t => Ends t 1 ∧ t.rbit Reg.hlmStatus 18 = true ∧
        (∀ i, i < c.length → t.byte (Reg.hlmOutput + i) = c.getD i 0) ∧ RegsKept [Reg.hlmStatus] s t ∧
        t = { s with regs := t.regs, mem := t.mem, hlm := { s.hlm with running := none } })) ∧
      (o.op = 4 → s.commits = [] → Completes (.hallmarkOpComplete rb) s (fun t => Ends t 1 ∧ t.rbit Reg.hlmStatus 20 = true ∧
        (∃ a b, t.flash = (s.flash.putLog a).putLog b ∧ a.typ = 0x40 ∧ b.typ = 0x40 ∧ a.payload.drop 8 = o.body.take 4000 ∧
          b.payload.drop 8 = o.body.drop 4000 ∧ a.byte 0 = 0 ∧ b.byte 0 = 1) ∧
        t = { s with regs := t.regs, flash := t.flash, hlm := { s.hlm with running := none } })) ∧
      (o.op = 5 → o.target ≤ 3 → (s.slot o.target).code = 0 → Completes (.hallmarkOpComplete rb) s (fun t => Ends t (if rb then 1 else 6) ∧
        (t.slot o.target).code = (if rb then 1 else 2) ∧ t.fld Reg.hlmStatus (2 * o.target + 9) (2 * o.target + 8) = (if rb then 1 else 2) ∧
        (rb = true → (t.slot o.target).hash = o.body) ∧ (∀ i, i ≠ o.target → t.slot i = s.slot i) ∧ t.fuses.seeds = s.fuses.seeds ∧
        RegsKept [Reg.hlmStatus] s t ∧
        t = { s with regs := t.regs, fuses := t.fuses, hlm := { s.hlm with running := none }, free := t.free })) ∧
      (o.op = 6 → o.target ≤ 5 → Completes (.hallmarkOpComplete rb) s (fun t => Ends t (if rb then 1 else 6) ∧
        (rb = true → (t.slot o.target).code = 2 ∧ (t.slot o.target).hash = (s.slot o.target).hash) ∧ (rb = false → t.fuses = s.fuses) ∧
        (∀ i, i ≠ o.target → t.slot i = s.slot i) ∧ RegsKept [Reg.hlmStatus] s t)) ∧
      ((o.op = 7 ∨ o.op = 8) → Completes (.hallmarkOpComplete rb) s (fun t => Ends t 1 ∧ t.rbit Reg.hlmStatus 22 = decide (o.op = 7) ∧
        RegsKept [Reg.hlmStatus] s t ∧ t = { s with regs := t.regs, hlm := { s.hlm with running := none } })) ∧
      (o.op = 9 → s.fuses.seeds = none → Completes (.hallmarkOpComplete rb) s (fun t => Ends t (if rb then 1 else 6) ∧
        (rb = true → (∃ d, t.fuses.seeds = some d ∧ d.length = 48) ∧ t.rbit Reg.hlmStatus 21 = true ∧
          ∀ i, i < 8 → t.reg (Reg.hlmDpk i) = BitVec.ofNat 32 (leAt t.devKey (4 * i) 4)) ∧
        (rb = false → t.fuses.seeds = none ∧ t.fuses.spoilt = true) ∧ t.fuses.slots = s.fuses.slots))) ∧
    ((o.op = 5 ∨ o.op = 6 ∨ o.op = 9) → o.result = none → Completes .vfuseFall s (fun t => Ends t 6 ∧ t.vfuse = false ∧ t.flash = s.flash ∧
      BytesKept s t)) ∧
    (o.op < 5 → Completes .vfuseFall s (fun t => t = { s with vfuse := false }))
  )

/-! ### The management port, the I2C target and JTAG (chapter 19) -/

/-- A frame for the device joins the queue as its request, and an ARP request for its address is answered. Each request at the
head of the queue is served and answered to its source: READ with the bytes, as they stood before what a cell or an engine writes
in the same cycle, or the register, WRITE after its bytes are written, STREAM_READ with its pieces, PING with the time, ACCORD and
ENGINE_DEAD after their effect. Closed or not allowed, it is answered LOCKED or DENIED and does nothing. Every header that the
device sends has a good checksum.

The commands whose completion this states: MGMT_FRAME, READ, WRITE, STREAM_READ, PING, ACCORD, ENGINE_DEAD, MGT_LINK_CHANGE. -/
def Obligations.ManagementServesRequests : Prop :=
  (∀ (free : BitVec 64) (src dst proto len : Nat), src < 2 ^ 32 → dst < 2 ^ 32 → proto < 256 → len < 1500 →
    inetSum (ipHeader free src dst proto len) = 0) ∧
  (∀ (s : State) (up : Bool), s.Inv → s.netOn = true → Completes (.mgtLinkChange up) s (fun t =>
    t.rbit Reg.mgtStatus 31 = up ∧ RegsKept [Reg.mgtStatus] s t ∧ t = { s with regs := t.regs })) ∧
  (∀ (s : State) (f : List Byte), s.Inv → s.portOn = true → f.length ≤ 1514 → (f.take 6 = s.macBytes ∨ f.take 6 = List.replicate 6 0xFF) →
    let p := f.drop 14
    let d := p.drop 20
    (∀ r, beAt f 12 2 = 0x0800 → beAt p 0 1 = 0x45 → beAt p 16 4 = s.ipNow → beAt p 6 2 % 0x4000 = 0 → inetSum (p.take 20) = 0 →
      beAt p 2 2 = p.length → beAt p 9 1 = 17 → beAt d 2 2 = s.portNow → beAt d 4 2 = d.length → 8 ≤ d.length → beAt d 6 2 = 0 →
      parseRequest ((f.drop 6).take 6) (beAt p 12 4) (beAt d 0 2) (d.drop 8) = some r → s.keptFor r = none → s.mgt.queue.length < 32 →
      (∀ q ∈ s.mgt.queue ++ [r], q.bad = false) → Completes (.mgmtFrame f) s (fun t =>
        t = { s with mgt := { s.mgt with queue := s.mgt.queue ++ [r] } })) ∧
    (beAt f 12 2 = 0x0806 → 28 ≤ p.length → p.take 8 = [0, 1, 8, 0, 6, 4, 0, 1] → beAt p 24 4 = s.ipNow → Completes (.mgmtFrame f) s (fun t =>
      t = { s with mgt := { s.mgt with sent := s.mgt.sent ++ [(f.drop 6).take 6 ++ s.macBytes ++ [8, 6] ++ [0, 1, 8, 0, 6, 4, 0, 2] ++
        s.macBytes ++ bytesBe 4 s.ipNow ++ (p.drop 8).take 10] } }))) ∧
  (∀ (s : State) (r : MgtReq), s.Inv → Waits s r →
    let u : State := { s with mgt := { s.mgt with queue := [] } }
    let a := bitsOf r.arg 39 0
    let n := bitsOf r.arg 51 40
    let total := bitsOf r.arg 63 40
    let may : Prop := s.boot.enable.getLsbD 0 = true ∧ s.allowed r.ip = true
    (r.op = 1 → s.prot.flips = [] → a % 256 + n ≤ 256 → u.blocked a n = none → isRegister a = false → Completes .mgmtRead s (fun t =>
      Answers s t r 0 r.arg.toNat ((List.range n).map (fun i => s.seenByte (a + i))) ∧ BytesKept s t ∧ RegsKept [Reg.mgtCnt0] s t)) ∧
    (r.op = 1 → s.prot.flips = [] → n = 4 → u.blocked a n = none → isRegister a = true → a ≠ Reg.tsbNow → Completes .mgmtRead s (fun t =>
      Answers s t r 0 r.arg.toNat (bytesLe 4 (u.regRead a).toNat) ∧ BytesKept s t ∧ RegsKept [Reg.mgtCnt0] s t)) ∧
    (∀ e, r.op = 1 → u.blocked a (min n (256 - a % 256)) = some (u, e) → Completes .mgmtRead s (fun t =>
      Answers s t r e r.arg.toNat [] ∧ BytesKept s t ∧ RegsKept [Reg.mgtCnt0] s t)) ∧
    (∀ e : EngineNo, r.op = 2 → may → s.protIdle = true → a % 256 + r.data.length ≤ 256 → engWin e + 0x2000 ≤ a →
      a + r.data.length ≤ engWin e + 0x6000 → u.blocked a r.data.length = none → Completes .mgmtWrite s (fun t =>
        Answers s t r 0 r.data.length [] ∧ (∀ j, j < r.data.length → t.byte (a + j) = r.data.getD j 0) ∧
        (∀ x, (x < a ∨ a + r.data.length ≤ x) → t.byte x = s.byte x) ∧ RegsKept [Reg.mgtCnt0] s t)) ∧
    (r.op = 4 → s.prot.flips = [] → a % 256 + total ≤ 256 → u.blocked a total = none → isRegister a = false → Completes .streamRead s (fun t =>
      Answers s t r 0 (a + 2 ^ 40) ((List.range total).map (fun i => s.seenByte (a + i))) ∧ BytesKept s t ∧ RegsKept [Reg.mgtCnt0] s t)) ∧
    (isCommand 0 r = true → may → Completes .ping s (fun t => Answers s t r 0
      (s.tsb.orbit.toNat % 2 ^ 32 * 2 ^ 32 + s.tsb.crossing * 2 ^ 16 + s.tsb.slot % 128) [] ∧ RegsKept [Reg.mgtCnt0] s t ∧ BytesKept s t)) ∧
    (isCommand 1 r = true → may → u.blocked Reg.accordCmd 4 = none → Completes .accord s (fun t =>
      let w := u.accordCmdWrite (BitVec.ofNat 32 (bitsOf r.arg 63 32))
      Answers s t r 0 0 [] ∧ t.acc = w.acc ∧ t.adm = w.adm ∧ RegsKept [Reg.mgtCnt0] w t ∧ BytesKept w t)) ∧
    (∀ p : EngineNo, isCommand 2 r = true → may → bitsOf r.arg 63 32 = p.val → (p.val % 34 < 32 ∨ s.logOf p ≠ none) →
      Completes .engineDead s (fun t => Answers s t r 0 0 [] ∧ t.engines = (u.declareDead p).engines ∧ t.net = (u.declareDead p).net ∧
        RegsKept [Reg.mgtCnt0] (u.declareDead p) t ∧ BytesKept s t)) ∧
    (∀ c ∈ [(Instr.mgmtWrite, r.op == 2), (.ping, isCommand 0 r), (.accord, isCommand 1 r), (.engineDead, isCommand 2 r)], c.2 = true →
      (s.boot.enable.getLsbD 0 = false → Completes c.1 s (fun t => Answers s t r 4 0 [] ∧ RegsKept [Reg.mgtCnt0] s t ∧ BytesKept s t ∧
        t.engines = s.engines ∧ t.acc = s.acc)) ∧
      (s.boot.enable.getLsbD 0 = true → s.allowed r.ip = false → Completes c.1 s (fun t => Answers s t r 0x10 0 [] ∧
        t.fld Reg.mgtCnt0 15 0 = satAdd 65535 (s.fld Reg.mgtCnt0 15 0) 1 ∧ RegsKept [Reg.mgtCnt0] s t ∧ BytesKept s t ∧
        t.engines = s.engines ∧ t.acc = s.acc))))

/-- IMAGE_WRITE at the write mark programs its bytes and moves the mark; at offset 0 it first marks the slot EMPTY in the
directory. IMAGE_COMMIT of an image that passes its checks makes the slot the active one, with its length; one that fails is
answered REFUSED with the code and commits nothing. The active slot takes neither.

The commands whose completion this states: IMAGE_WRITE, IMAGE_COMMIT. -/
def Obligations.ImagesAreWrittenAndCommitted : Prop :=
  (∀ (f : Flash) (slot off : Nat) (b : List Byte), Tbl.wf 0xFF f.img = true →
    (f.program slot off b).slotBytes slot off b.length = b ∧ Tbl.wf 0xFF (f.program slot off b).img = true ∧
    (∀ x, x < slot * 2 ^ 26 + off → Tbl.get 0xFF (f.program slot off b).img x = Tbl.get 0xFF f.img x)) ∧
  (∀ (s : State) (r : MgtReq), s.Inv → Waits s r → s.boot.enable.getLsbD 2 = true → s.allowed r.ip = true →
    let slot := bitsOf r.arg 32 32
    let k := bitsOf r.arg 31 0
    (r.op = 5 → s.slotOpen slot = true → k = s.mark slot → 0 < k → k + r.data.length ≤ 2 ^ 26 → Completes (.imageWrite true) s (fun t =>
      Answers s t r 0 0 [] ∧ t.flash = s.flash.program slot k r.data ∧ t.mark slot = k + r.data.length ∧ t.mark (1 - slot) = s.mark (1 - slot) ∧
      RegsKept [Reg.mgtCnt0] s t ∧ BytesKept s t)) ∧
    (r.op = 5 → s.slotOpen slot = true → k = 0 → s.mgt.dirty.getLsbD slot = false → s.commits = [] → r.data.length ≤ 2 ^ 26 →
      Completes (.imageWrite true) s (fun t => Answers s t r 0 0 [] ∧ t.mark slot = r.data.length ∧ t.mgt.dirty.getLsbD slot = true ∧
        (∃ d, t.flash = (s.flash.putDir d).program slot 0 r.data ∧ d.typ = 1 ∧ d.slotLen slot = 0 ∧ d.seq = s.flash.nextSeq ∧
          (∀ x, s.flash.directory = some x → d.active = x.active ∧ d.slotLen (1 - slot) = x.slotLen (1 - slot))) ∧
        RegsKept [Reg.mgtCnt0] s t ∧ BytesKept s t)) ∧
    (∀ b, r.op = 5 → s.slotOpen slot = true → k ≠ 0 → k ≠ s.mark slot → Completes (.imageWrite b) s (fun t => Answers s t r 0x13 0 [] ∧
      t.flash = s.flash ∧ t.mark slot = s.mark slot ∧ RegsKept [Reg.mgtCnt0] s t)) ∧
    (∀ i, r.op = 6 → s.hlm.running = none → s.slotOpen slot = true → k ≤ s.mark slot → s.commits = [] → s.checkImage slot k = .ok i →
      Completes (.imageCommit true) s (fun t => Answers s t r 0 0 [] ∧ t.mgt.dirty.getLsbD slot = false ∧
        (∃ d, t.flash = s.flash.putDir d ∧ d.typ = 1 ∧ d.active = slot ∧ d.slotLen slot = k ∧
          (∀ x, s.flash.directory = some x → d.slotLen (1 - slot) = x.slotLen (1 - slot))) ∧ RegsKept [Reg.mgtCnt0] s t)) ∧
    (∀ b e, r.op = 6 → s.hlm.running = none → s.slotOpen slot = true → k ≤ s.mark slot → s.checkImage slot k = .error e →
      Completes (.imageCommit b) s (fun t => Answers s t r 0x14 e.code [] ∧ t.flash = s.flash ∧ RegsKept [Reg.mgtCnt0] s t)) ∧
    (∀ b, ∀ c ∈ [(Instr.imageWrite b, (5 : Byte)), (.imageCommit b, 6)], r.op = c.2 → s.hlm.running = none → s.activeSlot = some slot →
      Completes c.1 s (fun t => Answers s t r 0x12 0 [] ∧ t.flash = s.flash ∧ RegsKept [Reg.mgtCnt0] s t)))

/-- A read of the I2C target returns the register of its pointer and a PEC over the transfer. Its commands act once PEC, confirm
byte and permission are right, and record the result; otherwise they record the reason and do nothing.

The instructions of the TAP select their register and take the balls or give them back, SAMPLE captures what the device drives on its
outputs and what stands at its other balls; with debug unlocked the access register reads
and writes the address map, and while it is locked nothing is reached.

The commands whose completion this states: I2C_READ, I2C_RESTART, I2C_CLEAR_FAILS, I2C_PWR_CLEAR, I2C_SECTOR_RETRY, EXTEST,
SAMPLE_PRELOAD, IDCODE, CLAMP, HIGHZ, BYPASS, JTAG_ACCESS_READ, JTAG_ACCESS_WRITE. -/
def Obligations.I2cAndTapServe : Prop :=
  (
  (∀ (s : State) (ptr : Byte), s.Inv → s.powered = true → Completes (.i2cRead ptr) s (fun t =>
    (∃ d : W32, t.mgt.i2cOut = bytesLe 4 d.toNat ++ [pecOf ([BitVec.ofNat 8 (0xB0 + 2 * s.mgt.straps.toNat), ptr,
        BitVec.ofNat 8 (0xB1 + 2 * s.mgt.straps.toNat)] ++ bytesLe 4 d.toNat)] ∧
      (∀ x ∈ [(1, Reg.bootStatus), (2, Reg.pwrStatus), (3, Reg.pwrSecState), (4, Reg.pwrOc), (5, Reg.pwrSensFail), (0x0C, Reg.memLastUe0),
        (0x0D, Reg.memLastUe1)], ptr.toNat = x.1 → d = s.reg x.2) ∧
      (∀ i : Nat, i < 3 → (ptr.toNat = 6 + i → d = s.reg (Reg.pwrRailTel i)) ∧ (ptr.toNat = 9 + i → d = s.reg (Reg.pwrRailStat i))) ∧
      (∀ i : Nat, i < 16 → ptr.toNat = 0x10 + i → d = s.reg (Reg.pwrTemp i)) ∧ (ptr = 0x3F → d = s.mgt.i2cLast) ∧
      (∀ x ∈ [(0x20, Reg.tsbStatus), (0x21, Reg.admStatus), (0x22, Reg.accordStatus), (0x23, Reg.hlmStatus), (0x24, Reg.hlmUidLo),
        (0x25, Reg.hlmUidHi)], ptr.toNat = x.1 → d = if s.pwr.globalOn then s.reg x.2 else 0) ∧
      ((ptr.toNat = 0x0E ∨ ptr.toNat = 0x0F ∨ 0x26 ≤ ptr.toNat) → ptr ≠ 0x3F → d = 0)) ∧
    t = { s with mgt := { s.mgt with i2cOut := t.mgt.i2cOut } })) ∧
  (∀ (s : State) (confirm pec : Byte) (mask : BitVec 16), s.Inv → s.powered = true →
    ∀ x ∈ [(Instr.i2cRestart confirm pec, 0x80, ([] : List Byte)), (.i2cClearFails confirm pec, 0x81, []), (.i2cPwrClear confirm pec, 0x82, []),
        (.i2cSectorRetry mask confirm pec, 0x83, bytesLe 2 mask.toNat)],
      let good : Prop := pec = pecOf ([BitVec.ofNat 8 (0xB0 + 2 * s.mgt.straps.toNat), BitVec.ofNat 8 x.2.1, confirm] ++ x.2.2)
      let sure : Prop := confirm = BitVec.ofNat 8 (x.2.1 ^^^ 0xFF)
      let off : Prop := s.phase = 5 ∨ s.thermalOff = true ∨ s.inRailOff = true
      let Last (v : State) (code : Nat) (t : State) : Prop :=
        t = { v with mgt := { v.mgt with i2cLast := BitVec.ofNat 32 (x.2.1 * 2 ^ 24 + code) } }
      (¬ good → Completes x.1 s (Last s 1)) ∧ (good → ¬ sure → Completes x.1 s (Last s 2)) ∧
      (good → sure → ¬ off → s.boot.enable.getLsbD 1 = false → Completes x.1 s (Last s 3)) ∧
      (good → sure → off → 0x82 ≤ x.2.1 → Completes x.1 s (Last s 3)) ∧
      (good → sure → ((¬ off ∧ s.boot.enable.getLsbD 1 = true) ∨ (off ∧ s.thermalOff = false)) → x.2.1 = 0x80 →
        Completes x.1 s (Last { s with boot := { s.boot with restart := true } } 0)) ∧
      (good → sure → s.thermalOff = true → s.rearmed = false → x.2.1 = 0x80 → Completes x.1 s (Last s 4)) ∧
      (good → sure → ¬ off → s.boot.enable.getLsbD 1 = true → s.commits = [] → x.2.1 = 0x81 → Completes x.1 s (fun t =>
        ∃ r, r.typ = 0x13 ∧ r.payload = [] ∧ r.seq = s.flash.nextSeq ∧ Last { s with flash := s.flash.putLog r } 0 t)) ∧
      (good → sure → (s.thermalOff = true ∨ s.inRailOff = true) → x.2.1 = 0x81 →
        Completes x.1 s (Last { s with pwr := { s.pwr with heldClear := true } } 0)) ∧
      (good → sure → ¬ off → s.boot.enable.getLsbD 1 = true → x.2.1 = 0x82 → Completes x.1 s
        (Last { s with pwr := { s.pwr with sent := s.pwr.sent ++ [(0, 3, 0), (1, 3, 0), (2, 3, 0)] } } 0)) ∧
      (good → sure → ¬ off → s.boot.enable.getLsbD 1 = true → x.2.1 = 0x83 → Completes x.1 s (Last (s.pwrRetry mask.toNat) 0)))
  ) ∧
  (
  ∀ (s : State), s.Inv → s.powered = true →
    let Tap (c : Instr) (ir : Byte) (held : Option (BitVec 101)) (hz : Bool) (tdr : BitVec 32) : Prop := Completes c s (fun t =>
      t = { s with mgt := { s.mgt with ir := ir, held := held, highz := hz, tdr := tdr } })
    Tap .extest 0 (some s.mgt.update) false s.mgt.tdr ∧ Tap .idcode 2 none false idcode ∧ Tap .clamp 3 (some s.mgt.update) false 0 ∧
    Tap .highz 4 none true 0 ∧ Tap .bypass 0xFF none false 0 ∧ idcode.getLsbD 0 = true ∧ bitsOf idcode 11 1 = 0x54D ∧
    bitsOf idcode 27 12 = 0x4E16 ∧
    (∀ pins load, Completes (.samplePreload pins load) s (fun t =>
      (∀ i, i < 101 → t.mgt.boundary.getLsbD i = s.cellCaptures pins i) ∧
      t = { s with mgt := { s.mgt with ir := 1, held := none, highz := false, boundary := t.mgt.boundary, update := load } })) ∧
    (∀ (a : BitVec 40) (v : W32),
      let tap : State := { s with mgt := { s.mgt with ir := 0x10, held := none, highz := false } }
      (s.pwr.globalOn = true → s.rbit Reg.hlmStatus 22 = true → tap.blocked a.toNat 4 = none → isRegister a.toNat = true →
        s.prot.flips = [] → a.toNat ≠ Reg.tsbNow → Completes (.jtagAccessRead a) s (fun t => t.mgt.accDone = true ∧ t.mgt.accStatus = 0 ∧
          t.mgt.accData = tap.regRead a.toNat ∧ t = { tap with mgt := t.mgt })) ∧
      (∀ e : EngineNo, s.pwr.globalOn = true → s.rbit Reg.hlmStatus 22 = true → tap.blocked a.toNat 4 = none → s.protIdle = true →
        engWin e + 0x2000 ≤ a.toNat → a.toNat + 4 ≤ engWin e + 0x6000 → Completes (.jtagAccessWrite a v) s (fun t =>
          t.mgt.accDone = true ∧ t.mgt.accStatus = 0 ∧ t.le a.toNat 4 = v.toNat ∧
          (∀ x, (x < a.toNat ∨ a.toNat + 4 ≤ x) → t.byte x = s.byte x) ∧ t = { tap with mgt := t.mgt, mem := t.mem, ports := t.ports })) ∧
      (∀ c ∈ [Instr.jtagAccessRead a, .jtagAccessWrite a v], s.rbit Reg.hlmStatus 22 = false → Completes c s (fun t =>
        t = { s with mgt := { s.mgt with ir := 0x10, held := none, highz := false, tdr := 0 } })))
  )

/-! ### Registers (chapter 21) -/

/-- A write of a register writes its RW fields, clears the RW1C bits written as 1 but those that the hardware has set in the same
slot, writes RWL fields unless they are locked, which they are from RUN to the next reset, and leaves every other field and
register; a command register acts instead; an address with no register ignores it.

The commands whose completion this states: REGISTER_WRITE. -/
def Obligations.RegisterWriteFollowsClasses : Prop :=
  ∀ (s : State) (a : BitVec 40) (v : W32) (o : Nat), s.Inv → s.netOn = true → isRegister a.toNat = true → s.blocked a.toNat 4 = none →
    glbOff a.toNat = some o →
    (∀ r, regSpec a.toNat = some r → r.wo = 0 → schedEntry a.toNat = none → r.rw &&& r.rw1c = 0 → r.rwl &&& (r.rw ||| r.rw1c) = 0 →
      Completes (.registerWrite a v) s (fun t => ∀ i, i < 32 → t.rbit a.toNat i =
        (if r.rw.getLsbD i then v.getLsbD i else if r.rw1c.getLsbD i then s.rbit a.toNat i && (!v.getLsbD i || !(s.reg0 a.toNat).getLsbD i)
         else if r.rwl.getLsbD i && !s.locked then v.getLsbD i else s.rbit a.toNat i)) ∧
      Completes (.registerWrite a v) s (fun t => RegsKept [a.toNat] s t ∧ t = { s with regs := t.regs })) ∧
    (∀ r, regSpec a.toNat = some r → r.wo ≠ 0 → Completes (.registerWrite a v) s (fun t => t = s.cmdWrite o v)) ∧
    (regSpec a.toNat = none → (o < 0x800000 ∨ 0x802000 ≤ o) → Completes (.registerWrite a v) s (fun t => t = s))
end

