-- ==== Sys2Proof/Laws/Codes.lean ====
section
/-!
SUPPORT. Sys2Proof/Laws/Codes.lean: lengths of byte strings: numbers, digests, the device key and the attestation body.
-/
namespace Sys2Proof.Machine

@[simp] theorem bytesLe_length (n v : Nat) : (bytesLe n v).length = n := by
  induction n generalizing v with
  | zero => rfl
  | succ n ih => simp [bytesLe, ih]

@[simp] theorem bytesBe_length (n v : Nat) : (bytesBe n v).length = n := by simp [bytesBe]

@[simp] theorem digest32_length (d : List Byte) : (digest32 d).length = 32 := by simp [digest32]; omega

@[simp] theorem State.devKey_length (s : State) : s.devKey.length = 32 := by unfold State.devKey; split <;> simp

@[simp] theorem State.bytes_length (s : State) (a n : Nat) : (s.bytes a n).length = n := by simp [State.bytes]
@[simp] theorem State.mailbox_length (s : State) (a n : Nat) : (s.mailbox a n).length = n := by simp [State.mailbox]

theorem shaRound_length (h : List W32) (k : W32 × W32) : (shaRound h k).length = h.length := by unfold shaRound; split <;> simp

theorem shaBlock_length (h : List W32) (b : List Byte) : (shaBlock h b).length = h.length := by
  have key : ∀ (l : List (W32 × W32)) (h : List W32), (l.foldl shaRound h).length = h.length := by
    intro l
    induction l with
    | nil => intro h; rfl
    | cons x l ih => intro h; rw [List.foldl_cons, ih, shaRound_length]
  simp [shaBlock, key]

theorem shaBlocks_length (n : Nat) (h : List W32) (l : List Byte) : (shaBlocks n h l).length = h.length := by
  induction n generalizing h l with
  | zero => rfl
  | succ n ih => rw [shaBlocks, ih, shaBlock_length]

theorem flatMap_length {α β : Type} (f : α → List β) (k : Nat) (hf : ∀ x, (f x).length = k) (l : List α) :
    (l.flatMap f).length = k * l.length := by
  induction l with
  | nil => simp
  | cons x l ih => simp [hf, ih, Nat.mul_add, Nat.add_comm]

theorem shaH_length : shaH.length = 8 := by decide +kernel

theorem shaBlocks_shaH_length (n : Nat) (l : List Byte) : (shaBlocks n shaH l).length = 8 := by
  rw [shaBlocks_length, shaH_length]

/-- A SHA-256 digest has 32 bytes. -/
@[simp] theorem sha256_length (m : List Byte) : (sha256 m).length = 32 := by
  unfold sha256
  dsimp only
  rw [flatMap_length (fun w : W32 => bytesBe 4 w.toNat) 4 (fun _ => bytesBe_length 4 _), shaBlocks_shaH_length]

/-- The attestation body has the 256 bytes of Table 3 (R454). -/
@[simp] theorem State.attestBody_length (s : State) : s.attestBody.length = 256 := by
  unfold State.attestBody
  dsimp only
  rw [List.length_append, List.length_append, List.length_append, List.length_append, List.length_append,
    List.length_append, List.length_append, List.length_append, List.length_append, List.length_append,
    List.length_append, List.length_append, List.length_append, List.length_append, List.length_append,
    List.length_append, List.length_append, List.length_append, List.length_append, List.length_append,
    List.length_append, List.length_replicate,
    flatMap_length (fun i => bytesLe 4 (s.reg (Reg.admDigest i)).toNat) 4 (fun _ => bytesLe_length 4 _)]
  simp only [bytesLe_length, State.devKey_length, digest32_length, sha256_length, State.mailbox_length, List.length_range]

end Sys2Proof.Machine
end

