-- ==== Sys2Proof/Laws/Tbl.lean ====
section
/-!
SUPPORT. Sys2Proof/Laws/Tbl.lean: what the sparse tables do: a read after a write, and that every operation keeps the
canonical form.
-/
namespace Sys2Proof.Tbl
variable {α : Type}

theorem risingFrom_mono {b c : Nat} {t : Tbl α} (h : risingFrom c t = true) (hb : b ≤ c) : risingFrom b t = true := by
  cases t with
  | nil => rfl
  | cons e t =>
    obtain ⟨j, v⟩ := e
    simp [risingFrom] at *
    exact ⟨by omega, h.2⟩

theorem risingFrom_filter {b : Nat} {t : Tbl α} (f : Nat × α → Bool) (h : risingFrom b t = true) :
    risingFrom b (t.filter f) = true := by
  induction t generalizing b with
  | nil => rfl
  | cons e t ih =>
    obtain ⟨j, v⟩ := e
    simp [risingFrom] at h
    simp only [List.filter_cons]
    split
    · simp [risingFrom]; exact ⟨h.1, ih h.2⟩
    · exact risingFrom_mono (ih h.2) (by omega)

theorem get_of_lt {d : α} {b k : Nat} {t : Tbl α} (h : risingFrom b t = true) (hk : k < b) : get d t k = d := by
  cases t with
  | nil => rfl
  | cons e t =>
    obtain ⟨j, v⟩ := e
    simp [risingFrom] at h
    have : k < j := by omega
    simp [get, this]

@[simp] theorem get_nil (d : α) (k : Nat) : get d [] k = d := rfl

@[simp] theorem get_insert_self (d : α) (t : Tbl α) (k : Nat) (w : α) : get d (insert t k w) k = w := by
  induction t with
  | nil => simp [insert, get]
  | cons e t ih =>
    obtain ⟨j, v⟩ := e
    simp only [insert]
    split
    · simp [get]
    · split
      · simp [get]
      · rename_i h1 h2; simp [get, h1, h2, ih]

theorem get_insert_of_ne {d : α} {t : Tbl α} {k k' : Nat} {w : α} (h : k' ≠ k) :
    get d (insert t k w) k' = get d t k' := by
  induction t with
  | nil => simp [insert, get, h]
  | cons e t ih =>
    obtain ⟨j, v⟩ := e
    simp only [insert]
    split
    · simp only [get]
      split
      · rename_i h1 h2
        have h3 : k' < j := by omega
        simp [h3]
      · rfl
    · split
      · rename_i h1 h2; subst h2; simp [get, h]
      · simp only [get, ih]

theorem get_erase_self {d : α} {b : Nat} {t : Tbl α} {k : Nat} (h : risingFrom b t = true) : get d (erase t k) k = d := by
  induction t generalizing b with
  | nil => rfl
  | cons e t ih =>
    obtain ⟨j, v⟩ := e
    simp [risingFrom] at h
    simp only [erase]
    split
    · rename_i h1; simp [get, h1]
    · split
      · rename_i h1 h2; exact get_of_lt h.2 (by omega)
      · rename_i h1 h2; simp only [get, h1, h2, if_false]; exact ih h.2

theorem get_erase_of_ne {d : α} {b : Nat} {t : Tbl α} {k k' : Nat} (h : risingFrom b t = true) (hk : k' ≠ k) :
    get d (erase t k) k' = get d t k' := by
  induction t generalizing b with
  | nil => rfl
  | cons e t ih =>
    obtain ⟨j, v⟩ := e
    simp [risingFrom] at h
    simp only [erase]
    split
    · rfl
    · split
      · rename_i h1 h2
        subst h2
        simp only [get]
        split
        · rename_i h3; exact get_of_lt h.2 (by omega)
        · rfl
      · simp only [get, ih h.2]

theorem risingFrom_insert {b : Nat} {t : Tbl α} {k : Nat} {w : α} (h : risingFrom b t = true) (hb : b ≤ k) :
    risingFrom b (insert t k w) = true := by
  induction t generalizing b with
  | nil => simp [insert, risingFrom, hb]
  | cons e t ih =>
    obtain ⟨j, v⟩ := e
    simp [risingFrom] at h
    simp only [insert]
    split
    · simp [risingFrom, hb]; exact ⟨by omega, h.2⟩
    · split
      · rename_i h1 h2; subst h2; simp [risingFrom, hb, h.2]
      · simp [risingFrom, h.1]; exact ih h.2 (by omega)

theorem risingFrom_erase {b : Nat} {t : Tbl α} {k : Nat} (h : risingFrom b t = true) :
    risingFrom b (erase t k) = true := by
  induction t generalizing b with
  | nil => rfl
  | cons e t ih =>
    obtain ⟨j, v⟩ := e
    simp [risingFrom] at h
    simp only [erase]
    split
    · simp [risingFrom, h]
    · split
      · exact risingFrom_mono h.2 (by omega)
      · simp [risingFrom, h.1]; exact ih h.2

theorem mem_insert {t : Tbl α} {k : Nat} {w : α} {e : Nat × α} (h : e ∈ insert t k w) : e = (k, w) ∨ e ∈ t := by
  induction t with
  | nil => simpa [insert] using h
  | cons f t ih =>
    obtain ⟨j, v⟩ := f
    simp only [insert] at h
    split at h
    · simpa using h
    · split at h
      · simp only [List.mem_cons] at h
        exact h.imp id (fun h => List.mem_cons_of_mem _ h)
      · simp only [List.mem_cons] at h
        rcases h with h | h
        · exact .inr (by simp [h])
        · exact (ih h).imp id (fun h => List.mem_cons_of_mem _ h)

theorem mem_erase {t : Tbl α} {k : Nat} {e : Nat × α} (h : e ∈ erase t k) : e ∈ t := by
  induction t with
  | nil => simp [erase] at h
  | cons f t ih =>
    obtain ⟨j, v⟩ := f
    simp only [erase] at h
    split at h
    · exact h
    · split at h
      · exact List.mem_cons_of_mem _ h
      · simp only [List.mem_cons] at h
        rcases h with h | h
        · simp [h]
        · exact List.mem_cons_of_mem _ (ih h)

theorem risingFrom_filterMap {β : Type} {b : Nat} {t : Tbl α} {g : Nat × α → Option (Nat × β)}
    (hk : ∀ e e', g e = some e' → e'.1 = e.1) (h : risingFrom b t = true) : risingFrom b (t.filterMap g) = true := by
  induction t generalizing b with
  | nil => rfl
  | cons e t ih =>
    obtain ⟨j, v⟩ := e
    simp [risingFrom] at h
    simp only [List.filterMap_cons]
    split
    · exact risingFrom_mono (ih h.2) (by omega)
    · rename_i e' he
      obtain ⟨j', v'⟩ := e'
      have := hk _ _ he
      simp only at this
      subst this
      simp [risingFrom]
      exact ⟨h.1, ih h.2⟩

theorem insert_insert {t : Tbl α} {k : Nat} {v w : α} : insert (insert t k v) k w = insert t k w := by
  induction t with
  | nil => simp [insert]
  | cons e t ih =>
    obtain ⟨j, x⟩ := e
    simp only [insert]
    by_cases h1 : k < j
    · simp [h1, insert]
    · by_cases h2 : k = j
      · simp [h2, insert]
      · simp [h1, h2, insert, ih]
theorem erase_insert {b : Nat} {t : Tbl α} {k : Nat} {v : α} (h : risingFrom b t = true) : erase (insert t k v) k = erase t k := by
  induction t generalizing b with
  | nil => simp [insert, erase]
  | cons e t ih =>
    obtain ⟨j, x⟩ := e
    simp [risingFrom] at h
    simp only [insert]
    by_cases h1 : k < j
    · simp [h1, erase]
    · by_cases h2 : k = j
      · simp [h2, erase]
      · simp [h1, h2, erase, ih h.2]
theorem erase_below {b : Nat} {t : Tbl α} {k : Nat} (h : risingFrom b t = true) (hk : k < b) : erase t k = t := by
  cases t with
  | nil => rfl
  | cons e t =>
    obtain ⟨j, x⟩ := e
    simp [risingFrom] at h
    simp [erase, show k < j by omega]
theorem insert_below {b : Nat} {t : Tbl α} {k : Nat} {w : α} (h : risingFrom b t = true) (hk : k < b) : insert t k w = (k, w) :: t := by
  cases t with
  | nil => rfl
  | cons e t =>
    obtain ⟨j, x⟩ := e
    simp [risingFrom] at h
    simp [insert, show k < j by omega]
theorem insert_erase {b : Nat} {t : Tbl α} {k : Nat} {w : α} (h : risingFrom b t = true) : insert (erase t k) k w = insert t k w := by
  induction t generalizing b with
  | nil => simp [insert, erase]
  | cons e t ih =>
    obtain ⟨j, x⟩ := e
    simp [risingFrom] at h
    simp only [erase]
    by_cases h1 : k < j
    · simp [h1, insert]
    · by_cases h2 : k = j
      · subst h2; simp [insert, insert_below h.2]
      · simp [h1, h2, insert, ih h.2]
theorem erase_erase {b : Nat} {t : Tbl α} {k : Nat} (h : risingFrom b t = true) : erase (erase t k) k = erase t k := by
  induction t generalizing b with
  | nil => simp [erase]
  | cons e t ih =>
    obtain ⟨j, x⟩ := e
    simp [risingFrom] at h
    simp only [erase]
    by_cases h1 : k < j
    · simp [h1, erase]
    · by_cases h2 : k = j
      · subst h2; simp [erase_below h.2]
      · simp [h1, h2, erase, ih h.2]

variable [DecidableEq α]

/-- A write keeps the canonical form of a table whose entries differ from what their addresses read as. -/
theorem wfBy_set {d : Nat → α} {t : Tbl α} {k : Nat} {w : α} (h : wfBy d t = true) :
    wfBy d (set (d k) t k w) = true := by
  simp only [wfBy, Bool.and_eq_true, List.all_eq_true, decide_eq_true_eq, set] at *
  split
  · exact ⟨risingFrom_erase h.1, fun e he => h.2 e (mem_erase he)⟩
  · refine ⟨risingFrom_insert h.1 (Nat.zero_le _), fun e he => ?_⟩
    rcases mem_insert he with rfl | he
    · assumption
    · exact h.2 e he

/-- A write keeps the canonical form of a table. -/
theorem wf_set {d : α} {t : Tbl α} {k : Nat} {w : α} (h : wf d t = true) : wf d (set d t k w) = true :=
  wfBy_set (d := fun _ => d) h

/-- Keeping only some of the entries keeps the canonical form. -/
theorem wfBy_filter {d : Nat → α} {t : Tbl α} (f : Nat × α → Bool) (h : wfBy d t = true) :
    wfBy d (t.filter f) = true := by
  simp only [wfBy, Bool.and_eq_true, List.all_eq_true, decide_eq_true_eq] at *
  exact ⟨risingFrom_filter f h.1, fun e he => h.2 e (List.mem_filter.mp he).1⟩

theorem wf_filter {d : α} {t : Tbl α} (f : Nat × α → Bool) (h : wf d t = true) : wf d (t.filter f) = true :=
  wfBy_filter (d := fun _ => d) f h

/-- Changing entries in place keeps the canonical form where no changed entry reads as the default. -/
theorem wf_filterMap {d : α} {t : Tbl α} {g : Nat × α → Option (Nat × α)}
    (hk : ∀ e e', g e = some e' → e'.1 = e.1) (hd : ∀ e e', e.2 ≠ d → g e = some e' → e'.2 ≠ d) (h : wf d t = true) :
    wf d (t.filterMap g) = true := by
  simp only [wf, Bool.and_eq_true, List.all_eq_true, decide_eq_true_eq] at *
  refine ⟨risingFrom_filterMap hk h.1, fun e he => ?_⟩
  obtain ⟨a, ha, hg⟩ := List.mem_filterMap.mp he
  exact hd _ _ (h.2 a ha) hg

/-- A read after a write at the same key. -/
theorem get_set_self {d : α} {t : Tbl α} {k : Nat} {w : α} (h : risingFrom 0 t = true) : get d (set d t k w) k = w := by
  simp only [set]
  split
  · rename_i hw; rw [get_erase_self h, hw]
  · simp

/-- A read after a write at another key. -/
theorem get_set_of_ne {d c : α} {t : Tbl α} {k k' : Nat} {w : α} (h : risingFrom 0 t = true) (hk : k' ≠ k) :
    get c (set d t k w) k' = get c t k' := by
  simp only [set]
  split
  · exact get_erase_of_ne h hk
  · exact get_insert_of_ne hk

/-- Two writes at one key are the second. -/
theorem set_set {d : α} {t : Tbl α} {k : Nat} {v w : α} (h : risingFrom 0 t = true) : set d (set d t k v) k w = set d t k w := by
  simp only [set]
  split <;> split <;> simp [insert_insert, erase_insert h, insert_erase h, erase_erase h]

theorem wf_rising {d : α} {t : Tbl α} (h : wf d t = true) : risingFrom 0 t = true := by
  simp [wf] at h; exact h.1

theorem wfBy_rising {d : Nat → α} {t : Tbl α} (h : wfBy d t = true) : risingFrom 0 t = true := by
  simp [wfBy] at h; exact h.1

end Sys2Proof.Tbl
end

