-- ==== Sys2Proof/Laws/Keeps.lean ====
section
/-!
SUPPORT. Sys2Proof/Laws/Keeps.lean: what every operation leaves standing (the form of the state, the queue of waiting commands, the
blown fuses), what every operation but the few that move the count leaves standing beside (the count), and that the operations of
Machine/Ops.lean do so.
-/
namespace Sys2Proof
open Sys2Proof.Machine

theorem FusesKept.refl (f : Fuses) : FusesKept f f := ⟨rfl, fun _ => Nat.le_refl _, fun _ => rfl, id⟩

theorem FusesKept.trans {f g k : Fuses} (a : FusesKept f g) (b : FusesKept g k) : FusesKept f k :=
  ⟨b.uid.trans a.uid, fun i => Nat.le_trans (a.slots i) (b.slots i),
   fun h => (b.seeds (by rw [a.seeds h]; exact h)).trans (a.seeds h), fun h => b.spoilt (a.spoilt h)⟩

end Sys2Proof

namespace Sys2Proof.Machine

/-- From `s` to `t` the form of the state, the queue of commands and the blown fuses are kept. -/
structure Keeps (s t : State) : Prop where
  inv : s.Inv → t.Inv
  pending : t.pending = s.pending
  fuses : FusesKept s.fuses t.fuses

/-- From `s` to `t` the count stands too: orbit, crossing, slot and the model's two time bases. -/
structure Still (s t : State) : Prop extends Keeps s t where
  orbit : t.tsb.orbit = s.tsb.orbit
  crossing : t.tsb.crossing = s.tsb.crossing
  slot : t.tsb.slot = s.tsb.slot
  cx : t.tsb.cx = s.tsb.cx
  tick : t.tsb.tick = s.tsb.tick

theorem Keeps.refl (s : State) : Keeps s s := ⟨id, rfl, FusesKept.refl _⟩
theorem Keeps.trans {s t u : State} (a : Keeps s t) (b : Keeps t u) : Keeps s u :=
  ⟨b.inv ∘ a.inv, b.pending.trans a.pending, a.fuses.trans b.fuses⟩

theorem Still.refl (s : State) : Still s s := ⟨Keeps.refl s, rfl, rfl, rfl, rfl, rfl⟩
theorem Still.trans {s t u : State} (a : Still s t) (b : Still t u) : Still s u :=
  ⟨a.toKeeps.trans b.toKeeps, b.orbit.trans a.orbit, b.crossing.trans a.crossing, b.slot.trans a.slot,
   b.cx.trans a.cx, b.tick.trans a.tick⟩

theorem State.Inv.of_eq {s t : State} (h : s.Inv)
    (e : t.mem = s.mem ∧ t.regs = s.regs ∧ t.cells = s.cells ∧ t.sorters = s.sorters ∧ t.lanes = s.lanes ∧ t.queues = s.queues ∧
      t.engines = s.engines ∧ t.readout = s.readout ∧ t.drz = s.drz ∧ t.dpt.tasks = s.dpt.tasks ∧ t.dpt.eng = s.dpt.eng ∧
      t.reloads = s.reloads ∧ t.prot.flips = s.prot.flips) : t.Inv := by
  obtain ⟨e1, e2, e3, e4, e5, e6, e7, e8, e9, e10, e11, e12, e13⟩ := e
  constructor
  · rw [e1]; exact h.mem
  · rw [e2]; exact h.regs
  · rw [e3]; exact h.cells
  · rw [e4]; exact h.sorters
  · rw [e5]; exact h.lanes
  · rw [e6]; exact h.queues
  · rw [e7]; exact h.engines
  · rw [e8]; exact h.readout
  · rw [e9]; exact h.drz
  · rw [e10]; exact h.tasks
  · rw [e11]; exact h.engDpt
  · rw [e12]; exact h.reloads
  · rw [e13]; exact h.flips
  · intro q; simp only [State.queue, e6]; exact h.stages q

/-- An update of none of the named parts keeps them. -/
theorem Keeps.of_eq {s₀ s t : State} (h : Keeps s₀ s) (e1 : t.mem = s.mem) (e2 : t.regs = s.regs) (e3 : t.cells = s.cells)
    (e4 : t.sorters = s.sorters) (e5 : t.lanes = s.lanes) (e6 : t.queues = s.queues) (e7 : t.engines = s.engines)
    (e8 : t.readout = s.readout) (e9 : t.drz = s.drz) (e10 : t.dpt.tasks = s.dpt.tasks) (e11 : t.dpt.eng = s.dpt.eng)
    (e12 : t.reloads = s.reloads) (e13 : t.prot.flips = s.prot.flips) (e14 : t.pending = s.pending)
    (e15 : t.fuses = s.fuses) : Keeps s₀ t :=
  h.trans ⟨fun i => i.of_eq ⟨e1, e2, e3, e4, e5, e6, e7, e8, e9, e10, e11, e12, e13⟩, e14, by rw [e15]; exact FusesKept.refl _⟩

/-- An update of none of the named parts, nor of the count, keeps them. -/
theorem Still.of_eq {s₀ s t : State} (h : Still s₀ s) (e1 : t.mem = s.mem) (e2 : t.regs = s.regs) (e3 : t.cells = s.cells)
    (e4 : t.sorters = s.sorters) (e5 : t.lanes = s.lanes) (e6 : t.queues = s.queues) (e7 : t.engines = s.engines)
    (e8 : t.readout = s.readout) (e9 : t.drz = s.drz) (e10 : t.dpt.tasks = s.dpt.tasks) (e11 : t.dpt.eng = s.dpt.eng)
    (e12 : t.reloads = s.reloads) (e13 : t.prot.flips = s.prot.flips) (e14 : t.pending = s.pending)
    (e15 : t.fuses = s.fuses) (e16 : t.tsb.orbit = s.tsb.orbit) (e17 : t.tsb.crossing = s.tsb.crossing)
    (e18 : t.tsb.slot = s.tsb.slot) (e19 : t.tsb.cx = s.tsb.cx) (e20 : t.tsb.tick = s.tsb.tick) : Still s₀ t :=
  h.trans ⟨(Keeps.refl s).of_eq e1 e2 e3 e4 e5 e6 e7 e8 e9 e10 e11 e12 e13 e14 e15, e16, e17, e18, e19, e20⟩

/-- An update of tables alone, each of which keeps its form. -/
theorem Still.of_inv {s₀ s t : State} (h : Still s₀ s) (i : s.Inv → t.Inv) (e1 : t.pending = s.pending) (e2 : t.fuses = s.fuses)
    (e3 : t.tsb = s.tsb) : Still s₀ t :=
  h.trans ⟨⟨i, e1, by rw [e2]; exact FusesKept.refl _⟩, by rw [e3], by rw [e3], by rw [e3], by rw [e3], by rw [e3]⟩

theorem Still.filterMem {s₀ s : State} (h : Still s₀ s) (f : Host.Cell → Bool) (g : Nat × BitVec 72 → Bool) :
    Still s₀ { s with mem := s.mem.filter f, prot := { s.prot with flips := s.prot.flips.filter g } } :=
  h.of_inv (fun i => { i with mem := Tbl.wf_filter f i.mem, flips := Tbl.wf_filter g i.flips }) rfl rfl rfl

/-- Registers left out go back to their device-reset words. -/
theorem Still.filterRegsOnly {s₀ s : State} (h : Still s₀ s) (f : Nat × W32 → Bool) : Still s₀ { s with regs := s.regs.filter f } :=
  h.of_inv (fun i => { i with regs := Tbl.wfBy_filter f i.regs }) rfl rfl rfl

theorem Still.filterRegs {s₀ s : State} (h : Still s₀ s) (f : Nat × W32 → Bool) (g : Nat × BitVec 72 → Bool) :
    Still s₀ { s with regs := s.regs.filter f, prot := { s.prot with flips := s.prot.flips.filter g } } :=
  h.of_inv (fun i => { i with regs := Tbl.wfBy_filter f i.regs, flips := Tbl.wf_filter g i.flips }) rfl rfl rfl

theorem Still.setReloads {s₀ s : State} (h : Still s₀ s) (k : Nat) (v : Option Reload) :
    Still s₀ { s with reloads := Tbl.set none s.reloads k v } :=
  h.of_inv (fun i => { i with reloads := Tbl.wf_set i.reloads }) rfl rfl rfl

theorem Still.swapReloads {s₀ s : State} (h : Still s₀ s) (f : Nat × Option Reload → Bool) (k : Nat) (v : Option Reload) :
    Still s₀ { s with reloads := Tbl.set none (s.reloads.filter f) k v } :=
  h.of_inv (fun i => { i with reloads := Tbl.wf_set (Tbl.wf_filter f i.reloads) }) rfl rfl rfl

theorem Still.setLanes {s₀ s : State} (h : Still s₀ s) (k : Nat) (v : LaneSt) :
    Still s₀ { s with lanes := Tbl.set LaneSt.dflt s.lanes k v } :=
  h.of_inv (fun i => { i with lanes := Tbl.wf_set i.lanes }) rfl rfl rfl

/-! ### Updates of fields that neither relation looks at, by the part of the state that is written -/

theorem Still.upd {s₀ s : State} {regs0' : Tbl W32} {tasks0' : Tbl TaskSt} {ports' : Ports} {link' : Tbl (Option FWord)} {linkB'
    : Tbl (Option FWord)} {line1' : Tbl FWord} {line2' : Tbl FWord} {held' : Tbl FWord} {leaves' : Tbl (Nat × Nat)} {dec' : List
    DecPres} {decPins' : BitVec 16} {sortWrites' : List SortWrite} {merge' : Sorter} {net' : Net} {flash' : Flash} {boot' :
    Boot} {commits' : List RecordReq} {adm' : Adm} {acc' : Acc} {sectorResets' : List (Nat × Nat)} {pwr' : Pwr} {hlm' : Hlm}
    {mgt' : Mgt} {powered' : Bool} {testMode' : Bool} {vfuse' : Bool} {free' : Nat} (h : Still s₀ s) : Still s₀ ⟨s.regs, regs0',
    tasks0', s.mem, ports', s.tsb, s.cells, link', linkB', line1', line2', held', leaves', dec', decPins', sortWrites',
    s.sorters, merge', s.lanes, s.queues, s.engines, s.dpt, s.readout, s.drz, net', flash', boot', commits', adm', acc',
    s.reloads, sectorResets', s.prot, pwr', s.fuses, hlm', mgt', powered', testMode', vfuse', free', s.pending⟩ := h.of_eq rfl
    rfl rfl rfl rfl rfl rfl rfl rfl rfl rfl rfl rfl rfl rfl rfl rfl rfl rfl rfl

theorem Still.updTsb {s₀ s : State} {regs0' : Tbl W32} {tasks0' : Tbl TaskSt} {ports' : Ports} {pre₁ : Nat} {laneA₁ : TLane}
    {laneB₁ : TLane} {decided₁ : List (Nat × (Byte × Byte))} {awaiting₁ : List Nat} {due₁ : Option (Byte × Byte)} {ccw₁ : FWord}
    {orbitDue₁ : Option (Nat × Byte)} {est₁ : Option Nat} {wrong₁ : List Nat} {slips₁ : List (Nat × BitVec 48 × Nat)}
    {moveArmed₁ : Bool} {orbitReset₁ : Bool} {swapDue₁ : Option Nat} {offset₁ : Int} {fclk₁ : Bool} {holdAt₁ : Nat} {goodAt₁ :
    Option Nat} {ret₁ : ReturnStep} {offered₁ : Option (Nat × AccEntry)} {cal₁ : List CalPulse} {calPins₁ : BitVec 4} {link' :
    Tbl (Option FWord)} {linkB' : Tbl (Option FWord)} {line1' : Tbl FWord} {line2' : Tbl FWord} {held' : Tbl FWord} {leaves' :
    Tbl (Nat × Nat)} {dec' : List DecPres} {decPins' : BitVec 16} {sortWrites' : List SortWrite} {merge' : Sorter} {net' : Net}
    {flash' : Flash} {boot' : Boot} {commits' : List RecordReq} {adm' : Adm} {acc' : Acc} {sectorResets' : List (Nat × Nat)}
    {pwr' : Pwr} {hlm' : Hlm} {mgt' : Mgt} {powered' : Bool} {testMode' : Bool} {vfuse' : Bool} {free' : Nat} (h : Still s₀ s) :
    Still s₀ ⟨s.regs, regs0', tasks0', s.mem, ports', ⟨s.tsb.orbit, s.tsb.crossing, s.tsb.slot, s.tsb.cx, s.tsb.tick, pre₁,
    laneA₁, laneB₁, decided₁, awaiting₁, due₁, ccw₁, orbitDue₁, est₁, wrong₁, slips₁, moveArmed₁, orbitReset₁, swapDue₁,
    offset₁, fclk₁, holdAt₁, goodAt₁, ret₁, offered₁, cal₁, calPins₁⟩, s.cells, link', linkB', line1', line2', held', leaves',
    dec', decPins', sortWrites', s.sorters, merge', s.lanes, s.queues, s.engines, s.dpt, s.readout, s.drz, net', flash', boot',
    commits', adm', acc', s.reloads, sectorResets', s.prot, pwr', s.fuses, hlm', mgt', powered', testMode', vfuse', free',
    s.pending⟩ := h.of_eq rfl rfl rfl rfl rfl rfl rfl rfl rfl rfl rfl rfl rfl rfl rfl rfl rfl rfl rfl rfl

theorem Still.updDpt {s₀ s : State} {regs0' : Tbl W32} {tasks0' : Tbl TaskSt} {ports' : Ports} {link' : Tbl (Option FWord)}
    {linkB' : Tbl (Option FWord)} {line1' : Tbl FWord} {line2' : Tbl FWord} {held' : Tbl FWord} {leaves' : Tbl (Nat × Nat)}
    {dec' : List DecPres} {decPins' : BitVec 16} {sortWrites' : List SortWrite} {merge' : Sorter} {msgs₁ : List FlagMsg} {posts₁
    : List PostReq} {responses₁ : List (W16 × W16)} {dirty₁ : List Nat} {fresh₁ : List (Nat × Nat)} {cycle₁ : Nat} {reloaded₁ :
    Bool} {slg₁ : List (Vector W32 4)} {slgLost₁ : Bool} {slgTime₁ : Nat} {net' : Net} {flash' : Flash} {boot' : Boot} {commits'
    : List RecordReq} {adm' : Adm} {acc' : Acc} {sectorResets' : List (Nat × Nat)} {pwr' : Pwr} {hlm' : Hlm} {mgt' : Mgt}
    {powered' : Bool} {testMode' : Bool} {vfuse' : Bool} {free' : Nat} (h : Still s₀ s) : Still s₀ ⟨s.regs, regs0', tasks0',
    s.mem, ports', s.tsb, s.cells, link', linkB', line1', line2', held', leaves', dec', decPins', sortWrites', s.sorters,
    merge', s.lanes, s.queues, s.engines, ⟨s.dpt.tasks, s.dpt.eng, msgs₁, posts₁, responses₁, dirty₁, fresh₁, cycle₁, reloaded₁,
    slg₁, slgLost₁, slgTime₁⟩, s.readout, s.drz, net', flash', boot', commits', adm', acc', s.reloads, sectorResets', s.prot,
    pwr', s.fuses, hlm', mgt', powered', testMode', vfuse', free', s.pending⟩ := h.of_eq rfl rfl rfl rfl rfl rfl rfl rfl rfl rfl
    rfl rfl rfl rfl rfl rfl rfl rfl rfl rfl

theorem Still.updProt {s₀ s : State} {regs0' : Tbl W32} {tasks0' : Tbl TaskSt} {ports' : Ports} {link' : Tbl (Option FWord)}
    {linkB' : Tbl (Option FWord)} {line1' : Tbl FWord} {line2' : Tbl FWord} {held' : Tbl FWord} {leaves' : Tbl (Nat × Nat)}
    {dec' : List DecPres} {decPins' : BitVec 16} {sortWrites' : List SortWrite} {merge' : Sorter} {net' : Net} {flash' : Flash}
    {boot' : Boot} {commits' : List RecordReq} {adm' : Adm} {acc' : Acc} {sectorResets' : List (Nat × Nat)} {stuck₁ : Tbl
    (BitVec 72)} {spares₁ : Tbl (Option Nat)} {scrub₁ : Tbl Nat} {rewrite₁ : List Nat} {written₁ : List Nat} {order₁ : List Nat}
    {inject₁ : Option Inject} {hard₁ : List (Nat × Nat)} {copies₁ : List RepairCopy} {owed₁ : List Nat} {pwr' : Pwr} {hlm' :
    Hlm} {mgt' : Mgt} {powered' : Bool} {testMode' : Bool} {vfuse' : Bool} {free' : Nat} (h : Still s₀ s) : Still s₀ ⟨s.regs,
    regs0', tasks0', s.mem, ports', s.tsb, s.cells, link', linkB', line1', line2', held', leaves', dec', decPins', sortWrites',
    s.sorters, merge', s.lanes, s.queues, s.engines, s.dpt, s.readout, s.drz, net', flash', boot', commits', adm', acc',
    s.reloads, sectorResets', ⟨s.prot.flips, stuck₁, spares₁, scrub₁, rewrite₁, written₁, order₁, inject₁, hard₁, copies₁,
    owed₁⟩, pwr', s.fuses, hlm', mgt', powered', testMode', vfuse', free', s.pending⟩ := h.of_eq rfl rfl rfl rfl rfl rfl rfl rfl
    rfl rfl rfl rfl rfl rfl rfl rfl rfl rfl rfl rfl

theorem Keeps.upd {s₀ s : State} {regs0' : Tbl W32} {tasks0' : Tbl TaskSt} {ports' : Ports} {link' : Tbl (Option FWord)} {linkB'
    : Tbl (Option FWord)} {line1' : Tbl FWord} {line2' : Tbl FWord} {held' : Tbl FWord} {leaves' : Tbl (Nat × Nat)} {dec' : List
    DecPres} {decPins' : BitVec 16} {sortWrites' : List SortWrite} {merge' : Sorter} {net' : Net} {flash' : Flash} {boot' :
    Boot} {commits' : List RecordReq} {adm' : Adm} {acc' : Acc} {sectorResets' : List (Nat × Nat)} {pwr' : Pwr} {hlm' : Hlm}
    {mgt' : Mgt} {powered' : Bool} {testMode' : Bool} {vfuse' : Bool} {free' : Nat} (h : Keeps s₀ s) : Keeps s₀ ⟨s.regs, regs0',
    tasks0', s.mem, ports', s.tsb, s.cells, link', linkB', line1', line2', held', leaves', dec', decPins', sortWrites',
    s.sorters, merge', s.lanes, s.queues, s.engines, s.dpt, s.readout, s.drz, net', flash', boot', commits', adm', acc',
    s.reloads, sectorResets', s.prot, pwr', s.fuses, hlm', mgt', powered', testMode', vfuse', free', s.pending⟩ := h.of_eq rfl
    rfl rfl rfl rfl rfl rfl rfl rfl rfl rfl rfl rfl rfl rfl

theorem Keeps.updTsb {s₀ s : State} {regs0' : Tbl W32} {tasks0' : Tbl TaskSt} {ports' : Ports} {orbit₁ : BitVec 48} {crossing₁ :
    Nat} {slot₁ : Nat} {cx₁ : Nat} {tick₁ : Nat} {pre₁ : Nat} {laneA₁ : TLane} {laneB₁ : TLane} {decided₁ : List (Nat × (Byte ×
    Byte))} {awaiting₁ : List Nat} {due₁ : Option (Byte × Byte)} {ccw₁ : FWord} {orbitDue₁ : Option (Nat × Byte)} {est₁ : Option
    Nat} {wrong₁ : List Nat} {slips₁ : List (Nat × BitVec 48 × Nat)} {moveArmed₁ : Bool} {orbitReset₁ : Bool} {swapDue₁ : Option
    Nat} {offset₁ : Int} {fclk₁ : Bool} {holdAt₁ : Nat} {goodAt₁ : Option Nat} {ret₁ : ReturnStep} {offered₁ : Option (Nat ×
    AccEntry)} {cal₁ : List CalPulse} {calPins₁ : BitVec 4} {link' : Tbl (Option FWord)} {linkB' : Tbl (Option FWord)} {line1' :
    Tbl FWord} {line2' : Tbl FWord} {held' : Tbl FWord} {leaves' : Tbl (Nat × Nat)} {dec' : List DecPres} {decPins' : BitVec 16}
    {sortWrites' : List SortWrite} {merge' : Sorter} {net' : Net} {flash' : Flash} {boot' : Boot} {commits' : List RecordReq}
    {adm' : Adm} {acc' : Acc} {sectorResets' : List (Nat × Nat)} {pwr' : Pwr} {hlm' : Hlm} {mgt' : Mgt} {powered' : Bool}
    {testMode' : Bool} {vfuse' : Bool} {free' : Nat} (h : Keeps s₀ s) : Keeps s₀ ⟨s.regs, regs0', tasks0', s.mem, ports',
    ⟨orbit₁, crossing₁, slot₁, cx₁, tick₁, pre₁, laneA₁, laneB₁, decided₁, awaiting₁, due₁, ccw₁, orbitDue₁, est₁, wrong₁,
    slips₁, moveArmed₁, orbitReset₁, swapDue₁, offset₁, fclk₁, holdAt₁, goodAt₁, ret₁, offered₁, cal₁, calPins₁⟩, s.cells,
    link', linkB', line1', line2', held', leaves', dec', decPins', sortWrites', s.sorters, merge', s.lanes, s.queues, s.engines,
    s.dpt, s.readout, s.drz, net', flash', boot', commits', adm', acc', s.reloads, sectorResets', s.prot, pwr', s.fuses, hlm',
    mgt', powered', testMode', vfuse', free', s.pending⟩ := h.of_eq rfl rfl rfl rfl rfl rfl rfl rfl rfl rfl rfl rfl rfl rfl rfl

theorem Keeps.updDpt {s₀ s : State} {regs0' : Tbl W32} {tasks0' : Tbl TaskSt} {ports' : Ports} {link' : Tbl (Option FWord)}
    {linkB' : Tbl (Option FWord)} {line1' : Tbl FWord} {line2' : Tbl FWord} {held' : Tbl FWord} {leaves' : Tbl (Nat × Nat)}
    {dec' : List DecPres} {decPins' : BitVec 16} {sortWrites' : List SortWrite} {merge' : Sorter} {msgs₁ : List FlagMsg} {posts₁
    : List PostReq} {responses₁ : List (W16 × W16)} {dirty₁ : List Nat} {fresh₁ : List (Nat × Nat)} {cycle₁ : Nat} {reloaded₁ :
    Bool} {slg₁ : List (Vector W32 4)} {slgLost₁ : Bool} {slgTime₁ : Nat} {net' : Net} {flash' : Flash} {boot' : Boot} {commits'
    : List RecordReq} {adm' : Adm} {acc' : Acc} {sectorResets' : List (Nat × Nat)} {pwr' : Pwr} {hlm' : Hlm} {mgt' : Mgt}
    {powered' : Bool} {testMode' : Bool} {vfuse' : Bool} {free' : Nat} (h : Keeps s₀ s) : Keeps s₀ ⟨s.regs, regs0', tasks0',
    s.mem, ports', s.tsb, s.cells, link', linkB', line1', line2', held', leaves', dec', decPins', sortWrites', s.sorters,
    merge', s.lanes, s.queues, s.engines, ⟨s.dpt.tasks, s.dpt.eng, msgs₁, posts₁, responses₁, dirty₁, fresh₁, cycle₁, reloaded₁,
    slg₁, slgLost₁, slgTime₁⟩, s.readout, s.drz, net', flash', boot', commits', adm', acc', s.reloads, sectorResets', s.prot,
    pwr', s.fuses, hlm', mgt', powered', testMode', vfuse', free', s.pending⟩ := h.of_eq rfl rfl rfl rfl rfl rfl rfl rfl rfl rfl
    rfl rfl rfl rfl rfl

theorem Keeps.updProt {s₀ s : State} {regs0' : Tbl W32} {tasks0' : Tbl TaskSt} {ports' : Ports} {link' : Tbl (Option FWord)}
    {linkB' : Tbl (Option FWord)} {line1' : Tbl FWord} {line2' : Tbl FWord} {held' : Tbl FWord} {leaves' : Tbl (Nat × Nat)}
    {dec' : List DecPres} {decPins' : BitVec 16} {sortWrites' : List SortWrite} {merge' : Sorter} {net' : Net} {flash' : Flash}
    {boot' : Boot} {commits' : List RecordReq} {adm' : Adm} {acc' : Acc} {sectorResets' : List (Nat × Nat)} {stuck₁ : Tbl
    (BitVec 72)} {spares₁ : Tbl (Option Nat)} {scrub₁ : Tbl Nat} {rewrite₁ : List Nat} {written₁ : List Nat} {order₁ : List Nat}
    {inject₁ : Option Inject} {hard₁ : List (Nat × Nat)} {copies₁ : List RepairCopy} {owed₁ : List Nat} {pwr' : Pwr} {hlm' :
    Hlm} {mgt' : Mgt} {powered' : Bool} {testMode' : Bool} {vfuse' : Bool} {free' : Nat} (h : Keeps s₀ s) : Keeps s₀ ⟨s.regs,
    regs0', tasks0', s.mem, ports', s.tsb, s.cells, link', linkB', line1', line2', held', leaves', dec', decPins', sortWrites',
    s.sorters, merge', s.lanes, s.queues, s.engines, s.dpt, s.readout, s.drz, net', flash', boot', commits', adm', acc',
    s.reloads, sectorResets', ⟨s.prot.flips, stuck₁, spares₁, scrub₁, rewrite₁, written₁, order₁, inject₁, hard₁, copies₁,
    owed₁⟩, pwr', s.fuses, hlm', mgt', powered', testMode', vfuse', free', s.pending⟩ := h.of_eq rfl rfl rfl rfl rfl rfl rfl rfl
    rfl rfl rfl rfl rfl rfl rfl

theorem Still.updAny {s₀ s : State} {regs0' : Tbl W32} {tasks0' : Tbl TaskSt} {ports' : Ports} {tsb' : Tsb} {link' : Tbl (Option
    FWord)} {linkB' : Tbl (Option FWord)} {line1' : Tbl FWord} {line2' : Tbl FWord} {held' : Tbl FWord} {leaves' : Tbl (Nat ×
    Nat)} {dec' : List DecPres} {decPins' : BitVec 16} {sortWrites' : List SortWrite} {merge' : Sorter} {dpt' : Dpt} {net' :
    Net} {flash' : Flash} {boot' : Boot} {commits' : List RecordReq} {adm' : Adm} {acc' : Acc} {sectorResets' : List (Nat ×
    Nat)} {prot' : Prot} {pwr' : Pwr} {hlm' : Hlm} {mgt' : Mgt} {powered' : Bool} {testMode' : Bool} {vfuse' : Bool} {free' :
    Nat} (h : Still s₀ s) (e : dpt'.tasks = s.dpt.tasks ∧ dpt'.eng = s.dpt.eng ∧ prot'.flips = s.prot.flips ∧ tsb'.orbit =
    s.tsb.orbit ∧ tsb'.crossing = s.tsb.crossing ∧ tsb'.slot = s.tsb.slot ∧ tsb'.cx = s.tsb.cx ∧ tsb'.tick = s.tsb.tick) : Still
    s₀ ⟨s.regs, regs0', tasks0', s.mem, ports', tsb', s.cells, link', linkB', line1', line2', held', leaves', dec', decPins',
    sortWrites', s.sorters, merge', s.lanes, s.queues, s.engines, dpt', s.readout, s.drz, net', flash', boot', commits', adm',
    acc', s.reloads, sectorResets', prot', pwr', s.fuses, hlm', mgt', powered', testMode', vfuse', free', s.pending⟩ := h.of_eq
    rfl rfl rfl rfl rfl rfl rfl rfl rfl e.1 e.2.1 rfl e.2.2.1 rfl rfl e.2.2.2.1 e.2.2.2.2.1 e.2.2.2.2.2.1 e.2.2.2.2.2.2.1
    e.2.2.2.2.2.2.2

theorem Keeps.updAny {s₀ s : State} {regs0' : Tbl W32} {tasks0' : Tbl TaskSt} {ports' : Ports} {tsb' : Tsb} {link' : Tbl (Option
    FWord)} {linkB' : Tbl (Option FWord)} {line1' : Tbl FWord} {line2' : Tbl FWord} {held' : Tbl FWord} {leaves' : Tbl (Nat ×
    Nat)} {dec' : List DecPres} {decPins' : BitVec 16} {sortWrites' : List SortWrite} {merge' : Sorter} {dpt' : Dpt} {net' :
    Net} {flash' : Flash} {boot' : Boot} {commits' : List RecordReq} {adm' : Adm} {acc' : Acc} {sectorResets' : List (Nat ×
    Nat)} {prot' : Prot} {pwr' : Pwr} {hlm' : Hlm} {mgt' : Mgt} {powered' : Bool} {testMode' : Bool} {vfuse' : Bool} {free' :
    Nat} (h : Keeps s₀ s) (e : dpt'.tasks = s.dpt.tasks ∧ dpt'.eng = s.dpt.eng ∧ prot'.flips = s.prot.flips) : Keeps s₀ ⟨s.regs,
    regs0', tasks0', s.mem, ports', tsb', s.cells, link', linkB', line1', line2', held', leaves', dec', decPins', sortWrites',
    s.sorters, merge', s.lanes, s.queues, s.engines, dpt', s.readout, s.drz, net', flash', boot', commits', adm', acc',
    s.reloads, sectorResets', prot', pwr', s.fuses, hlm', mgt', powered', testMode', vfuse', free', s.pending⟩ := h.of_eq rfl
    rfl rfl rfl rfl rfl rfl rfl rfl e.1 e.2.1 rfl e.2.2 rfl rfl

/-! ### End updates -/
theorem Still.ite {s₀ a b : State} {c : Prop} [Decidable c] (ha : Still s₀ a) (hb : Still s₀ b) :
    Still s₀ (if c then a else b) := by split <;> assumption

theorem Keeps.ite {s₀ a b : State} {c : Prop} [Decidable c] (ha : Keeps s₀ a) (hb : Keeps s₀ b) :
    Keeps s₀ (if c then a else b) := by split <;> assumption

theorem Still.foldl {α : Type} {s₀ s : State} {f : State → α → State} {l : List α} (h : Still s₀ s)
    (hf : ∀ s x, Still s₀ s → Still s₀ (f s x)) : Still s₀ (l.foldl f s) := by
  induction l generalizing s with
  | nil => exact h
  | cons x l ih => exact ih (hf s x h)

theorem Keeps.foldl {α : Type} {s₀ s : State} {f : State → α → State} {l : List α} (h : Keeps s₀ s)
    (hf : ∀ s x, Keeps s₀ s → Keeps s₀ (f s x)) : Keeps s₀ (l.foldl f s) := by
  induction l generalizing s with
  | nil => exact h
  | cons x l ih => exact ih (hf s x h)

theorem Still.foldlP {α β : Type} {s₀ : State} {p : State × β} {f : State × β → α → State × β} {l : List α} (h : Still s₀ p.1)
    (hf : ∀ p x, Still s₀ p.1 → Still s₀ (f p x).1) : Still s₀ (l.foldl f p).1 := by
  induction l generalizing p with
  | nil => exact h
  | cons x l ih => exact ih (hf p x h)

theorem Keeps.foldlP {α β : Type} {s₀ : State} {p : State × β} {f : State × β → α → State × β} {l : List α} (h : Keeps s₀ p.1)
    (hf : ∀ p x, Keeps s₀ p.1 → Keeps s₀ (f p x).1) : Keeps s₀ (l.foldl f p).1 := by
  induction l generalizing p with
  | nil => exact h
  | cons x l ih => exact ih (hf p x h)

theorem Still.iteP {β : Type} {s₀ : State} {a b : State × β} {c : Prop} [Decidable c] (ha : Still s₀ a.1) (hb : Still s₀ b.1) :
    Still s₀ (if c then a else b).1 := by split <;> assumption
theorem Keeps.iteP {β : Type} {s₀ : State} {a b : State × β} {c : Prop} [Decidable c] (ha : Keeps s₀ a.1) (hb : Keeps s₀ b.1) :
    Keeps s₀ (if c then a else b).1 := by split <;> assumption

/-- The state a command answers, if it answers one, is reached quietly. -/
structure StillO (s : State) (o : Host.Outcome State Fault Refusal) : Prop where
  out : ∀ t, o = .next t → Still s t
/-- The state a command answers, if it answers one, keeps what every command keeps. -/
structure KeepsO (s : State) (o : Host.Outcome State Fault Refusal) : Prop where
  out : ∀ t, o = .next t → Keeps s t

theorem StillO.go {s₀ s : State} (h : Still s₀ s) : StillO s₀ s.go := by
  constructor; intro t e; simp only [State.go, Host.Outcome.next.injEq] at e; exact e ▸ h
theorem KeepsO.go {s₀ s : State} (h : Keeps s₀ s) : KeepsO s₀ s.go := by
  constructor; intro t e; simp only [State.go, Host.Outcome.next.injEq] at e; exact e ▸ h
theorem StillO.keeps {s : State} {o : Host.Outcome State Fault Refusal} (h : StillO s o) : KeepsO s o :=
  ⟨fun t e => (h.out t e).toKeeps⟩
theorem StillO.ite {s₀ : State} {a b : Host.Outcome State Fault Refusal} {c : Prop} [Decidable c] (ha : StillO s₀ a)
    (hb : StillO s₀ b) : StillO s₀ (if c then a else b) := by split <;> assumption
theorem KeepsO.ite {s₀ : State} {a b : Host.Outcome State Fault Refusal} {c : Prop} [Decidable c] (ha : KeepsO s₀ a)
    (hb : KeepsO s₀ b) : KeepsO s₀ (if c then a else b) := by split <;> assumption

/-- After what a command keeps, a quiet change. -/
theorem Keeps.of_still {s₀ s t : State} (h : Keeps s₀ s) (k : Still s t) : Keeps s₀ t := h.trans k.toKeeps

/-- The state after reset has its form. -/
theorem State.reset_inv : State.reset.Inv :=
  ⟨rfl, rfl, rfl, rfl, rfl, rfl, rfl, rfl, rfl, rfl, rfl, rfl, rfl, fun _ => Nat.zero_le _⟩

/-! ### The operations of Machine/Ops.lean -/

namespace State
variable {s₀ s : State}

theorem setReg_still (h : Still s₀ s) (a : Nat) (w : W32) : Still s₀ (s.setReg a w) :=
  h.of_inv (fun i => { i with regs := Tbl.wfBy_set i.regs }) rfl rfl rfl
theorem modReg_still (h : Still s₀ s) (a : Nat) (f : W32 → W32) : Still s₀ (s.modReg a f) := setReg_still h _ _
theorem setFld_still (h : Still s₀ s) (a hi lo v : Nat) : Still s₀ (s.setFld a hi lo v) := modReg_still h _ _
theorem setBit_still (h : Still s₀ s) (a i : Nat) (b : Bool) : Still s₀ (s.setBit a i b) := setFld_still h _ _ _ _
theorem count_still (h : Still s₀ s) (a hi lo k : Nat) : Still s₀ (s.count a hi lo k) := setFld_still h _ _ _ _
theorem setByte_still (h : Still s₀ s) (a : Nat) (b : Byte) : Still s₀ (s.setByte a b) :=
  h.of_inv (fun i => { i with mem := Tbl.wf_set i.mem }) rfl rfl rfl
theorem setLe_still (h : Still s₀ s) (a n v : Nat) : Still s₀ (s.setLe a n v) := by
  induction n generalizing s a v with
  | zero => exact h
  | succ n ih => exact ih (setByte_still h _ _) _ _
theorem setHalf_still (h : Still s₀ s) (a : Nat) (v : W16) : Still s₀ (s.setHalf a v) := setLe_still h _ _ _
theorem setBytes_still (h : Still s₀ s) (a : Nat) (b : List Byte) : Still s₀ (s.setBytes a b) := by
  induction b generalizing s a with
  | nil => exact h
  | cons x b ih => exact ih (setByte_still h _ _) _
theorem setTsbState_still (h : Still s₀ s) (x : TsbState) : Still s₀ (s.setTsbState x) := setFld_still h _ _ _ _
theorem setSecPower_still (h : Still s₀ s) (k v : Nat) : Still s₀ (s.setSecPower k v) := setFld_still h _ _ _ _
theorem fault_still (h : Still s₀ s) (i : Nat) : Still s₀ (s.fault i) := setBit_still h _ _ _
theorem draw_still (h : Still s₀ s) : Still s₀ s.draw.2 :=
  h.of_eq rfl rfl rfl rfl rfl rfl rfl rfl rfl rfl rfl rfl rfl rfl rfl rfl rfl rfl rfl rfl
theorem setCell_still (h : Still s₀ s) (c : Nat) (v : CellSt) : Still s₀ (s.setCell c v) :=
  h.of_inv (fun i => { i with cells := Tbl.wf_set i.cells }) rfl rfl rfl
theorem setEng_still (h : Still s₀ s) (c : Nat) (v : EngSt) : Still s₀ (s.setEng c v) :=
  h.of_inv (fun i => { i with engines := Tbl.wf_set i.engines }) rfl rfl rfl
theorem setTask_still (h : Still s₀ s) (c : Nat) (v : TaskSt) : Still s₀ (s.setTask c v) :=
  h.of_inv (fun i => { i with tasks := Tbl.wf_set i.tasks }) rfl rfl rfl
theorem setEngDpt_still (h : Still s₀ s) (c : Nat) (v : EngDpt) : Still s₀ (s.setEngDpt c v) :=
  h.of_inv (fun i => { i with engDpt := Tbl.wf_set i.engDpt }) rfl rfl rfl
theorem setSorter_still (h : Still s₀ s) (c : Nat) (v : Sorter) : Still s₀ (s.setSorter c v) :=
  h.of_inv (fun i => { i with sorters := Tbl.wf_set i.sorters }) rfl rfl rfl
theorem setRo_still (h : Still s₀ s) (c : Nat) (v : Readout) : Still s₀ (s.setRo c v) :=
  h.of_inv (fun i => { i with readout := Tbl.wf_set i.readout }) rfl rfl rfl
theorem setDrz_still (h : Still s₀ s) (c : Nat) (v : Drz) : Still s₀ (s.setDrz c v) :=
  h.of_inv (fun i => { i with drz := Tbl.wf_set i.drz }) rfl rfl rfl
theorem setLane_still (h : Still s₀ s) (c : Nat) (v : LaneSt) : Still s₀ (s.setLane c v) :=
  h.of_inv (fun i => { i with lanes := Tbl.wf_set i.lanes }) rfl rfl rfl
/-- A write of a queue keeps the form where the queue written holds at most 8 stages when the one before it does. -/
theorem setQueue_still (h : Still s₀ s) (q : Nat) (v : Queue)
    (hv : (∀ q, (s.queue q).stages.length ≤ 8) → v.stages.length ≤ 8) : Still s₀ (s.setQueue q v) := by
  refine h.of_inv (fun i => { i with queues := Tbl.wf_set i.queues, stages := fun k => ?_ }) rfl rfl rfl
  simp only [State.queue, State.setQueue]
  rcases Nat.decEq k q with hk | hk
  · rw [Tbl.get_set_of_ne (Tbl.wf_rising i.queues) hk]; exact i.stages k
  · subst hk; rw [Tbl.get_set_self (Tbl.wf_rising i.queues)]; exact hv i.stages
theorem creditsReset_still (h : Still s₀ s) (f : Nat → Bool) : Still s₀ (s.creditsReset f) :=
  h.of_eq rfl rfl rfl rfl rfl rfl rfl rfl rfl rfl rfl rfl rfl rfl rfl rfl rfl rfl rfl rfl
theorem slotBegins_still (h : Still s₀ s) : Still s₀ s.slotBegins := h.upd
theorem trigger_still (h : Still s₀ s) (t : AdmTrigger) : Still s₀ (s.trigger t) :=
  (setFld_still h _ _ _ _).of_eq rfl rfl rfl rfl rfl rfl rfl rfl rfl rfl rfl rfl rfl rfl rfl rfl rfl rfl rfl rfl

end State
end Sys2Proof.Machine
end

