-- ==== Sys2Proof/Laws/KeepsProt.lean ====
section
/-!
SUPPORT. Sys2Proof/Laws/KeepsProt.lean: every operation of Machine/Prot.lean leaves standing what Laws/Keeps.lean says.
-/
set_option linter.unusedTactic false
set_option linter.unreachableTactic false
namespace Sys2Proof.Machine

theorem State.setFlips_still {s₀ s : State} (h : Still s₀ s) (k : Nat) (b : BitVec 72) : Still s₀ (State.setFlips s k b) := h.of_inv (fun i => { i with flips := Tbl.wf_set i.flips }) rfl rfl rfl

theorem State.rptPlace_still {s₀ s : State} (h : Still s₀ s) (i : Nat) (k : Nat) (b : Nat) : Still s₀ (State.rptPlace s i k b) := by
  unfold State.rptPlace
  try dsimp only
  repeat' first | with_reducible assumption | with_reducible refine Still.ite ?_ ?_ | with_reducible refine Still.foldl ?_ ?_ | with_reducible refine Still.iteP ?_ ?_ | with_reducible refine Still.foldlP ?_ ?_ | (intro _; intros; try dsimp only) | with_reducible apply State.setReg_still | fail_if_no_progress with_reducible refine Still.upd ?_ | fail_if_no_progress with_reducible refine Still.updProt ?_ | fail_if_no_progress with_reducible refine Still.updAny ?_ ⟨rfl, rfl, rfl, rfl, rfl, rfl, rfl, rfl⟩ | with_reducible apply Still.filterMem | with_reducible apply Still.filterRegs | split

theorem State.rewriteDue_still {s₀ s : State} (h : Still s₀ s) (k : Nat) : Still s₀ (State.rewriteDue s k) := by
  unfold State.rewriteDue
  try dsimp only
  repeat' first | with_reducible assumption | with_reducible refine Still.ite ?_ ?_ | with_reducible refine Still.foldl ?_ ?_ | with_reducible refine Still.iteP ?_ ?_ | with_reducible refine Still.foldlP ?_ ?_ | (intro _; intros; try dsimp only) | fail_if_no_progress with_reducible refine Still.upd ?_ | fail_if_no_progress with_reducible refine Still.updProt ?_ | fail_if_no_progress with_reducible refine Still.updAny ?_ ⟨rfl, rfl, rfl, rfl, rfl, rfl, rfl, rfl⟩ | split

theorem State.rptOffer_still {s₀ s : State} (h : Still s₀ s) (k : Nat) (b : Nat) : Still s₀ (State.rptOffer s k b) := by
  unfold State.rptOffer
  try dsimp only
  repeat' first | with_reducible assumption | with_reducible refine Still.ite ?_ ?_ | with_reducible refine Still.foldl ?_ ?_ | with_reducible refine Still.iteP ?_ ?_ | with_reducible refine Still.foldlP ?_ ?_ | (intro _; intros; try dsimp only) | with_reducible apply State.setFld_still | with_reducible apply State.setBit_still | with_reducible apply State.count_still | with_reducible apply State.rptPlace_still | with_reducible apply State.rewriteDue_still | fail_if_no_progress with_reducible refine Still.upd ?_ | fail_if_no_progress with_reducible refine Still.updProt ?_ | fail_if_no_progress with_reducible refine Still.updAny ?_ ⟨rfl, rfl, rfl, rfl, rfl, rfl, rfl, rfl⟩ | with_reducible apply Still.filterMem | with_reducible apply Still.filterRegs | split

theorem State.corrected_still {s₀ s : State} (h : Still s₀ s) (k : Nat) : Still s₀ (State.corrected s k) := by
  unfold State.corrected
  try dsimp only
  repeat' first | with_reducible assumption | with_reducible refine Still.ite ?_ ?_ | with_reducible refine Still.foldl ?_ ?_ | with_reducible refine Still.iteP ?_ ?_ | with_reducible refine Still.foldlP ?_ ?_ | (intro _; intros; try dsimp only) | with_reducible apply State.setBit_still | with_reducible apply State.count_still | with_reducible apply State.rptOffer_still | split

theorem State.correctedBy_still {s₀ s : State} (h : Still s₀ s) (k : Nat) (f : Found) : Still s₀ (State.correctedBy s k f) := by
  unfold State.correctedBy
  try dsimp only
  repeat' first | with_reducible assumption | with_reducible refine Still.ite ?_ ?_ | with_reducible refine Still.foldl ?_ ?_ | with_reducible refine Still.iteP ?_ ?_ | with_reducible refine Still.foldlP ?_ ?_ | (intro _; intros; try dsimp only) | with_reducible apply State.corrected_still | fail_if_no_progress with_reducible refine Still.upd ?_ | split

theorem State.uncorrectable_still {s₀ s : State} (h : Still s₀ s) (k : Nat) (f : Found) : Still s₀ (State.uncorrectable s k f) := by
  unfold State.uncorrectable
  try dsimp only
  repeat' first | with_reducible assumption | with_reducible refine Still.ite ?_ ?_ | with_reducible refine Still.foldl ?_ ?_ | with_reducible refine Still.iteP ?_ ?_ | with_reducible refine Still.foldlP ?_ ?_ | (intro _; intros; try dsimp only) | with_reducible apply State.setReg_still | with_reducible apply State.setBit_still | with_reducible apply State.count_still | with_reducible apply State.fault_still | fail_if_no_progress with_reducible refine Still.upd ?_ | fail_if_no_progress with_reducible refine Still.updProt ?_ | fail_if_no_progress with_reducible refine Still.updAny ?_ ⟨rfl, rfl, rfl, rfl, rfl, rfl, rfl, rfl⟩ | with_reducible apply Still.filterMem | with_reducible apply Still.filterRegs | split

theorem State.readRow_still {s₀ s : State} (h : Still s₀ s) (k : Nat) (f : Found) : Still s₀ (State.readRow s k f).1 := by
  unfold State.readRow
  try dsimp only
  repeat' first | with_reducible assumption | with_reducible refine Still.ite ?_ ?_ | with_reducible refine Still.foldl ?_ ?_ | with_reducible refine Still.iteP ?_ ?_ | with_reducible refine Still.foldlP ?_ ?_ | (intro _; intros; try dsimp only) | with_reducible apply State.correctedBy_still | with_reducible apply State.uncorrectable_still | split

theorem State.read_still {s₀ s : State} (h : Still s₀ s) (a : Nat) (n : Nat) (f : Found) : Still s₀ (State.read s a n f).1 := by
  unfold State.read
  try dsimp only
  repeat' first | with_reducible assumption | with_reducible refine Still.ite ?_ ?_ | with_reducible refine Still.foldl ?_ ?_ | with_reducible refine Still.iteP ?_ ?_ | with_reducible refine Still.foldlP ?_ ?_ | (intro _; intros; try dsimp only) | with_reducible apply State.readRow_still | split

theorem State.afterWrite_still {s₀ s : State} (h : Still s₀ s) (k : Nat) : Still s₀ (State.afterWrite s k) := by
  unfold State.afterWrite
  try dsimp only
  repeat' first | with_reducible assumption | with_reducible refine Still.ite ?_ ?_ | with_reducible refine Still.foldl ?_ ?_ | with_reducible refine Still.iteP ?_ ?_ | with_reducible refine Still.foldlP ?_ ?_ | (intro _; intros; try dsimp only) | with_reducible apply State.draw_still | with_reducible apply State.setFlips_still | fail_if_no_progress with_reducible refine Still.upd ?_ | fail_if_no_progress with_reducible refine Still.updProt ?_ | fail_if_no_progress with_reducible refine Still.updAny ?_ ⟨rfl, rfl, rfl, rfl, rfl, rfl, rfl, rfl⟩ | with_reducible apply Still.filterMem | with_reducible apply Still.filterRegs | split

theorem State.rowWritten_still {s₀ s : State} (h : Still s₀ s) (k : Nat) : Still s₀ (State.rowWritten s k) := by
  unfold State.rowWritten
  try dsimp only
  repeat' first | with_reducible assumption | with_reducible refine Still.ite ?_ ?_ | with_reducible refine Still.foldl ?_ ?_ | with_reducible refine Still.iteP ?_ ?_ | with_reducible refine Still.foldlP ?_ ?_ | (intro _; intros; try dsimp only) | with_reducible apply State.rptOffer_still | with_reducible apply State.afterWrite_still | fail_if_no_progress with_reducible refine Still.upd ?_ | fail_if_no_progress with_reducible refine Still.updProt ?_ | fail_if_no_progress with_reducible refine Still.updAny ?_ ⟨rfl, rfl, rfl, rfl, rfl, rfl, rfl, rfl⟩ | with_reducible apply Still.filterMem | with_reducible apply Still.filterRegs | split

theorem State.storeRow_still {s₀ s : State} (h : Still s₀ s) (a : Nat) (bytes : List Byte) : Still s₀ (State.storeRow s a bytes) := by
  unfold State.storeRow
  try dsimp only
  repeat' first | with_reducible assumption | with_reducible refine Still.ite ?_ ?_ | with_reducible refine Still.foldl ?_ ?_ | with_reducible refine Still.iteP ?_ ?_ | with_reducible refine Still.foldlP ?_ ?_ | (intro _; intros; try dsimp only) | with_reducible apply State.setBytes_still | with_reducible apply State.setFlips_still | with_reducible apply State.readRow_still | with_reducible apply State.rowWritten_still | fail_if_no_progress with_reducible refine Still.upd ?_ | split

theorem State.store_still {s₀ s : State} (h : Still s₀ s) (a : Nat) (bytes : List Byte) : Still s₀ (State.store s a bytes) := by
  unfold State.store
  try dsimp only
  repeat' first | with_reducible assumption | with_reducible refine Still.ite ?_ ?_ | with_reducible refine Still.foldl ?_ ?_ | with_reducible refine Still.iteP ?_ ?_ | with_reducible refine Still.foldlP ?_ ?_ | (intro _; intros; try dsimp only) | with_reducible apply State.setBytes_still | with_reducible apply State.storeRow_still | split

theorem State.storeLe_still {s₀ s : State} (h : Still s₀ s) (a : Nat) (n : Nat) (v : Nat) : Still s₀ (State.storeLe s a n v) := by
  unfold State.storeLe
  try dsimp only
  repeat' first | with_reducible assumption | with_reducible refine Still.ite ?_ ?_ | with_reducible refine Still.foldl ?_ ?_ | with_reducible refine Still.iteP ?_ ?_ | with_reducible refine Still.foldlP ?_ ?_ | (intro _; intros; try dsimp only) | with_reducible apply State.store_still | split

theorem State.storeHalf_still {s₀ s : State} (h : Still s₀ s) (a : Nat) (v : W16) : Still s₀ (State.storeHalf s a v) := by
  unfold State.storeHalf
  try dsimp only
  repeat' first | with_reducible assumption | with_reducible refine Still.ite ?_ ?_ | with_reducible refine Still.foldl ?_ ?_ | with_reducible refine Still.iteP ?_ ?_ | with_reducible refine Still.foldlP ?_ ?_ | (intro _; intros; try dsimp only) | with_reducible apply State.store_still | split

theorem State.noteFixed_still {s₀ s : State} (h : Still s₀ s) (a : Nat) (n : Nat) : Still s₀ (State.noteFixed s a n) := by
  unfold State.noteFixed
  try dsimp only
  repeat' first | with_reducible assumption | with_reducible refine Still.ite ?_ ?_ | with_reducible refine Still.foldl ?_ ?_ | with_reducible refine Still.iteP ?_ ?_ | with_reducible refine Still.foldlP ?_ ?_ | (intro _; intros; try dsimp only) | fail_if_no_progress with_reducible refine Still.upd ?_ | split

theorem State.noteSecond_still {s₀ s : State} (h : Still s₀ s) (a : Nat) (n : Nat) : Still s₀ (State.noteSecond s a n) := by
  unfold State.noteSecond
  try dsimp only
  repeat' first | with_reducible assumption | with_reducible refine Still.ite ?_ ?_ | with_reducible refine Still.foldl ?_ ?_ | with_reducible refine Still.iteP ?_ ?_ | with_reducible refine Still.foldlP ?_ ?_ | (intro _; intros; try dsimp only) | fail_if_no_progress with_reducible refine Still.upd ?_ | split

theorem State.noteRead_still {s₀ s : State} (h : Still s₀ s) (t : Nat) : Still s₀ (State.noteRead s t) := by
  unfold State.noteRead
  try dsimp only
  repeat' first | with_reducible assumption | with_reducible refine Still.ite ?_ ?_ | with_reducible refine Still.foldl ?_ ?_ | with_reducible refine Still.iteP ?_ ?_ | with_reducible refine Still.foldlP ?_ ?_ | (intro _; intros; try dsimp only) | fail_if_no_progress with_reducible refine Still.upd ?_ | split

theorem State.noteWrite_still {s₀ s : State} (h : Still s₀ s) (t : Nat) : Still s₀ (State.noteWrite s t) := by
  unfold State.noteWrite
  try dsimp only
  repeat' first | with_reducible assumption | with_reducible refine Still.ite ?_ ?_ | with_reducible refine Still.foldl ?_ ?_ | with_reducible refine Still.iteP ?_ ?_ | with_reducible refine Still.foldlP ?_ ?_ | (intro _; intros; try dsimp only) | fail_if_no_progress with_reducible refine Still.upd ?_ | split

theorem State.storeFirst_still {s₀ s : State} (h : Still s₀ s) (a : Nat) (v : W16) : Still s₀ (State.storeFirst s a v) := by
  unfold State.storeFirst
  try dsimp only
  repeat' first | with_reducible assumption | with_reducible refine Still.ite ?_ ?_ | with_reducible refine Still.foldl ?_ ?_ | with_reducible refine Still.iteP ?_ ?_ | with_reducible refine Still.foldlP ?_ ?_ | (intro _; intros; try dsimp only) | with_reducible apply State.store_still | with_reducible apply State.noteFixed_still | split

theorem State.injArm_still {s₀ s : State} (h : Still s₀ s) (w : W32) : Still s₀ (State.injArm s w) := by
  unfold State.injArm
  try dsimp only
  repeat' first | with_reducible assumption | with_reducible refine Still.ite ?_ ?_ | with_reducible refine Still.foldl ?_ ?_ | with_reducible refine Still.iteP ?_ ?_ | with_reducible refine Still.foldlP ?_ ?_ | (intro _; intros; try dsimp only) | fail_if_no_progress with_reducible refine Still.upd ?_ | fail_if_no_progress with_reducible refine Still.updProt ?_ | fail_if_no_progress with_reducible refine Still.updAny ?_ ⟨rfl, rfl, rfl, rfl, rfl, rfl, rfl, rfl⟩ | split

theorem execInjectionArm_still (w : W32) (s : State) : StillO s (execInjectionArm w s) := by
  unfold execInjectionArm
  try dsimp only
  repeat' first | with_reducible assumption | with_reducible refine StillO.go ?_ | with_reducible refine StillO.ite ?_ ?_ | with_reducible exact Still.refl _ | with_reducible refine Still.ite ?_ ?_ | with_reducible refine Still.foldl ?_ ?_ | with_reducible refine Still.iteP ?_ ?_ | with_reducible refine Still.foldlP ?_ ?_ | (intro _; intros; try dsimp only) | with_reducible apply State.injArm_still | split

theorem State.event_still {s₀ s : State} (h : Still s₀ s) (ecode : Nat) (object : Nat) : Still s₀ (State.event s ecode object) := by
  unfold State.event
  try dsimp only
  repeat' first | with_reducible assumption | with_reducible refine Still.ite ?_ ?_ | with_reducible refine Still.foldl ?_ ?_ | with_reducible refine Still.iteP ?_ ?_ | with_reducible refine Still.foldlP ?_ ?_ | (intro _; intros; try dsimp only) | fail_if_no_progress with_reducible refine Still.upd ?_ | split

end Sys2Proof.Machine
end

