-- ==== Sys2Proof/Laws/KeepsQueues.lean ====
section
/-!
SUPPORT. Sys2Proof/Laws/KeepsQueues.lean: every operation of Machine/Queues.lean leaves standing what Laws/Keeps.lean says.
-/
set_option linter.unusedTactic false
set_option linter.unreachableTactic false
namespace Sys2Proof.Machine

/-! ### The 8 stages (R179) -/

theorem Queue.landMarker_length {q : Queue} (h : q.stages.length ≤ 8) : q.landMarker.stages.length ≤ 8 := by
  unfold Queue.landMarker
  split
  · simp; omega
  · exact h

theorem Queue.settle_length {q : Queue} {t : Nat} (h : q.stages.length ≤ 8) : (q.settle t).stages.length ≤ 8 := by
  unfold Queue.settle
  split
  · exact h
  · exact landMarker_length h

theorem Queue.pop_length {q : Queue} {t : Nat} (h : q.stages.length ≤ 8) : (q.pop t).1.stages.length ≤ 8 := by
  have w : (q.waits t).length ≤ q.stages.length := by unfold Queue.waits; split <;> simp
  unfold Queue.pop
  split
  · exact h
  · rename_i e; rw [e] at w; simp at w ⊢; omega

theorem Queue.push_length {q : Queue} {t : Nat} {w : FWord} (h : q.stages.length ≤ 8) :
    (q.push t w).1.stages.length ≤ 8 := by
  by_cases h1 : q.stages.length + (if q.pend then 1 else 0) < 8
  · have h2 : (q.push t w).1.stages.length ≤ q.stages.length + (if q.pend then 1 else 0) + 1 := by
      simp only [Queue.push, h1, if_true, Queue.land, Queue.landMarker]
      by_cases hp : q.pend = true
      · have : q.stages.length < 8 := by simp [hp] at h1; omega
        simp [hp, this]
      · simp [hp]
    omega
  · simpa [Queue.push, h1] using h

theorem Queue.land_length {q : Queue} {w : FWord} (h : q.free = true) : (q.land w).stages.length ≤ 8 := by
  simp [Queue.free] at h
  simp [Queue.land]
  omega

theorem State.queueReset_still {s₀ s : State} (h : Still s₀ s) (q : Nat) : Still s₀ (State.queueReset s q) := by
  unfold State.queueReset
  try dsimp only
  repeat' first | with_reducible assumption | exact fun i => i _ | exact fun i => Queue.settle_length (i _) | exact fun i => Queue.pop_length (Queue.settle_length (i _)) | exact fun i => Queue.push_length (Queue.settle_length (i _)) | exact fun i => Queue.landMarker_length (i _) | exact fun _ => Nat.zero_le _ | exact fun _ => (by decide : 1 ≤ 8) | exact Nat.zero_le _ | exact (by decide : 1 ≤ 8) | with_reducible refine Still.ite ?_ ?_ | with_reducible refine Still.foldl ?_ ?_ | with_reducible refine Still.iteP ?_ ?_ | with_reducible refine Still.foldlP ?_ ?_ | (intro _; intros; try dsimp only) | with_reducible apply State.setQueue_still | split

theorem State.queueDrop_still {s₀ s : State} (h : Still s₀ s) (q : Nat) : Still s₀ (State.queueDrop s q) := by
  unfold State.queueDrop
  try dsimp only
  repeat' first | with_reducible assumption | exact fun i => i _ | exact fun i => Queue.settle_length (i _) | exact fun i => Queue.pop_length (Queue.settle_length (i _)) | exact fun i => Queue.push_length (Queue.settle_length (i _)) | exact fun i => Queue.landMarker_length (i _) | exact fun _ => Nat.zero_le _ | exact fun _ => (by decide : 1 ≤ 8) | exact Nat.zero_le _ | exact (by decide : 1 ≤ 8) | with_reducible refine Still.ite ?_ ?_ | with_reducible refine Still.foldl ?_ ?_ | with_reducible refine Still.iteP ?_ ?_ | with_reducible refine Still.foldlP ?_ ?_ | (intro _; intros; try dsimp only) | with_reducible apply State.setQueue_still | fail_if_no_progress with_reducible refine Still.upd ?_ | split

theorem State.queuePop_still {s₀ s : State} (h : Still s₀ s) (q : Nat) : Still s₀ (State.queuePop s q).1 := by
  unfold State.queuePop
  try dsimp only
  repeat' first | with_reducible assumption | exact fun i => i _ | exact fun i => Queue.settle_length (i _) | exact fun i => Queue.pop_length (Queue.settle_length (i _)) | exact fun i => Queue.push_length (Queue.settle_length (i _)) | exact fun i => Queue.landMarker_length (i _) | exact fun _ => Nat.zero_le _ | exact fun _ => (by decide : 1 ≤ 8) | exact Nat.zero_le _ | exact (by decide : 1 ≤ 8) | with_reducible refine Still.ite ?_ ?_ | with_reducible refine Still.foldl ?_ ?_ | with_reducible refine Still.iteP ?_ ?_ | with_reducible refine Still.foldlP ?_ ?_ | (intro _; intros; try dsimp only) | with_reducible apply State.setBit_still | with_reducible apply State.count_still | with_reducible apply State.setQueue_still | fail_if_no_progress with_reducible refine Still.upd ?_ | split

theorem State.queuePush_still {s₀ s : State} (h : Still s₀ s) (q : Nat) (w : FWord) : Still s₀ (State.queuePush s q w) := by
  unfold State.queuePush
  dsimp only
  split
  · split
    · rename_i h1
      refine State.setQueue_still h _ _ (fun _ => ?_)
      simp [Queue.land]
      omega
    · refine State.count_still (State.setQueue_still h _ _ ?_) _ _ _ _
      exact fun i => Queue.settle_length (i _)
  · split
    · exact State.setQueue_still h _ _ (fun i => Queue.push_length (Queue.settle_length (i _)))
    · exact State.count_still (State.setBit_still (State.setQueue_still h _ _
        (fun i => Queue.push_length (Queue.settle_length (i _)))) _ _ _) _ _ _ _

theorem State.postItem_still {s₀ s : State} (h : Still s₀ s) (q : Nat) (item : List W16) : Still s₀ (State.postItem s q item) := by
  unfold State.postItem
  try dsimp only
  repeat' first | with_reducible assumption | with_reducible refine Still.ite ?_ ?_ | with_reducible refine Still.foldl ?_ ?_ | with_reducible refine Still.iteP ?_ ?_ | with_reducible refine Still.foldlP ?_ ?_ | (intro _; intros; try dsimp only) | fail_if_no_progress with_reducible refine Still.upd ?_ | fail_if_no_progress with_reducible refine Still.updDpt ?_ | fail_if_no_progress with_reducible refine Still.updAny ?_ ⟨rfl, rfl, rfl, rfl, rfl, rfl, rfl, rfl⟩ | split

theorem State.postUnit_still {s₀ s : State} (h : Still s₀ s) (q : Nat) (w : FWord) : Still s₀ (State.postUnit s q w) := by
  unfold State.postUnit
  try dsimp only
  repeat' first | with_reducible assumption | exact fun i => i _ | exact fun i => Queue.settle_length (i _) | exact fun i => Queue.pop_length (Queue.settle_length (i _)) | exact fun i => Queue.push_length (Queue.settle_length (i _)) | exact fun i => Queue.landMarker_length (i _) | exact fun _ => Nat.zero_le _ | exact fun _ => (by decide : 1 ≤ 8) | exact Nat.zero_le _ | exact (by decide : 1 ≤ 8) | with_reducible refine Still.ite ?_ ?_ | with_reducible refine Still.foldl ?_ ?_ | with_reducible refine Still.iteP ?_ ?_ | with_reducible refine Still.foldlP ?_ ?_ | (intro _; intros; try dsimp only) | with_reducible apply State.count_still | with_reducible apply State.setQueue_still | with_reducible apply State.postItem_still | fail_if_no_progress with_reducible refine Still.upd ?_ | split

theorem execQueuePush_still (q : QueueNo) (s : State) : StillO s (execQueuePush q s) := by
  unfold execQueuePush
  try dsimp only
  repeat' first | with_reducible assumption | exact fun i => i _ | exact fun i => Queue.settle_length (i _) | exact fun i => Queue.pop_length (Queue.settle_length (i _)) | exact fun i => Queue.push_length (Queue.settle_length (i _)) | exact fun i => Queue.landMarker_length (i _) | exact fun _ => Nat.zero_le _ | exact fun _ => (by decide : 1 ≤ 8) | exact Nat.zero_le _ | exact (by decide : 1 ≤ 8) | with_reducible refine StillO.go ?_ | with_reducible refine StillO.ite ?_ ?_ | with_reducible exact Still.refl _ | with_reducible refine Still.ite ?_ ?_ | with_reducible refine Still.foldl ?_ ?_ | with_reducible refine Still.iteP ?_ ?_ | with_reducible refine Still.foldlP ?_ ?_ | (intro _; intros; try dsimp only) | with_reducible apply State.setQueue_still | with_reducible apply State.queuePush_still | fail_if_no_progress with_reducible refine Still.upd ?_ | split

theorem execQueuePop_still (q : QueueNo) (s : State) : StillO s (execQueuePop q s) := by
  unfold execQueuePop
  try dsimp only
  repeat' first | with_reducible assumption | exact fun i => i _ | exact fun i => Queue.settle_length (i _) | exact fun i => Queue.pop_length (Queue.settle_length (i _)) | exact fun i => Queue.push_length (Queue.settle_length (i _)) | exact fun i => Queue.landMarker_length (i _) | exact fun _ => Nat.zero_le _ | exact fun _ => (by decide : 1 ≤ 8) | exact Nat.zero_le _ | exact (by decide : 1 ≤ 8) | with_reducible refine StillO.go ?_ | with_reducible refine StillO.ite ?_ ?_ | with_reducible exact Still.refl _ | with_reducible refine Still.ite ?_ ?_ | with_reducible refine Still.foldl ?_ ?_ | with_reducible refine Still.iteP ?_ ?_ | with_reducible refine Still.foldlP ?_ ?_ | (intro _; intros; try dsimp only) | with_reducible apply State.setQueue_still | with_reducible apply State.queuePop_still | with_reducible apply State.postUnit_still | fail_if_no_progress with_reducible refine Still.upd ?_ | split

theorem execMarkGapLand_still (q : QueueNo) (s : State) : StillO s (execMarkGapLand q s) := by
  unfold execMarkGapLand
  try dsimp only
  repeat' first | with_reducible assumption | exact fun i => i _ | exact fun i => Queue.settle_length (i _) | exact fun i => Queue.pop_length (Queue.settle_length (i _)) | exact fun i => Queue.push_length (Queue.settle_length (i _)) | exact fun i => Queue.landMarker_length (i _) | exact fun _ => Nat.zero_le _ | exact fun _ => (by decide : 1 ≤ 8) | exact Nat.zero_le _ | exact (by decide : 1 ≤ 8) | with_reducible refine StillO.go ?_ | with_reducible refine StillO.ite ?_ ?_ | with_reducible exact Still.refl _ | with_reducible refine Still.ite ?_ ?_ | with_reducible refine Still.foldl ?_ ?_ | with_reducible refine Still.iteP ?_ ?_ | with_reducible refine Still.foldlP ?_ ?_ | (intro _; intros; try dsimp only) | with_reducible apply State.setQueue_still | split

theorem execPostResponse_still (q : QueueNo) (s : State) : StillO s (execPostResponse q s) := by
  unfold execPostResponse
  try dsimp only
  repeat' first | with_reducible assumption | exact fun i => i _ | exact fun i => Queue.settle_length (i _) | exact fun i => Queue.pop_length (Queue.settle_length (i _)) | exact fun i => Queue.push_length (Queue.settle_length (i _)) | exact fun i => Queue.landMarker_length (i _) | exact fun _ => Nat.zero_le _ | exact fun _ => (by decide : 1 ≤ 8) | exact Nat.zero_le _ | exact (by decide : 1 ≤ 8) | with_reducible refine StillO.go ?_ | with_reducible refine StillO.ite ?_ ?_ | with_reducible exact Still.refl _ | with_reducible refine Still.ite ?_ ?_ | with_reducible refine Still.foldl ?_ ?_ | with_reducible refine Still.iteP ?_ ?_ | with_reducible refine Still.foldlP ?_ ?_ | (intro _; intros; try dsimp only) | with_reducible apply State.setBit_still | with_reducible apply State.count_still | with_reducible apply State.setQueue_still | fail_if_no_progress with_reducible refine Still.upd ?_ | fail_if_no_progress with_reducible refine Still.updDpt ?_ | fail_if_no_progress with_reducible refine Still.updAny ?_ ⟨rfl, rfl, rfl, rfl, rfl, rfl, rfl, rfl⟩ | split

theorem execMarkRefusedLand_still (q : QueueNo) (s : State) : StillO s (execMarkRefusedLand q s) := by
  unfold execMarkRefusedLand
  dsimp only
  split
  · refine StillO.go ?_
    split
    · rename_i h1
      refine State.setQueue_still (State.setQueue_still (Still.refl s) _ _ ?_) _ _ ?_
      · exact fun i => i _
      · exact fun _ => Queue.land_length h1
    · exact Still.refl s
  · exact StillO.go (Still.refl s)

theorem execStreamSend_still (q : QueueNo) (s : State) : StillO s (execStreamSend q s) := by
  unfold execStreamSend
  try dsimp only
  repeat' first | with_reducible assumption | exact fun i => i _ | exact fun i => Queue.settle_length (i _) | exact fun i => Queue.pop_length (Queue.settle_length (i _)) | exact fun i => Queue.push_length (Queue.settle_length (i _)) | exact fun i => Queue.landMarker_length (i _) | exact fun _ => Nat.zero_le _ | exact fun _ => (by decide : 1 ≤ 8) | exact Nat.zero_le _ | exact (by decide : 1 ≤ 8) | with_reducible refine StillO.go ?_ | with_reducible refine StillO.ite ?_ ?_ | with_reducible exact Still.refl _ | with_reducible refine Still.ite ?_ ?_ | with_reducible refine Still.foldl ?_ ?_ | with_reducible refine Still.iteP ?_ ?_ | with_reducible refine Still.foldlP ?_ ?_ | (intro _; intros; try dsimp only) | with_reducible apply State.setQueue_still | with_reducible apply State.queuePop_still | fail_if_no_progress with_reducible refine Still.upd ?_ | split

theorem State.queueResync_still {s₀ s : State} (h : Still s₀ s) (q : Nat) : Still s₀ (State.queueResync s q) := by
  unfold State.queueResync
  try dsimp only
  repeat' first | with_reducible assumption | exact fun i => i _ | exact fun i => Queue.settle_length (i _) | exact fun i => Queue.pop_length (Queue.settle_length (i _)) | exact fun i => Queue.push_length (Queue.settle_length (i _)) | exact fun i => Queue.landMarker_length (i _) | exact fun _ => Nat.zero_le _ | exact fun _ => (by decide : 1 ≤ 8) | exact Nat.zero_le _ | exact (by decide : 1 ≤ 8) | with_reducible refine Still.ite ?_ ?_ | with_reducible refine Still.foldl ?_ ?_ | with_reducible refine Still.iteP ?_ ?_ | with_reducible refine Still.foldlP ?_ ?_ | (intro _; intros; try dsimp only) | with_reducible apply State.setQueue_still | fail_if_no_progress with_reducible refine Still.upd ?_ | split

end Sys2Proof.Machine
end

