-- ==== Sys2Proof/Laws/KeepsDispatcher.lean ====
section
/-!
SUPPORT. Sys2Proof/Laws/KeepsDispatcher.lean: every operation of Machine/Dispatcher.lean leaves standing what Laws/Keeps.lean says.
-/
set_option linter.unusedTactic false
set_option linter.unreachableTactic false
namespace Sys2Proof.Machine

theorem State.record_still {s₀ s : State} (h : Still s₀ s) (ty : SlgType) (task : Nat) (engine : Nat) (flow : Nat) (reason : Nat) : Still s₀ (State.record s ty task engine flow reason) := by
  unfold State.record
  try dsimp only
  repeat' first | with_reducible assumption | with_reducible refine Still.ite ?_ ?_ | with_reducible refine Still.foldl ?_ ?_ | with_reducible refine Still.iteP ?_ ?_ | with_reducible refine Still.foldlP ?_ ?_ | (intro _; intros; try dsimp only) | with_reducible apply State.count_still | fail_if_no_progress with_reducible refine Still.upd ?_ | fail_if_no_progress with_reducible refine Still.updDpt ?_ | fail_if_no_progress with_reducible refine Still.updAny ?_ ⟨rfl, rfl, rfl, rfl, rfl, rfl, rfl, rfl⟩ | split

theorem execSillageWrite_still (s : State) : StillO s (execSillageWrite s) := by
  unfold execSillageWrite
  try dsimp only
  repeat' first | with_reducible assumption | with_reducible refine StillO.go ?_ | with_reducible refine StillO.ite ?_ ?_ | with_reducible exact Still.refl _ | with_reducible refine Still.ite ?_ ?_ | with_reducible refine Still.foldl ?_ ?_ | with_reducible refine Still.iteP ?_ ?_ | with_reducible refine Still.foldlP ?_ ?_ | (intro _; intros; try dsimp only) | with_reducible apply State.setFld_still | with_reducible apply State.setBit_still | with_reducible apply State.store_still | fail_if_no_progress with_reducible refine Still.upd ?_ | fail_if_no_progress with_reducible refine Still.updDpt ?_ | fail_if_no_progress with_reducible refine Still.updAny ?_ ⟨rfl, rfl, rfl, rfl, rfl, rfl, rfl, rfl⟩ | split

theorem State.slgRestart_still {s₀ s : State} (h : Still s₀ s) : Still s₀ (State.slgRestart s) := by
  unfold State.slgRestart
  try dsimp only
  repeat' first | with_reducible assumption | with_reducible refine Still.ite ?_ ?_ | with_reducible refine Still.foldl ?_ ?_ | with_reducible refine Still.iteP ?_ ?_ | with_reducible refine Still.foldlP ?_ ?_ | (intro _; intros; try dsimp only) | with_reducible apply State.setReg_still | split

theorem execSillageRestart_still (s : State) : StillO s (execSillageRestart s) := by
  unfold execSillageRestart
  try dsimp only
  repeat' first | with_reducible assumption | with_reducible refine StillO.go ?_ | with_reducible refine StillO.ite ?_ ?_ | with_reducible exact Still.refl _ | with_reducible refine Still.ite ?_ ?_ | with_reducible refine Still.foldl ?_ ?_ | with_reducible refine Still.iteP ?_ ?_ | with_reducible refine Still.foldlP ?_ ?_ | (intro _; intros; try dsimp only) | with_reducible apply State.slgRestart_still | split

theorem State.touch_still {s₀ s : State} (h : Still s₀ s) (t : Nat) : Still s₀ (State.touch s t) := by
  unfold State.touch
  try dsimp only
  repeat' first | with_reducible assumption | with_reducible refine Still.ite ?_ ?_ | with_reducible refine Still.foldl ?_ ?_ | with_reducible refine Still.iteP ?_ ?_ | with_reducible refine Still.foldlP ?_ ?_ | (intro _; intros; try dsimp only) | fail_if_no_progress with_reducible refine Still.upd ?_ | fail_if_no_progress with_reducible refine Still.updDpt ?_ | fail_if_no_progress with_reducible refine Still.updAny ?_ ⟨rfl, rfl, rfl, rfl, rfl, rfl, rfl, rfl⟩ | split

theorem State.evalReady_still {s₀ s : State} (h : Still s₀ s) (t : Nat) : Still s₀ (State.evalReady s t) := by
  unfold State.evalReady
  try dsimp only
  repeat' first | with_reducible assumption | with_reducible refine Still.ite ?_ ?_ | with_reducible refine Still.foldl ?_ ?_ | with_reducible refine Still.iteP ?_ ?_ | with_reducible refine Still.foldlP ?_ ?_ | (intro _; intros; try dsimp only) | with_reducible apply State.setTask_still | with_reducible apply State.record_still | fail_if_no_progress with_reducible refine Still.upd ?_ | split

theorem State.readiness_still {s₀ s : State} (h : Still s₀ s) : Still s₀ (State.readiness s) := by
  unfold State.readiness
  try dsimp only
  repeat' first | with_reducible assumption | with_reducible refine Still.ite ?_ ?_ | with_reducible refine Still.foldl ?_ ?_ | with_reducible refine Still.iteP ?_ ?_ | with_reducible refine Still.foldlP ?_ ?_ | (intro _; intros; try dsimp only) | with_reducible apply State.evalReady_still | fail_if_no_progress with_reducible refine Still.upd ?_ | fail_if_no_progress with_reducible refine Still.updDpt ?_ | fail_if_no_progress with_reducible refine Still.updAny ?_ ⟨rfl, rfl, rfl, rfl, rfl, rfl, rfl, rfl⟩ | split

theorem State.fresh_still {s₀ s : State} (h : Still s₀ s) (fs : List (Nat × Nat)) : Still s₀ (State.fresh s fs) := by
  unfold State.fresh
  try dsimp only
  repeat' first | with_reducible assumption | with_reducible refine Still.ite ?_ ?_ | with_reducible refine Still.foldl ?_ ?_ | with_reducible refine Still.iteP ?_ ?_ | with_reducible refine Still.foldlP ?_ ?_ | (intro _; intros; try dsimp only) | fail_if_no_progress with_reducible refine Still.upd ?_ | fail_if_no_progress with_reducible refine Still.updDpt ?_ | fail_if_no_progress with_reducible refine Still.updAny ?_ ⟨rfl, rfl, rfl, rfl, rfl, rfl, rfl, rfl⟩ | split

theorem State.applyFlag_still {s₀ s : State} (h : Still s₀ s) (t : Nat) (f : Nat) (set : Bool) : Still s₀ (State.applyFlag s t f set) := by
  unfold State.applyFlag
  try dsimp only
  repeat' first | with_reducible assumption | with_reducible refine Still.ite ?_ ?_ | with_reducible refine Still.foldl ?_ ?_ | with_reducible refine Still.iteP ?_ ?_ | with_reducible refine Still.foldlP ?_ ?_ | (intro _; intros; try dsimp only) | with_reducible apply State.setBit_still | with_reducible apply State.count_still | with_reducible apply State.setTask_still | with_reducible apply State.touch_still | with_reducible apply State.fresh_still | fail_if_no_progress with_reducible refine Still.upd ?_ | split

theorem State.sendFlag_still {s₀ s : State} (h : Still s₀ s) (m : FlagMsg) : Still s₀ (State.sendFlag s m) := by
  unfold State.sendFlag
  try dsimp only
  repeat' first | with_reducible assumption | with_reducible refine Still.ite ?_ ?_ | with_reducible refine Still.foldl ?_ ?_ | with_reducible refine Still.iteP ?_ ?_ | with_reducible refine Still.foldlP ?_ ?_ | (intro _; intros; try dsimp only) | fail_if_no_progress with_reducible refine Still.upd ?_ | fail_if_no_progress with_reducible refine Still.updDpt ?_ | fail_if_no_progress with_reducible refine Still.updAny ?_ ⟨rfl, rfl, rfl, rfl, rfl, rfl, rfl, rfl⟩ | split

theorem State.flagArrives_still {s₀ s : State} (h : Still s₀ s) (m : FlagMsg) : Still s₀ (State.flagArrives s m) := by
  unfold State.flagArrives
  try dsimp only
  repeat' first | with_reducible assumption | with_reducible refine Still.ite ?_ ?_ | with_reducible refine Still.foldl ?_ ?_ | with_reducible refine Still.iteP ?_ ?_ | with_reducible refine Still.foldlP ?_ ?_ | (intro _; intros; try dsimp only) | with_reducible apply State.applyFlag_still | split

theorem execFlagSetArrival_still (src : FlagSrc) (s : State) : StillO s (execFlagSetArrival src s) := by
  unfold execFlagSetArrival
  try dsimp only
  repeat' first | with_reducible assumption | with_reducible refine StillO.go ?_ | with_reducible refine StillO.ite ?_ ?_ | with_reducible exact Still.refl _ | with_reducible refine Still.ite ?_ ?_ | with_reducible refine Still.foldl ?_ ?_ | with_reducible refine Still.iteP ?_ ?_ | with_reducible refine Still.foldlP ?_ ?_ | (intro _; intros; try dsimp only) | with_reducible apply State.readiness_still | with_reducible apply State.flagArrives_still | fail_if_no_progress with_reducible refine Still.upd ?_ | fail_if_no_progress with_reducible refine Still.updDpt ?_ | fail_if_no_progress with_reducible refine Still.updAny ?_ ⟨rfl, rfl, rfl, rfl, rfl, rfl, rfl, rfl⟩ | split

theorem State.writeItem_still {s₀ s : State} (h : Still s₀ s) (slot : Nat) (words : List W16) : Still s₀ (State.writeItem s slot words) := by
  unfold State.writeItem
  try dsimp only
  repeat' first | with_reducible assumption | with_reducible refine Still.ite ?_ ?_ | with_reducible refine Still.foldl ?_ ?_ | with_reducible refine Still.iteP ?_ ?_ | with_reducible refine Still.foldlP ?_ ?_ | (intro _; intros; try dsimp only) | with_reducible apply State.store_still | split

theorem refuseRecord_still {s₀ s : State} (h : Still s₀ s) (p : PostReq) (why : Nat) : Still s₀ (refuseRecord s p why) := by
  unfold refuseRecord
  try dsimp only
  repeat' first | with_reducible assumption | with_reducible refine Still.ite ?_ ?_ | with_reducible refine Still.foldl ?_ ?_ | with_reducible refine Still.iteP ?_ ?_ | with_reducible refine Still.foldlP ?_ ?_ | (intro _; intros; try dsimp only) | with_reducible apply State.record_still | split

theorem State.respond_still {s₀ s : State} (h : Still s₀ s) (p : PostReq) (code : W16) : Still s₀ (State.respond s p code) := by
  unfold State.respond
  try dsimp only
  repeat' first | with_reducible assumption | with_reducible refine Still.ite ?_ ?_ | with_reducible refine Still.foldl ?_ ?_ | with_reducible refine Still.iteP ?_ ?_ | with_reducible refine Still.foldlP ?_ ?_ | (intro _; intros; try dsimp only) | fail_if_no_progress with_reducible refine Still.upd ?_ | fail_if_no_progress with_reducible refine Still.updDpt ?_ | fail_if_no_progress with_reducible refine Still.updAny ?_ ⟨rfl, rfl, rfl, rfl, rfl, rfl, rfl, rfl⟩ | split

theorem State.post_still {s₀ s : State} (h : Still s₀ s) (p : PostReq) : Still s₀ (State.post s p) := by
  unfold State.post
  try dsimp only
  repeat' first | with_reducible assumption | with_reducible refine Still.ite ?_ ?_ | with_reducible refine Still.foldl ?_ ?_ | with_reducible refine Still.iteP ?_ ?_ | with_reducible refine Still.foldlP ?_ ?_ | (intro _; intros; try dsimp only) | with_reducible apply State.setBit_still | with_reducible apply State.count_still | with_reducible apply State.setTask_still | with_reducible apply State.touch_still | with_reducible apply State.fresh_still | with_reducible apply State.writeItem_still | with_reducible apply refuseRecord_still | with_reducible apply State.respond_still | fail_if_no_progress with_reducible refine Still.upd ?_ | split

theorem State.leaveService_still {s₀ s : State} (h : Still s₀ s) (v : SvcItem) : Still s₀ (State.leaveService s v) := by
  unfold State.leaveService
  try dsimp only
  repeat' first | with_reducible assumption | with_reducible refine Still.ite ?_ ?_ | with_reducible refine Still.foldl ?_ ?_ | with_reducible refine Still.iteP ?_ ?_ | with_reducible refine Still.foldlP ?_ ?_ | (intro _; intros; try dsimp only) | with_reducible apply State.setTask_still | with_reducible apply State.touch_still | fail_if_no_progress with_reducible refine Still.upd ?_ | split

theorem State.dropPost_still {s₀ s : State} (h : Still s₀ s) (p : Nat) : Still s₀ (State.dropPost s p) := by
  unfold State.dropPost
  try dsimp only
  repeat' first | with_reducible assumption | with_reducible refine Still.ite ?_ ?_ | with_reducible refine Still.foldl ?_ ?_ | with_reducible refine Still.iteP ?_ ?_ | with_reducible refine Still.foldlP ?_ ?_ | (intro _; intros; try dsimp only) | with_reducible apply State.post_still | fail_if_no_progress with_reducible refine Still.upd ?_ | fail_if_no_progress with_reducible refine Still.updDpt ?_ | fail_if_no_progress with_reducible refine Still.updAny ?_ ⟨rfl, rfl, rfl, rfl, rfl, rfl, rfl, rfl⟩ | split

theorem State.itemEnd_still {s₀ s : State} (h : Still s₀ s) (p : Nat) (reason : Nat) : Still s₀ (State.itemEnd s p reason) := by
  unfold State.itemEnd
  try dsimp only
  repeat' first | with_reducible assumption | with_reducible refine Still.ite ?_ ?_ | with_reducible refine Still.foldl ?_ ?_ | with_reducible refine Still.iteP ?_ ?_ | with_reducible refine Still.foldlP ?_ ?_ | (intro _; intros; try dsimp only) | with_reducible apply State.setBit_still | with_reducible apply State.count_still | with_reducible apply State.setTask_still | with_reducible apply State.setEngDpt_still | with_reducible apply State.record_still | with_reducible apply State.leaveService_still | fail_if_no_progress with_reducible refine Still.upd ?_ | split

theorem State.returnPrefetch_still {s₀ s : State} (h : Still s₀ s) (p : Nat) (reason : Nat) : Still s₀ (State.returnPrefetch s p reason) := by
  unfold State.returnPrefetch
  try dsimp only
  repeat' first | with_reducible assumption | with_reducible refine Still.ite ?_ ?_ | with_reducible refine Still.foldl ?_ ?_ | with_reducible refine Still.iteP ?_ ?_ | with_reducible refine Still.foldlP ?_ ?_ | (intro _; intros; try dsimp only) | with_reducible apply State.setTask_still | with_reducible apply State.setEngDpt_still | with_reducible apply State.record_still | with_reducible apply State.touch_still | fail_if_no_progress with_reducible refine Still.upd ?_ | split

theorem State.discardPrefetch_still {s₀ s : State} (h : Still s₀ s) (p : Nat) : Still s₀ (State.discardPrefetch s p) := by
  unfold State.discardPrefetch
  try dsimp only
  repeat' first | with_reducible assumption | with_reducible refine Still.ite ?_ ?_ | with_reducible refine Still.foldl ?_ ?_ | with_reducible refine Still.iteP ?_ ?_ | with_reducible refine Still.foldlP ?_ ?_ | (intro _; intros; try dsimp only) | with_reducible apply State.count_still | with_reducible apply State.setEngDpt_still | with_reducible apply State.record_still | with_reducible apply State.leaveService_still | fail_if_no_progress with_reducible refine Still.upd ?_ | split

theorem State.itemStart_still {s₀ s : State} (h : Still s₀ s) (p : Nat) : Still s₀ (State.itemStart s p) := by
  unfold State.itemStart
  try dsimp only
  repeat' first | with_reducible assumption | with_reducible refine Still.ite ?_ ?_ | with_reducible refine Still.foldl ?_ ?_ | with_reducible refine Still.iteP ?_ ?_ | with_reducible refine Still.foldlP ?_ ?_ | (intro _; intros; try dsimp only) | with_reducible apply State.count_still | with_reducible apply State.setTask_still | with_reducible apply State.setEngDpt_still | with_reducible apply State.record_still | with_reducible apply State.touch_still | fail_if_no_progress with_reducible refine Still.upd ?_ | split

theorem State.assign_still {s₀ s : State} (h : Still s₀ s) (p : Nat) (t : Nat) (keep : W32) : Still s₀ (State.assign s p t keep) := by
  unfold State.assign
  try dsimp only
  repeat' first | with_reducible assumption | with_reducible refine Still.ite ?_ ?_ | with_reducible refine Still.foldl ?_ ?_ | with_reducible refine Still.iteP ?_ ?_ | with_reducible refine Still.foldlP ?_ ?_ | (intro _; intros; try dsimp only) | with_reducible apply State.setTask_still | with_reducible apply State.setEngDpt_still | with_reducible apply State.record_still | with_reducible apply State.touch_still | fail_if_no_progress with_reducible refine Still.upd ?_ | split

theorem State.startWaits_still {s₀ s : State} (h : Still s₀ s) : Still s₀ (State.startWaits s) := by
  unfold State.startWaits
  try dsimp only
  repeat' first | with_reducible assumption | with_reducible refine Still.ite ?_ ?_ | with_reducible refine Still.foldl ?_ ?_ | with_reducible refine Still.iteP ?_ ?_ | with_reducible refine Still.foldlP ?_ ?_ | (intro _; intros; try dsimp only) | with_reducible apply State.setEngDpt_still | fail_if_no_progress with_reducible refine Still.upd ?_ | split

theorem State.assignOne_still {s₀ s : State} (h : Still s₀ s) (kept : Nat → W32) : Still s₀ (State.assignOne s kept) := by
  unfold State.assignOne
  try dsimp only
  repeat' first | with_reducible assumption | with_reducible refine Still.ite ?_ ?_ | with_reducible refine Still.foldl ?_ ?_ | with_reducible refine Still.iteP ?_ ?_ | with_reducible refine Still.foldlP ?_ ?_ | (intro _; intros; try dsimp only) | with_reducible apply State.assign_still | fail_if_no_progress with_reducible refine Still.upd ?_ | split

theorem State.returnTask_still {s₀ s : State} (h : Still s₀ s) (t : Nat) : Still s₀ (State.returnTask s t) := by
  unfold State.returnTask
  try dsimp only
  repeat' first | with_reducible assumption | with_reducible refine Still.ite ?_ ?_ | with_reducible refine Still.foldl ?_ ?_ | with_reducible refine Still.iteP ?_ ?_ | with_reducible refine Still.foldlP ?_ ?_ | (intro _; intros; try dsimp only) | with_reducible apply State.returnPrefetch_still | fail_if_no_progress with_reducible refine Still.upd ?_ | with_reducible apply Still.filterMem | with_reducible apply Still.filterRegs | split

theorem State.parkTask_still {s₀ s : State} (h : Still s₀ s) (t : Nat) (dis : Bool) (supp : Bool) : Still s₀ (State.parkTask s t dis supp) := by
  unfold State.parkTask
  try dsimp only
  repeat' first | with_reducible assumption | with_reducible refine Still.ite ?_ ?_ | with_reducible refine Still.foldl ?_ ?_ | with_reducible refine Still.iteP ?_ ?_ | with_reducible refine Still.foldlP ?_ ?_ | (intro _; intros; try dsimp only) | with_reducible apply State.setTask_still | with_reducible apply State.record_still | with_reducible apply State.touch_still | with_reducible apply State.returnTask_still | fail_if_no_progress with_reducible refine Still.upd ?_ | split

theorem State.evtDiscard_still {s₀ s : State} (h : Still s₀ s) : Still s₀ (State.evtDiscard s) := by
  unfold State.evtDiscard
  try dsimp only
  repeat' first | with_reducible assumption | with_reducible refine Still.ite ?_ ?_ | with_reducible refine Still.foldl ?_ ?_ | with_reducible refine Still.iteP ?_ ?_ | with_reducible refine Still.foldlP ?_ ?_ | (intro _; intros; try dsimp only) | with_reducible apply State.setBit_still | with_reducible apply State.count_still | split

theorem State.cmdCancel_still {s₀ s : State} (h : Still s₀ s) (t : Nat) (supp : Bool) : Still s₀ (State.cmdCancel s t supp) := by
  unfold State.cmdCancel
  try dsimp only
  repeat' first | with_reducible assumption | with_reducible refine Still.ite ?_ ?_ | with_reducible refine Still.foldl ?_ ?_ | with_reducible refine Still.iteP ?_ ?_ | with_reducible refine Still.foldlP ?_ ?_ | (intro _; intros; try dsimp only) | with_reducible apply State.parkTask_still | with_reducible apply State.evtDiscard_still | split

theorem State.cmdResume_still {s₀ s : State} (h : Still s₀ s) (t : Nat) : Still s₀ (State.cmdResume s t) := by
  unfold State.cmdResume
  try dsimp only
  repeat' first | with_reducible assumption | with_reducible refine Still.ite ?_ ?_ | with_reducible refine Still.foldl ?_ ?_ | with_reducible refine Still.iteP ?_ ?_ | with_reducible refine Still.foldlP ?_ ?_ | (intro _; intros; try dsimp only) | with_reducible apply State.setTask_still | with_reducible apply State.touch_still | with_reducible apply State.evtDiscard_still | fail_if_no_progress with_reducible refine Still.upd ?_ | split

theorem State.cmdDisable_still {s₀ s : State} (h : Still s₀ s) (t : Nat) (supp : Bool) : Still s₀ (State.cmdDisable s t supp) := by
  unfold State.cmdDisable
  try dsimp only
  repeat' first | with_reducible assumption | with_reducible refine Still.ite ?_ ?_ | with_reducible refine Still.foldl ?_ ?_ | with_reducible refine Still.iteP ?_ ?_ | with_reducible refine Still.foldlP ?_ ?_ | (intro _; intros; try dsimp only) | with_reducible apply State.parkTask_still | with_reducible apply State.evtDiscard_still | split

theorem State.cmdEnable_still {s₀ s : State} (h : Still s₀ s) (t : Nat) : Still s₀ (State.cmdEnable s t) := by
  unfold State.cmdEnable
  try dsimp only
  repeat' first | with_reducible assumption | with_reducible refine Still.ite ?_ ?_ | with_reducible refine Still.foldl ?_ ?_ | with_reducible refine Still.iteP ?_ ?_ | with_reducible refine Still.foldlP ?_ ?_ | (intro _; intros; try dsimp only) | with_reducible apply State.setTask_still | with_reducible apply State.touch_still | with_reducible apply State.evtDiscard_still | fail_if_no_progress with_reducible refine Still.upd ?_ | split

theorem State.cmdDrain_still {s₀ s : State} (h : Still s₀ s) (t : Nat) : Still s₀ (State.cmdDrain s t) := by
  unfold State.cmdDrain
  try dsimp only
  repeat' first | with_reducible assumption | with_reducible refine Still.ite ?_ ?_ | with_reducible refine Still.foldl ?_ ?_ | with_reducible refine Still.iteP ?_ ?_ | with_reducible refine Still.foldlP ?_ ?_ | (intro _; intros; try dsimp only) | with_reducible apply State.setBit_still | with_reducible apply State.count_still | with_reducible apply State.setTask_still | with_reducible apply State.record_still | with_reducible apply State.touch_still | with_reducible apply State.evtDiscard_still | fail_if_no_progress with_reducible refine Still.upd ?_ | with_reducible apply Still.filterMem | with_reducible apply Still.filterRegs | split

theorem State.cmdEngDisable_still {s₀ s : State} (h : Still s₀ s) (p : Nat) : Still s₀ (State.cmdEngDisable s p) := by
  unfold State.cmdEngDisable
  try dsimp only
  repeat' first | with_reducible assumption | with_reducible refine Still.ite ?_ ?_ | with_reducible refine Still.foldl ?_ ?_ | with_reducible refine Still.iteP ?_ ?_ | with_reducible refine Still.foldlP ?_ ?_ | (intro _; intros; try dsimp only) | with_reducible apply State.setBit_still | with_reducible apply State.setEngDpt_still | with_reducible apply State.record_still | with_reducible apply State.returnPrefetch_still | fail_if_no_progress with_reducible refine Still.upd ?_ | split

theorem State.cmdEngEnable_still {s₀ s : State} (h : Still s₀ s) (p : Nat) : Still s₀ (State.cmdEngEnable s p) := by
  unfold State.cmdEngEnable
  try dsimp only
  repeat' first | with_reducible assumption | with_reducible refine Still.ite ?_ ?_ | with_reducible refine Still.foldl ?_ ?_ | with_reducible refine Still.iteP ?_ ?_ | with_reducible refine Still.foldlP ?_ ?_ | (intro _; intros; try dsimp only) | with_reducible apply State.setBit_still | with_reducible apply State.setEngDpt_still | with_reducible apply State.record_still | fail_if_no_progress with_reducible refine Still.upd ?_ | split

theorem State.dptCmd_still {s₀ s : State} (h : Still s₀ s) (f : State → State) (hf : ∀ s, Still s₀ s → Still s₀ (f s)) : Still s₀ (State.dptCmd s f) := by
  unfold State.dptCmd
  try dsimp only
  repeat' first | with_reducible assumption | with_reducible apply hf | with_reducible refine Still.ite ?_ ?_ | with_reducible refine Still.foldl ?_ ?_ | with_reducible refine Still.iteP ?_ ?_ | with_reducible refine Still.foldlP ?_ ?_ | (intro _; intros; try dsimp only) | with_reducible apply State.setBit_still | split

theorem execDptCancel_still (t : TaskNo) (s : State) : StillO s (execDptCancel t s) := by
  unfold execDptCancel
  try dsimp only
  repeat' first | with_reducible assumption | with_reducible refine StillO.go ?_ | with_reducible refine StillO.ite ?_ ?_ | with_reducible exact Still.refl _ | with_reducible refine Still.ite ?_ ?_ | with_reducible refine Still.foldl ?_ ?_ | with_reducible refine Still.iteP ?_ ?_ | with_reducible refine Still.foldlP ?_ ?_ | (intro _; intros; try dsimp only) | with_reducible apply State.readiness_still | with_reducible apply State.cmdCancel_still | with_reducible apply State.dptCmd_still | split

theorem execDptResume_still (t : TaskNo) (s : State) : StillO s (execDptResume t s) := by
  unfold execDptResume
  try dsimp only
  repeat' first | with_reducible assumption | with_reducible refine StillO.go ?_ | with_reducible refine StillO.ite ?_ ?_ | with_reducible exact Still.refl _ | with_reducible refine Still.ite ?_ ?_ | with_reducible refine Still.foldl ?_ ?_ | with_reducible refine Still.iteP ?_ ?_ | with_reducible refine Still.foldlP ?_ ?_ | (intro _; intros; try dsimp only) | with_reducible apply State.readiness_still | with_reducible apply State.cmdResume_still | with_reducible apply State.dptCmd_still | split

theorem execDptDisable_still (t : TaskNo) (s : State) : StillO s (execDptDisable t s) := by
  unfold execDptDisable
  try dsimp only
  repeat' first | with_reducible assumption | with_reducible refine StillO.go ?_ | with_reducible refine StillO.ite ?_ ?_ | with_reducible exact Still.refl _ | with_reducible refine Still.ite ?_ ?_ | with_reducible refine Still.foldl ?_ ?_ | with_reducible refine Still.iteP ?_ ?_ | with_reducible refine Still.foldlP ?_ ?_ | (intro _; intros; try dsimp only) | with_reducible apply State.readiness_still | with_reducible apply State.cmdDisable_still | with_reducible apply State.dptCmd_still | split

theorem execDptEnable_still (t : TaskNo) (s : State) : StillO s (execDptEnable t s) := by
  unfold execDptEnable
  try dsimp only
  repeat' first | with_reducible assumption | with_reducible refine StillO.go ?_ | with_reducible refine StillO.ite ?_ ?_ | with_reducible exact Still.refl _ | with_reducible refine Still.ite ?_ ?_ | with_reducible refine Still.foldl ?_ ?_ | with_reducible refine Still.iteP ?_ ?_ | with_reducible refine Still.foldlP ?_ ?_ | (intro _; intros; try dsimp only) | with_reducible apply State.readiness_still | with_reducible apply State.cmdEnable_still | with_reducible apply State.dptCmd_still | split

theorem execDptDrain_still (t : TaskNo) (s : State) : StillO s (execDptDrain t s) := by
  unfold execDptDrain
  try dsimp only
  repeat' first | with_reducible assumption | with_reducible refine StillO.go ?_ | with_reducible refine StillO.ite ?_ ?_ | with_reducible exact Still.refl _ | with_reducible refine Still.ite ?_ ?_ | with_reducible refine Still.foldl ?_ ?_ | with_reducible refine Still.iteP ?_ ?_ | with_reducible refine Still.foldlP ?_ ?_ | (intro _; intros; try dsimp only) | with_reducible apply State.readiness_still | with_reducible apply State.cmdDrain_still | with_reducible apply State.dptCmd_still | split

theorem execDptSignal_still (t : TaskNo) (f : Fin 32) (s : State) : StillO s (execDptSignal t f s) := by
  unfold execDptSignal
  try dsimp only
  repeat' first | with_reducible assumption | with_reducible refine StillO.go ?_ | with_reducible refine StillO.ite ?_ ?_ | with_reducible exact Still.refl _ | with_reducible refine Still.ite ?_ ?_ | with_reducible refine Still.foldl ?_ ?_ | with_reducible refine Still.iteP ?_ ?_ | with_reducible refine Still.foldlP ?_ ?_ | (intro _; intros; try dsimp only) | with_reducible apply State.readiness_still | with_reducible apply State.applyFlag_still | with_reducible apply State.dptCmd_still | split

theorem execDptClrf_still (t : TaskNo) (f : Fin 32) (s : State) : StillO s (execDptClrf t f s) := by
  unfold execDptClrf
  try dsimp only
  repeat' first | with_reducible assumption | with_reducible refine StillO.go ?_ | with_reducible refine StillO.ite ?_ ?_ | with_reducible exact Still.refl _ | with_reducible refine Still.ite ?_ ?_ | with_reducible refine Still.foldl ?_ ?_ | with_reducible refine Still.iteP ?_ ?_ | with_reducible refine Still.foldlP ?_ ?_ | (intro _; intros; try dsimp only) | with_reducible apply State.readiness_still | with_reducible apply State.applyFlag_still | with_reducible apply State.dptCmd_still | split

theorem execEngDisable_still (p : BitVec 10) (s : State) : StillO s (execEngDisable p s) := by
  unfold execEngDisable
  try dsimp only
  repeat' first | with_reducible assumption | with_reducible refine StillO.go ?_ | with_reducible refine StillO.ite ?_ ?_ | with_reducible exact Still.refl _ | with_reducible refine Still.ite ?_ ?_ | with_reducible refine Still.foldl ?_ ?_ | with_reducible refine Still.iteP ?_ ?_ | with_reducible refine Still.foldlP ?_ ?_ | (intro _; intros; try dsimp only) | with_reducible apply State.readiness_still | with_reducible apply State.cmdEngDisable_still | with_reducible apply State.dptCmd_still | split

theorem execEngEnable_still (p : BitVec 10) (s : State) : StillO s (execEngEnable p s) := by
  unfold execEngEnable
  try dsimp only
  repeat' first | with_reducible assumption | with_reducible refine StillO.go ?_ | with_reducible refine StillO.ite ?_ ?_ | with_reducible exact Still.refl _ | with_reducible refine Still.ite ?_ ?_ | with_reducible refine Still.foldl ?_ ?_ | with_reducible refine Still.iteP ?_ ?_ | with_reducible refine Still.foldlP ?_ ?_ | (intro _; intros; try dsimp only) | with_reducible apply State.readiness_still | with_reducible apply State.cmdEngEnable_still | with_reducible apply State.dptCmd_still | split

theorem State.cycleCmd_still {s₀ s : State} (h : Still s₀ s) (reset : State → State) (later : State → Nat → Bool) (w : W32) (hf : ∀ s, Still s₀ s → Still s₀ (reset s)) : Still s₀ (State.cycleCmd reset later s w) := by
  unfold State.cycleCmd
  try dsimp only
  repeat' first | with_reducible assumption | with_reducible apply hf | with_reducible refine Still.ite ?_ ?_ | with_reducible refine Still.foldl ?_ ?_ | with_reducible refine Still.iteP ?_ ?_ | with_reducible refine Still.foldlP ?_ ?_ | (intro _; intros; try dsimp only) | with_reducible apply State.setBit_still | with_reducible apply State.cmdCancel_still | with_reducible apply State.cmdResume_still | with_reducible apply State.cmdDisable_still | with_reducible apply State.cmdEnable_still | with_reducible apply State.cmdDrain_still | with_reducible apply State.cmdEngDisable_still | with_reducible apply State.cmdEngEnable_still | with_reducible apply State.dptCmd_still | fail_if_no_progress with_reducible refine Still.upd ?_ | split

theorem State.cycleFlags_still {s₀ s : State} (h : Still s₀ s) (ms : List FlagMsg) (cmds : List W32) : Still s₀ (State.cycleFlags s ms cmds) := by
  unfold State.cycleFlags
  try dsimp only
  repeat' first | with_reducible assumption | with_reducible refine Still.ite ?_ ?_ | with_reducible refine Still.foldl ?_ ?_ | with_reducible refine Still.iteP ?_ ?_ | with_reducible refine Still.foldlP ?_ ?_ | (intro _; intros; try dsimp only) | with_reducible apply State.flagArrives_still | with_reducible apply Still.filterMem | with_reducible apply Still.filterRegs | split

theorem State.dptCycle_still {s₀ s : State} (h : Still s₀ s) (reset : State → State) (cmds : List W32) (posts : Nat) (flags : Nat) (hf : ∀ s, Still s₀ s → Still s₀ (reset s)) : Still s₀ (State.dptCycle s reset cmds posts flags) := by
  unfold State.dptCycle
  try dsimp only
  repeat' first | with_reducible assumption | with_reducible apply hf | with_reducible refine Still.ite ?_ ?_ | with_reducible refine Still.foldl ?_ ?_ | with_reducible refine Still.iteP ?_ ?_ | with_reducible refine Still.foldlP ?_ ?_ | (intro _; intros; try dsimp only) | with_reducible apply State.readiness_still | with_reducible apply State.fresh_still | with_reducible apply State.post_still | with_reducible apply State.startWaits_still | with_reducible apply State.assignOne_still | with_reducible apply State.cycleCmd_still | with_reducible apply State.cycleFlags_still | fail_if_no_progress with_reducible refine Still.upd ?_ | fail_if_no_progress with_reducible refine Still.updDpt ?_ | fail_if_no_progress with_reducible refine Still.updAny ?_ ⟨rfl, rfl, rfl, rfl, rfl, rfl, rfl, rfl⟩ | split

theorem State.copyItem_still {s₀ s : State} (h : Still s₀ s) (p : Nat) : Still s₀ (State.copyItem s p) := by
  unfold State.copyItem
  try dsimp only
  repeat' first | with_reducible assumption | with_reducible refine Still.ite ?_ ?_ | with_reducible refine Still.foldl ?_ ?_ | with_reducible refine Still.iteP ?_ ?_ | with_reducible refine Still.foldlP ?_ ?_ | (intro _; intros; try dsimp only) | with_reducible apply State.setEngDpt_still | with_reducible apply State.store_still | with_reducible apply State.noteSecond_still | fail_if_no_progress with_reducible refine Still.upd ?_ | split

theorem execItemCopyComplete_still (p : EngineNo) (s : State) : StillO s (execItemCopyComplete p s) := by
  unfold execItemCopyComplete
  try dsimp only
  repeat' first | with_reducible assumption | with_reducible refine StillO.go ?_ | with_reducible refine StillO.ite ?_ ?_ | with_reducible exact Still.refl _ | with_reducible refine Still.ite ?_ ?_ | with_reducible refine Still.foldl ?_ ?_ | with_reducible refine Still.iteP ?_ ?_ | with_reducible refine Still.foldlP ?_ ?_ | (intro _; intros; try dsimp only) | with_reducible apply State.read_still | with_reducible apply State.readiness_still | with_reducible apply State.discardPrefetch_still | with_reducible apply State.copyItem_still | fail_if_no_progress with_reducible refine Still.upd ?_ | split

theorem State.dptLoad_still {s₀ s : State} (h : Still s₀ s) : Still s₀ (State.dptLoad s) := by
  unfold State.dptLoad
  refine Still.foldl (h.of_inv (fun i => { i with tasks := rfl }) rfl rfl rfl) (fun s x hs => ?_)
  dsimp only
  split
  · exact State.touch_still (State.setTask_still hs _ _) _
  · exact State.setTask_still hs _ _

theorem State.dptWipe_still {s₀ s : State} (h : Still s₀ s) : Still s₀ (State.dptWipe s) := by
  refine h.of_inv (fun i => { i with tasks := rfl, engDpt := Tbl.wf_filterMap ?_ ?_ i.engDpt }) rfl rfl rfl
  · intro e e' he
    dsimp only at he
    by_cases c : ({ e.2 with
        prefetch := none, running := none, since := none, lastWin := if s.engBusy e.1 then e.2.lastWin else none } : EngDpt) =
        EngDpt.dflt
    · rw [if_pos c] at he; cases he
    · rw [if_neg c] at he; cases he; rfl
  · intro e e' _ he
    dsimp only at he
    by_cases c : ({ e.2 with
        prefetch := none, running := none, since := none, lastWin := if s.engBusy e.1 then e.2.lastWin else none } : EngDpt) =
        EngDpt.dflt
    · rw [if_pos c] at he; cases he
    · rw [if_neg c] at he; cases he; exact c

theorem State.dispatcherReset_still {s₀ s : State} (h : Still s₀ s) (reload : State → State) (hf : ∀ s, Still s₀ s → Still s₀ (reload s)) : Still s₀ (State.dispatcherReset s reload) := by
  unfold State.dispatcherReset
  try dsimp only
  repeat' first | with_reducible assumption | with_reducible apply hf | with_reducible refine Still.ite ?_ ?_ | with_reducible refine Still.foldl ?_ ?_ | with_reducible refine Still.iteP ?_ ?_ | with_reducible refine Still.foldlP ?_ ?_ | (intro _; intros; try dsimp only) | with_reducible apply State.setFld_still | with_reducible apply State.setBit_still | with_reducible apply State.count_still | with_reducible apply State.record_still | with_reducible apply State.dptLoad_still | with_reducible apply State.dptWipe_still | fail_if_no_progress with_reducible refine Still.upd ?_ | fail_if_no_progress with_reducible refine Still.updDpt ?_ | fail_if_no_progress with_reducible refine Still.updAny ?_ ⟨rfl, rfl, rfl, rfl, rfl, rfl, rfl, rfl⟩ | with_reducible apply Still.filterMem | with_reducible apply Still.filterRegs | split

theorem execDispatcherResume_still (s : State) : StillO s (execDispatcherResume s) := by
  unfold execDispatcherResume
  try dsimp only
  repeat' first | with_reducible assumption | with_reducible refine StillO.go ?_ | with_reducible refine StillO.ite ?_ ?_ | with_reducible exact Still.refl _ | with_reducible refine Still.ite ?_ ?_ | with_reducible refine Still.foldl ?_ ?_ | with_reducible refine Still.iteP ?_ ?_ | with_reducible refine Still.foldlP ?_ ?_ | (intro _; intros; try dsimp only) | with_reducible apply State.setFld_still | with_reducible apply State.creditsReset_still | split

end Sys2Proof.Machine
end

