-- ==== Sys2Proof/Laws/KeepsReadout.lean ====
section
/-!
SUPPORT. Sys2Proof/Laws/KeepsReadout.lean: every operation of Machine/Readout.lean leaves standing what Laws/Keeps.lean says.
-/
set_option linter.unusedTactic false
set_option linter.unreachableTactic false
namespace Sys2Proof.Machine

theorem State.ringWrite_still {s₀ s : State} (h : Still s₀ s) (k : Nat) (ch : Nat) (x : Nat) (j : Nat) (w : FWord) (dark : Bool) (sreset : Bool) : Still s₀ (State.ringWrite s k ch x j w dark sreset) := by
  unfold State.ringWrite
  try dsimp only
  repeat' first | with_reducible assumption | with_reducible refine Still.ite ?_ ?_ | with_reducible refine Still.foldl ?_ ?_ | with_reducible refine Still.iteP ?_ ?_ | with_reducible refine Still.foldlP ?_ ?_ | (intro _; intros; try dsimp only) | with_reducible apply State.store_still | with_reducible apply State.storeLe_still | with_reducible apply State.storeHalf_still | split

theorem State.ringsInvalid_still {s₀ s : State} (h : Still s₀ s) (k : Nat) : Still s₀ (State.ringsInvalid s k) := by
  refine h.of_inv (fun i => { i with mem := Tbl.wf_filterMap ?_ ?_ i.mem }) rfl rfl rfl
  · intro e e' he
    dsimp only at he
    repeat' split at he
    all_goals (cases he <;> rfl)
  · intro e e' hd he
    dsimp only at he
    split at he
    · split at he
      · cases he
      · cases he; assumption
    · cases he; exact hd

theorem State.carryOn_still {s₀ s : State} (h : Still s₀ s) (k : Nat) (n : Nat) : Still s₀ (State.carryOn s k n) := by
  unfold State.carryOn
  try dsimp only
  repeat' first | with_reducible assumption | with_reducible refine Still.ite ?_ ?_ | with_reducible refine Still.foldl ?_ ?_ | with_reducible refine Still.iteP ?_ ?_ | with_reducible refine Still.foldlP ?_ ?_ | (intro _; intros; try dsimp only) | with_reducible apply State.setRo_still | fail_if_no_progress with_reducible refine Still.upd ?_ | split

theorem State.missed_still {s₀ s : State} (h : Still s₀ s) (k : Nat) (n : Nat) : Still s₀ (State.missed s k n) := by
  unfold State.missed
  try dsimp only
  repeat' first | with_reducible assumption | with_reducible refine Still.ite ?_ ?_ | with_reducible refine Still.foldl ?_ ?_ | with_reducible refine Still.iteP ?_ ?_ | with_reducible refine Still.foldlP ?_ ?_ | (intro _; intros; try dsimp only) | with_reducible apply State.count_still | with_reducible apply State.carryOn_still | split

theorem State.offer_still {s₀ s : State} (h : Still s₀ s) (e : AccEntry) (k : Nat) : Still s₀ (State.offer e s k) := by
  unfold State.offer
  try dsimp only
  repeat' first | with_reducible assumption | with_reducible refine Still.ite ?_ ?_ | with_reducible refine Still.foldl ?_ ?_ | with_reducible refine Still.iteP ?_ ?_ | with_reducible refine Still.foldlP ?_ ?_ | (intro _; intros; try dsimp only) | with_reducible apply State.setRo_still | with_reducible apply State.missed_still | fail_if_no_progress with_reducible refine Still.upd ?_ | split

theorem State.acceptAt_still {s₀ s : State} (h : Still s₀ s) (cls : BitVec 4) (typ : Byte) : Still s₀ (State.acceptAt s cls typ) := by
  unfold State.acceptAt
  try dsimp only
  repeat' first | with_reducible assumption | with_reducible refine Still.ite ?_ ?_ | with_reducible refine Still.foldl ?_ ?_ | with_reducible refine Still.iteP ?_ ?_ | with_reducible refine Still.foldlP ?_ ?_ | (intro _; intros; try dsimp only) | with_reducible apply State.setFld_still | with_reducible apply State.event_still | with_reducible apply State.offer_still | fail_if_no_progress with_reducible refine Still.upd ?_ | fail_if_no_progress with_reducible refine Still.updTsb ?_ | fail_if_no_progress with_reducible refine Still.updAny ?_ ⟨rfl, rfl, rfl, rfl, rfl, rfl, rfl, rfl⟩ | split

theorem State.reoffer_still {s₀ s : State} (h : Still s₀ s) (k : Nat) : Still s₀ (State.reoffer s k) := by
  unfold State.reoffer
  try dsimp only
  repeat' first | with_reducible assumption | with_reducible refine Still.ite ?_ ?_ | with_reducible refine Still.foldl ?_ ?_ | with_reducible refine Still.iteP ?_ ?_ | with_reducible refine Still.foldlP ?_ ?_ | (intro _; intros; try dsimp only) | with_reducible apply State.setFld_still | with_reducible apply State.setRo_still | fail_if_no_progress with_reducible refine Still.upd ?_ | split

theorem State.drzPut_still {s₀ s : State} (h : Still s₀ s) (d : Nat) (w : Nat) (v : W16) : Still s₀ (State.drzPut s d w v) := by
  unfold State.drzPut
  try dsimp only
  repeat' first | with_reducible assumption | with_reducible refine Still.ite ?_ ?_ | with_reducible refine Still.foldl ?_ ?_ | with_reducible refine Still.iteP ?_ ?_ | with_reducible refine Still.foldlP ?_ ?_ | (intro _; intros; try dsimp only) | with_reducible apply State.storeHalf_still | split

theorem execPacketOpen_still (k : SectorNo) (s : State) : StillO s (execPacketOpen k s) := by
  unfold execPacketOpen
  try dsimp only
  repeat' first | with_reducible assumption | with_reducible refine StillO.go ?_ | with_reducible refine StillO.ite ?_ ?_ | with_reducible exact Still.refl _ | with_reducible refine Still.ite ?_ ?_ | with_reducible refine Still.foldl ?_ ?_ | with_reducible refine Still.iteP ?_ ?_ | with_reducible refine Still.foldlP ?_ ?_ | (intro _; intros; try dsimp only) | with_reducible apply State.count_still | with_reducible apply State.setRo_still | with_reducible apply State.setDrz_still | with_reducible apply State.carryOn_still | with_reducible apply State.drzPut_still | fail_if_no_progress with_reducible refine Still.upd ?_ | split

theorem State.blockReads_still {s₀ s : State} (h : Still s₀ s) (k : Nat) (b : Build) (o : Nat) (ch : Nat) : Still s₀ (State.blockReads s k b o ch) := by
  unfold State.blockReads
  try dsimp only
  repeat' first | with_reducible assumption | with_reducible refine Still.ite ?_ ?_ | with_reducible refine Still.foldl ?_ ?_ | with_reducible refine Still.iteP ?_ ?_ | with_reducible refine Still.foldlP ?_ ?_ | (intro _; intros; try dsimp only) | with_reducible apply State.read_still | split

theorem State.reachBlock_still {s₀ s : State} (h : Still s₀ s) (k : Nat) (b : Build) : Still s₀ (State.reachBlock s k b) := by
  unfold State.reachBlock
  try dsimp only
  repeat' first | with_reducible assumption | with_reducible refine Still.ite ?_ ?_ | with_reducible refine Still.foldl ?_ ?_ | with_reducible refine Still.iteP ?_ ?_ | with_reducible refine Still.foldlP ?_ ?_ | (intro _; intros; try dsimp only) | with_reducible apply State.count_still | with_reducible apply State.setRo_still | with_reducible apply State.read_still | fail_if_no_progress with_reducible refine Still.upd ?_ | split

theorem State.packetPut_still {s₀ s : State} (h : Still s₀ s) (k : Nat) (b : Build) (v : W16) : Still s₀ (State.packetPut s k b v) := by
  unfold State.packetPut
  try dsimp only
  repeat' first | with_reducible assumption | with_reducible refine Still.ite ?_ ?_ | with_reducible refine Still.foldl ?_ ?_ | with_reducible refine Still.iteP ?_ ?_ | with_reducible refine Still.foldlP ?_ ?_ | (intro _; intros; try dsimp only) | with_reducible apply State.count_still | with_reducible apply State.setRo_still | with_reducible apply State.setDrz_still | with_reducible apply State.drzPut_still | with_reducible apply State.reachBlock_still | fail_if_no_progress with_reducible refine Still.upd ?_ | split

theorem execBuilderWord_still (k : SectorNo) (s : State) : StillO s (execBuilderWord k s) := by
  unfold execBuilderWord
  try dsimp only
  repeat' first | with_reducible assumption | with_reducible refine StillO.go ?_ | with_reducible refine StillO.ite ?_ ?_ | with_reducible exact Still.refl _ | with_reducible refine Still.ite ?_ ?_ | with_reducible refine Still.foldl ?_ ?_ | with_reducible refine Still.iteP ?_ ?_ | with_reducible refine Still.foldlP ?_ ?_ | (intro _; intros; try dsimp only) | with_reducible apply State.count_still | with_reducible apply State.setRo_still | with_reducible apply State.blockReads_still | with_reducible apply State.packetPut_still | fail_if_no_progress with_reducible refine Still.upd ?_ | split

theorem State.closePacket_still {s₀ s : State} (h : Still s₀ s) (k : Nat) (b : Build) (trunc : Bool) : Still s₀ (State.closePacket s k b trunc) := by
  unfold State.closePacket
  try dsimp only
  repeat' first | with_reducible assumption | with_reducible refine Still.ite ?_ ?_ | with_reducible refine Still.foldl ?_ ?_ | with_reducible refine Still.iteP ?_ ?_ | with_reducible refine Still.foldlP ?_ ?_ | (intro _; intros; try dsimp only) | with_reducible apply State.count_still | with_reducible apply State.setRo_still | with_reducible apply State.setDrz_still | with_reducible apply State.drzPut_still | fail_if_no_progress with_reducible refine Still.upd ?_ | split

theorem State.countClose_still {s₀ s : State} (h : Still s₀ s) (k : Nat) (b : Build) : Still s₀ (State.countClose s k b) := by
  unfold State.countClose
  try dsimp only
  repeat' first | with_reducible assumption | with_reducible refine Still.ite ?_ ?_ | with_reducible refine Still.foldl ?_ ?_ | with_reducible refine Still.iteP ?_ ?_ | with_reducible refine Still.foldlP ?_ ?_ | (intro _; intros; try dsimp only) | with_reducible apply State.count_still | split

theorem execPacketClose_still (k : SectorNo) (s : State) : StillO s (execPacketClose k s) := by
  unfold execPacketClose
  try dsimp only
  repeat' first | with_reducible assumption | with_reducible refine StillO.go ?_ | with_reducible refine StillO.ite ?_ ?_ | with_reducible exact Still.refl _ | with_reducible refine Still.ite ?_ ?_ | with_reducible refine Still.foldl ?_ ?_ | with_reducible refine Still.iteP ?_ ?_ | with_reducible refine Still.foldlP ?_ ?_ | (intro _; intros; try dsimp only) | with_reducible apply State.count_still | with_reducible apply State.setRo_still | with_reducible apply State.closePacket_still | with_reducible apply State.countClose_still | fail_if_no_progress with_reducible refine Still.upd ?_ | split

theorem State.dropBuild_still {s₀ s : State} (h : Still s₀ s) (k : Nat) : Still s₀ (State.dropBuild s k) := by
  unfold State.dropBuild
  try dsimp only
  repeat' first | with_reducible assumption | with_reducible refine Still.ite ?_ ?_ | with_reducible refine Still.foldl ?_ ?_ | with_reducible refine Still.iteP ?_ ?_ | with_reducible refine Still.foldlP ?_ ?_ | (intro _; intros; try dsimp only) | with_reducible apply State.setRo_still | with_reducible apply State.setDrz_still | fail_if_no_progress with_reducible refine Still.upd ?_ | split

theorem State.takePacket_still {s₀ s : State} (h : Still s₀ s) (d : Nat) : Still s₀ (State.takePacket s d) := by
  unfold State.takePacket
  try dsimp only
  repeat' first | with_reducible assumption | with_reducible refine Still.ite ?_ ?_ | with_reducible refine Still.foldl ?_ ?_ | with_reducible refine Still.iteP ?_ ?_ | with_reducible refine Still.foldlP ?_ ?_ | (intro _; intros; try dsimp only) | with_reducible apply State.setBit_still | with_reducible apply State.setDrz_still | with_reducible apply State.read_still | fail_if_no_progress with_reducible refine Still.upd ?_ | split

theorem execReaderTakePacket_still (d : DrzNo) (s : State) : StillO s (execReaderTakePacket d s) := by
  unfold execReaderTakePacket
  try dsimp only
  repeat' first | with_reducible assumption | with_reducible refine StillO.go ?_ | with_reducible refine StillO.ite ?_ ?_ | with_reducible exact Still.refl _ | with_reducible refine Still.ite ?_ ?_ | with_reducible refine Still.foldl ?_ ?_ | with_reducible refine Still.iteP ?_ ?_ | with_reducible refine Still.foldlP ?_ ?_ | (intro _; intros; try dsimp only) | with_reducible apply State.takePacket_still | split

theorem State.rptrWrite_still {s₀ s : State} (h : Still s₀ s) (d : Nat) (v : Nat) : Still s₀ (State.rptrWrite s d v) := by
  unfold State.rptrWrite
  try dsimp only
  repeat' first | with_reducible assumption | with_reducible refine Still.ite ?_ ?_ | with_reducible refine Still.foldl ?_ ?_ | with_reducible refine Still.iteP ?_ ?_ | with_reducible refine Still.foldlP ?_ ?_ | (intro _; intros; try dsimp only) | with_reducible apply State.setBit_still | with_reducible apply State.setDrz_still | fail_if_no_progress with_reducible refine Still.upd ?_ | split

theorem execRptrWrite_still (d : DrzNo) (v : BitVec 15) (s : State) : StillO s (execRptrWrite d v s) := by
  unfold execRptrWrite
  try dsimp only
  repeat' first | with_reducible assumption | with_reducible refine StillO.go ?_ | with_reducible refine StillO.ite ?_ ?_ | with_reducible exact Still.refl _ | with_reducible refine Still.ite ?_ ?_ | with_reducible refine Still.foldl ?_ ?_ | with_reducible refine Still.iteP ?_ ?_ | with_reducible refine Still.foldlP ?_ ?_ | (intro _; intros; try dsimp only) | with_reducible apply State.rptrWrite_still | split

theorem State.drzSend_still {s₀ s : State} (h : Still s₀ s) (d n : Nat) : Still s₀ (s.drzSend d n).1 := by
  induction n generalizing s with
  | zero => exact h
  | succ n ih =>
    unfold State.drzSend
    dsimp only
    split
    · exact h
    · exact ih (State.setDrz_still (Still.ite (State.setBit_still (State.read_still h _ _ _) _ _ _) (State.read_still h _ _ _)) _ _)

theorem State.readoutWords_still {s₀ s : State} (h : Still s₀ s) (d n i : Nat) (f : Option Nat) :
    Still s₀ (s.readoutWords d n i f).1 := by
  induction n generalizing s i f with
  | zero => exact h
  | succ n ih =>
    unfold State.readoutWords
    dsimp only
    split
    · exact State.takePacket_still h _
    · exact ih (State.drzSend_still (State.takePacket_still h _) _ _) _ _

theorem State.assemble_still {s₀ s : State} (h : Still s₀ s) (d : Nat) : Still s₀ (State.assemble s d) := by
  unfold State.assemble
  try dsimp only
  repeat' first | with_reducible assumption | with_reducible refine Still.ite ?_ ?_ | with_reducible refine Still.foldl ?_ ?_ | with_reducible refine Still.iteP ?_ ?_ | with_reducible refine Still.foldlP ?_ ?_ | (intro _; intros; try dsimp only) | with_reducible apply State.setLane_still | with_reducible apply State.readoutWords_still | fail_if_no_progress with_reducible refine Still.upd ?_ | split

theorem State.drainError_still {s₀ s : State} (h : Still s₀ s) (a : Nat) : Still s₀ (State.drainError s a) := by
  unfold State.drainError
  try dsimp only
  repeat' first | with_reducible assumption | with_reducible refine Still.ite ?_ ?_ | with_reducible refine Still.foldl ?_ ?_ | with_reducible refine Still.iteP ?_ ?_ | with_reducible refine Still.foldlP ?_ ?_ | (intro _; intros; try dsimp only) | with_reducible apply State.setBit_still | fail_if_no_progress with_reducible refine Still.upd ?_ | split

theorem State.throttleSample_still {s₀ s : State} (h : Still s₀ s) : Still s₀ (State.throttleSample s) := by
  unfold State.throttleSample
  try dsimp only
  repeat' first | with_reducible assumption | with_reducible refine Still.ite ?_ ?_ | with_reducible refine Still.foldl ?_ ?_ | with_reducible refine Still.iteP ?_ ?_ | with_reducible refine Still.foldlP ?_ ?_ | (intro _; intros; try dsimp only) | with_reducible apply State.setRo_still | with_reducible apply State.setDrz_still | fail_if_no_progress with_reducible refine Still.upd ?_ | split

theorem execThrottlePinEdge_still (s : State) : StillO s (execThrottlePinEdge s) := by
  unfold execThrottlePinEdge
  try dsimp only
  repeat' first | with_reducible assumption | with_reducible refine StillO.go ?_ | with_reducible refine StillO.ite ?_ ?_ | with_reducible exact Still.refl _ | with_reducible refine Still.ite ?_ ?_ | with_reducible refine Still.foldl ?_ ?_ | with_reducible refine Still.iteP ?_ ?_ | with_reducible refine Still.foldlP ?_ ?_ | (intro _; intros; try dsimp only) | with_reducible apply State.setFld_still | split

theorem State.drzEmpty_still {s₀ s : State} (h : Still s₀ s) (own : Nat) (d : Nat) : Still s₀ (State.drzEmpty s own d) := by
  unfold State.drzEmpty
  try dsimp only
  repeat' first | with_reducible assumption | with_reducible refine Still.ite ?_ ?_ | with_reducible refine Still.foldl ?_ ?_ | with_reducible refine Still.iteP ?_ ?_ | with_reducible refine Still.foldlP ?_ ?_ | (intro _; intros; try dsimp only) | with_reducible apply State.count_still | with_reducible apply State.setRo_still | with_reducible apply State.setDrz_still | with_reducible apply State.fresh_still | with_reducible apply State.carryOn_still | fail_if_no_progress with_reducible refine Still.upd ?_ | split

theorem State.queueMissed_still {s₀ s : State} (h : Still s₀ s) (k : Nat) : Still s₀ (State.queueMissed s k) := by
  unfold State.queueMissed
  try dsimp only
  repeat' first | with_reducible assumption | with_reducible refine Still.ite ?_ ?_ | with_reducible refine Still.foldl ?_ ?_ | with_reducible refine Still.iteP ?_ ?_ | with_reducible refine Still.foldlP ?_ ?_ | (intro _; intros; try dsimp only) | with_reducible apply State.setRo_still | with_reducible apply State.missed_still | fail_if_no_progress with_reducible refine Still.upd ?_ | split

theorem State.unresync_still {s₀ s : State} (h : Still s₀ s) (k : Nat) : Still s₀ (State.unresync s k) := by
  unfold State.unresync
  try dsimp only
  repeat' first | with_reducible assumption | with_reducible refine Still.ite ?_ ?_ | with_reducible refine Still.foldl ?_ ?_ | with_reducible refine Still.iteP ?_ ?_ | with_reducible refine Still.foldlP ?_ ?_ | (intro _; intros; try dsimp only) | with_reducible apply State.count_still | with_reducible apply State.setRo_still | fail_if_no_progress with_reducible refine Still.upd ?_ | split

theorem State.readoutLeave_still {s₀ s0 : State} (h : Still s₀ s0) (k : Nat) : Still s₀ (State.readoutLeave s0 k) := by
  unfold State.readoutLeave
  try dsimp only
  repeat' first | with_reducible assumption | with_reducible refine Still.ite ?_ ?_ | with_reducible refine Still.foldl ?_ ?_ | with_reducible refine Still.iteP ?_ ?_ | with_reducible refine Still.foldlP ?_ ?_ | (intro _; intros; try dsimp only) | with_reducible apply State.count_still | with_reducible apply State.setRo_still | with_reducible apply State.ringsInvalid_still | with_reducible apply State.closePacket_still | with_reducible apply State.assemble_still | with_reducible apply State.drzEmpty_still | with_reducible apply State.queueMissed_still | with_reducible apply State.unresync_still | fail_if_no_progress with_reducible refine Still.upd ?_ | split

theorem State.readoutResync_still {s₀ s : State} (h : Still s₀ s) : Still s₀ (State.readoutResync s) := by
  unfold State.readoutResync
  try dsimp only
  repeat' first | with_reducible assumption | with_reducible refine Still.ite ?_ ?_ | with_reducible refine Still.foldl ?_ ?_ | with_reducible refine Still.iteP ?_ ?_ | with_reducible refine Still.foldlP ?_ ?_ | (intro _; intros; try dsimp only) | with_reducible apply State.setFld_still | with_reducible apply State.count_still | with_reducible apply State.setRo_still | with_reducible apply State.setDrz_still | with_reducible apply State.dropBuild_still | fail_if_no_progress with_reducible refine Still.upd ?_ | split

end Sys2Proof.Machine
end

