-- ==== Sys2Proof/Laws/KeepsImage.lean ====
section
/-!
SUPPORT. Sys2Proof/Laws/KeepsImage.lean: every operation of Machine/Image.lean leaves standing what Laws/Keeps.lean says.
-/
set_option linter.unusedTactic false
set_option linter.unreachableTactic false
namespace Sys2Proof.Machine

theorem State.schedPar_still {s₀ s : State} (h : Still s₀ s) (i : Nat) : Still s₀ (State.schedPar s i) := by
  unfold State.schedPar
  try dsimp only
  repeat' first | with_reducible assumption | with_reducible refine Still.ite ?_ ?_ | with_reducible refine Still.foldl ?_ ?_ | with_reducible refine Still.iteP ?_ ?_ | with_reducible refine Still.foldlP ?_ ?_ | (intro _; intros; try dsimp only) | with_reducible apply State.setBit_still | split

theorem State.loadWord_still {s₀ s : State} (h : Still s₀ s) (a : Nat) (b : List Byte) : Still s₀ (State.loadWord s a b) := by
  unfold State.loadWord
  try dsimp only
  repeat' first | with_reducible assumption | with_reducible refine Still.ite ?_ ?_ | with_reducible refine Still.foldl ?_ ?_ | with_reducible refine Still.iteP ?_ ?_ | with_reducible refine Still.foldlP ?_ ?_ | (intro _; intros; try dsimp only) | with_reducible apply State.modReg_still | with_reducible apply State.store_still | with_reducible apply State.schedPar_still | fail_if_no_progress with_reducible refine Still.upd ?_ | split

theorem State.applyLoads_still {s₀ s : State} (h : Still s₀ s) (f : Nat → Bool) (l : List LoadRec) : Still s₀ (State.applyLoads s f l) := by
  unfold State.applyLoads
  try dsimp only
  repeat' first | with_reducible assumption | with_reducible refine Still.ite ?_ ?_ | with_reducible refine Still.foldl ?_ ?_ | with_reducible refine Still.iteP ?_ ?_ | with_reducible refine Still.foldlP ?_ ?_ | (intro _; intros; try dsimp only) | with_reducible apply State.loadWord_still | split

theorem State.regFresh_still {s₀ s : State} (h : Still s₀ s) (a : Nat) : Still s₀ (State.regFresh s a) := by
  unfold State.regFresh
  try dsimp only
  repeat' first | with_reducible assumption | with_reducible refine Still.ite ?_ ?_ | with_reducible refine Still.foldl ?_ ?_ | with_reducible refine Still.iteP ?_ ?_ | with_reducible refine Still.foldlP ?_ ?_ | (intro _; intros; try dsimp only) | with_reducible apply State.modReg_still | fail_if_no_progress with_reducible refine Still.upd ?_ | split

theorem State.regionClear_still {s₀ s0 : State} (h : Still s₀ s0) (r : Nat) : Still s₀ (State.regionClear s0 r) := by
  unfold State.regionClear
  try dsimp only
  repeat' first | with_reducible assumption | with_reducible refine Still.ite ?_ ?_ | with_reducible refine Still.foldl ?_ ?_ | with_reducible refine Still.iteP ?_ ?_ | with_reducible refine Still.foldlP ?_ ?_ | (intro _; intros; try dsimp only) | with_reducible apply State.regFresh_still | fail_if_no_progress with_reducible refine Still.upd ?_ | fail_if_no_progress with_reducible refine Still.updProt ?_ | fail_if_no_progress with_reducible refine Still.updAny ?_ ⟨rfl, rfl, rfl, rfl, rfl, rfl, rfl, rfl⟩ | with_reducible apply Still.filterMem | with_reducible apply Still.filterRegs | split

theorem State.reloadRegion_still {s₀ s : State} (h : Still s₀ s) (r : Nat) (acc : Nat) : Still s₀ (State.reloadRegion s r acc) := by
  unfold State.reloadRegion
  try dsimp only
  repeat' first | with_reducible assumption | with_reducible refine Still.ite ?_ ?_ | with_reducible refine Still.foldl ?_ ?_ | with_reducible refine Still.iteP ?_ ?_ | with_reducible refine Still.foldlP ?_ ?_ | (intro _; intros; try dsimp only) | with_reducible apply State.applyLoads_still | with_reducible apply State.regionClear_still | fail_if_no_progress with_reducible refine Still.upd ?_ | with_reducible apply Still.filterMem | with_reducible apply Still.filterRegs | split

theorem State.reloadDispatcher_still {s₀ s : State} (h : Still s₀ s) : Still s₀ (State.reloadDispatcher s) := by
  unfold State.reloadDispatcher
  try dsimp only
  repeat' first | with_reducible assumption | with_reducible refine Still.ite ?_ ?_ | with_reducible refine Still.foldl ?_ ?_ | with_reducible refine Still.iteP ?_ ?_ | with_reducible refine Still.foldlP ?_ ?_ | (intro _; intros; try dsimp only) | with_reducible apply State.applyLoads_still | fail_if_no_progress with_reducible refine Still.upd ?_ | fail_if_no_progress with_reducible refine Still.updProt ?_ | fail_if_no_progress with_reducible refine Still.updAny ?_ ⟨rfl, rfl, rfl, rfl, rfl, rfl, rfl, rfl⟩ | with_reducible apply Still.filterMem | with_reducible apply Still.filterRegs | split

theorem State.dispatcherResetNow_still {s₀ s : State} (h : Still s₀ s) : Still s₀ (State.dispatcherResetNow s) := by
  unfold State.dispatcherResetNow
  try dsimp only
  repeat' first | with_reducible assumption | with_reducible refine Still.ite ?_ ?_ | with_reducible refine Still.foldl ?_ ?_ | with_reducible refine Still.iteP ?_ ?_ | with_reducible refine Still.foldlP ?_ ?_ | (intro _; intros; try dsimp only) | with_reducible apply State.dispatcherReset_still | with_reducible apply State.reloadDispatcher_still | split

theorem execDispatcherReset_still (s : State) : StillO s (execDispatcherReset s) := by
  unfold execDispatcherReset
  try dsimp only
  repeat' first | with_reducible assumption | with_reducible refine StillO.go ?_ | with_reducible refine StillO.ite ?_ ?_ | with_reducible exact Still.refl _ | with_reducible refine Still.ite ?_ ?_ | with_reducible refine Still.foldl ?_ ?_ | with_reducible refine Still.iteP ?_ ?_ | with_reducible refine Still.foldlP ?_ ?_ | (intro _; intros; try dsimp only) | with_reducible apply State.dispatcherResetNow_still | fail_if_no_progress with_reducible refine Still.upd ?_ | fail_if_no_progress with_reducible refine Still.updProt ?_ | fail_if_no_progress with_reducible refine Still.updAny ?_ ⟨rfl, rfl, rfl, rfl, rfl, rfl, rfl, rfl⟩ | with_reducible apply Still.filterMem | with_reducible apply Still.filterRegs | split

theorem execDispatcherCycle_still (cmds : List W32) (posts : Nat) (flags : Nat) (s : State) : StillO s (execDispatcherCycle cmds posts flags s) := by
  unfold execDispatcherCycle
  try dsimp only
  repeat' first | with_reducible assumption | with_reducible refine StillO.go ?_ | with_reducible refine StillO.ite ?_ ?_ | with_reducible exact Still.refl _ | with_reducible refine Still.ite ?_ ?_ | with_reducible refine Still.foldl ?_ ?_ | with_reducible refine Still.iteP ?_ ?_ | with_reducible refine Still.foldlP ?_ ?_ | (intro _; intros; try dsimp only) | with_reducible apply State.dptCycle_still | with_reducible apply State.dispatcherResetNow_still | split

theorem State.payDispatcher_still {s₀ s : State} (h : Still s₀ s) : Still s₀ (State.payDispatcher s) := by
  unfold State.payDispatcher
  try dsimp only
  repeat' first | with_reducible assumption | with_reducible refine Still.ite ?_ ?_ | with_reducible refine Still.foldl ?_ ?_ | with_reducible refine Still.iteP ?_ ?_ | with_reducible refine Still.foldlP ?_ ?_ | (intro _; intros; try dsimp only) | with_reducible apply State.dispatcherResetNow_still | fail_if_no_progress with_reducible refine Still.upd ?_ | fail_if_no_progress with_reducible refine Still.updProt ?_ | fail_if_no_progress with_reducible refine Still.updAny ?_ ⟨rfl, rfl, rfl, rfl, rfl, rfl, rfl, rfl⟩ | with_reducible apply Still.filterMem | with_reducible apply Still.filterRegs | split

end Sys2Proof.Machine
end

