-- ==== Sys2Proof/Laws/KeepsCells.lean ====
section
/-!
SUPPORT. Sys2Proof/Laws/KeepsCells.lean: every operation of Machine/Cells.lean leaves standing what Laws/Keeps.lean says.
-/
set_option linter.unusedTactic false
set_option linter.unreachableTactic false
namespace Sys2Proof.Machine

theorem State.perr_still {s₀ s : State} (h : Still s₀ s) (c : Nat) : Still s₀ (State.perr s c) := by
  unfold State.perr
  try dsimp only
  repeat' first | with_reducible assumption | with_reducible refine Still.ite ?_ ?_ | with_reducible refine Still.foldl ?_ ?_ | with_reducible refine Still.iteP ?_ ?_ | with_reducible refine Still.foldlP ?_ ?_ | (intro _; intros; try dsimp only) | with_reducible apply State.setReg_still | with_reducible apply State.count_still | split

theorem State.readCtx_still {s₀ s : State} (h : Still s₀ s) (t : Nat) : Still s₀ (State.readCtx s t).1 := by
  unfold State.readCtx
  try dsimp only
  repeat' first | with_reducible assumption | with_reducible refine Still.ite ?_ ?_ | with_reducible refine Still.foldl ?_ ?_ | with_reducible refine Still.iteP ?_ ?_ | with_reducible refine Still.foldlP ?_ ?_ | (intro _; intros; try dsimp only) | with_reducible apply State.read_still | split

theorem State.issue_still (s : State) (c : Nat) (op : Nat) (g : State → BitVec 64 → CellRes) : StillO s (State.issue s c op g) := by
  unfold State.issue
  try dsimp only
  repeat' first | with_reducible assumption | with_reducible refine StillO.go ?_ | with_reducible refine StillO.ite ?_ ?_ | with_reducible exact Still.refl _ | with_reducible refine Still.ite ?_ ?_ | with_reducible refine Still.foldl ?_ ?_ | with_reducible refine Still.iteP ?_ ?_ | with_reducible refine Still.foldlP ?_ ?_ | (intro _; intros; try dsimp only) | with_reducible apply State.setCell_still | with_reducible apply State.perr_still | fail_if_no_progress with_reducible refine Still.upd ?_ | with_reducible apply Still.filterMem | with_reducible apply Still.filterRegs | split

theorem execCellNop_still (_c : CellNo) (s : State) : StillO s (execCellNop _c s) := by
  unfold execCellNop
  try dsimp only
  repeat' first | with_reducible assumption | with_reducible refine StillO.go ?_ | with_reducible refine StillO.ite ?_ ?_ | with_reducible exact Still.refl _ | with_reducible refine Still.ite ?_ ?_ | with_reducible refine Still.foldl ?_ ?_ | with_reducible refine Still.iteP ?_ ?_ | with_reducible refine Still.foldlP ?_ ?_ | (intro _; intros; try dsimp only) | split

theorem execCellPass_still (c : CellNo) (s : State) : StillO s (execCellPass c s) := by
  unfold execCellPass
  try dsimp only
  repeat' first | with_reducible assumption | with_reducible refine StillO.go ?_ | with_reducible refine StillO.ite ?_ ?_ | with_reducible exact Still.refl _ | with_reducible refine Still.ite ?_ ?_ | with_reducible refine Still.foldl ?_ ?_ | with_reducible refine Still.iteP ?_ ?_ | with_reducible refine Still.foldlP ?_ ?_ | (intro _; intros; try dsimp only) | with_reducible apply State.issue_still | split

theorem execCellConst_still (c : CellNo) (s : State) : StillO s (execCellConst c s) := by
  unfold execCellConst
  try dsimp only
  repeat' first | with_reducible assumption | with_reducible refine StillO.go ?_ | with_reducible refine StillO.ite ?_ ?_ | with_reducible exact Still.refl _ | with_reducible refine Still.ite ?_ ?_ | with_reducible refine Still.foldl ?_ ?_ | with_reducible refine Still.iteP ?_ ?_ | with_reducible refine Still.foldlP ?_ ?_ | (intro _; intros; try dsimp only) | with_reducible apply State.issue_still | split

theorem execCellAdd_still (c : CellNo) (s : State) : StillO s (execCellAdd c s) := by
  unfold execCellAdd
  try dsimp only
  repeat' first | with_reducible assumption | with_reducible refine StillO.go ?_ | with_reducible refine StillO.ite ?_ ?_ | with_reducible exact Still.refl _ | with_reducible refine Still.ite ?_ ?_ | with_reducible refine Still.foldl ?_ ?_ | with_reducible refine Still.iteP ?_ ?_ | with_reducible refine Still.foldlP ?_ ?_ | (intro _; intros; try dsimp only) | with_reducible apply State.issue_still | split

theorem execCellSub_still (c : CellNo) (s : State) : StillO s (execCellSub c s) := by
  unfold execCellSub
  try dsimp only
  repeat' first | with_reducible assumption | with_reducible refine StillO.go ?_ | with_reducible refine StillO.ite ?_ ?_ | with_reducible exact Still.refl _ | with_reducible refine Still.ite ?_ ?_ | with_reducible refine Still.foldl ?_ ?_ | with_reducible refine Still.iteP ?_ ?_ | with_reducible refine Still.foldlP ?_ ?_ | (intro _; intros; try dsimp only) | with_reducible apply State.issue_still | split

theorem execCellAdds_still (c : CellNo) (s : State) : StillO s (execCellAdds c s) := by
  unfold execCellAdds
  try dsimp only
  repeat' first | with_reducible assumption | with_reducible refine StillO.go ?_ | with_reducible refine StillO.ite ?_ ?_ | with_reducible exact Still.refl _ | with_reducible refine Still.ite ?_ ?_ | with_reducible refine Still.foldl ?_ ?_ | with_reducible refine Still.iteP ?_ ?_ | with_reducible refine Still.foldlP ?_ ?_ | (intro _; intros; try dsimp only) | with_reducible apply State.issue_still | split

theorem execCellMin_still (c : CellNo) (s : State) : StillO s (execCellMin c s) := by
  unfold execCellMin
  try dsimp only
  repeat' first | with_reducible assumption | with_reducible refine StillO.go ?_ | with_reducible refine StillO.ite ?_ ?_ | with_reducible exact Still.refl _ | with_reducible refine Still.ite ?_ ?_ | with_reducible refine Still.foldl ?_ ?_ | with_reducible refine Still.iteP ?_ ?_ | with_reducible refine Still.foldlP ?_ ?_ | (intro _; intros; try dsimp only) | with_reducible apply State.issue_still | split

theorem execCellMax_still (c : CellNo) (s : State) : StillO s (execCellMax c s) := by
  unfold execCellMax
  try dsimp only
  repeat' first | with_reducible assumption | with_reducible refine StillO.go ?_ | with_reducible refine StillO.ite ?_ ?_ | with_reducible exact Still.refl _ | with_reducible refine Still.ite ?_ ?_ | with_reducible refine Still.foldl ?_ ?_ | with_reducible refine Still.iteP ?_ ?_ | with_reducible refine Still.foldlP ?_ ?_ | (intro _; intros; try dsimp only) | with_reducible apply State.issue_still | split

theorem execCellAbs_still (c : CellNo) (s : State) : StillO s (execCellAbs c s) := by
  unfold execCellAbs
  try dsimp only
  repeat' first | with_reducible assumption | with_reducible refine StillO.go ?_ | with_reducible refine StillO.ite ?_ ?_ | with_reducible exact Still.refl _ | with_reducible refine Still.ite ?_ ?_ | with_reducible refine Still.foldl ?_ ?_ | with_reducible refine Still.iteP ?_ ?_ | with_reducible refine Still.foldlP ?_ ?_ | (intro _; intros; try dsimp only) | with_reducible apply State.issue_still | split

theorem execCellCmp_still (c : CellNo) (s : State) : StillO s (execCellCmp c s) := by
  unfold execCellCmp
  try dsimp only
  repeat' first | with_reducible assumption | with_reducible refine StillO.go ?_ | with_reducible refine StillO.ite ?_ ?_ | with_reducible exact Still.refl _ | with_reducible refine Still.ite ?_ ?_ | with_reducible refine Still.foldl ?_ ?_ | with_reducible refine Still.iteP ?_ ?_ | with_reducible refine Still.foldlP ?_ ?_ | (intro _; intros; try dsimp only) | with_reducible apply State.issue_still | split

theorem execCellThr_still (c : CellNo) (s : State) : StillO s (execCellThr c s) := by
  unfold execCellThr
  try dsimp only
  repeat' first | with_reducible assumption | with_reducible refine StillO.go ?_ | with_reducible refine StillO.ite ?_ ?_ | with_reducible exact Still.refl _ | with_reducible refine Still.ite ?_ ?_ | with_reducible refine Still.foldl ?_ ?_ | with_reducible refine Still.iteP ?_ ?_ | with_reducible refine Still.foldlP ?_ ?_ | (intro _; intros; try dsimp only) | with_reducible apply State.issue_still | split

theorem execCellAnd_still (c : CellNo) (s : State) : StillO s (execCellAnd c s) := by
  unfold execCellAnd
  try dsimp only
  repeat' first | with_reducible assumption | with_reducible refine StillO.go ?_ | with_reducible refine StillO.ite ?_ ?_ | with_reducible exact Still.refl _ | with_reducible refine Still.ite ?_ ?_ | with_reducible refine Still.foldl ?_ ?_ | with_reducible refine Still.iteP ?_ ?_ | with_reducible refine Still.foldlP ?_ ?_ | (intro _; intros; try dsimp only) | with_reducible apply State.issue_still | split

theorem execCellOr_still (c : CellNo) (s : State) : StillO s (execCellOr c s) := by
  unfold execCellOr
  try dsimp only
  repeat' first | with_reducible assumption | with_reducible refine StillO.go ?_ | with_reducible refine StillO.ite ?_ ?_ | with_reducible exact Still.refl _ | with_reducible refine Still.ite ?_ ?_ | with_reducible refine Still.foldl ?_ ?_ | with_reducible refine Still.iteP ?_ ?_ | with_reducible refine Still.foldlP ?_ ?_ | (intro _; intros; try dsimp only) | with_reducible apply State.issue_still | split

theorem execCellXor_still (c : CellNo) (s : State) : StillO s (execCellXor c s) := by
  unfold execCellXor
  try dsimp only
  repeat' first | with_reducible assumption | with_reducible refine StillO.go ?_ | with_reducible refine StillO.ite ?_ ?_ | with_reducible exact Still.refl _ | with_reducible refine Still.ite ?_ ?_ | with_reducible refine Still.foldl ?_ ?_ | with_reducible refine Still.iteP ?_ ?_ | with_reducible refine Still.foldlP ?_ ?_ | (intro _; intros; try dsimp only) | with_reducible apply State.issue_still | split

theorem execCellNot_still (c : CellNo) (s : State) : StillO s (execCellNot c s) := by
  unfold execCellNot
  try dsimp only
  repeat' first | with_reducible assumption | with_reducible refine StillO.go ?_ | with_reducible refine StillO.ite ?_ ?_ | with_reducible exact Still.refl _ | with_reducible refine Still.ite ?_ ?_ | with_reducible refine Still.foldl ?_ ?_ | with_reducible refine Still.iteP ?_ ?_ | with_reducible refine Still.foldlP ?_ ?_ | (intro _; intros; try dsimp only) | with_reducible apply State.issue_still | split

theorem execCellShl_still (c : CellNo) (s : State) : StillO s (execCellShl c s) := by
  unfold execCellShl
  try dsimp only
  repeat' first | with_reducible assumption | with_reducible refine StillO.go ?_ | with_reducible refine StillO.ite ?_ ?_ | with_reducible exact Still.refl _ | with_reducible refine Still.ite ?_ ?_ | with_reducible refine Still.foldl ?_ ?_ | with_reducible refine Still.iteP ?_ ?_ | with_reducible refine Still.foldlP ?_ ?_ | (intro _; intros; try dsimp only) | with_reducible apply State.issue_still | split

theorem execCellShr_still (c : CellNo) (s : State) : StillO s (execCellShr c s) := by
  unfold execCellShr
  try dsimp only
  repeat' first | with_reducible assumption | with_reducible refine StillO.go ?_ | with_reducible refine StillO.ite ?_ ?_ | with_reducible exact Still.refl _ | with_reducible refine Still.ite ?_ ?_ | with_reducible refine Still.foldl ?_ ?_ | with_reducible refine Still.iteP ?_ ?_ | with_reducible refine Still.foldlP ?_ ?_ | (intro _; intros; try dsimp only) | with_reducible apply State.issue_still | split

theorem execCellAsr_still (c : CellNo) (s : State) : StillO s (execCellAsr c s) := by
  unfold execCellAsr
  try dsimp only
  repeat' first | with_reducible assumption | with_reducible refine StillO.go ?_ | with_reducible refine StillO.ite ?_ ?_ | with_reducible exact Still.refl _ | with_reducible refine Still.ite ?_ ?_ | with_reducible refine Still.foldl ?_ ?_ | with_reducible refine Still.iteP ?_ ?_ | with_reducible refine Still.foldlP ?_ ?_ | (intro _; intros; try dsimp only) | with_reducible apply State.issue_still | split

theorem execCellMul8_still (c : CellNo) (s : State) : StillO s (execCellMul8 c s) := by
  unfold execCellMul8
  try dsimp only
  repeat' first | with_reducible assumption | with_reducible refine StillO.go ?_ | with_reducible refine StillO.ite ?_ ?_ | with_reducible exact Still.refl _ | with_reducible refine Still.ite ?_ ?_ | with_reducible refine Still.foldl ?_ ?_ | with_reducible refine Still.iteP ?_ ?_ | with_reducible refine Still.foldlP ?_ ?_ | (intro _; intros; try dsimp only) | with_reducible apply State.issue_still | fail_if_no_progress with_reducible refine Still.upd ?_ | split

theorem execCellSel_still (c : CellNo) (s : State) : StillO s (execCellSel c s) := by
  unfold execCellSel
  try dsimp only
  repeat' first | with_reducible assumption | with_reducible refine StillO.go ?_ | with_reducible refine StillO.ite ?_ ?_ | with_reducible exact Still.refl _ | with_reducible refine Still.ite ?_ ?_ | with_reducible refine Still.foldl ?_ ?_ | with_reducible refine Still.iteP ?_ ?_ | with_reducible refine Still.foldlP ?_ ?_ | (intro _; intros; try dsimp only) | with_reducible apply State.issue_still | split

theorem execCellLut4_still (c : CellNo) (s : State) : StillO s (execCellLut4 c s) := by
  unfold execCellLut4
  try dsimp only
  repeat' first | with_reducible assumption | with_reducible refine StillO.go ?_ | with_reducible refine StillO.ite ?_ ?_ | with_reducible exact Still.refl _ | with_reducible refine Still.ite ?_ ?_ | with_reducible refine Still.foldl ?_ ?_ | with_reducible refine Still.iteP ?_ ?_ | with_reducible refine Still.foldlP ?_ ?_ | (intro _; intros; try dsimp only) | with_reducible apply State.issue_still | split

theorem execCellCnt_still (c : CellNo) (s : State) : StillO s (execCellCnt c s) := by
  unfold execCellCnt
  try dsimp only
  repeat' first | with_reducible assumption | with_reducible refine StillO.go ?_ | with_reducible refine StillO.ite ?_ ?_ | with_reducible exact Still.refl _ | with_reducible refine Still.ite ?_ ?_ | with_reducible refine Still.foldl ?_ ?_ | with_reducible refine Still.iteP ?_ ?_ | with_reducible refine Still.foldlP ?_ ?_ | (intro _; intros; try dsimp only) | with_reducible apply State.issue_still | split

theorem execCellAcc_still (c : CellNo) (s : State) : StillO s (execCellAcc c s) := by
  unfold execCellAcc
  try dsimp only
  repeat' first | with_reducible assumption | with_reducible refine StillO.go ?_ | with_reducible refine StillO.ite ?_ ?_ | with_reducible exact Still.refl _ | with_reducible refine Still.ite ?_ ?_ | with_reducible refine Still.foldl ?_ ?_ | with_reducible refine Still.iteP ?_ ?_ | with_reducible refine Still.foldlP ?_ ?_ | (intro _; intros; try dsimp only) | with_reducible apply State.issue_still | split

theorem execCellDelay_still (c : CellNo) (s : State) : StillO s (execCellDelay c s) := by
  unfold execCellDelay
  try dsimp only
  repeat' first | with_reducible assumption | with_reducible refine StillO.go ?_ | with_reducible refine StillO.ite ?_ ?_ | with_reducible exact Still.refl _ | with_reducible refine Still.ite ?_ ?_ | with_reducible refine Still.foldl ?_ ?_ | with_reducible refine Still.iteP ?_ ?_ | with_reducible refine Still.foldlP ?_ ?_ | (intro _; intros; try dsimp only) | with_reducible apply State.issue_still | split

theorem execCellSrd_still (c : CellNo) (s : State) : StillO s (execCellSrd c s) := by
  unfold execCellSrd
  try dsimp only
  repeat' first | with_reducible assumption | with_reducible refine StillO.go ?_ | with_reducible refine StillO.ite ?_ ?_ | with_reducible exact Still.refl _ | with_reducible refine Still.ite ?_ ?_ | with_reducible refine Still.foldl ?_ ?_ | with_reducible refine Still.iteP ?_ ?_ | with_reducible refine Still.foldlP ?_ ?_ | (intro _; intros; try dsimp only) | with_reducible apply State.read_still | with_reducible apply State.issue_still | fail_if_no_progress with_reducible refine Still.upd ?_ | split

theorem execCellSwr_still (c : CellNo) (s : State) : StillO s (execCellSwr c s) := by
  unfold execCellSwr
  try dsimp only
  repeat' first | with_reducible assumption | with_reducible refine StillO.go ?_ | with_reducible refine StillO.ite ?_ ?_ | with_reducible exact Still.refl _ | with_reducible refine Still.ite ?_ ?_ | with_reducible refine Still.foldl ?_ ?_ | with_reducible refine Still.iteP ?_ ?_ | with_reducible refine Still.foldlP ?_ ?_ | (intro _; intros; try dsimp only) | with_reducible apply State.issue_still | fail_if_no_progress with_reducible refine Still.upd ?_ | split

theorem State.scratchRead_still {s₀ s : State} (h : Still s₀ s) (t : Nat) (w : Nat) : Still s₀ (State.scratchRead s t w).1 := by
  unfold State.scratchRead
  try dsimp only
  repeat' first | with_reducible assumption | with_reducible refine Still.ite ?_ ?_ | with_reducible refine Still.foldl ?_ ?_ | with_reducible refine Still.iteP ?_ ?_ | with_reducible refine Still.foldlP ?_ ?_ | (intro _; intros; try dsimp only) | with_reducible apply State.read_still | split

theorem State.scratchWrite_still {s₀ s0 : State} (h : Still s₀ s0) (t : Nat) (w : Nat) (v : FWord) : Still s₀ (State.scratchWrite s0 t w v) := by
  unfold State.scratchWrite
  try dsimp only
  repeat' first | with_reducible assumption | with_reducible refine Still.ite ?_ ?_ | with_reducible refine Still.foldl ?_ ?_ | with_reducible refine Still.iteP ?_ ?_ | with_reducible refine Still.foldlP ?_ ?_ | (intro _; intros; try dsimp only) | with_reducible apply State.store_still | with_reducible apply State.storeHalf_still | with_reducible apply State.noteFixed_still | with_reducible apply State.noteWrite_still | split

theorem State.stage2Read_still {s₀ s : State} (h : Still s₀ s) (c : Nat) : Still s₀ (State.stage2Read s c) := by
  unfold State.stage2Read
  try dsimp only
  repeat' first | with_reducible assumption | with_reducible refine Still.ite ?_ ?_ | with_reducible refine Still.foldl ?_ ?_ | with_reducible refine Still.iteP ?_ ?_ | with_reducible refine Still.foldlP ?_ ?_ | (intro _; intros; try dsimp only) | with_reducible apply State.setCell_still | with_reducible apply State.read_still | with_reducible apply State.noteRead_still | with_reducible apply State.scratchRead_still | fail_if_no_progress with_reducible refine Still.upd ?_ | split

theorem State.stage2Write_still {s₀ s : State} (h : Still s₀ s) (c : Nat) : Still s₀ (State.stage2Write s c) := by
  unfold State.stage2Write
  try dsimp only
  repeat' first | with_reducible assumption | with_reducible refine Still.ite ?_ ?_ | with_reducible refine Still.foldl ?_ ?_ | with_reducible refine Still.iteP ?_ ?_ | with_reducible refine Still.foldlP ?_ ?_ | (intro _; intros; try dsimp only) | with_reducible apply State.setCell_still | with_reducible apply State.scratchWrite_still | fail_if_no_progress with_reducible refine Still.upd ?_ | split

theorem State.cellEvents_still {s₀ s : State} (h : Still s₀ s) : Still s₀ (State.cellEvents s) := by
  unfold State.cellEvents
  try dsimp only
  repeat' first | with_reducible assumption | with_reducible refine Still.ite ?_ ?_ | with_reducible refine Still.foldl ?_ ?_ | with_reducible refine Still.iteP ?_ ?_ | with_reducible refine Still.foldlP ?_ ?_ | (intro _; intros; try dsimp only) | with_reducible apply State.count_still | with_reducible apply State.sendFlag_still | split

theorem State.cellsAdvance_still {s₀ s : State} (h : Still s₀ s) : Still s₀ (State.cellsAdvance s) := by
  unfold State.cellsAdvance
  try dsimp only
  repeat' first | with_reducible assumption | with_reducible refine Still.ite ?_ ?_ | with_reducible refine Still.foldl ?_ ?_ | with_reducible refine Still.iteP ?_ ?_ | with_reducible refine Still.foldlP ?_ ?_ | (intro _; intros; try dsimp only) | with_reducible apply State.setCell_still | with_reducible apply State.stage2Read_still | with_reducible apply State.stage2Write_still | with_reducible apply State.cellEvents_still | with_reducible apply Still.filterMem | with_reducible apply Still.filterRegs | split

theorem State.tileReset_still {s₀ s : State} (h : Still s₀ s) (t : Nat) : Still s₀ (State.tileReset s t) := h.of_inv (fun i => { i with cells := Tbl.wf_filter _ i.cells }) rfl rfl rfl

end Sys2Proof.Machine
end

