-- ==== Sys2Proof/Laws/KeepsRouting.lean ====
section
/-!
SUPPORT. Sys2Proof/Laws/KeepsRouting.lean: every operation of Machine/Routing.lean leaves standing what Laws/Keeps.lean says.
-/
set_option linter.unusedTactic false
set_option linter.unreachableTactic false
namespace Sys2Proof.Machine

theorem State.lanePush_still {s₀ s : State} (h : Still s₀ s) (sec : Nat) (l : Nat) (w : Nat) (f : Nat) (v : FWord) : Still s₀ (State.lanePush s sec l w f v) := by
  unfold State.lanePush
  try dsimp only
  repeat' first | with_reducible assumption | with_reducible refine Still.ite ?_ ?_ | with_reducible refine Still.foldl ?_ ?_ | with_reducible refine Still.iteP ?_ ?_ | with_reducible refine Still.foldlP ?_ ?_ | (intro _; intros; try dsimp only) | with_reducible apply State.setLane_still | fail_if_no_progress with_reducible refine Still.upd ?_ | with_reducible apply Still.filterMem | with_reducible apply Still.filterRegs | split

theorem State.olpPush_still {s₀ s : State} (h : Still s₀ s) (sec : Nat) (ch : Nat) (w : Nat) (f : Nat) (v : FWord) : Still s₀ (State.olpPush s sec ch w f v) := by
  unfold State.olpPush
  try dsimp only
  repeat' first | with_reducible assumption | with_reducible refine Still.ite ?_ ?_ | with_reducible refine Still.foldl ?_ ?_ | with_reducible refine Still.iteP ?_ ?_ | with_reducible refine Still.foldlP ?_ ?_ | (intro _; intros; try dsimp only) | with_reducible apply State.lanePush_still | split

theorem State.present_still {s₀ s : State} (h : Still s₀ s) (t : Nat) (k : Nat) (w : FWord) : Still s₀ (State.present s t k w) := by
  unfold State.present
  try dsimp only
  repeat' first | with_reducible assumption | exact fun i => i _ | exact fun i => Queue.settle_length (i _) | exact fun i => Queue.pop_length (Queue.settle_length (i _)) | exact fun i => Queue.push_length (Queue.settle_length (i _)) | exact fun i => Queue.landMarker_length (i _) | exact fun _ => Nat.zero_le _ | exact fun _ => (by decide : 1 ≤ 8) | exact Nat.zero_le _ | exact (by decide : 1 ≤ 8) | with_reducible refine Still.ite ?_ ?_ | with_reducible refine Still.foldl ?_ ?_ | with_reducible refine Still.iteP ?_ ?_ | with_reducible refine Still.foldlP ?_ ?_ | (intro _; intros; try dsimp only) | with_reducible apply State.setEng_still | with_reducible apply State.setQueue_still | with_reducible apply State.fresh_still | with_reducible apply State.offer_still | with_reducible apply State.olpPush_still | fail_if_no_progress with_reducible refine Still.upd ?_ | split

theorem State.switchRoute_still {s₀ s : State} (h : Still s₀ s) : Still s₀ (State.switchRoute s) := by
  unfold State.switchRoute
  try dsimp only
  repeat' first | with_reducible assumption | with_reducible refine Still.ite ?_ ?_ | with_reducible refine Still.foldl ?_ ?_ | with_reducible refine Still.iteP ?_ ?_ | with_reducible refine Still.foldlP ?_ ?_ | (intro _; intros; try dsimp only) | with_reducible apply State.present_still | fail_if_no_progress with_reducible refine Still.upd ?_ | split

theorem State.readContexts_still {s₀ s : State} (h : Still s₀ s) : Still s₀ (State.readContexts s) := by
  unfold State.readContexts
  try dsimp only
  repeat' first | with_reducible assumption | with_reducible refine Still.ite ?_ ?_ | with_reducible refine Still.foldl ?_ ?_ | with_reducible refine Still.iteP ?_ ?_ | with_reducible refine Still.foldlP ?_ ?_ | (intro _; intros; try dsimp only) | with_reducible apply State.readCtx_still | split

theorem State.decDrive_still {s₀ s : State} (h : Still s₀ s) (b : Nat) (lvl : Option Bool) : Still s₀ (State.decDrive s b lvl) := by
  unfold State.decDrive
  try dsimp only
  repeat' first | with_reducible assumption | with_reducible refine Still.ite ?_ ?_ | with_reducible refine Still.foldl ?_ ?_ | with_reducible refine Still.iteP ?_ ?_ | with_reducible refine Still.foldlP ?_ ?_ | (intro _; intros; try dsimp only) | with_reducible apply State.setBit_still | fail_if_no_progress with_reducible refine Still.upd ?_ | split

theorem execDecEdge_still (b : Fin 16) (s : State) : StillO s (execDecEdge b s) := by
  unfold execDecEdge
  try dsimp only
  repeat' first | with_reducible assumption | with_reducible refine StillO.go ?_ | with_reducible refine StillO.ite ?_ ?_ | with_reducible exact Still.refl _ | with_reducible refine Still.ite ?_ ?_ | with_reducible refine Still.foldl ?_ ?_ | with_reducible refine Still.iteP ?_ ?_ | with_reducible refine Still.foldlP ?_ ?_ | (intro _; intros; try dsimp only) | with_reducible apply State.count_still | with_reducible apply State.decDrive_still | fail_if_no_progress with_reducible refine Still.upd ?_ | split

end Sys2Proof.Machine
end

