-- ==== Sys2Proof/Laws/KeepsSorters.lean ====
section
/-!
SUPPORT. Sys2Proof/Laws/KeepsSorters.lean: every operation of Machine/Sorters.lean leaves standing what Laws/Keeps.lean says.
-/
set_option linter.unusedTactic false
set_option linter.unreachableTactic false
namespace Sys2Proof.Machine

theorem State.sortLand_still {s₀ s : State} (h : Still s₀ s) : Still s₀ (State.sortLand s) := by
  unfold State.sortLand
  try dsimp only
  repeat' first | with_reducible assumption | with_reducible refine Still.ite ?_ ?_ | with_reducible refine Still.foldl ?_ ?_ | with_reducible refine Still.iteP ?_ ?_ | with_reducible refine Still.foldlP ?_ ?_ | (intro _; intros; try dsimp only) | with_reducible apply State.setSorter_still | fail_if_no_progress with_reducible refine Still.upd ?_ | with_reducible apply Still.filterMem | with_reducible apply Still.filterRegs | split

theorem execSorterCapture_still (k : SectorNo) (s : State) : StillO s (execSorterCapture k s) := by
  unfold execSorterCapture
  try dsimp only
  repeat' first | with_reducible assumption | with_reducible refine StillO.go ?_ | with_reducible refine StillO.ite ?_ ?_ | with_reducible exact Still.refl _ | with_reducible refine Still.ite ?_ ?_ | with_reducible refine Still.foldl ?_ ?_ | with_reducible refine Still.iteP ?_ ?_ | with_reducible refine Still.foldlP ?_ ?_ | (intro _; intros; try dsimp only) | with_reducible apply State.setFld_still | with_reducible apply State.count_still | with_reducible apply State.setSorter_still | fail_if_no_progress with_reducible refine Still.upd ?_ | split

theorem execSorterEmit_still (k : SectorNo) (s : State) : StillO s (execSorterEmit k s) := by
  unfold execSorterEmit
  try dsimp only
  repeat' first | with_reducible assumption | with_reducible refine StillO.go ?_ | with_reducible refine StillO.ite ?_ ?_ | with_reducible exact Still.refl _ | with_reducible refine Still.ite ?_ ?_ | with_reducible refine Still.foldl ?_ ?_ | with_reducible refine Still.iteP ?_ ?_ | with_reducible refine Still.foldlP ?_ ?_ | (intro _; intros; try dsimp only) | with_reducible apply State.setSorter_still | split

theorem execMergeCapture_still (s : State) : StillO s (execMergeCapture s) := by
  unfold execMergeCapture
  try dsimp only
  repeat' first | with_reducible assumption | with_reducible refine StillO.go ?_ | with_reducible refine StillO.ite ?_ ?_ | with_reducible exact Still.refl _ | with_reducible refine Still.ite ?_ ?_ | with_reducible refine Still.foldl ?_ ?_ | with_reducible refine Still.iteP ?_ ?_ | with_reducible refine Still.foldlP ?_ ?_ | (intro _; intros; try dsimp only) | with_reducible apply State.count_still | fail_if_no_progress with_reducible refine Still.upd ?_ | split

theorem execMergeEmit_still (s : State) : StillO s (execMergeEmit s) := by
  unfold execMergeEmit
  try dsimp only
  repeat' first | with_reducible assumption | with_reducible refine StillO.go ?_ | with_reducible refine StillO.ite ?_ ?_ | with_reducible exact Still.refl _ | with_reducible refine Still.ite ?_ ?_ | with_reducible refine Still.foldl ?_ ?_ | with_reducible refine Still.iteP ?_ ?_ | with_reducible refine Still.foldlP ?_ ?_ | (intro _; intros; try dsimp only) | fail_if_no_progress with_reducible refine Still.upd ?_ | split

theorem State.sorterReset_still {s₀ s : State} (h : Still s₀ s) (k : Nat) : Still s₀ (State.sorterReset s k) := by
  unfold State.sorterReset
  try dsimp only
  repeat' first | with_reducible assumption | with_reducible refine Still.ite ?_ ?_ | with_reducible refine Still.foldl ?_ ?_ | with_reducible refine Still.iteP ?_ ?_ | with_reducible refine Still.foldlP ?_ ?_ | (intro _; intros; try dsimp only) | with_reducible apply State.setReg_still | with_reducible apply State.setSorter_still | fail_if_no_progress with_reducible refine Still.upd ?_ | with_reducible apply Still.filterMem | with_reducible apply Still.filterRegs | split

end Sys2Proof.Machine
end

