-- ==== Sys2Proof/Laws/KeepsEnginePipe.lean ====
section
/-!
SUPPORT. Sys2Proof/Laws/KeepsEnginePipe.lean: every operation of Machine/EnginePipe.lean leaves standing what Laws/Keeps.lean says.
-/
set_option linter.unusedTactic false
set_option linter.unreachableTactic false
namespace Sys2Proof.Machine

theorem State.engPop_still {s₀ s : State} (h : Still s₀ s) (q : Nat) : Still s₀ (State.engPop s q).1 := by
  unfold State.engPop
  try dsimp only
  repeat' first | with_reducible assumption | exact fun i => i _ | exact fun i => Queue.settle_length (i _) | exact fun i => Queue.pop_length (Queue.settle_length (i _)) | exact fun i => Queue.push_length (Queue.settle_length (i _)) | exact fun i => Queue.landMarker_length (i _) | exact fun _ => Nat.zero_le _ | exact fun _ => (by decide : 1 ≤ 8) | exact Nat.zero_le _ | exact (by decide : 1 ≤ 8) | with_reducible refine Still.ite ?_ ?_ | with_reducible refine Still.foldl ?_ ?_ | with_reducible refine Still.iteP ?_ ?_ | with_reducible refine Still.foldlP ?_ ?_ | (intro _; intros; try dsimp only) | with_reducible apply State.setBit_still | with_reducible apply State.count_still | with_reducible apply State.setQueue_still | with_reducible apply State.queuePop_still | fail_if_no_progress with_reducible refine Still.upd ?_ | split

theorem State.engIn_still {s₀ s : State} (h : Still s₀ s) (p : Nat) (k : PSlot) : Still s₀ (State.engIn_ s p k) := by
  unfold State.engIn_
  try dsimp only
  repeat' first | with_reducible assumption | with_reducible refine Still.ite ?_ ?_ | with_reducible refine Still.foldl ?_ ?_ | with_reducible refine Still.iteP ?_ ?_ | with_reducible refine Still.foldlP ?_ ?_ | (intro _; intros; try dsimp only) | with_reducible apply State.setEng_still | with_reducible apply State.fresh_still | with_reducible apply State.engPop_still | fail_if_no_progress with_reducible refine Still.upd ?_ | split

theorem State.engSet_still {s₀ s : State} (h : Still s₀ s) (p : Nat) (i : Nat) (w : FWord) : Still s₀ (State.engSet s p i w) := by
  unfold State.engSet
  try dsimp only
  repeat' first | with_reducible assumption | with_reducible refine Still.ite ?_ ?_ | with_reducible refine Still.foldl ?_ ?_ | with_reducible refine Still.iteP ?_ ?_ | with_reducible refine Still.foldlP ?_ ?_ | (intro _; intros; try dsimp only) | with_reducible apply State.setEng_still | fail_if_no_progress with_reducible refine Still.upd ?_ | split

theorem State.engOut_still {s₀ s : State} (h : Still s₀ s) (p : Nat) (i : Nat) (w : FWord) : Still s₀ (State.engOut_ s p i w) := by
  unfold State.engOut_
  try dsimp only
  repeat' first | with_reducible assumption | with_reducible refine Still.ite ?_ ?_ | with_reducible refine Still.foldl ?_ ?_ | with_reducible refine Still.iteP ?_ ?_ | with_reducible refine Still.foldlP ?_ ?_ | (intro _; intros; try dsimp only) | with_reducible apply State.setEng_still | with_reducible apply State.queuePush_still | with_reducible apply State.engSet_still | fail_if_no_progress with_reducible refine Still.upd ?_ | split

theorem State.engPoison_still {s₀ s : State} (h : Still s₀ s) (p : Nat) (cause : W16) : Still s₀ (State.engPoison s p cause) := by
  unfold State.engPoison
  try dsimp only
  repeat' first | with_reducible assumption | with_reducible refine Still.ite ?_ ?_ | with_reducible refine Still.foldl ?_ ?_ | with_reducible refine Still.iteP ?_ ?_ | with_reducible refine Still.foldlP ?_ ?_ | (intro _; intros; try dsimp only) | with_reducible apply State.setEng_still | with_reducible apply State.engSet_still | fail_if_no_progress with_reducible refine Still.upd ?_ | with_reducible apply Still.filterMem | with_reducible apply Still.filterRegs | split

theorem State.copySt_still {s₀ s : State} (h : Still s₀ s) (p : Nat) : Still s₀ (State.copySt s p) := by
  unfold State.copySt
  try dsimp only
  repeat' first | with_reducible assumption | with_reducible refine Still.ite ?_ ?_ | with_reducible refine Still.foldl ?_ ?_ | with_reducible refine Still.iteP ?_ ?_ | with_reducible refine Still.foldlP ?_ ?_ | (intro _; intros; try dsimp only) | with_reducible apply State.setReg_still | split

theorem State.slotMiss_still {s₀ s : State} (h : Still s₀ s) (p : Nat) : Still s₀ (State.slotMiss s p) := by
  unfold State.slotMiss
  try dsimp only
  repeat' first | with_reducible assumption | with_reducible refine Still.ite ?_ ?_ | with_reducible refine Still.foldl ?_ ?_ | with_reducible refine Still.iteP ?_ ?_ | with_reducible refine Still.foldlP ?_ ?_ | (intro _; intros; try dsimp only) | with_reducible apply State.setBit_still | split

theorem State.onGang_still {s₀ s : State} (h : Still s₀ s) (p : Nat) (f : EngSt → EngSt) : Still s₀ (State.onGang s p f) := by
  unfold State.onGang
  try dsimp only
  repeat' first | with_reducible assumption | with_reducible refine Still.ite ?_ ?_ | with_reducible refine Still.foldl ?_ ?_ | with_reducible refine Still.iteP ?_ ?_ | with_reducible refine Still.foldlP ?_ ?_ | (intro _; intros; try dsimp only) | with_reducible apply State.setEng_still | split

theorem State.raise_still {s₀ s : State} (h : Still s₀ s) (p : Nat) (cause : Nat) : Still s₀ (State.raise s p cause) := by
  unfold State.raise
  try dsimp only
  repeat' first | with_reducible assumption | with_reducible refine Still.ite ?_ ?_ | with_reducible refine Still.foldl ?_ ?_ | with_reducible refine Still.iteP ?_ ?_ | with_reducible refine Still.foldlP ?_ ?_ | (intro _; intros; try dsimp only) | with_reducible apply State.setFld_still | with_reducible apply State.setBit_still | with_reducible apply State.count_still | with_reducible apply State.fault_still | with_reducible apply State.setEng_still | with_reducible apply State.engPoison_still | with_reducible apply State.copySt_still | with_reducible apply State.slotMiss_still | with_reducible apply State.onGang_still | fail_if_no_progress with_reducible refine Still.upd ?_ | split

theorem State.abandon_still {s₀ s : State} (h : Still s₀ s) (ld : Nat) : Still s₀ (State.abandon s ld) := by
  unfold State.abandon
  try dsimp only
  repeat' first | with_reducible assumption | with_reducible refine Still.ite ?_ ?_ | with_reducible refine Still.foldl ?_ ?_ | with_reducible refine Still.iteP ?_ ?_ | with_reducible refine Still.foldlP ?_ ?_ | (intro _; intros; try dsimp only) | with_reducible apply State.itemEnd_still | with_reducible apply State.engPoison_still | with_reducible apply State.onGang_still | fail_if_no_progress with_reducible refine Still.upd ?_ | split

theorem State.takeFault_still {s₀ s : State} (h : Still s₀ s) (ld : Nat) (h : Handler) : Still s₀ (State.takeFault s ld h) := by
  unfold State.takeFault
  try dsimp only
  repeat' first | with_reducible assumption | with_reducible refine Still.ite ?_ ?_ | with_reducible refine Still.foldl ?_ ?_ | with_reducible refine Still.iteP ?_ ?_ | with_reducible refine Still.foldlP ?_ ?_ | (intro _; intros; try dsimp only) | with_reducible apply State.post_still | with_reducible apply State.dropPost_still | with_reducible apply State.onGang_still | with_reducible apply State.abandon_still | fail_if_no_progress with_reducible refine Still.upd ?_ | split

theorem State.slotTake_still {s₀ s : State} (h : Still s₀ s) (ld : Nat) (pending : List (BitVec 11 × Bool)) : Still s₀ (State.slotTake s ld pending) := by
  unfold State.slotTake
  try dsimp only
  repeat' first | with_reducible assumption | with_reducible refine Still.ite ?_ ?_ | with_reducible refine Still.foldl ?_ ?_ | with_reducible refine Still.iteP ?_ ?_ | with_reducible refine Still.foldlP ?_ ?_ | (intro _; intros; try dsimp only) | with_reducible apply State.setEng_still | with_reducible apply State.onGang_still | fail_if_no_progress with_reducible refine Still.upd ?_ | split

theorem State.raiseSlot_still {s₀ s : State} (h : Still s₀ s) (ld : Nat) : Still s₀ (State.raiseSlot s ld) := by
  unfold State.raiseSlot
  try dsimp only
  repeat' first | with_reducible assumption | with_reducible refine Still.ite ?_ ?_ | with_reducible refine Still.foldl ?_ ?_ | with_reducible refine Still.iteP ?_ ?_ | with_reducible refine Still.foldlP ?_ ?_ | (intro _; intros; try dsimp only) | with_reducible apply State.setEng_still | with_reducible apply State.slotMiss_still | with_reducible apply State.slotTake_still | fail_if_no_progress with_reducible refine Still.upd ?_ | split

theorem State.stageW_still {s₀ s : State} (h : Still s₀ s) (old : State) (p : Nat) : Still s₀ (State.stageW old s p) := by
  unfold State.stageW
  try dsimp only
  repeat' first | with_reducible assumption | with_reducible refine Still.ite ?_ ?_ | with_reducible refine Still.foldl ?_ ?_ | with_reducible refine Still.iteP ?_ ?_ | with_reducible refine Still.foldlP ?_ ?_ | (intro _; intros; try dsimp only) | with_reducible apply State.setEng_still | with_reducible apply State.storeFirst_still | with_reducible apply State.sendFlag_still | with_reducible apply State.post_still | with_reducible apply State.engOut_still | fail_if_no_progress with_reducible refine Still.upd ?_ | split

theorem State.stageM_still {s₀ s : State} (h : Still s₀ s) (old : State) (p : Nat) : Still s₀ (State.stageM old s p) := by
  unfold State.stageM
  try dsimp only
  repeat' first | with_reducible assumption | with_reducible refine Still.ite ?_ ?_ | with_reducible refine Still.foldl ?_ ?_ | with_reducible refine Still.iteP ?_ ?_ | with_reducible refine Still.foldlP ?_ ?_ | (intro _; intros; try dsimp only) | with_reducible apply State.setEng_still | fail_if_no_progress with_reducible refine Still.upd ?_ | split

theorem State.stageR_still {s₀ s : State} (h : Still s₀ s) (old : State) (p : Nat) : Still s₀ (State.stageR old s p).1 := by
  unfold State.stageR
  try dsimp only
  repeat' first | with_reducible assumption | with_reducible refine Still.ite ?_ ?_ | with_reducible refine Still.foldl ?_ ?_ | with_reducible refine Still.iteP ?_ ?_ | with_reducible refine Still.foldlP ?_ ?_ | (intro _; intros; try dsimp only) | with_reducible apply State.setEng_still | with_reducible apply State.read_still | with_reducible apply State.engIn_still | fail_if_no_progress with_reducible refine Still.upd ?_ | split

theorem State.stageA_still {s₀ s : State} (h : Still s₀ s) (old : State) (ps : List Nat) (p : Nat) : Still s₀ (State.stageA old s ps p).1 := by
  unfold State.stageA
  try dsimp only
  repeat' first | with_reducible assumption | with_reducible refine Still.ite ?_ ?_ | with_reducible refine Still.foldl ?_ ?_ | with_reducible refine Still.iteP ?_ ?_ | with_reducible refine Still.foldlP ?_ ?_ | (intro _; intros; try dsimp only) | with_reducible apply State.setEng_still | fail_if_no_progress with_reducible refine Still.upd ?_ | split

theorem State.onBanks_still {s₀ s : State} (h : Still s₀ s) (ld : Nat) (sh : Bool) (f : Bank → Bank) : Still s₀ (State.onBanks s ld sh f) := by
  unfold State.onBanks
  try dsimp only
  repeat' first | with_reducible assumption | with_reducible refine Still.ite ?_ ?_ | with_reducible refine Still.foldl ?_ ?_ | with_reducible refine Still.iteP ?_ ?_ | with_reducible refine Still.foldlP ?_ ?_ | (intro _; intros; try dsimp only) | with_reducible apply State.onGang_still | split

theorem State.fetch_still {s₀ s : State} (h : Still s₀ s) (old : State) (ld : Nat) : Still s₀ (State.fetch old s ld).1 := by
  unfold State.fetch
  try dsimp only
  repeat' first | with_reducible assumption | with_reducible refine Still.ite ?_ ?_ | with_reducible refine Still.foldl ?_ ?_ | with_reducible refine Still.iteP ?_ ?_ | with_reducible refine Still.foldlP ?_ ?_ | (intro _; intros; try dsimp only) | with_reducible apply State.setEng_still | with_reducible apply State.read_still | fail_if_no_progress with_reducible refine Still.upd ?_ | split

theorem State.loopStart_still {s₀ s : State} (h : Still s₀ s) (ld : Nat) (k : PSlot) (count : Nat → W16) : Still s₀ (State.loopStart s ld k count) := by
  unfold State.loopStart
  try dsimp only
  repeat' first | with_reducible assumption | with_reducible refine Still.ite ?_ ?_ | with_reducible refine Still.foldl ?_ ?_ | with_reducible refine Still.iteP ?_ ?_ | with_reducible refine Still.foldlP ?_ ?_ | (intro _; intros; try dsimp only) | with_reducible apply State.count_still | with_reducible apply State.setEng_still | fail_if_no_progress with_reducible refine Still.upd ?_ | split

theorem State.controlA_still {s₀ s : State} (h : Still s₀ s) (old : State) (ld : Nat) (w : Flow) : Still s₀ (State.controlA old s ld w).1 := by
  unfold State.controlA
  try dsimp only
  repeat' first | with_reducible assumption | with_reducible refine Still.ite ?_ ?_ | with_reducible refine Still.foldl ?_ ?_ | with_reducible refine Still.iteP ?_ ?_ | with_reducible refine Still.foldlP ?_ ?_ | (intro _; intros; try dsimp only) | with_reducible apply State.setEng_still | with_reducible apply State.loopStart_still | fail_if_no_progress with_reducible refine Still.upd ?_ | split

theorem State.controlD_still {s₀ s : State} (h : Still s₀ s) (ld : Nat) (k : PSlot) (w : Flow) : Still s₀ (State.controlD s ld k w).1 := by
  unfold State.controlD
  try dsimp only
  repeat' first | with_reducible assumption | with_reducible refine Still.ite ?_ ?_ | with_reducible refine Still.foldl ?_ ?_ | with_reducible refine Still.iteP ?_ ?_ | with_reducible refine Still.foldlP ?_ ?_ | (intro _; intros; try dsimp only) | with_reducible apply State.setEng_still | with_reducible apply State.onGang_still | with_reducible apply State.loopStart_still | fail_if_no_progress with_reducible refine Still.upd ?_ | split

theorem State.engFail_still {s₀ s : State} (h : Still s₀ s) (ld : Nat) : Still s₀ (State.engFail s ld) := by
  unfold State.engFail
  try dsimp only
  repeat' first | with_reducible assumption | with_reducible refine Still.ite ?_ ?_ | with_reducible refine Still.foldl ?_ ?_ | with_reducible refine Still.iteP ?_ ?_ | with_reducible refine Still.foldlP ?_ ?_ | (intro _; intros; try dsimp only) | with_reducible apply State.onGang_still | fail_if_no_progress with_reducible refine Still.upd ?_ | split

theorem State.runEnd_still {s₀ s : State} (h : Still s₀ s) (ld : Nat) (k : PSlot) : Still s₀ (State.runEnd s ld k) := by
  unfold State.runEnd
  try dsimp only
  repeat' first | with_reducible assumption | with_reducible refine Still.ite ?_ ?_ | with_reducible refine Still.foldl ?_ ?_ | with_reducible refine Still.iteP ?_ ?_ | with_reducible refine Still.foldlP ?_ ?_ | (intro _; intros; try dsimp only) | with_reducible apply State.itemEnd_still | with_reducible apply State.copySt_still | with_reducible apply State.onGang_still | fail_if_no_progress with_reducible refine Still.upd ?_ | split

theorem State.engIllegal_still {s₀ s : State} (h : Still s₀ s) (ld : Nat) : Still s₀ (State.engIllegal s ld) := by
  unfold State.engIllegal
  try dsimp only
  repeat' first | with_reducible assumption | with_reducible refine Still.ite ?_ ?_ | with_reducible refine Still.foldl ?_ ?_ | with_reducible refine Still.iteP ?_ ?_ | with_reducible refine Still.foldlP ?_ ?_ | (intro _; intros; try dsimp only) | with_reducible apply State.onGang_still | with_reducible apply State.raise_still | fail_if_no_progress with_reducible refine Still.upd ?_ | split

theorem State.copyOldSt_still {s₀ s : State} (h : Still s₀ s) (old : State) (ld : Nat) : Still s₀ (State.copyOldSt old s ld) := by
  unfold State.copyOldSt
  try dsimp only
  repeat' first | with_reducible assumption | with_reducible refine Still.ite ?_ ?_ | with_reducible refine Still.foldl ?_ ?_ | with_reducible refine Still.iteP ?_ ?_ | with_reducible refine Still.foldlP ?_ ?_ | (intro _; intros; try dsimp only) | with_reducible apply State.setReg_still | with_reducible apply State.copySt_still | split

theorem State.engMove_still {s₀ s : State} (h : Still s₀ s) (ld : Nat) : Still s₀ (State.engMove s ld) := by
  unfold State.engMove
  extract_lets ps g0 bad take s1 s2 rr ra f fa fd flow dSlot s3 s4 s5
  have h1 : Still s₀ s1 := Still.foldl h (fun _ _ hs => State.stageW_still hs _ _)
  have h2 : Still s₀ s2 := Still.foldl h1 (fun _ _ hs => State.stageM_still hs _ _)
  have h3 : Still s₀ rr.1 := Still.foldlP h2 (fun _ _ hs => State.stageR_still hs _ _)
  have h4 : Still s₀ ra.1 := Still.foldlP h3 (fun _ _ hs => State.stageA_still hs _ _ _)
  have h5 : Still s₀ f.1 := State.fetch_still h4 _ _
  have h6 : Still s₀ fa.1 := State.controlA_still h5 _ _ _
  have h7 : Still s₀ fd.1 := by
    simp only [fd]
    split
    · split
      · exact h6
      · exact State.controlD_still h6 _ _ _
    · exact h6
  refine Still.ite (State.engFail_still h7 _) ?_
  · have h8 : Still s₀ s3 := Still.foldl h7 (fun _ _ hs => State.setEng_still hs _ _)
    have h9 : Still s₀ s4 := by
      simp only [s4]
      split
      · exact Still.ite (State.runEnd_still h8 _ _) h8
      · exact h8
    have h10 : Still s₀ s5 := Still.ite (State.abandon_still h9 _) h9
    exact Still.ite (State.copyOldSt_still (State.raise_still h10 _ _) _ _) (Still.ite (State.slotTake_still h10 _ _)
      (Still.ite (State.setEng_still h10 _ _) h10))

theorem State.engCycle_still {s₀ s : State} (h : Still s₀ s) (ld : Nat) : Still s₀ (State.engCycle s ld) := by
  unfold State.engCycle
  try dsimp only
  repeat' first | with_reducible assumption | with_reducible refine Still.ite ?_ ?_ | with_reducible refine Still.foldl ?_ ?_ | with_reducible refine Still.iteP ?_ ?_ | with_reducible refine Still.foldlP ?_ ?_ | (intro _; intros; try dsimp only) | with_reducible apply State.fault_still | with_reducible apply State.engIllegal_still | with_reducible apply State.engMove_still | split

theorem State.postOffer_still {s₀ s : State} (h : Still s₀ s) (ld : Nat) : Still s₀ (State.postOffer s ld) := by
  unfold State.postOffer
  try dsimp only
  repeat' first | with_reducible assumption | with_reducible refine Still.ite ?_ ?_ | with_reducible refine Still.foldl ?_ ?_ | with_reducible refine Still.iteP ?_ ?_ | with_reducible refine Still.foldlP ?_ ?_ | (intro _; intros; try dsimp only) | with_reducible apply State.setEng_still | with_reducible apply State.post_still | fail_if_no_progress with_reducible refine Still.upd ?_ | fail_if_no_progress with_reducible refine Still.updDpt ?_ | fail_if_no_progress with_reducible refine Still.updAny ?_ ⟨rfl, rfl, rfl, rfl, rfl, rfl, rfl, rfl⟩ | split

theorem State.holdStart_still {s₀ s : State} (h : Still s₀ s) (ld : Nat) : Still s₀ (State.holdStart s ld) := by
  unfold State.holdStart
  try dsimp only
  repeat' first | with_reducible assumption | with_reducible refine Still.ite ?_ ?_ | with_reducible refine Still.foldl ?_ ?_ | with_reducible refine Still.iteP ?_ ?_ | with_reducible refine Still.foldlP ?_ ?_ | (intro _; intros; try dsimp only) | with_reducible apply State.onGang_still | fail_if_no_progress with_reducible refine Still.upd ?_ | split

theorem State.engRow_still (s : State) (p : Nat) (k : CycleKind) : StillO s (State.engRow s p k) := by
  unfold State.engRow
  try dsimp only
  repeat' first | with_reducible assumption | with_reducible refine StillO.go ?_ | with_reducible refine StillO.ite ?_ ?_ | with_reducible exact Still.refl _ | with_reducible refine Still.ite ?_ ?_ | with_reducible refine Still.foldl ?_ ?_ | with_reducible refine Still.iteP ?_ ?_ | with_reducible refine Still.foldlP ?_ ?_ | (intro _; intros; try dsimp only) | with_reducible apply State.fault_still | with_reducible apply State.raise_still | with_reducible apply State.engIllegal_still | with_reducible apply State.engCycle_still | with_reducible apply State.postOffer_still | with_reducible apply State.holdStart_still | split

end Sys2Proof.Machine
end

