-- ==== Sys2Proof/Laws/KeepsNet.lean ====
section
/-!
SUPPORT. Sys2Proof/Laws/KeepsNet.lean: every operation of Machine/Net.lean leaves standing what Laws/Keeps.lean says.
-/
set_option linter.unusedTactic false
set_option linter.unreachableTactic false
namespace Sys2Proof.Machine

theorem State.send_still {s₀ s : State} (h : Still s₀ s) (p : Packet) : Still s₀ (State.send s p) := by
  unfold State.send
  try dsimp only
  repeat' first | with_reducible assumption | with_reducible refine Still.ite ?_ ?_ | with_reducible refine Still.foldl ?_ ?_ | with_reducible refine Still.iteP ?_ ?_ | with_reducible refine Still.foldlP ?_ ?_ | (intro _; intros; try dsimp only) | fail_if_no_progress with_reducible refine Still.upd ?_ | split

theorem State.reply_still {s₀ s : State} (h : Still s₀ s) (p : Packet) (cmd : Nat) (status : Nat) (aux : Nat) (data : List Byte) (psn : BitVec 16) : Still s₀ (State.reply s p cmd status aux data psn) := by
  unfold State.reply
  try dsimp only
  repeat' first | with_reducible assumption | with_reducible refine Still.ite ?_ ?_ | with_reducible refine Still.foldl ?_ ?_ | with_reducible refine Still.iteP ?_ ?_ | with_reducible refine Still.foldlP ?_ ?_ | (intro _; intros; try dsimp only) | with_reducible apply State.send_still | split

theorem State.answer_still {s₀ s : State} (h : Still s₀ s) (p : Packet) (status : Nat) : Still s₀ (State.answer s p status) := by
  unfold State.answer
  try dsimp only
  repeat' first | with_reducible assumption | with_reducible refine Still.ite ?_ ?_ | with_reducible refine Still.foldl ?_ ?_ | with_reducible refine Still.iteP ?_ ?_ | with_reducible refine Still.foldlP ?_ ?_ | (intro _; intros; try dsimp only) | with_reducible apply State.reply_still | split

theorem State.spend_still {s₀ s : State} (h : Still s₀ s) (req : Nat) (pool : Nat) : Still s₀ (State.spend s req pool) := by
  unfold State.spend
  try dsimp only
  repeat' first | with_reducible assumption | with_reducible refine Still.ite ?_ ?_ | with_reducible refine Still.foldl ?_ ?_ | with_reducible refine Still.iteP ?_ ?_ | with_reducible refine Still.foldlP ?_ ?_ | (intro _; intros; try dsimp only) | fail_if_no_progress with_reducible refine Still.upd ?_ | split

theorem State.restore_still {s₀ s : State} (h : Still s₀ s) (req : Nat) (pool : Nat) (n : Nat) : Still s₀ (State.restore s req pool n) := by
  unfold State.restore
  try dsimp only
  repeat' first | with_reducible assumption | with_reducible refine Still.ite ?_ ?_ | with_reducible refine Still.foldl ?_ ?_ | with_reducible refine Still.iteP ?_ ?_ | with_reducible refine Still.foldlP ?_ ?_ | (intro _; intros; try dsimp only) | fail_if_no_progress with_reducible refine Still.upd ?_ | split

theorem State.freePosted_still {s₀ s : State} (h : Still s₀ s) (p : Packet) : Still s₀ (State.freePosted s p) := by
  unfold State.freePosted
  try dsimp only
  repeat' first | with_reducible assumption | with_reducible refine Still.ite ?_ ?_ | with_reducible refine Still.foldl ?_ ?_ | with_reducible refine Still.iteP ?_ ?_ | with_reducible refine Still.foldlP ?_ ?_ | (intro _; intros; try dsimp only) | fail_if_no_progress with_reducible refine Still.upd ?_ | split

theorem State.creditLost_still {s₀ s : State} (h : Still s₀ s) : Still s₀ (State.creditLost s) := by
  unfold State.creditLost
  try dsimp only
  repeat' first | with_reducible assumption | with_reducible refine Still.ite ?_ ?_ | with_reducible refine Still.foldl ?_ ?_ | with_reducible refine Still.iteP ?_ ?_ | with_reducible refine Still.foldlP ?_ ?_ | (intro _; intros; try dsimp only) | with_reducible apply State.setBit_still | with_reducible apply State.count_still | split

theorem State.respDisc_still {s₀ s : State} (h : Still s₀ s) : Still s₀ (State.respDisc s) := by
  unfold State.respDisc
  try dsimp only
  repeat' first | with_reducible assumption | with_reducible refine Still.ite ?_ ?_ | with_reducible refine Still.foldl ?_ ?_ | with_reducible refine Still.iteP ?_ ?_ | with_reducible refine Still.foldlP ?_ ?_ | (intro _; intros; try dsimp only) | with_reducible apply State.count_still | split

theorem State.postedDisc_still {s₀ s : State} (h : Still s₀ s) (p : Packet) : Still s₀ (State.postedDisc s p) := by
  unfold State.postedDisc
  try dsimp only
  repeat' first | with_reducible assumption | with_reducible refine Still.ite ?_ ?_ | with_reducible refine Still.foldl ?_ ?_ | with_reducible refine Still.iteP ?_ ?_ | with_reducible refine Still.foldlP ?_ ?_ | (intro _; intros; try dsimp only) | with_reducible apply State.setBit_still | with_reducible apply State.count_still | with_reducible apply State.freePosted_still | split

theorem State.badHeader_still {s₀ s : State} (h : Still s₀ s) (p : Packet) : Still s₀ (State.badHeader s p) := by
  unfold State.badHeader
  try dsimp only
  repeat' first | with_reducible assumption | with_reducible refine Still.ite ?_ ?_ | with_reducible refine Still.foldl ?_ ?_ | with_reducible refine Still.iteP ?_ ?_ | with_reducible refine Still.foldlP ?_ ?_ | (intro _; intros; try dsimp only) | with_reducible apply State.setBit_still | with_reducible apply State.count_still | with_reducible apply State.creditLost_still | split

theorem State.speaker_still {s₀ s : State} (h : Still s₀ s) (e : Nat) : Still s₀ (State.speaker s e) := by
  unfold State.speaker
  try dsimp only
  repeat' first | with_reducible assumption | with_reducible refine Still.ite ?_ ?_ | with_reducible refine Still.foldl ?_ ?_ | with_reducible refine Still.iteP ?_ ?_ | with_reducible refine Still.foldlP ?_ ?_ | (intro _; intros; try dsimp only) | with_reducible apply State.setBit_still | with_reducible apply State.count_still | with_reducible apply State.event_still | fail_if_no_progress with_reducible refine Still.upd ?_ | split

theorem State.applyBroadcast_still {s₀ s : State} (h : Still s₀ s) (b : Broadcast) : Still s₀ (State.applyBroadcast s b) := by
  unfold State.applyBroadcast
  try dsimp only
  repeat' first | with_reducible assumption | with_reducible refine Still.ite ?_ ?_ | with_reducible refine Still.foldl ?_ ?_ | with_reducible refine Still.iteP ?_ ?_ | with_reducible refine Still.foldlP ?_ ?_ | (intro _; intros; try dsimp only) | with_reducible apply State.setReg_still | fail_if_no_progress with_reducible refine Still.upd ?_ | split

theorem execFenceBroadcast_still (s : State) : StillO s (execFenceBroadcast s) := by
  unfold execFenceBroadcast
  try dsimp only
  repeat' first | with_reducible assumption | with_reducible refine StillO.go ?_ | with_reducible refine StillO.ite ?_ ?_ | with_reducible exact Still.refl _ | with_reducible refine Still.ite ?_ ?_ | with_reducible refine Still.foldl ?_ ?_ | with_reducible refine Still.iteP ?_ ?_ | with_reducible refine Still.foldlP ?_ ?_ | (intro _; intros; try dsimp only) | with_reducible apply State.applyBroadcast_still | fail_if_no_progress with_reducible refine Still.upd ?_ | split

theorem State.leaveInput_still {s₀ s : State} (h : Still s₀ s) (t : Transit) : Still s₀ (State.leaveInput s t) := by
  unfold State.leaveInput
  try dsimp only
  repeat' first | with_reducible assumption | with_reducible refine Still.ite ?_ ?_ | with_reducible refine Still.foldl ?_ ?_ | with_reducible refine Still.iteP ?_ ?_ | with_reducible refine Still.foldlP ?_ ?_ | (intro _; intros; try dsimp only) | fail_if_no_progress with_reducible refine Still.upd ?_ | split

theorem State.sending_still {s₀ s : State} (h : Still s₀ s) (p : Packet) : Still s₀ (State.sending s p) := by
  unfold State.sending
  try dsimp only
  repeat' first | with_reducible assumption | exact fun i => i _ | exact fun i => Queue.settle_length (i _) | exact fun i => Queue.pop_length (Queue.settle_length (i _)) | exact fun i => Queue.push_length (Queue.settle_length (i _)) | exact fun i => Queue.landMarker_length (i _) | exact fun _ => Nat.zero_le _ | exact fun _ => (by decide : 1 ≤ 8) | exact Nat.zero_le _ | exact (by decide : 1 ≤ 8) | with_reducible refine Still.ite ?_ ?_ | with_reducible refine Still.foldl ?_ ?_ | with_reducible refine Still.iteP ?_ ?_ | with_reducible refine Still.foldlP ?_ ?_ | (intro _; intros; try dsimp only) | with_reducible apply State.setQueue_still | with_reducible apply State.post_still | with_reducible apply State.spend_still | fail_if_no_progress with_reducible refine Still.upd ?_ | split

theorem State.stand_still {s₀ s : State} (h : Still s₀ s) (p : Packet) (t : BitVec 11) (r : Nat) (port : Nat) (prev : Option (Nat × Nat)) : Still s₀ (State.stand s p t r port prev) := by
  unfold State.stand
  try dsimp only
  repeat' first | with_reducible assumption | with_reducible refine Still.ite ?_ ?_ | with_reducible refine Still.foldl ?_ ?_ | with_reducible refine Still.iteP ?_ ?_ | with_reducible refine Still.foldlP ?_ ?_ | (intro _; intros; try dsimp only) | with_reducible apply State.count_still | with_reducible apply State.answer_still | with_reducible apply State.postedDisc_still | fail_if_no_progress with_reducible refine Still.upd ?_ | split

theorem State.enter_still {s₀ s : State} (h : Still s₀ s) (r : Nat) (i : Nat) (p : Packet) : Still s₀ (State.enter s r i p) := by
  unfold State.enter
  try dsimp only
  repeat' first | with_reducible assumption | with_reducible refine Still.ite ?_ ?_ | with_reducible refine Still.foldl ?_ ?_ | with_reducible refine Still.iteP ?_ ?_ | with_reducible refine Still.foldlP ?_ ?_ | (intro _; intros; try dsimp only) | with_reducible apply State.answer_still | with_reducible apply State.respDisc_still | with_reducible apply State.speaker_still | with_reducible apply State.sending_still | with_reducible apply State.stand_still | fail_if_no_progress with_reducible refine Still.upd ?_ | split

theorem execRouterHeader_still (r : RouterNo) (port : Fin 9) (p : Packet) (s : State) : StillO s (execRouterHeader r port p s) := by
  unfold execRouterHeader
  try dsimp only
  repeat' first | with_reducible assumption | with_reducible refine StillO.go ?_ | with_reducible refine StillO.ite ?_ ?_ | with_reducible exact Still.refl _ | with_reducible refine Still.ite ?_ ?_ | with_reducible refine Still.foldl ?_ ?_ | with_reducible refine Still.iteP ?_ ?_ | with_reducible refine Still.foldlP ?_ ?_ | (intro _; intros; try dsimp only) | with_reducible apply State.leaveInput_still | with_reducible apply State.stand_still | with_reducible apply State.enter_still | fail_if_no_progress with_reducible refine Still.upd ?_ | split

theorem execAgeIncrement_still (r : RouterNo) (port : Fin 9) (p : Packet) (s : State) : StillO s (execAgeIncrement r port p s) := by
  unfold execAgeIncrement
  try dsimp only
  repeat' first | with_reducible assumption | with_reducible refine StillO.go ?_ | with_reducible refine StillO.ite ?_ ?_ | with_reducible exact Still.refl _ | with_reducible refine Still.ite ?_ ?_ | with_reducible refine Still.foldl ?_ ?_ | with_reducible refine Still.iteP ?_ ?_ | with_reducible refine Still.foldlP ?_ ?_ | (intro _; intros; try dsimp only) | fail_if_no_progress with_reducible refine Still.upd ?_ | split

theorem State.take_still {s₀ s : State} (h : Still s₀ s) (p : Packet) : Still s₀ (State.take s p) := by
  unfold State.take
  try dsimp only
  repeat' first | with_reducible assumption | with_reducible refine Still.ite ?_ ?_ | with_reducible refine Still.foldl ?_ ?_ | with_reducible refine Still.iteP ?_ ?_ | with_reducible refine Still.foldlP ?_ ?_ | (intro _; intros; try dsimp only) | with_reducible apply State.leaveInput_still | fail_if_no_progress with_reducible refine Still.upd ?_ | split

theorem State.request_still (s : State) (p : Packet) (cmd : Nat) (f : State → State) (hf : ∀ s₁, Still s s₁ → Still s (f s₁)) : StillO s (State.request s p cmd f) := by
  unfold State.request
  try dsimp only
  repeat' first | with_reducible assumption | with_reducible apply hf | with_reducible refine StillO.go ?_ | with_reducible refine StillO.ite ?_ ?_ | with_reducible exact Still.refl _ | with_reducible refine Still.ite ?_ ?_ | with_reducible refine Still.foldl ?_ ?_ | with_reducible refine Still.iteP ?_ ?_ | with_reducible refine Still.foldlP ?_ ?_ | (intro _; intros; try dsimp only) | with_reducible apply State.setBit_still | with_reducible apply State.count_still | with_reducible apply State.answer_still | with_reducible apply State.postedDisc_still | with_reducible apply State.badHeader_still | with_reducible apply State.take_still | split

theorem State.complete_still {s₀ s : State} (h : Still s₀ s) (c : Completion) : Still s₀ (State.complete s c) := by
  unfold State.complete
  try dsimp only
  repeat' first | with_reducible assumption | with_reducible refine Still.ite ?_ ?_ | with_reducible refine Still.foldl ?_ ?_ | with_reducible refine Still.iteP ?_ ?_ | with_reducible refine Still.foldlP ?_ ?_ | (intro _; intros; try dsimp only) | fail_if_no_progress with_reducible refine Still.upd ?_ | with_reducible apply Still.filterMem | with_reducible apply Still.filterRegs | split

theorem State.response_still (s : State) (p : Packet) (cmd : Nat) (f : Await → State → State) (hf : ∀ a s₁, Still s s₁ → Still s (f a s₁)) : StillO s (State.response s p cmd f) := by
  unfold State.response
  try dsimp only
  repeat' first | with_reducible assumption | with_reducible apply hf | with_reducible refine StillO.go ?_ | with_reducible refine StillO.ite ?_ ?_ | with_reducible exact Still.refl _ | with_reducible refine Still.ite ?_ ?_ | with_reducible refine Still.foldl ?_ ?_ | with_reducible refine Still.iteP ?_ ?_ | with_reducible refine Still.foldlP ?_ ?_ | (intro _; intros; try dsimp only) | with_reducible apply State.restore_still | with_reducible apply State.respDisc_still | with_reducible apply State.badHeader_still | with_reducible apply State.take_still | with_reducible apply State.complete_still | fail_if_no_progress with_reducible refine Still.upd ?_ | split

theorem execNocRdr_still (p : Packet) (s : State) : StillO s (execNocRdr p s) := by
  unfold execNocRdr
  try dsimp only
  repeat' first | with_reducible assumption | with_reducible refine StillO.go ?_ | with_reducible refine StillO.ite ?_ ?_ | with_reducible exact Still.refl _ | with_reducible refine Still.ite ?_ ?_ | with_reducible refine Still.foldl ?_ ?_ | with_reducible refine Still.iteP ?_ ?_ | with_reducible refine Still.foldlP ?_ ?_ | (intro _; intros; try dsimp only) | with_reducible apply State.response_still | split

theorem execNocWra_still (p : Packet) (s : State) : StillO s (execNocWra p s) := by
  unfold execNocWra
  try dsimp only
  repeat' first | with_reducible assumption | with_reducible refine StillO.go ?_ | with_reducible refine StillO.ite ?_ ?_ | with_reducible exact Still.refl _ | with_reducible refine Still.ite ?_ ?_ | with_reducible refine Still.foldl ?_ ?_ | with_reducible refine Still.iteP ?_ ?_ | with_reducible refine Still.foldlP ?_ ?_ | (intro _; intros; try dsimp only) | with_reducible apply State.response_still | split

theorem State.postAnswered_still {s₀ s : State} (h : Still s₀ s) (w : Await) (code : W16) : Still s₀ (State.postAnswered s w code) := by
  unfold State.postAnswered
  try dsimp only
  repeat' first | with_reducible assumption | with_reducible refine Still.ite ?_ ?_ | with_reducible refine Still.foldl ?_ ?_ | with_reducible refine Still.iteP ?_ ?_ | with_reducible refine Still.foldlP ?_ ?_ | (intro _; intros; try dsimp only) | with_reducible apply State.setEng_still | with_reducible apply State.post_still | fail_if_no_progress with_reducible refine Still.upd ?_ | fail_if_no_progress with_reducible refine Still.updDpt ?_ | fail_if_no_progress with_reducible refine Still.updAny ?_ ⟨rfl, rfl, rfl, rfl, rfl, rfl, rfl, rfl⟩ | split

theorem execNocPrsp_still (p : Packet) (s : State) : StillO s (execNocPrsp p s) := by
  unfold execNocPrsp
  try dsimp only
  repeat' first | with_reducible assumption | with_reducible refine StillO.go ?_ | with_reducible refine StillO.ite ?_ ?_ | with_reducible exact Still.refl _ | with_reducible refine Still.ite ?_ ?_ | with_reducible refine Still.foldl ?_ ?_ | with_reducible refine Still.iteP ?_ ?_ | with_reducible refine Still.foldlP ?_ ?_ | (intro _; intros; try dsimp only) | with_reducible apply State.response_still | with_reducible apply State.postAnswered_still | split

theorem execNocCret_still (p : Packet) (s : State) : StillO s (execNocCret p s) := by
  unfold execNocCret
  try dsimp only
  repeat' first | with_reducible assumption | with_reducible refine StillO.go ?_ | with_reducible refine StillO.ite ?_ ?_ | with_reducible exact Still.refl _ | with_reducible refine Still.ite ?_ ?_ | with_reducible refine Still.foldl ?_ ?_ | with_reducible refine Still.iteP ?_ ?_ | with_reducible refine Still.foldlP ?_ ?_ | (intro _; intros; try dsimp only) | with_reducible apply State.restore_still | with_reducible apply State.respDisc_still | with_reducible apply State.badHeader_still | with_reducible apply State.take_still | split

theorem execNocPost_still (p : Packet) (s : State) : StillO s (execNocPost p s) := by
  unfold execNocPost
  try dsimp only
  repeat' first | with_reducible assumption | with_reducible refine StillO.go ?_ | with_reducible refine StillO.ite ?_ ?_ | with_reducible exact Still.refl _ | with_reducible refine Still.ite ?_ ?_ | with_reducible refine Still.foldl ?_ ?_ | with_reducible refine Still.iteP ?_ ?_ | with_reducible refine Still.foldlP ?_ ?_ | (intro _; intros; try dsimp only) | with_reducible apply State.setBit_still | with_reducible apply State.count_still | with_reducible apply State.readiness_still | with_reducible apply State.respond_still | with_reducible apply State.post_still | with_reducible apply State.reply_still | with_reducible apply State.answer_still | with_reducible apply State.take_still | with_reducible apply State.request_still | fail_if_no_progress with_reducible refine Still.upd ?_ | fail_if_no_progress with_reducible refine Still.updDpt ?_ | fail_if_no_progress with_reducible refine Still.updAny ?_ ⟨rfl, rfl, rfl, rfl, rfl, rfl, rfl, rfl⟩ | split

theorem execNocStrm_still (p : Packet) (s : State) : StillO s (execNocStrm p s) := by
  unfold execNocStrm
  try dsimp only
  repeat' first | with_reducible assumption | exact fun i => i _ | exact fun i => Queue.settle_length (i _) | exact fun i => Queue.pop_length (Queue.settle_length (i _)) | exact fun i => Queue.push_length (Queue.settle_length (i _)) | exact fun i => Queue.landMarker_length (i _) | exact fun _ => Nat.zero_le _ | exact fun _ => (by decide : 1 ≤ 8) | exact Nat.zero_le _ | exact (by decide : 1 ≤ 8) | with_reducible refine StillO.go ?_ | with_reducible refine StillO.ite ?_ ?_ | with_reducible exact Still.refl _ | with_reducible refine Still.ite ?_ ?_ | with_reducible refine Still.foldl ?_ ?_ | with_reducible refine Still.iteP ?_ ?_ | with_reducible refine Still.foldlP ?_ ?_ | (intro _; intros; try dsimp only) | with_reducible apply State.setQueue_still | with_reducible apply State.freePosted_still | with_reducible apply State.request_still | fail_if_no_progress with_reducible refine Still.upd ?_ | split

theorem execNocRstn_still (p : Packet) (s : State) : StillO s (execNocRstn p s) := by
  unfold execNocRstn
  try dsimp only
  repeat' first | with_reducible assumption | exact fun i => i _ | exact fun i => Queue.settle_length (i _) | exact fun i => Queue.pop_length (Queue.settle_length (i _)) | exact fun i => Queue.push_length (Queue.settle_length (i _)) | exact fun i => Queue.landMarker_length (i _) | exact fun _ => Nat.zero_le _ | exact fun _ => (by decide : 1 ≤ 8) | exact Nat.zero_le _ | exact (by decide : 1 ≤ 8) | with_reducible refine StillO.go ?_ | with_reducible refine StillO.ite ?_ ?_ | with_reducible exact Still.refl _ | with_reducible refine Still.ite ?_ ?_ | with_reducible refine Still.foldl ?_ ?_ | with_reducible refine Still.iteP ?_ ?_ | with_reducible refine Still.foldlP ?_ ?_ | (intro _; intros; try dsimp only) | with_reducible apply State.setQueue_still | with_reducible apply State.freePosted_still | with_reducible apply State.request_still | fail_if_no_progress with_reducible refine Still.upd ?_ | split

theorem State.restartNotice_still {s₀ s : State} (h : Still s₀ s) (q : Nat) : Still s₀ (State.restartNotice s q) := by
  unfold State.restartNotice
  try dsimp only
  repeat' first | with_reducible assumption | with_reducible refine Still.ite ?_ ?_ | with_reducible refine Still.foldl ?_ ?_ | with_reducible refine Still.iteP ?_ ?_ | with_reducible refine Still.foldlP ?_ ?_ | (intro _; intros; try dsimp only) | with_reducible apply State.send_still | split

theorem execCretSend_still (pool : BitVec 10) (req : BitVec 10) (s : State) : StillO s (execCretSend pool req s) := by
  unfold execCretSend
  try dsimp only
  repeat' first | with_reducible assumption | with_reducible refine StillO.go ?_ | with_reducible refine StillO.ite ?_ ?_ | with_reducible exact Still.refl _ | with_reducible refine Still.ite ?_ ?_ | with_reducible refine Still.foldl ?_ ?_ | with_reducible refine Still.iteP ?_ ?_ | with_reducible refine Still.foldlP ?_ ?_ | (intro _; intros; try dsimp only) | with_reducible apply State.send_still | fail_if_no_progress with_reducible refine Still.upd ?_ | split

theorem execReplyTimeout_still (src : BitVec 10) (tag : Byte) (s : State) : StillO s (execReplyTimeout src tag s) := by
  unfold execReplyTimeout
  try dsimp only
  repeat' first | with_reducible assumption | with_reducible refine StillO.go ?_ | with_reducible refine StillO.ite ?_ ?_ | with_reducible exact Still.refl _ | with_reducible refine Still.ite ?_ ?_ | with_reducible refine Still.foldl ?_ ?_ | with_reducible refine Still.iteP ?_ ?_ | with_reducible refine Still.foldlP ?_ ?_ | (intro _; intros; try dsimp only) | with_reducible apply State.setBit_still | with_reducible apply State.count_still | with_reducible apply State.post_still | with_reducible apply State.creditLost_still | with_reducible apply State.complete_still | with_reducible apply State.postAnswered_still | fail_if_no_progress with_reducible refine Still.upd ?_ | fail_if_no_progress with_reducible refine Still.updDpt ?_ | fail_if_no_progress with_reducible refine Still.updAny ?_ ⟨rfl, rfl, rfl, rfl, rfl, rfl, rfl, rfl⟩ | split

end Sys2Proof.Machine
end

