-- ==== Sys2Proof/Laws/KeepsResets.lean ====
section
/-!
SUPPORT. Sys2Proof/Laws/KeepsResets.lean: every operation of Machine/Resets.lean leaves standing what Laws/Keeps.lean says.
-/
set_option linter.unusedTactic false
set_option linter.unreachableTactic false
namespace Sys2Proof.Machine

theorem State.engLeave_still {s₀ s : State} (h : Still s₀ s) (p : Nat) : Still s₀ (State.engLeave s p) := by
  unfold State.engLeave
  try dsimp only
  repeat' first | with_reducible assumption | with_reducible refine Still.ite ?_ ?_ | with_reducible refine Still.foldl ?_ ?_ | with_reducible refine Still.iteP ?_ ?_ | with_reducible refine Still.foldlP ?_ ?_ | (intro _; intros; try dsimp only) | with_reducible apply State.setEngDpt_still | with_reducible apply State.itemEnd_still | with_reducible apply State.returnPrefetch_still | split

theorem State.engReset_still {s₀ s0 : State} (h : Still s₀ s0) (p : Nat) : Still s₀ (State.engReset s0 p) := by
  unfold State.engReset
  try dsimp only
  repeat' first | with_reducible assumption | with_reducible refine Still.ite ?_ ?_ | with_reducible refine Still.foldl ?_ ?_ | with_reducible refine Still.iteP ?_ ?_ | with_reducible refine Still.foldlP ?_ ?_ | (intro _; intros; try dsimp only) | with_reducible apply State.setEng_still | with_reducible apply State.setEngDpt_still | with_reducible apply State.dropPost_still | split

theorem State.engDepart_still {s₀ s : State} (h : Still s₀ s) (p : Nat) : Still s₀ (State.engDepart s p) := by
  unfold State.engDepart
  try dsimp only
  repeat' first | with_reducible assumption | with_reducible refine Still.ite ?_ ?_ | with_reducible refine Still.foldl ?_ ?_ | with_reducible refine Still.iteP ?_ ?_ | with_reducible refine Still.foldlP ?_ ?_ | (intro _; intros; try dsimp only) | with_reducible apply State.setEng_still | with_reducible apply State.engReset_still | fail_if_no_progress with_reducible refine Still.upd ?_ | split

theorem State.gangOut_still {s₀ s : State} (h : Still s₀ s) (p : Nat) : Still s₀ (State.gangOut s p) := by
  unfold State.gangOut
  try dsimp only
  repeat' first | with_reducible assumption | with_reducible refine Still.ite ?_ ?_ | with_reducible refine Still.foldl ?_ ?_ | with_reducible refine Still.iteP ?_ ?_ | with_reducible refine Still.foldlP ?_ ?_ | (intro _; intros; try dsimp only) | with_reducible apply State.engLeave_still | with_reducible apply State.engDepart_still | fail_if_no_progress with_reducible refine Still.upd ?_ | split

theorem State.engJoin_still {s₀ s : State} (h : Still s₀ s) (p : Nat) : Still s₀ (State.engJoin s p) := by
  unfold State.engJoin
  try dsimp only
  repeat' first | with_reducible assumption | with_reducible refine Still.ite ?_ ?_ | with_reducible refine Still.foldl ?_ ?_ | with_reducible refine Still.iteP ?_ ?_ | with_reducible refine Still.foldlP ?_ ?_ | (intro _; intros; try dsimp only) | with_reducible apply State.setEng_still | fail_if_no_progress with_reducible refine Still.upd ?_ | split

theorem State.gangJoin_still {s₀ s : State} (h : Still s₀ s) (p : Nat) : Still s₀ (State.gangJoin s p) := by
  unfold State.gangJoin
  try dsimp only
  repeat' first | with_reducible assumption | with_reducible refine Still.ite ?_ ?_ | with_reducible refine Still.foldl ?_ ?_ | with_reducible refine Still.iteP ?_ ?_ | with_reducible refine Still.foldlP ?_ ?_ | (intro _; intros; try dsimp only) | with_reducible apply State.engJoin_still | split

theorem State.crossAll_still {s₀ s : State} (h : Still s₀ s) (ps : List Nat) : Still s₀ (State.crossAll s ps) := by
  unfold State.crossAll
  try dsimp only
  repeat' first | with_reducible assumption | with_reducible refine Still.ite ?_ ?_ | with_reducible refine Still.foldl ?_ ?_ | with_reducible refine Still.iteP ?_ ?_ | with_reducible refine Still.foldlP ?_ ?_ | (intro _; intros; try dsimp only) | with_reducible apply State.cross_still | split

theorem State.clusterOut_still {s₀ s : State} (h : Still s₀ s) (n : Nat) : Still s₀ (State.clusterOut s n) := by
  unfold State.clusterOut
  try dsimp only
  repeat' first | with_reducible assumption | with_reducible refine Still.ite ?_ ?_ | with_reducible refine Still.foldl ?_ ?_ | with_reducible refine Still.iteP ?_ ?_ | with_reducible refine Still.foldlP ?_ ?_ | (intro _; intros; try dsimp only) | with_reducible apply State.setBit_still | fail_if_no_progress with_reducible refine Still.upd ?_ | split

theorem State.unprepare_still {s₀ s : State} (h : Still s₀ s) : Still s₀ (State.unprepare s) := by
  unfold State.unprepare
  try dsimp only
  repeat' first | with_reducible assumption | with_reducible refine Still.ite ?_ ?_ | with_reducible refine Still.foldl ?_ ?_ | with_reducible refine Still.iteP ?_ ?_ | with_reducible refine Still.foldlP ?_ ?_ | (intro _; intros; try dsimp only) | with_reducible apply State.setFld_still | with_reducible apply State.setBit_still | fail_if_no_progress with_reducible refine Still.upd ?_ | with_reducible apply Still.filterMem | with_reducible apply Still.filterRegs | split

theorem State.hotLost_still {s₀ s : State} (h : Still s₀ s) (n : Nat) : Still s₀ (State.hotLost s n) := by
  unfold State.hotLost
  try dsimp only
  repeat' first | with_reducible assumption | with_reducible refine Still.ite ?_ ?_ | with_reducible refine Still.foldl ?_ ?_ | with_reducible refine Still.iteP ?_ ?_ | with_reducible refine Still.foldlP ?_ ?_ | (intro _; intros; try dsimp only) | with_reducible apply State.unprepare_still | fail_if_no_progress with_reducible refine Still.upd ?_ | with_reducible apply Still.filterMem | with_reducible apply Still.filterRegs | split

theorem State.clusterClear_still {s₀ s : State} (h : Still s₀ s) (n : Nat) : Still s₀ (State.clusterClear s n) := by
  unfold State.clusterClear
  try dsimp only
  repeat' first | with_reducible assumption | with_reducible refine Still.ite ?_ ?_ | with_reducible refine Still.foldl ?_ ?_ | with_reducible refine Still.iteP ?_ ?_ | with_reducible refine Still.foldlP ?_ ?_ | (intro _; intros; try dsimp only) | with_reducible apply State.queueReset_still | with_reducible apply State.tileReset_still | with_reducible apply State.restartNotice_still | with_reducible apply State.engLeave_still | with_reducible apply State.engReset_still | with_reducible apply State.gangOut_still | with_reducible apply State.hotLost_still | fail_if_no_progress with_reducible refine Still.upd ?_ | fail_if_no_progress with_reducible refine Still.updDpt ?_ | fail_if_no_progress with_reducible refine Still.updAny ?_ ⟨rfl, rfl, rfl, rfl, rfl, rfl, rfl, rfl⟩ | with_reducible apply Still.filterMem | with_reducible apply Still.filterRegs | split

theorem State.clusterReset_still {s₀ s : State} (h : Still s₀ s) (n : Nat) (acc : Nat) : Still s₀ (State.clusterReset s n acc) := by
  unfold State.clusterReset
  try dsimp only
  repeat' first | with_reducible assumption | with_reducible refine Still.ite ?_ ?_ | with_reducible refine Still.foldl ?_ ?_ | with_reducible refine Still.iteP ?_ ?_ | with_reducible refine Still.foldlP ?_ ?_ | (intro _; intros; try dsimp only) | with_reducible apply State.setFld_still | with_reducible apply State.clusterOut_still | with_reducible apply State.clusterClear_still | fail_if_no_progress with_reducible refine Still.upd ?_ | with_reducible apply Still.setReloads | with_reducible apply Still.swapReloads | split

theorem State.sectorOut_still {s₀ s : State} (h : Still s₀ s) (k : Nat) (plane : Nat) (cause : Nat) : Still s₀ (State.sectorOut s k plane cause) := by
  unfold State.sectorOut
  try dsimp only
  repeat' first | with_reducible assumption | with_reducible refine Still.ite ?_ ?_ | with_reducible refine Still.foldl ?_ ?_ | with_reducible refine Still.iteP ?_ ?_ | with_reducible refine Still.foldlP ?_ ?_ | (intro _; intros; try dsimp only) | with_reducible apply State.setReg_still | with_reducible apply State.setSecPower_still | with_reducible apply State.setSorter_still | with_reducible apply State.queueMissed_still | with_reducible apply State.clusterOut_still | fail_if_no_progress with_reducible refine Still.upd ?_ | split

theorem State.unfence_still {s₀ s0 : State} (h : Still s₀ s0) (k : Nat) : Still s₀ (State.unfence s0 k) := by
  unfold State.unfence
  try dsimp only
  repeat' first | with_reducible assumption | with_reducible refine Still.ite ?_ ?_ | with_reducible refine Still.foldl ?_ ?_ | with_reducible refine Still.iteP ?_ ?_ | with_reducible refine Still.foldlP ?_ ?_ | (intro _; intros; try dsimp only) | fail_if_no_progress with_reducible refine Still.upd ?_ | with_reducible apply Still.filterMem | with_reducible apply Still.filterRegs | split

theorem State.sectorClear_still {s₀ s : State} (h : Still s₀ s) (k : Nat) : Still s₀ (State.sectorClear s k) := by
  unfold State.sectorClear
  try dsimp only
  repeat' first | with_reducible assumption | with_reducible refine Still.ite ?_ ?_ | with_reducible refine Still.foldl ?_ ?_ | with_reducible refine Still.iteP ?_ ?_ | with_reducible refine Still.foldlP ?_ ?_ | (intro _; intros; try dsimp only) | with_reducible apply State.setReg_still | with_reducible apply State.setBit_still | with_reducible apply State.setEng_still | with_reducible apply State.ringsInvalid_still | with_reducible apply State.sorterReset_still | with_reducible apply State.clusterClear_still | with_reducible apply State.unfence_still | fail_if_no_progress with_reducible refine Still.upd ?_ | fail_if_no_progress with_reducible refine Still.updProt ?_ | fail_if_no_progress with_reducible refine Still.updAny ?_ ⟨rfl, rfl, rfl, rfl, rfl, rfl, rfl, rfl⟩ | with_reducible apply Still.filterMem | with_reducible apply Still.filterRegs | split

theorem State.reloadStart_still {s₀ s : State} (h : Still s₀ s) (k : Nat) (acc : Nat) : Still s₀ (State.reloadStart s k acc) := by
  unfold State.reloadStart
  try dsimp only
  repeat' first | with_reducible assumption | with_reducible refine Still.ite ?_ ?_ | with_reducible refine Still.foldl ?_ ?_ | with_reducible refine Still.iteP ?_ ?_ | with_reducible refine Still.foldlP ?_ ?_ | (intro _; intros; try dsimp only) | with_reducible apply State.setFld_still | fail_if_no_progress with_reducible refine Still.upd ?_ | with_reducible apply Still.filterMem | with_reducible apply Still.filterRegs | with_reducible apply Still.setReloads | with_reducible apply Still.swapReloads | split

theorem State.sectorReset_still {s₀ s : State} (h : Still s₀ s) (k : Nat) (cause : Nat) (acc : Nat) : Still s₀ (State.sectorReset s k cause acc) := by
  unfold State.sectorReset
  try dsimp only
  repeat' first | with_reducible assumption | with_reducible refine Still.ite ?_ ?_ | with_reducible refine Still.foldl ?_ ?_ | with_reducible refine Still.iteP ?_ ?_ | with_reducible refine Still.foldlP ?_ ?_ | (intro _; intros; try dsimp only) | with_reducible apply State.event_still | with_reducible apply State.readoutLeave_still | with_reducible apply State.sectorOut_still | with_reducible apply State.sectorClear_still | with_reducible apply State.reloadStart_still | split

theorem State.syncReset_still {s₀ s : State} (h : Still s₀ s) (k : Nat) (cause : Nat) : Still s₀ (State.syncReset s k cause) := by
  unfold State.syncReset
  try dsimp only
  repeat' first | with_reducible assumption | with_reducible refine Still.ite ?_ ?_ | with_reducible refine Still.foldl ?_ ?_ | with_reducible refine Still.iteP ?_ ?_ | with_reducible refine Still.foldlP ?_ ?_ | (intro _; intros; try dsimp only) | with_reducible apply State.sectorReset_still | split

theorem State.paySectors_still {s₀ s : State} (h : Still s₀ s) : Still s₀ (State.paySectors s) := by
  unfold State.paySectors
  try dsimp only
  repeat' first | with_reducible assumption | with_reducible refine Still.ite ?_ ?_ | with_reducible refine Still.foldl ?_ ?_ | with_reducible refine Still.iteP ?_ ?_ | with_reducible refine Still.foldlP ?_ ?_ | (intro _; intros; try dsimp only) | with_reducible apply State.sectorReset_still | with_reducible apply State.syncReset_still | fail_if_no_progress with_reducible refine Still.upd ?_ | fail_if_no_progress with_reducible refine Still.updProt ?_ | fail_if_no_progress with_reducible refine Still.updAny ?_ ⟨rfl, rfl, rfl, rfl, rfl, rfl, rfl, rfl⟩ | with_reducible apply Still.filterMem | with_reducible apply Still.filterRegs | split

theorem State.coldDone_still {s₀ s : State} (h : Still s₀ s) (r : Nat) : Still s₀ (State.coldDone s r) := by
  unfold State.coldDone
  try dsimp only
  repeat' first | with_reducible assumption | with_reducible refine Still.ite ?_ ?_ | with_reducible refine Still.foldl ?_ ?_ | with_reducible refine Still.iteP ?_ ?_ | with_reducible refine Still.foldlP ?_ ?_ | (intro _; intros; try dsimp only) | with_reducible apply State.setFld_still | with_reducible apply State.setBit_still | fail_if_no_progress with_reducible refine Still.upd ?_ | with_reducible apply Still.filterMem | with_reducible apply Still.filterRegs | split

theorem State.clusterJoin_still {s₀ s : State} (h : Still s₀ s) (n : Nat) : Still s₀ (State.clusterJoin s n) := by
  unfold State.clusterJoin
  try dsimp only
  repeat' first | with_reducible assumption | with_reducible refine Still.ite ?_ ?_ | with_reducible refine Still.foldl ?_ ?_ | with_reducible refine Still.iteP ?_ ?_ | with_reducible refine Still.foldlP ?_ ?_ | (intro _; intros; try dsimp only) | with_reducible apply State.setBit_still | with_reducible apply State.creditsReset_still | with_reducible apply State.engJoin_still | with_reducible apply State.gangJoin_still | split

theorem State.sorterJoin_still {s₀ s : State} (h : Still s₀ s) (k : Nat) : Still s₀ (State.sorterJoin s k) := by
  unfold State.sorterJoin
  try dsimp only
  repeat' first | with_reducible assumption | with_reducible refine Still.ite ?_ ?_ | with_reducible refine Still.foldl ?_ ?_ | with_reducible refine Still.iteP ?_ ?_ | with_reducible refine Still.foldlP ?_ ?_ | (intro _; intros; try dsimp only) | with_reducible apply State.setSorter_still | fail_if_no_progress with_reducible refine Still.upd ?_ | with_reducible apply Still.filterMem | with_reducible apply Still.filterRegs | split

theorem State.sectorJoin_still {s₀ s : State} (h : Still s₀ s) (k : Nat) : Still s₀ (State.sectorJoin s k) := by
  unfold State.sectorJoin
  try dsimp only
  repeat' first | with_reducible assumption | with_reducible refine Still.ite ?_ ?_ | with_reducible refine Still.foldl ?_ ?_ | with_reducible refine Still.iteP ?_ ?_ | with_reducible refine Still.foldlP ?_ ?_ | (intro _; intros; try dsimp only) | with_reducible apply State.setReg_still | with_reducible apply State.setFld_still | with_reducible apply State.setSecPower_still | with_reducible apply State.reoffer_still | with_reducible apply State.engJoin_still | with_reducible apply State.clusterJoin_still | with_reducible apply State.sorterJoin_still | split

theorem execRegionRejoin_still (k : RegionNo) (s : State) : StillO s (execRegionRejoin k s) := by
  unfold execRegionRejoin
  try dsimp only
  repeat' first | with_reducible assumption | with_reducible refine StillO.go ?_ | with_reducible refine StillO.ite ?_ ?_ | with_reducible exact Still.refl _ | with_reducible refine Still.ite ?_ ?_ | with_reducible refine Still.foldl ?_ ?_ | with_reducible refine Still.iteP ?_ ?_ | with_reducible refine Still.foldlP ?_ ?_ | (intro _; intros; try dsimp only) | with_reducible apply State.crossAll_still | with_reducible apply State.coldDone_still | with_reducible apply State.clusterJoin_still | with_reducible apply State.sectorJoin_still | fail_if_no_progress with_reducible refine Still.upd ?_ | with_reducible apply Still.setReloads | with_reducible apply Still.swapReloads | split

theorem State.declareDead_still {s₀ s : State} (h : Still s₀ s) (p : Nat) : Still s₀ (State.declareDead s p) := by
  unfold State.declareDead
  try dsimp only
  repeat' first | with_reducible assumption | with_reducible refine Still.ite ?_ ?_ | with_reducible refine Still.foldl ?_ ?_ | with_reducible refine Still.iteP ?_ ?_ | with_reducible refine Still.foldlP ?_ ?_ | (intro _; intros; try dsimp only) | with_reducible apply State.setFld_still | with_reducible apply State.setBit_still | with_reducible apply State.fault_still | with_reducible apply State.setEng_still | with_reducible apply State.event_still | with_reducible apply State.record_still | with_reducible apply State.copySt_still | with_reducible apply State.gangOut_still | fail_if_no_progress with_reducible refine Still.upd ?_ | split

theorem execDeclareDead_still (p : EngineNo) (s : State) : StillO s (execDeclareDead p s) := by
  unfold execDeclareDead
  try dsimp only
  repeat' first | with_reducible assumption | with_reducible refine StillO.go ?_ | with_reducible refine StillO.ite ?_ ?_ | with_reducible exact Still.refl _ | with_reducible refine Still.ite ?_ ?_ | with_reducible refine Still.foldl ?_ ?_ | with_reducible refine Still.iteP ?_ ?_ | with_reducible refine Still.foldlP ?_ ?_ | (intro _; intros; try dsimp only) | with_reducible apply State.declareDead_still | split

theorem State.copyRows_still {s₀ s : State} (h : Still s₀ s) (src : Nat) (dst : Nat) : Still s₀ (State.copyRows s src dst) := by
  unfold State.copyRows
  try dsimp only
  repeat' first | with_reducible assumption | with_reducible refine Still.ite ?_ ?_ | with_reducible refine Still.foldl ?_ ?_ | with_reducible refine Still.iteP ?_ ?_ | with_reducible refine Still.foldlP ?_ ?_ | (intro _; intros; try dsimp only) | with_reducible apply State.read_still | with_reducible apply State.store_still | split

theorem execSpareCopyComplete_still (p : EngineNo) (s : State) : StillO s (execSpareCopyComplete p s) := by
  unfold execSpareCopyComplete
  try dsimp only
  repeat' first | with_reducible assumption | with_reducible refine StillO.go ?_ | with_reducible refine StillO.ite ?_ ?_ | with_reducible exact Still.refl _ | with_reducible refine Still.ite ?_ ?_ | with_reducible refine Still.foldl ?_ ?_ | with_reducible refine Still.iteP ?_ ?_ | with_reducible refine Still.foldlP ?_ ?_ | (intro _; intros; try dsimp only) | with_reducible apply State.setEng_still | with_reducible apply State.applyLoads_still | with_reducible apply State.copyRows_still | fail_if_no_progress with_reducible refine Still.upd ?_ | split

theorem State.spareJoins_still {s₀ s : State} (h : Still s₀ s) : Still s₀ (State.spareJoins s) := by
  unfold State.spareJoins
  try dsimp only
  repeat' first | with_reducible assumption | with_reducible refine Still.ite ?_ ?_ | with_reducible refine Still.foldl ?_ ?_ | with_reducible refine Still.iteP ?_ ?_ | with_reducible refine Still.foldlP ?_ ?_ | (intro _; intros; try dsimp only) | with_reducible apply State.engJoin_still | fail_if_no_progress with_reducible refine Still.upd ?_ | with_reducible apply Still.filterMem | with_reducible apply Still.filterRegs | split

theorem State.cmdErr_still {s₀ s : State} (h : Still s₀ s) : Still s₀ (State.cmdErr s) := by
  unfold State.cmdErr
  try dsimp only
  repeat' first | with_reducible assumption | with_reducible refine Still.ite ?_ ?_ | with_reducible refine Still.foldl ?_ ?_ | with_reducible refine Still.iteP ?_ ?_ | with_reducible refine Still.foldlP ?_ ?_ | (intro _; intros; try dsimp only) | with_reducible apply State.fault_still | split

theorem State.resetSectors_still {s₀ s : State} (h : Still s₀ s) (mask : Nat) : Still s₀ (State.resetSectors s mask) := by
  unfold State.resetSectors
  try dsimp only
  repeat' first | with_reducible assumption | with_reducible refine Still.ite ?_ ?_ | with_reducible refine Still.foldl ?_ ?_ | with_reducible refine Still.iteP ?_ ?_ | with_reducible refine Still.foldlP ?_ ?_ | (intro _; intros; try dsimp only) | with_reducible apply State.cmdErr_still | fail_if_no_progress with_reducible refine Still.upd ?_ | with_reducible apply Still.filterMem | with_reducible apply Still.filterRegs | split

theorem execGlbResetSector_still (mask : BitVec 16) (s : State) : StillO s (execGlbResetSector mask s) := by
  unfold execGlbResetSector
  try dsimp only
  repeat' first | with_reducible assumption | with_reducible refine StillO.go ?_ | with_reducible refine StillO.ite ?_ ?_ | with_reducible exact Still.refl _ | with_reducible refine Still.ite ?_ ?_ | with_reducible refine Still.foldl ?_ ?_ | with_reducible refine Still.iteP ?_ ?_ | with_reducible refine Still.foldlP ?_ ?_ | (intro _; intros; try dsimp only) | with_reducible apply State.resetSectors_still | split

end Sys2Proof.Machine
end

