-- ==== Sys2Proof/Laws/KeepsLanes.lean ====
section
/-!
SUPPORT. Sys2Proof/Laws/KeepsLanes.lean: every operation of Machine/Lanes.lean leaves standing what Laws/Keeps.lean says.
-/
set_option linter.unusedTactic false
set_option linter.unreachableTactic false
namespace Sys2Proof.Machine

theorem State.setLaneState_still {s₀ s : State} (h : Still s₀ s) (l : Nat) (v : Nat) : Still s₀ (State.setLaneState s l v) := by
  unfold State.setLaneState
  try dsimp only
  repeat' first | with_reducible assumption | with_reducible refine Still.ite ?_ ?_ | with_reducible refine Still.foldl ?_ ?_ | with_reducible refine Still.iteP ?_ ?_ | with_reducible refine Still.foldlP ?_ ?_ | (intro _; intros; try dsimp only) | with_reducible apply State.setFld_still | split

theorem State.laneHeld_still {s₀ s : State} (h : Still s₀ s) (l : Nat) (code : Nat) : Still s₀ (State.laneHeld s l code) := by
  unfold State.laneHeld
  try dsimp only
  repeat' first | with_reducible assumption | with_reducible refine Still.ite ?_ ?_ | with_reducible refine Still.foldl ?_ ?_ | with_reducible refine Still.iteP ?_ ?_ | with_reducible refine Still.foldlP ?_ ?_ | (intro _; intros; try dsimp only) | with_reducible apply State.setFld_still | with_reducible apply State.fault_still | with_reducible apply State.setLaneState_still | split

theorem State.laneAcquire_still {s₀ s : State} (h : Still s₀ s) (l : Nat) : Still s₀ (State.laneAcquire s l) := by
  unfold State.laneAcquire
  try dsimp only
  repeat' first | with_reducible assumption | with_reducible refine Still.ite ?_ ?_ | with_reducible refine Still.foldl ?_ ?_ | with_reducible refine Still.iteP ?_ ?_ | with_reducible refine Still.foldlP ?_ ?_ | (intro _; intros; try dsimp only) | with_reducible apply State.setBit_still | with_reducible apply State.setLane_still | with_reducible apply State.setLaneState_still | fail_if_no_progress with_reducible refine Still.upd ?_ | split

theorem State.laneLose_still {s₀ s : State} (h : Still s₀ s) (l : Nat) : Still s₀ (State.laneLose s l) := by
  unfold State.laneLose
  try dsimp only
  repeat' first | with_reducible assumption | with_reducible refine Still.ite ?_ ?_ | with_reducible refine Still.foldl ?_ ?_ | with_reducible refine Still.iteP ?_ ?_ | with_reducible refine Still.foldlP ?_ ?_ | (intro _; intros; try dsimp only) | with_reducible apply State.setLane_still | with_reducible apply State.laneAcquire_still | fail_if_no_progress with_reducible refine Still.upd ?_ | split

theorem State.measured_still {s₀ s : State} (h : Still s₀ s) (l : Nat) (a : Nat) : Still s₀ (State.measured s l a) := by
  unfold State.measured
  try dsimp only
  repeat' first | with_reducible assumption | with_reducible refine Still.ite ?_ ?_ | with_reducible refine Still.foldl ?_ ?_ | with_reducible refine Still.iteP ?_ ?_ | with_reducible refine Still.foldlP ?_ ?_ | (intro _; intros; try dsimp only) | with_reducible apply State.setReg_still | with_reducible apply State.setBit_still | with_reducible apply State.setLane_still | with_reducible apply State.setLaneState_still | with_reducible apply State.laneHeld_still | fail_if_no_progress with_reducible refine Still.upd ?_ | split

theorem State.measure_still {s₀ s : State} (h : Still s₀ s) (l : Nat) (a : Nat) (consecutive : Bool) : Still s₀ (State.measure s l a consecutive) := by
  unfold State.measure
  try dsimp only
  repeat' first | with_reducible assumption | with_reducible refine Still.ite ?_ ?_ | with_reducible refine Still.foldl ?_ ?_ | with_reducible refine Still.iteP ?_ ?_ | with_reducible refine Still.foldlP ?_ ?_ | (intro _; intros; try dsimp only) | with_reducible apply State.setLane_still | with_reducible apply State.measured_still | fail_if_no_progress with_reducible refine Still.upd ?_ | split

theorem State.headerSeen_still {s₀ s : State} (h : Still s₀ s) (l : Nat) (h : BitVec 64) : Still s₀ (State.headerSeen s l h) := by
  unfold State.headerSeen
  try dsimp only
  repeat' first | with_reducible assumption | with_reducible refine Still.ite ?_ ?_ | with_reducible refine Still.foldl ?_ ?_ | with_reducible refine Still.iteP ?_ ?_ | with_reducible refine Still.foldlP ?_ ?_ | (intro _; intros; try dsimp only) | with_reducible apply State.setFld_still | with_reducible apply State.setBit_still | split

theorem State.reportByte_still {s₀ s : State} (h : Still s₀ s) (l : Nat) (h : BitVec 64) : Still s₀ (State.reportByte s l h) := by
  unfold State.reportByte
  try dsimp only
  repeat' first | with_reducible assumption | with_reducible refine Still.ite ?_ ?_ | with_reducible refine Still.foldl ?_ ?_ | with_reducible refine Still.iteP ?_ ?_ | with_reducible refine Still.foldlP ?_ ?_ | (intro _; intros; try dsimp only) | with_reducible apply State.setReg_still | with_reducible apply State.setBit_still | with_reducible apply State.setLane_still | with_reducible apply State.take_still | with_reducible apply State.laneHeld_still | fail_if_no_progress with_reducible refine Still.upd ?_ | split

theorem State.syncSeen_still {s₀ s : State} (h : Still s₀ s) (l : Nat) (bad : List Bool) : Still s₀ (State.syncSeen s l bad) := by
  unfold State.syncSeen
  try dsimp only
  repeat' first | with_reducible assumption | with_reducible refine Still.ite ?_ ?_ | with_reducible refine Still.foldl ?_ ?_ | with_reducible refine Still.iteP ?_ ?_ | with_reducible refine Still.foldlP ?_ ?_ | (intro _; intros; try dsimp only) | with_reducible apply State.count_still | with_reducible apply State.setLane_still | with_reducible apply State.take_still | fail_if_no_progress with_reducible refine Still.upd ?_ | with_reducible apply Still.filterMem | with_reducible apply Still.filterRegs | split

theorem State.keepFrame_still {s₀ s : State} (h : Still s₀ s) (l : Nat) (x : Nat) (row : Nat) (words : List FWord) (dark : Bool) (sreset : Bool) : Still s₀ (State.keepFrame s l x row words dark sreset) := by
  unfold State.keepFrame
  try dsimp only
  repeat' first | with_reducible assumption | with_reducible refine Still.ite ?_ ?_ | with_reducible refine Still.foldl ?_ ?_ | with_reducible refine Still.iteP ?_ ?_ | with_reducible refine Still.foldlP ?_ ?_ | (intro _; intros; try dsimp only) | with_reducible apply State.setLane_still | fail_if_no_progress with_reducible refine Still.upd ?_ | with_reducible apply Still.filterMem | with_reducible apply Still.filterRegs | split

theorem State.lossSeen_still {s₀ s : State} (h : Still s₀ s) (l : Nat) : Still s₀ (State.lossSeen s l) := by
  unfold State.lossSeen
  try dsimp only
  repeat' first | with_reducible assumption | with_reducible refine Still.ite ?_ ?_ | with_reducible refine Still.foldl ?_ ?_ | with_reducible refine Still.iteP ?_ ?_ | with_reducible refine Still.foldlP ?_ ?_ | (intro _; intros; try dsimp only) | with_reducible apply State.setBit_still | with_reducible apply State.count_still | with_reducible apply State.fault_still | with_reducible apply State.setLane_still | fail_if_no_progress with_reducible refine Still.upd ?_ | split

theorem State.declareLoss_still {s₀ s : State} (h : Still s₀ s) (l : Nat) : Still s₀ (State.declareLoss s l) := by
  unfold State.declareLoss
  try dsimp only
  repeat' first | with_reducible assumption | with_reducible refine Still.ite ?_ ?_ | with_reducible refine Still.foldl ?_ ?_ | with_reducible refine Still.iteP ?_ ?_ | with_reducible refine Still.foldlP ?_ ?_ | (intro _; intros; try dsimp only) | with_reducible apply State.count_still | with_reducible apply State.setLane_still | with_reducible apply State.laneLose_still | with_reducible apply State.lossSeen_still | fail_if_no_progress with_reducible refine Still.upd ?_ | split

theorem State.judgeLoss_still {s₀ s : State} (h : Still s₀ s) (l : Nat) : Still s₀ (State.judgeLoss s l) := by
  unfold State.judgeLoss
  try dsimp only
  repeat' first | with_reducible assumption | with_reducible refine Still.ite ?_ ?_ | with_reducible refine Still.foldl ?_ ?_ | with_reducible refine Still.iteP ?_ ?_ | with_reducible refine Still.foldlP ?_ ?_ | (intro _; intros; try dsimp only) | with_reducible apply State.declareLoss_still | split

theorem State.framing_still {s₀ s : State} (h : Still s₀ s) (l : Nat) (good : Bool) : Still s₀ (State.framing s l good) := by
  unfold State.framing
  try dsimp only
  repeat' first | with_reducible assumption | with_reducible refine Still.ite ?_ ?_ | with_reducible refine Still.foldl ?_ ?_ | with_reducible refine Still.iteP ?_ ?_ | with_reducible refine Still.foldlP ?_ ?_ | (intro _; intros; try dsimp only) | with_reducible apply State.setLane_still | with_reducible apply State.setLaneState_still | fail_if_no_progress with_reducible refine Still.upd ?_ | split

theorem execMirpelFrame_still (l : LaneNo) (blocks : List Block66) (ago : Nat) (s : State) : StillO s (execMirpelFrame l blocks ago s) := by
  unfold execMirpelFrame
  try dsimp only
  repeat' first | with_reducible assumption | with_reducible refine StillO.go ?_ | with_reducible refine StillO.ite ?_ ?_ | with_reducible exact Still.refl _ | with_reducible refine Still.ite ?_ ?_ | with_reducible refine Still.foldl ?_ ?_ | with_reducible refine Still.iteP ?_ ?_ | with_reducible refine Still.foldlP ?_ ?_ | (intro _; intros; try dsimp only) | with_reducible apply State.setLane_still | with_reducible apply State.cross_still | with_reducible apply State.measure_still | with_reducible apply State.headerSeen_still | with_reducible apply State.reportByte_still | with_reducible apply State.syncSeen_still | with_reducible apply State.keepFrame_still | with_reducible apply State.judgeLoss_still | with_reducible apply State.framing_still | fail_if_no_progress with_reducible refine Still.upd ?_ | split

theorem State.rawSeen_still {s₀ s : State} (h : Still s₀ s) (l : Nat) (raw : RawCrossing) : Still s₀ (State.rawSeen s l raw) := by
  unfold State.rawSeen
  try dsimp only
  repeat' first | with_reducible assumption | with_reducible refine Still.ite ?_ ?_ | with_reducible refine Still.foldl ?_ ?_ | with_reducible refine Still.iteP ?_ ?_ | with_reducible refine Still.foldlP ?_ ?_ | (intro _; intros; try dsimp only) | with_reducible apply State.count_still | with_reducible apply State.setLane_still | with_reducible apply State.take_still | with_reducible apply State.syncSeen_still | fail_if_no_progress with_reducible refine Still.upd ?_ | with_reducible apply Still.filterMem | with_reducible apply Still.filterRegs | split

theorem State.rawFed_still {s₀ s : State} (h : Still s₀ s) (l : Nat) (raw : RawCrossing) : Still s₀ (State.rawFed s l raw) := by
  unfold State.rawFed
  try dsimp only
  repeat' first | with_reducible assumption | with_reducible refine Still.ite ?_ ?_ | with_reducible refine Still.foldl ?_ ?_ | with_reducible refine Still.iteP ?_ ?_ | with_reducible refine Still.foldlP ?_ ?_ | (intro _; intros; try dsimp only) | with_reducible apply State.setLane_still | fail_if_no_progress with_reducible refine Still.upd ?_ | split

theorem execRawCrossing_still (l : LaneNo) (raw : RawCrossing) (ago : Nat) (s : State) : StillO s (execRawCrossing l raw ago s) := by
  unfold execRawCrossing
  try dsimp only
  repeat' first | with_reducible assumption | with_reducible refine StillO.go ?_ | with_reducible refine StillO.ite ?_ ?_ | with_reducible exact Still.refl _ | with_reducible refine Still.ite ?_ ?_ | with_reducible refine Still.foldl ?_ ?_ | with_reducible refine Still.iteP ?_ ?_ | with_reducible refine Still.foldlP ?_ ?_ | (intro _; intros; try dsimp only) | with_reducible apply State.setLane_still | with_reducible apply State.measure_still | with_reducible apply State.keepFrame_still | with_reducible apply State.judgeLoss_still | with_reducible apply State.framing_still | with_reducible apply State.rawSeen_still | with_reducible apply State.rawFed_still | fail_if_no_progress with_reducible refine Still.upd ?_ | split

theorem execLaneAcquireLock_still (l : LaneNo) (s : State) : StillO s (execLaneAcquireLock l s) := by
  unfold execLaneAcquireLock
  try dsimp only
  repeat' first | with_reducible assumption | with_reducible refine StillO.go ?_ | with_reducible refine StillO.ite ?_ ?_ | with_reducible exact Still.refl _ | with_reducible refine Still.ite ?_ ?_ | with_reducible refine Still.foldl ?_ ?_ | with_reducible refine Still.iteP ?_ ?_ | with_reducible refine Still.foldlP ?_ ?_ | (intro _; intros; try dsimp only) | with_reducible apply State.setLaneState_still | with_reducible apply State.laneAcquire_still | split

theorem execLaneLoss_still (l : LaneNo) (s : State) : StillO s (execLaneLoss l s) := by
  unfold execLaneLoss
  try dsimp only
  repeat' first | with_reducible assumption | with_reducible refine StillO.go ?_ | with_reducible refine StillO.ite ?_ ?_ | with_reducible exact Still.refl _ | with_reducible refine Still.ite ?_ ?_ | with_reducible refine Still.foldl ?_ ?_ | with_reducible refine Still.iteP ?_ ?_ | with_reducible refine Still.foldlP ?_ ?_ | (intro _; intros; try dsimp only) | with_reducible apply State.setLane_still | with_reducible apply State.lossSeen_still | with_reducible apply State.judgeLoss_still | fail_if_no_progress with_reducible refine Still.upd ?_ | split

theorem execLaneJoin_still (l : LaneNo) (s : State) : StillO s (execLaneJoin l s) := by
  unfold execLaneJoin
  try dsimp only
  repeat' first | with_reducible assumption | with_reducible refine StillO.go ?_ | with_reducible refine StillO.ite ?_ ?_ | with_reducible exact Still.refl _ | with_reducible refine Still.ite ?_ ?_ | with_reducible refine Still.foldl ?_ ?_ | with_reducible refine Still.iteP ?_ ?_ | with_reducible refine Still.foldlP ?_ ?_ | (intro _; intros; try dsimp only) | with_reducible apply State.setLane_still | with_reducible apply State.setLaneState_still | fail_if_no_progress with_reducible refine Still.upd ?_ | split

theorem State.laneRealign_still {s₀ s : State} (h : Still s₀ s) (l : Nat) : Still s₀ (State.laneRealign s l) := by
  unfold State.laneRealign
  try dsimp only
  repeat' first | with_reducible assumption | with_reducible refine Still.ite ?_ ?_ | with_reducible refine Still.foldl ?_ ?_ | with_reducible refine Still.iteP ?_ ?_ | with_reducible refine Still.foldlP ?_ ?_ | (intro _; intros; try dsimp only) | with_reducible apply State.count_still | with_reducible apply State.setLane_still | fail_if_no_progress with_reducible refine Still.upd ?_ | split

theorem execLaneRealign_still (l : LaneNo) (s : State) : StillO s (execLaneRealign l s) := by
  unfold execLaneRealign
  try dsimp only
  repeat' first | with_reducible assumption | with_reducible refine StillO.go ?_ | with_reducible refine StillO.ite ?_ ?_ | with_reducible exact Still.refl _ | with_reducible refine Still.ite ?_ ?_ | with_reducible refine Still.foldl ?_ ?_ | with_reducible refine Still.iteP ?_ ?_ | with_reducible refine Still.foldlP ?_ ?_ | (intro _; intros; try dsimp only) | with_reducible apply State.laneRealign_still | split

theorem State.realignDue_still {s₀ s : State} (h : Still s₀ s) : Still s₀ (State.realignDue s) := by
  unfold State.realignDue
  try dsimp only
  repeat' first | with_reducible assumption | with_reducible refine Still.ite ?_ ?_ | with_reducible refine Still.foldl ?_ ?_ | with_reducible refine Still.iteP ?_ ?_ | with_reducible refine Still.foldlP ?_ ?_ | (intro _; intros; try dsimp only) | with_reducible apply State.count_still | with_reducible apply State.setLane_still | with_reducible apply State.laneLose_still | fail_if_no_progress with_reducible refine Still.upd ?_ | with_reducible apply Still.filterMem | with_reducible apply Still.filterRegs | split

theorem State.laneAdopt_still {s₀ s : State} (h : Still s₀ s) (l : Nat) : Still s₀ (State.laneAdopt s l) := by
  unfold State.laneAdopt
  try dsimp only
  repeat' first | with_reducible assumption | with_reducible refine Still.ite ?_ ?_ | with_reducible refine Still.foldl ?_ ?_ | with_reducible refine Still.iteP ?_ ?_ | with_reducible refine Still.foldlP ?_ ?_ | (intro _; intros; try dsimp only) | with_reducible apply State.trigger_still | split

theorem execLaneAdopt_still (l : LaneNo) (s : State) : StillO s (execLaneAdopt l s) := by
  unfold execLaneAdopt
  try dsimp only
  repeat' first | with_reducible assumption | with_reducible refine StillO.go ?_ | with_reducible refine StillO.ite ?_ ?_ | with_reducible exact Still.refl _ | with_reducible refine Still.ite ?_ ?_ | with_reducible refine Still.foldl ?_ ?_ | with_reducible refine Still.iteP ?_ ?_ | with_reducible refine Still.foldlP ?_ ?_ | (intro _; intros; try dsimp only) | with_reducible apply State.laneAdopt_still | split

theorem State.lanesMeasure_still {s₀ s : State} (h : Still s₀ s) : Still s₀ (State.lanesMeasure s) := by
  unfold State.lanesMeasure
  try dsimp only
  repeat' first | with_reducible assumption | with_reducible refine Still.ite ?_ ?_ | with_reducible refine Still.foldl ?_ ?_ | with_reducible refine Still.iteP ?_ ?_ | with_reducible refine Still.foldlP ?_ ?_ | (intro _; intros; try dsimp only) | with_reducible apply State.setLane_still | with_reducible apply State.setLaneState_still | fail_if_no_progress with_reducible refine Still.upd ?_ | split

theorem State.quadReset_still {s₀ s : State} (h : Still s₀ s) (q : Nat) : Still s₀ (State.quadReset s q) := by
  unfold State.quadReset
  try dsimp only
  repeat' first | with_reducible assumption | with_reducible refine Still.ite ?_ ?_ | with_reducible refine Still.foldl ?_ ?_ | with_reducible refine Still.iteP ?_ ?_ | with_reducible refine Still.foldlP ?_ ?_ | (intro _; intros; try dsimp only) | with_reducible apply State.laneAcquire_still | fail_if_no_progress with_reducible refine Still.upd ?_ | with_reducible apply Still.setLanes | split

theorem State.resetQuads_still {s₀ s : State} (h : Still s₀ s) (mask : Nat) : Still s₀ (State.resetQuads s mask) := by
  unfold State.resetQuads
  try dsimp only
  repeat' first | with_reducible assumption | with_reducible refine Still.ite ?_ ?_ | with_reducible refine Still.foldl ?_ ?_ | with_reducible refine Still.iteP ?_ ?_ | with_reducible refine Still.foldlP ?_ ?_ | (intro _; intros; try dsimp only) | with_reducible apply State.cmdErr_still | with_reducible apply State.quadReset_still | with_reducible apply Still.filterMem | with_reducible apply Still.filterRegs | split

theorem execGlbResetQuad_still (mask : BitVec 4) (s : State) : StillO s (execGlbResetQuad mask s) := by
  unfold execGlbResetQuad
  try dsimp only
  repeat' first | with_reducible assumption | with_reducible refine StillO.go ?_ | with_reducible refine StillO.ite ?_ ?_ | with_reducible exact Still.refl _ | with_reducible refine Still.ite ?_ ?_ | with_reducible refine Still.foldl ?_ ?_ | with_reducible refine Still.iteP ?_ ?_ | with_reducible refine Still.foldlP ?_ ?_ | (intro _; intros; try dsimp only) | with_reducible apply State.resetQuads_still | split

theorem State.qrefCheck_still {s₀ s : State} (h : Still s₀ s) (out : BitVec 4) : Still s₀ (State.qrefCheck s out) := by
  unfold State.qrefCheck
  try dsimp only
  repeat' first | with_reducible assumption | with_reducible refine Still.ite ?_ ?_ | with_reducible refine Still.foldl ?_ ?_ | with_reducible refine Still.iteP ?_ ?_ | with_reducible refine Still.foldlP ?_ ?_ | (intro _; intros; try dsimp only) | with_reducible apply State.setBit_still | with_reducible apply State.laneLose_still | split

theorem execFrameDelivery_still (l : LaneNo) (s : State) : StillO s (execFrameDelivery l s) := by
  unfold execFrameDelivery
  try dsimp only
  repeat' first | with_reducible assumption | with_reducible refine StillO.go ?_ | with_reducible refine StillO.ite ?_ ?_ | with_reducible exact Still.refl _ | with_reducible refine Still.ite ?_ ?_ | with_reducible refine Still.foldl ?_ ?_ | with_reducible refine Still.iteP ?_ ?_ | with_reducible refine Still.foldlP ?_ ?_ | (intro _; intros; try dsimp only) | with_reducible apply State.setBit_still | with_reducible apply State.count_still | with_reducible apply State.setLane_still | with_reducible apply State.judgeLoss_still | fail_if_no_progress with_reducible refine Still.upd ?_ | with_reducible apply Still.filterMem | with_reducible apply Still.filterRegs | split

theorem State.rxEnWrite_still {s₀ s : State} (h : Still s₀ s) (l : Nat) (on : Bool) : Still s₀ (State.rxEnWrite s l on) := by
  unfold State.rxEnWrite
  try dsimp only
  repeat' first | with_reducible assumption | with_reducible refine Still.ite ?_ ?_ | with_reducible refine Still.foldl ?_ ?_ | with_reducible refine Still.iteP ?_ ?_ | with_reducible refine Still.foldlP ?_ ?_ | (intro _; intros; try dsimp only) | with_reducible apply State.setBit_still | with_reducible apply State.setLane_still | fail_if_no_progress with_reducible refine Still.upd ?_ | split

theorem execRxEnWrite_still (l : LaneNo) (on : Bool) (s : State) : StillO s (execRxEnWrite l on s) := by
  unfold execRxEnWrite
  try dsimp only
  repeat' first | with_reducible assumption | with_reducible refine StillO.go ?_ | with_reducible refine StillO.ite ?_ ?_ | with_reducible exact Still.refl _ | with_reducible refine Still.ite ?_ ?_ | with_reducible refine Still.foldl ?_ ?_ | with_reducible refine Still.iteP ?_ ?_ | with_reducible refine Still.foldlP ?_ ?_ | (intro _; intros; try dsimp only) | with_reducible apply State.rxEnWrite_still | split

theorem State.txEnWrite_still {s₀ s : State} (h : Still s₀ s) (l : Nat) (on : Bool) : Still s₀ (State.txEnWrite s l on) := by
  unfold State.txEnWrite
  try dsimp only
  repeat' first | with_reducible assumption | with_reducible refine Still.ite ?_ ?_ | with_reducible refine Still.foldl ?_ ?_ | with_reducible refine Still.iteP ?_ ?_ | with_reducible refine Still.foldlP ?_ ?_ | (intro _; intros; try dsimp only) | with_reducible apply State.setBit_still | split

theorem execTxEnWrite_still (l : LaneNo) (on : Bool) (s : State) : StillO s (execTxEnWrite l on s) := by
  unfold execTxEnWrite
  try dsimp only
  repeat' first | with_reducible assumption | with_reducible refine StillO.go ?_ | with_reducible refine StillO.ite ?_ ?_ | with_reducible exact Still.refl _ | with_reducible refine Still.ite ?_ ?_ | with_reducible refine Still.foldl ?_ ?_ | with_reducible refine Still.iteP ?_ ?_ | with_reducible refine Still.foldlP ?_ ?_ | (intro _; intros; try dsimp only) | with_reducible apply State.txEnWrite_still | split

theorem State.pdWrite_still {s₀ s : State} (h : Still s₀ s) (l : Nat) (on : Bool) : Still s₀ (State.pdWrite s l on) := by
  unfold State.pdWrite
  try dsimp only
  repeat' first | with_reducible assumption | with_reducible refine Still.ite ?_ ?_ | with_reducible refine Still.foldl ?_ ?_ | with_reducible refine Still.iteP ?_ ?_ | with_reducible refine Still.foldlP ?_ ?_ | (intro _; intros; try dsimp only) | with_reducible apply State.setBit_still | with_reducible apply State.setLane_still | with_reducible apply State.setLaneState_still | with_reducible apply State.laneAcquire_still | fail_if_no_progress with_reducible refine Still.upd ?_ | split

theorem execPdWrite_still (l : LaneNo) (on : Bool) (s : State) : StillO s (execPdWrite l on s) := by
  unfold execPdWrite
  try dsimp only
  repeat' first | with_reducible assumption | with_reducible refine StillO.go ?_ | with_reducible refine StillO.ite ?_ ?_ | with_reducible exact Still.refl _ | with_reducible refine Still.ite ?_ ?_ | with_reducible refine Still.foldl ?_ ?_ | with_reducible refine Still.iteP ?_ ?_ | with_reducible refine Still.foldlP ?_ ?_ | (intro _; intros; try dsimp only) | with_reducible apply State.pdWrite_still | split

theorem State.txFrame_still {s₀ s : State} (h : Still s₀ s) (l : Nat) (h : Nat) (ws : List W16) : Still s₀ (State.txFrame s l h ws) := by
  unfold State.txFrame
  try dsimp only
  repeat' first | with_reducible assumption | with_reducible refine Still.ite ?_ ?_ | with_reducible refine Still.foldl ?_ ?_ | with_reducible refine Still.iteP ?_ ?_ | with_reducible refine Still.foldlP ?_ ?_ | (intro _; intros; try dsimp only) | with_reducible apply State.setLane_still | fail_if_no_progress with_reducible refine Still.upd ?_ | split

theorem State.txSpent_still {s₀ s : State} (h : Still s₀ s) (l : Nat) : Still s₀ (State.txSpent s l) := by
  unfold State.txSpent
  try dsimp only
  repeat' first | with_reducible assumption | with_reducible refine Still.ite ?_ ?_ | with_reducible refine Still.foldl ?_ ?_ | with_reducible refine Still.iteP ?_ ?_ | with_reducible refine Still.foldlP ?_ ?_ | (intro _; intros; try dsimp only) | with_reducible apply State.setLane_still | fail_if_no_progress with_reducible refine Still.upd ?_ | with_reducible apply Still.filterMem | with_reducible apply Still.filterRegs | split

theorem execMirpelTxFrame_still (l : LaneNo) (s : State) : StillO s (execMirpelTxFrame l s) := by
  unfold execMirpelTxFrame
  try dsimp only
  repeat' first | with_reducible assumption | with_reducible refine StillO.go ?_ | with_reducible refine StillO.ite ?_ ?_ | with_reducible exact Still.refl _ | with_reducible refine Still.ite ?_ ?_ | with_reducible refine Still.foldl ?_ ?_ | with_reducible refine Still.iteP ?_ ?_ | with_reducible refine Still.foldlP ?_ ?_ | (intro _; intros; try dsimp only) | with_reducible apply State.draw_still | with_reducible apply State.cross_still | with_reducible apply State.txFrame_still | with_reducible apply State.txSpent_still | split

theorem execSystemTxFrame_still (l : LaneNo) (s : State) : StillO s (execSystemTxFrame l s) := by
  unfold execSystemTxFrame
  try dsimp only
  repeat' first | with_reducible assumption | with_reducible refine StillO.go ?_ | with_reducible refine StillO.ite ?_ ?_ | with_reducible exact Still.refl _ | with_reducible refine Still.ite ?_ ?_ | with_reducible refine Still.foldl ?_ ?_ | with_reducible refine Still.iteP ?_ ?_ | with_reducible refine Still.foldlP ?_ ?_ | (intro _; intros; try dsimp only) | with_reducible apply State.cross_still | with_reducible apply State.txFrame_still | with_reducible apply State.txSpent_still | split

theorem execReadoutTxFrame_still (l : LaneNo) (s : State) : StillO s (execReadoutTxFrame l s) := by
  unfold execReadoutTxFrame
  try dsimp only
  repeat' first | with_reducible assumption | with_reducible refine StillO.go ?_ | with_reducible refine StillO.ite ?_ ?_ | with_reducible exact Still.refl _ | with_reducible refine Still.ite ?_ ?_ | with_reducible refine Still.foldl ?_ ?_ | with_reducible refine Still.iteP ?_ ?_ | with_reducible refine Still.foldlP ?_ ?_ | (intro _; intros; try dsimp only) | with_reducible apply State.setLane_still | with_reducible apply State.readoutWords_still | with_reducible apply State.txFrame_still | fail_if_no_progress with_reducible refine Still.upd ?_ | split

end Sys2Proof.Machine
end

