-- ==== Sys2Proof/Laws/KeepsAdmission.lean ====
section
/-!
SUPPORT. Sys2Proof/Laws/KeepsAdmission.lean: every operation of Machine/Admission.lean leaves standing what Laws/Keeps.lean says.
-/
set_option linter.unusedTactic false
set_option linter.unreachableTactic false
namespace Sys2Proof.Machine

theorem State.undoAddrs_still {s₀ s : State} (h : Still s₀ s) (as : List Nat) : Still s₀ (State.undoAddrs s as) := by
  unfold State.undoAddrs
  try dsimp only
  repeat' first | with_reducible assumption | with_reducible refine Still.ite ?_ ?_ | with_reducible refine Still.foldl ?_ ?_ | with_reducible refine Still.iteP ?_ ?_ | with_reducible refine Still.foldlP ?_ ?_ | (intro _; intros; try dsimp only) | with_reducible apply State.setBytes_still | with_reducible apply State.schedPar_still | with_reducible apply State.applyLoads_still | with_reducible apply State.regFresh_still | with_reducible apply Still.filterMem | with_reducible apply Still.filterRegs | split

theorem State.candidateCfg_still {s₀ s : State} (h : Still s₀ s) (n : Nat) : Still s₀ (State.candidateCfg s n) := by
  unfold State.candidateCfg
  try dsimp only
  repeat' first | with_reducible assumption | with_reducible refine Still.ite ?_ ?_ | with_reducible refine Still.foldl ?_ ?_ | with_reducible refine Still.iteP ?_ ?_ | with_reducible refine Still.foldlP ?_ ?_ | (intro _; intros; try dsimp only) | with_reducible apply State.applyLoads_still | with_reducible apply State.undoAddrs_still | split

theorem State.admReport_still {s₀ s : State} (h : Still s₀ s) (t : AdmTrigger) (r : AdmResult) : Still s₀ (State.admReport s t r) := by
  unfold State.admReport
  try dsimp only
  repeat' first | with_reducible assumption | with_reducible refine Still.ite ?_ ?_ | with_reducible refine Still.foldl ?_ ?_ | with_reducible refine Still.iteP ?_ ?_ | with_reducible refine Still.foldlP ?_ ?_ | (intro _; intros; try dsimp only) | with_reducible apply State.setReg_still | with_reducible apply State.setFld_still | fail_if_no_progress with_reducible refine Still.upd ?_ | split

theorem State.admForce_still {s₀ s : State} (h : Still s₀ s) (r : AdmResult) : Still s₀ (State.admForce s r) := by
  unfold State.admForce
  try dsimp only
  repeat' first | with_reducible assumption | with_reducible refine Still.ite ?_ ?_ | with_reducible refine Still.foldl ?_ ?_ | with_reducible refine Still.iteP ?_ ?_ | with_reducible refine Still.foldlP ?_ ?_ | (intro _; intros; try dsimp only) | fail_if_no_progress with_reducible refine Still.upd ?_ | split

theorem State.latAdmit_still {s₀ s : State} (h : Still s₀ s) (z : AdmSnap) (ls : List Nat) : Still s₀ (State.latAdmit s z ls) := by
  unfold State.latAdmit
  try dsimp only
  repeat' first | with_reducible assumption | with_reducible refine Still.ite ?_ ?_ | with_reducible refine Still.foldl ?_ ?_ | with_reducible refine Still.iteP ?_ ?_ | with_reducible refine Still.foldlP ?_ ?_ | (intro _; intros; try dsimp only) | with_reducible apply State.setReg_still | split

end Sys2Proof.Machine
end

