-- ==== Sys2Proof/Laws/KeepsFlash.lean ====
section
/-!
SUPPORT. Sys2Proof/Laws/KeepsFlash.lean: every operation of Machine/Flash.lean leaves standing what Laws/Keeps.lean says.
-/
set_option linter.unusedTactic false
set_option linter.unreachableTactic false
namespace Sys2Proof.Machine

theorem State.commitNow_still {s₀ s : State} (h : Still s₀ s) (typ : Byte) (payload : List Byte) : Still s₀ (State.commitNow s typ payload) := by
  unfold State.commitNow
  try dsimp only
  repeat' first | with_reducible assumption | with_reducible refine Still.ite ?_ ?_ | with_reducible refine Still.foldl ?_ ?_ | with_reducible refine Still.iteP ?_ ?_ | with_reducible refine Still.foldlP ?_ ?_ | (intro _; intros; try dsimp only) | fail_if_no_progress with_reducible refine Still.upd ?_ | split

theorem execRecordCommit_still (s : State) : StillO s (execRecordCommit s) := by
  unfold execRecordCommit
  try dsimp only
  repeat' first | with_reducible assumption | with_reducible refine StillO.go ?_ | with_reducible refine StillO.ite ?_ ?_ | with_reducible exact Still.refl _ | with_reducible refine Still.ite ?_ ?_ | with_reducible refine Still.foldl ?_ ?_ | with_reducible refine Still.iteP ?_ ?_ | with_reducible refine Still.foldlP ?_ ?_ | (intro _; intros; try dsimp only) | with_reducible apply State.commitNow_still | fail_if_no_progress with_reducible refine Still.upd ?_ | split

theorem State.commitAll_still {s₀ s : State} (h : Still s₀ s) : Still s₀ (State.commitAll s) := by
  unfold State.commitAll
  try dsimp only
  repeat' first | with_reducible assumption | with_reducible refine Still.ite ?_ ?_ | with_reducible refine Still.foldl ?_ ?_ | with_reducible refine Still.iteP ?_ ?_ | with_reducible refine Still.foldlP ?_ ?_ | (intro _; intros; try dsimp only) | with_reducible apply State.commitNow_still | fail_if_no_progress with_reducible refine Still.upd ?_ | split

theorem State.fillHist_still {s₀ s : State} (h : Still s₀ s) : Still s₀ (State.fillHist s) := by
  unfold State.fillHist
  try dsimp only
  repeat' first | with_reducible assumption | with_reducible refine Still.ite ?_ ?_ | with_reducible refine Still.foldl ?_ ?_ | with_reducible refine Still.iteP ?_ ?_ | with_reducible refine Still.foldlP ?_ ?_ | (intro _; intros; try dsimp only) | with_reducible apply State.setReg_still | with_reducible apply State.setFld_still | with_reducible apply State.setBit_still | fail_if_no_progress with_reducible refine Still.upd ?_ | split

theorem State.histAdd_still {s₀ s : State} (h : Still s₀ s) (slot : Nat) (step : Nat) (code : Nat) (seq : Nat) : Still s₀ (State.histAdd s slot step code seq) := by
  unfold State.histAdd
  try dsimp only
  repeat' first | with_reducible assumption | with_reducible refine Still.ite ?_ ?_ | with_reducible refine Still.foldl ?_ ?_ | with_reducible refine Still.iteP ?_ ?_ | with_reducible refine Still.foldlP ?_ ?_ | (intro _; intros; try dsimp only) | with_reducible apply State.setReg_still | with_reducible apply State.setFld_still | with_reducible apply State.setBit_still | split

theorem State.attemptFails_still {s₀ s : State} (h : Still s₀ s) (code : Nat) (object : Nat) : Still s₀ (State.attemptFails s code object) := by
  unfold State.attemptFails
  try dsimp only
  repeat' first | with_reducible assumption | with_reducible refine Still.ite ?_ ?_ | with_reducible refine Still.foldl ?_ ?_ | with_reducible refine Still.iteP ?_ ?_ | with_reducible refine Still.foldlP ?_ ?_ | (intro _; intros; try dsimp only) | with_reducible apply State.commitNow_still | with_reducible apply State.commitAll_still | with_reducible apply State.histAdd_still | fail_if_no_progress with_reducible refine Still.upd ?_ | split

theorem State.startFails_still {s₀ s : State} (h : Still s₀ s) (code : Nat) (object : Nat) : Still s₀ (State.startFails s code object) := by
  unfold State.startFails
  try dsimp only
  repeat' first | with_reducible assumption | with_reducible refine Still.ite ?_ ?_ | with_reducible refine Still.foldl ?_ ?_ | with_reducible refine Still.iteP ?_ ?_ | with_reducible refine Still.foldlP ?_ ?_ | (intro _; intros; try dsimp only) | with_reducible apply State.attemptFails_still | split

end Sys2Proof.Machine
end

