-- ==== Sys2Proof/Laws/KeepsPower.lean ====
section
/-!
SUPPORT. Sys2Proof/Laws/KeepsPower.lean: every operation of Machine/Power.lean leaves standing what Laws/Keeps.lean says.
-/
set_option linter.unusedTactic false
set_option linter.unreachableTactic false
namespace Sys2Proof.Machine

theorem Still.bare {s₀ s : State} (h : Still s₀ s) (b : Boot) (a : Adm) :
    Still s₀ { s with boot := b, engines := [], dpt := {}, adm := a } :=
  h.of_inv (fun i => { i with engines := rfl, tasks := rfl, engDpt := rfl }) rfl rfl rfl

theorem State.warmClear_keeps {s₀ s : State} (h : Keeps s₀ s) : Keeps s₀ (State.warmClear s) := h.trans ⟨fun i => { State.reset_inv with regs := Tbl.wfBy_filter _ i.regs }, rfl, FusesKept.refl _⟩

theorem State.dropReloads_still {s₀ s : State} (h : Still s₀ s) (k : Nat) : Still s₀ (State.dropReloads s k) := h.of_inv (fun i => { i with reloads := Tbl.wf_filter _ i.reloads }) rfl rfl rfl

theorem State.emergencyDown_still {s₀ s : State} (h : Still s₀ s) (k : Nat) (cause : Nat) : Still s₀ (State.emergencyDown s k cause) := by
  unfold State.emergencyDown
  try dsimp only
  repeat' first | with_reducible assumption | with_reducible refine Still.ite ?_ ?_ | with_reducible refine Still.foldl ?_ ?_ | with_reducible refine Still.iteP ?_ ?_ | with_reducible refine Still.foldlP ?_ ?_ | (intro _; intros; try dsimp only) | with_reducible apply State.setFld_still | with_reducible apply State.setSecPower_still | with_reducible apply State.readoutLeave_still | with_reducible apply State.sectorOut_still | with_reducible apply State.sectorClear_still | with_reducible apply State.dropReloads_still | fail_if_no_progress with_reducible refine Still.upd ?_ | fail_if_no_progress with_reducible refine Still.updProt ?_ | fail_if_no_progress with_reducible refine Still.updAny ?_ ⟨rfl, rfl, rfl, rfl, rfl, rfl, rfl, rfl⟩ | with_reducible apply Still.filterMem | with_reducible apply Still.filterRegs | split

theorem State.downOver_still {s₀ s : State} (h : Still s₀ s) (k : Nat) : Still s₀ (State.downOver s k) := by
  unfold State.downOver
  try dsimp only
  repeat' first | with_reducible assumption | with_reducible refine Still.ite ?_ ?_ | with_reducible refine Still.foldl ?_ ?_ | with_reducible refine Still.iteP ?_ ?_ | with_reducible refine Still.foldlP ?_ ?_ | (intro _; intros; try dsimp only) | with_reducible apply State.setSecPower_still | fail_if_no_progress with_reducible refine Still.upd ?_ | split

theorem execEmergencyDownComplete_still (k : SectorNo) (s : State) : StillO s (execEmergencyDownComplete k s) := by
  unfold execEmergencyDownComplete
  try dsimp only
  repeat' first | with_reducible assumption | with_reducible refine StillO.go ?_ | with_reducible refine StillO.ite ?_ ?_ | with_reducible exact Still.refl _ | with_reducible refine Still.ite ?_ ?_ | with_reducible refine Still.foldl ?_ ?_ | with_reducible refine Still.iteP ?_ ?_ | with_reducible refine Still.foldlP ?_ ?_ | (intro _; intros; try dsimp only) | with_reducible apply State.downOver_still | split

theorem State.dropOut_still {s₀ s : State} (h : Still s₀ s) (k : Nat) : Still s₀ (State.dropOut s k) := by
  unfold State.dropOut
  try dsimp only
  repeat' first | with_reducible assumption | with_reducible refine Still.ite ?_ ?_ | with_reducible refine Still.foldl ?_ ?_ | with_reducible refine Still.iteP ?_ ?_ | with_reducible refine Still.foldlP ?_ ?_ | (intro _; intros; try dsimp only) | with_reducible apply State.setFld_still | with_reducible apply State.queueDrop_still | with_reducible apply State.readoutLeave_still | with_reducible apply State.sectorOut_still | with_reducible apply Still.filterMem | with_reducible apply Still.filterRegs | split

theorem State.orderlyDown_still {s₀ s : State} (h : Still s₀ s) (k : Nat) : Still s₀ (State.orderlyDown s k) := by
  unfold State.orderlyDown
  try dsimp only
  repeat' first | with_reducible assumption | with_reducible refine Still.ite ?_ ?_ | with_reducible refine Still.foldl ?_ ?_ | with_reducible refine Still.iteP ?_ ?_ | with_reducible refine Still.foldlP ?_ ?_ | (intro _; intros; try dsimp only) | with_reducible apply State.setFld_still | with_reducible apply State.setSecPower_still | with_reducible apply State.dropReloads_still | with_reducible apply State.dropOut_still | fail_if_no_progress with_reducible refine Still.upd ?_ | split

theorem execReloadComplete_still (k : RegionNo) (s : State) : StillO s (execReloadComplete k s) := by
  unfold execReloadComplete
  try dsimp only
  repeat' first | with_reducible assumption | with_reducible refine StillO.go ?_ | with_reducible refine StillO.ite ?_ ?_ | with_reducible exact Still.refl _ | with_reducible refine Still.ite ?_ ?_ | with_reducible refine Still.foldl ?_ ?_ | with_reducible refine Still.iteP ?_ ?_ | with_reducible refine Still.foldlP ?_ ?_ | (intro _; intros; try dsimp only) | with_reducible apply State.setBit_still | with_reducible apply State.read_still | with_reducible apply State.reloadRegion_still | with_reducible apply State.coldDone_still | with_reducible apply State.orderlyDown_still | fail_if_no_progress with_reducible refine Still.upd ?_ | with_reducible apply Still.setReloads | with_reducible apply Still.swapReloads | split

theorem execOrderlyDownComplete_still (k : SectorNo) (s : State) : StillO s (execOrderlyDownComplete k s) := by
  unfold execOrderlyDownComplete
  try dsimp only
  repeat' first | with_reducible assumption | with_reducible refine StillO.go ?_ | with_reducible refine StillO.ite ?_ ?_ | with_reducible exact Still.refl _ | with_reducible refine Still.ite ?_ ?_ | with_reducible refine Still.foldl ?_ ?_ | with_reducible refine Still.iteP ?_ ?_ | with_reducible refine Still.foldlP ?_ ?_ | (intro _; intros; try dsimp only) | with_reducible apply State.setFld_still | with_reducible apply State.setSecPower_still | with_reducible apply State.sectorClear_still | fail_if_no_progress with_reducible refine Still.upd ?_ | split

theorem State.sectorUp_still {s₀ s : State} (h : Still s₀ s) (k : Nat) : Still s₀ (State.sectorUp s k) := by
  unfold State.sectorUp
  try dsimp only
  repeat' first | with_reducible assumption | with_reducible refine Still.ite ?_ ?_ | with_reducible refine Still.foldl ?_ ?_ | with_reducible refine Still.iteP ?_ ?_ | with_reducible refine Still.foldlP ?_ ?_ | (intro _; intros; try dsimp only) | with_reducible apply State.setFld_still | with_reducible apply State.setSecPower_still | fail_if_no_progress with_reducible refine Still.upd ?_ | split

theorem State.sectorFresh_still {s₀ s : State} (h : Still s₀ s) (k : Nat) : Still s₀ (State.sectorFresh s k) := by
  unfold State.sectorFresh
  dsimp only
  refine Still.foldl (h.filterRegsOnly _) (fun s i hs => ?_)
  split
  · exact State.setBit_still hs _ _ _
  · exact hs

theorem execSectorPowerGood_still (k : SectorNo) (s : State) : StillO s (execSectorPowerGood k s) := by
  unfold execSectorPowerGood
  try dsimp only
  repeat' first | with_reducible assumption | with_reducible refine StillO.go ?_ | with_reducible refine StillO.ite ?_ ?_ | with_reducible exact Still.refl _ | with_reducible refine Still.ite ?_ ?_ | with_reducible refine Still.foldl ?_ ?_ | with_reducible refine Still.iteP ?_ ?_ | with_reducible refine Still.foldlP ?_ ?_ | (intro _; intros; try dsimp only) | with_reducible apply State.setSecPower_still | with_reducible apply State.reloadStart_still | with_reducible apply State.sectorFresh_still | fail_if_no_progress with_reducible refine Still.upd ?_ | split

theorem State.overcurrent_still {s₀ s : State} (h : Still s₀ s) (k : Nat) : Still s₀ (State.overcurrent s k) := by
  unfold State.overcurrent
  try dsimp only
  repeat' first | with_reducible assumption | with_reducible refine Still.ite ?_ ?_ | with_reducible refine Still.foldl ?_ ?_ | with_reducible refine Still.iteP ?_ ?_ | with_reducible refine Still.foldlP ?_ ?_ | (intro _; intros; try dsimp only) | with_reducible apply State.setBit_still | with_reducible apply State.fault_still | with_reducible apply State.event_still | with_reducible apply State.emergencyDown_still | split

theorem execSectorOvercurrent_still (k : SectorNo) (s : State) : StillO s (execSectorOvercurrent k s) := by
  unfold execSectorOvercurrent
  try dsimp only
  repeat' first | with_reducible assumption | with_reducible refine StillO.go ?_ | with_reducible refine StillO.ite ?_ ?_ | with_reducible exact Still.refl _ | with_reducible refine Still.ite ?_ ?_ | with_reducible refine Still.foldl ?_ ?_ | with_reducible refine Still.iteP ?_ ?_ | with_reducible refine Still.foldlP ?_ ?_ | (intro _; intros; try dsimp only) | with_reducible apply State.overcurrent_still | split

theorem execSectorPowerTimeout_still (k : SectorNo) (s : State) : StillO s (execSectorPowerTimeout k s) := by
  unfold execSectorPowerTimeout
  try dsimp only
  repeat' first | with_reducible assumption | with_reducible refine StillO.go ?_ | with_reducible refine StillO.ite ?_ ?_ | with_reducible exact Still.refl _ | with_reducible refine Still.ite ?_ ?_ | with_reducible refine Still.foldl ?_ ?_ | with_reducible refine Still.iteP ?_ ?_ | with_reducible refine Still.foldlP ?_ ?_ | (intro _; intros; try dsimp only) | with_reducible apply State.overcurrent_still | split

theorem State.quadDown_still {s₀ s : State} (h : Still s₀ s) (q : Nat) : Still s₀ (State.quadDown s q) := by
  unfold State.quadDown
  try dsimp only
  repeat' first | with_reducible assumption | with_reducible refine Still.ite ?_ ?_ | with_reducible refine Still.foldl ?_ ?_ | with_reducible refine Still.iteP ?_ ?_ | with_reducible refine Still.foldlP ?_ ?_ | (intro _; intros; try dsimp only) | with_reducible apply State.setLane_still | with_reducible apply State.setLaneState_still | with_reducible apply State.quadReset_still | fail_if_no_progress with_reducible refine Still.upd ?_ | split

theorem State.allDown_still {s₀ s : State} (h : Still s₀ s) (cause : Nat) : Still s₀ (State.allDown s cause) := by
  unfold State.allDown
  try dsimp only
  repeat' first | with_reducible assumption | with_reducible refine Still.ite ?_ ?_ | with_reducible refine Still.foldl ?_ ?_ | with_reducible refine Still.iteP ?_ ?_ | with_reducible refine Still.foldlP ?_ ?_ | (intro _; intros; try dsimp only) | with_reducible apply State.emergencyDown_still | with_reducible apply State.quadDown_still | split

theorem State.safePins_still {s₀ s0 : State} (h : Still s₀ s0) : Still s₀ (State.safePins s0) := by
  unfold State.safePins
  try dsimp only
  repeat' first | with_reducible assumption | with_reducible refine Still.ite ?_ ?_ | with_reducible refine Still.foldl ?_ ?_ | with_reducible refine Still.iteP ?_ ?_ | with_reducible refine Still.foldlP ?_ ?_ | (intro _; intros; try dsimp only) | with_reducible apply State.setFld_still | fail_if_no_progress with_reducible refine Still.upd ?_ | fail_if_no_progress with_reducible refine Still.updTsb ?_ | fail_if_no_progress with_reducible refine Still.updAny ?_ ⟨rfl, rfl, rfl, rfl, rfl, rfl, rfl, rfl⟩ | split

theorem State.outputsOff_still {s₀ s : State} (h : Still s₀ s) : Still s₀ (State.outputsOff s) := by
  unfold State.outputsOff
  try dsimp only
  repeat' first | with_reducible assumption | with_reducible refine Still.ite ?_ ?_ | with_reducible refine Still.foldl ?_ ?_ | with_reducible refine Still.iteP ?_ ?_ | with_reducible refine Still.foldlP ?_ ?_ | (intro _; intros; try dsimp only) | with_reducible apply State.setFld_still | with_reducible apply State.safePins_still | fail_if_no_progress with_reducible refine Still.upd ?_ | split

theorem State.pmbus_still {s₀ s : State} (h : Still s₀ s) (r : Nat) (cmd : Byte) (v : W16) : Still s₀ (State.pmbus s r cmd v) := by
  unfold State.pmbus
  try dsimp only
  repeat' first | with_reducible assumption | with_reducible refine Still.ite ?_ ?_ | with_reducible refine Still.foldl ?_ ?_ | with_reducible refine Still.iteP ?_ ?_ | with_reducible refine Still.foldlP ?_ ?_ | (intro _; intros; try dsimp only) | fail_if_no_progress with_reducible refine Still.upd ?_ | split

theorem State.railsOff_still {s₀ s : State} (h : Still s₀ s) (rs : List Nat) : Still s₀ (State.railsOff s rs) := by
  unfold State.railsOff
  try dsimp only
  repeat' first | with_reducible assumption | with_reducible refine Still.ite ?_ ?_ | with_reducible refine Still.foldl ?_ ?_ | with_reducible refine Still.iteP ?_ ?_ | with_reducible refine Still.foldlP ?_ ?_ | (intro _; intros; try dsimp only) | with_reducible apply State.pmbus_still | fail_if_no_progress with_reducible refine Still.upd ?_ | with_reducible apply Still.filterMem | with_reducible apply Still.filterRegs | split

theorem State.baseNote_still {s₀ s : State} (h : Still s₀ s) : Still s₀ (State.baseNote s) := by
  have h2 := State.setFld_still (State.setFld_still (State.setFld_still (State.outputsOff_still (State.allDown_still h 8))
    Reg.bootStatus 31 28 5) Reg.hlmStatus 2 0 7) Reg.dptStatus 31 30 0
  unfold State.baseNote
  exact h2.bare _ _

theorem State.globalOff_keeps {s₀ s : State} (h : Keeps s₀ s) : Keeps s₀ (State.globalOff s) := by
  unfold State.globalOff
  try dsimp only
  repeat' first | with_reducible assumption | with_reducible refine Keeps.ite ?_ ?_ | with_reducible refine Keeps.foldl ?_ ?_ | with_reducible refine Keeps.iteP ?_ ?_ | with_reducible refine Keeps.foldlP ?_ ?_ | (intro _; intros; try dsimp only) | with_reducible apply fun h => Keeps.of_still h (State.commitAll_still (Still.refl _)) | with_reducible apply State.warmClear_keeps | with_reducible apply fun h => Keeps.of_still h (State.outputsOff_still (Still.refl _)) | fail_if_no_progress with_reducible refine Keeps.upd ?_ | fail_if_no_progress with_reducible refine Keeps.updProt ?_ | fail_if_no_progress with_reducible refine Keeps.updAny ?_ ⟨rfl, rfl, rfl⟩ | split

theorem State.railFault_keeps {s₀ s : State} (h : Keeps s₀ s) (r : Nat) : Keeps s₀ (State.railFault s r) := by
  unfold State.railFault
  extract_lets s1 s2
  have h1 : Still s s1 := State.setFld_still (State.setFld_still (State.setBit_still (Still.refl s) _ _ _) _ _ _ _) _ _ _ _
  have h2 : Still s s2 := State.commitAll_still (State.event_still (State.safePins_still (State.allDown_still h1 _)) _ _)
  clear_value s2
  split
  · exact State.globalOff_keeps (h.of_still (State.railsOff_still h2 _))
  · exact h.of_still (State.setFld_still (State.baseNote_still (State.setFld_still (State.railsOff_still h2 _) _ _ _ _)) _ _ _ _)

theorem execRailPoll_keeps (r : Fin 3) (v : RailReading) (s : State) : KeepsO s (execRailPoll r v s) := by
  unfold execRailPoll
  try dsimp only
  repeat' first | with_reducible assumption | with_reducible refine KeepsO.go ?_ | with_reducible refine KeepsO.ite ?_ ?_ | with_reducible exact Keeps.refl _ | with_reducible refine Keeps.ite ?_ ?_ | with_reducible refine Keeps.foldl ?_ ?_ | with_reducible refine Keeps.iteP ?_ ?_ | with_reducible refine Keeps.foldlP ?_ ?_ | (intro _; intros; try dsimp only) | with_reducible apply fun h => Keeps.of_still h (State.setReg_still (Still.refl _) _ _) | with_reducible apply State.railFault_keeps | fail_if_no_progress with_reducible refine Keeps.upd ?_ | split

theorem State.pwrClearNow_still {s₀ s : State} (h : Still s₀ s) : Still s₀ (State.pwrClearNow s) := by
  unfold State.pwrClearNow
  try dsimp only
  repeat' first | with_reducible assumption | with_reducible refine Still.ite ?_ ?_ | with_reducible refine Still.foldl ?_ ?_ | with_reducible refine Still.iteP ?_ ?_ | with_reducible refine Still.foldlP ?_ ?_ | (intro _; intros; try dsimp only) | with_reducible apply State.pmbus_still | split

theorem execPwrClear_still (s : State) : StillO s (execPwrClear s) := by
  unfold execPwrClear
  try dsimp only
  repeat' first | with_reducible assumption | with_reducible refine StillO.go ?_ | with_reducible refine StillO.ite ?_ ?_ | with_reducible exact Still.refl _ | with_reducible refine Still.ite ?_ ?_ | with_reducible refine Still.foldl ?_ ?_ | with_reducible refine Still.iteP ?_ ?_ | with_reducible refine Still.foldlP ?_ ?_ | (intro _; intros; try dsimp only) | with_reducible apply State.pwrClearNow_still | split

theorem State.retryNow_still {s₀ s : State} (h : Still s₀ s) (mask : Nat) : Still s₀ (State.retryNow s mask) := by
  unfold State.retryNow
  try dsimp only
  repeat' first | with_reducible assumption | with_reducible refine Still.ite ?_ ?_ | with_reducible refine Still.foldl ?_ ?_ | with_reducible refine Still.iteP ?_ ?_ | with_reducible refine Still.foldlP ?_ ?_ | (intro _; intros; try dsimp only) | with_reducible apply State.setBit_still | with_reducible apply State.downOver_still | with_reducible apply State.sectorUp_still | split

theorem State.pwrRetry_still {s₀ s : State} (h : Still s₀ s) (mask : Nat) : Still s₀ (State.pwrRetry s mask) := by
  unfold State.pwrRetry
  try dsimp only
  repeat' first | with_reducible assumption | with_reducible refine Still.ite ?_ ?_ | with_reducible refine Still.foldl ?_ ?_ | with_reducible refine Still.iteP ?_ ?_ | with_reducible refine Still.foldlP ?_ ?_ | (intro _; intros; try dsimp only) | with_reducible apply State.retryNow_still | fail_if_no_progress with_reducible refine Still.upd ?_ | split

theorem execPwrRetry_still (mask : BitVec 16) (s : State) : StillO s (execPwrRetry mask s) := by
  unfold execPwrRetry
  try dsimp only
  repeat' first | with_reducible assumption | with_reducible refine StillO.go ?_ | with_reducible refine StillO.ite ?_ ?_ | with_reducible exact Still.refl _ | with_reducible refine Still.ite ?_ ?_ | with_reducible refine Still.foldl ?_ ?_ | with_reducible refine Still.iteP ?_ ?_ | with_reducible refine Still.foldlP ?_ ?_ | (intro _; intros; try dsimp only) | with_reducible apply State.pwrRetry_still | split

theorem State.retryHeld_still {s₀ s : State} (h : Still s₀ s) (drop : BitVec 16) : Still s₀ (State.retryHeld s drop) := by
  unfold State.retryHeld
  try dsimp only
  repeat' first | with_reducible assumption | with_reducible refine Still.ite ?_ ?_ | with_reducible refine Still.foldl ?_ ?_ | with_reducible refine Still.iteP ?_ ?_ | with_reducible refine Still.foldlP ?_ ?_ | (intro _; intros; try dsimp only) | with_reducible apply State.setBit_still | with_reducible apply State.retryNow_still | fail_if_no_progress with_reducible refine Still.upd ?_ | split

theorem State.tmaxNow_still {s₀ s : State} (h : Still s₀ s) : Still s₀ (State.tmaxNow s) := by
  unfold State.tmaxNow
  try dsimp only
  repeat' first | with_reducible assumption | with_reducible refine Still.ite ?_ ?_ | with_reducible refine Still.foldl ?_ ?_ | with_reducible refine Still.iteP ?_ ?_ | with_reducible refine Still.foldlP ?_ ?_ | (intro _; intros; try dsimp only) | with_reducible apply State.setFld_still | fail_if_no_progress with_reducible refine Still.upd ?_ | split

theorem State.sensorFails_still {s₀ s : State} (h : Still s₀ s) (i : Nat) : Still s₀ (State.sensorFails s i) := by
  unfold State.sensorFails
  try dsimp only
  repeat' first | with_reducible assumption | with_reducible refine Still.ite ?_ ?_ | with_reducible refine Still.foldl ?_ ?_ | with_reducible refine Still.iteP ?_ ?_ | with_reducible refine Still.foldlP ?_ ?_ | (intro _; intros; try dsimp only) | with_reducible apply State.setBit_still | with_reducible apply State.fault_still | with_reducible apply State.tmaxNow_still | split

theorem execSensorSample_still (i : Fin 32) (v : BitVec 16) (s : State) : StillO s (execSensorSample i v s) := by
  unfold execSensorSample
  try dsimp only
  repeat' first | with_reducible assumption | with_reducible refine StillO.go ?_ | with_reducible refine StillO.ite ?_ ?_ | with_reducible exact Still.refl _ | with_reducible refine Still.ite ?_ ?_ | with_reducible refine Still.foldl ?_ ?_ | with_reducible refine Still.iteP ?_ ?_ | with_reducible refine Still.foldlP ?_ ?_ | (intro _; intros; try dsimp only) | with_reducible apply State.setFld_still | with_reducible apply State.setBit_still | with_reducible apply State.tmaxNow_still | with_reducible apply State.sensorFails_still | split

theorem execSensorNotUpdated_still (i : Fin 32) (s : State) : StillO s (execSensorNotUpdated i s) := by
  unfold execSensorNotUpdated
  try dsimp only
  repeat' first | with_reducible assumption | with_reducible refine StillO.go ?_ | with_reducible refine StillO.ite ?_ ?_ | with_reducible exact Still.refl _ | with_reducible refine Still.ite ?_ ?_ | with_reducible refine Still.foldl ?_ ?_ | with_reducible refine Still.iteP ?_ ?_ | with_reducible refine Still.foldlP ?_ ?_ | (intro _; intros; try dsimp only) | with_reducible apply State.sensorFails_still | split

theorem execThrottleUpdate_still (s : State) : StillO s (execThrottleUpdate s) := by
  unfold execThrottleUpdate
  try dsimp only
  repeat' first | with_reducible assumption | with_reducible refine StillO.go ?_ | with_reducible refine StillO.ite ?_ ?_ | with_reducible exact Still.refl _ | with_reducible refine Still.ite ?_ ?_ | with_reducible refine Still.foldl ?_ ?_ | with_reducible refine Still.iteP ?_ ?_ | with_reducible refine Still.foldlP ?_ ?_ | (intro _; intros; try dsimp only) | with_reducible apply State.setFld_still | with_reducible apply State.setBit_still | with_reducible apply State.fault_still | split

theorem State.levelGroup_still {s₀ s : State} (h : Still s₀ s) : Still s₀ (State.levelGroup s) := by
  unfold State.levelGroup
  try dsimp only
  repeat' first | with_reducible assumption | with_reducible refine Still.ite ?_ ?_ | with_reducible refine Still.foldl ?_ ?_ | with_reducible refine Still.iteP ?_ ?_ | with_reducible refine Still.foldlP ?_ ?_ | (intro _; intros; try dsimp only) | fail_if_no_progress with_reducible refine Still.upd ?_ | split

theorem execThermalTrip_keeps (i : Fin 32) (s : State) : KeepsO s (execThermalTrip i s) := by
  unfold execThermalTrip
  split
  · exact KeepsO.go (Keeps.refl s)
  · extract_lets s1 s2
    have h1 : Still s s1 := State.setFld_still (State.setBit_still (Still.refl s) _ _ _) _ _ _ _
    have h2 : Still s s2 := State.commitAll_still (State.event_still (State.setFld_still
      (State.safePins_still (State.allDown_still h1 _)) _ _ _ _) _ _)
    clear_value s2
    exact KeepsO.go ((State.globalOff_keeps ((Keeps.refl s).of_still h2)).of_still (State.railsOff_still (Still.refl _) _))

theorem execPowerRemoval_keeps (s : State) : KeepsO s (execPowerRemoval s) := ⟨fun t e => by cases e; exact ⟨fun _ => { State.reset_inv with mem := rfl }, rfl, FusesKept.refl _⟩⟩

end Sys2Proof.Machine
end

