-- ==== Sys2Proof/Laws/KeepsAccords.lean ====
section
/-!
SUPPORT. Sys2Proof/Laws/KeepsAccords.lean: every operation of Machine/Accords.lean leaves standing what Laws/Keeps.lean says.
-/
set_option linter.unusedTactic false
set_option linter.unreachableTactic false
namespace Sys2Proof.Machine

theorem State.configOn_still {s₀ s : State} (h : Still s₀ s) (as : List Nat) (n : Nat) : Still s₀ (State.configOn s as n) := by
  unfold State.configOn
  try dsimp only
  repeat' first | with_reducible assumption | with_reducible refine Still.ite ?_ ?_ | with_reducible refine Still.foldl ?_ ?_ | with_reducible refine Still.iteP ?_ ?_ | with_reducible refine Still.foldlP ?_ ?_ | (intro _; intros; try dsimp only) | with_reducible apply State.applyLoads_still | with_reducible apply State.undoAddrs_still | split

theorem State.accState_still {s₀ s : State} (h : Still s₀ s) (v : Nat) : Still s₀ (State.accState s v) := by
  unfold State.accState
  try dsimp only
  repeat' first | with_reducible assumption | with_reducible refine Still.ite ?_ ?_ | with_reducible refine Still.foldl ?_ ?_ | with_reducible refine Still.iteP ?_ ?_ | with_reducible refine Still.foldlP ?_ ?_ | (intro _; intros; try dsimp only) | with_reducible apply State.setFld_still | split

theorem State.accResult_still {s₀ s : State} (h : Still s₀ s) (v : Nat) : Still s₀ (State.accResult s v) := by
  unfold State.accResult
  try dsimp only
  repeat' first | with_reducible assumption | with_reducible refine Still.ite ?_ ?_ | with_reducible refine Still.foldl ?_ ?_ | with_reducible refine Still.iteP ?_ ?_ | with_reducible refine Still.foldlP ?_ ?_ | (intro _; intros; try dsimp only) | with_reducible apply State.setFld_still | split

theorem State.setInflight_still {s₀ s : State} (h : Still s₀ s) (w : Option Switch) : Still s₀ (State.setInflight s w) := by
  unfold State.setInflight
  try dsimp only
  repeat' first | with_reducible assumption | with_reducible refine Still.ite ?_ ?_ | with_reducible refine Still.foldl ?_ ?_ | with_reducible refine Still.iteP ?_ ?_ | with_reducible refine Still.foldlP ?_ ?_ | (intro _; intros; try dsimp only) | fail_if_no_progress with_reducible refine Still.upd ?_ | split

theorem State.dropAccordTriggers_still {s₀ s : State} (h : Still s₀ s) : Still s₀ (State.dropAccordTriggers s) := by
  unfold State.dropAccordTriggers
  try dsimp only
  repeat' first | with_reducible assumption | with_reducible refine Still.ite ?_ ?_ | with_reducible refine Still.foldl ?_ ?_ | with_reducible refine Still.iteP ?_ ?_ | with_reducible refine Still.foldlP ?_ ?_ | (intro _; intros; try dsimp only) | with_reducible apply State.setFld_still | fail_if_no_progress with_reducible refine Still.upd ?_ | with_reducible apply Still.filterMem | with_reducible apply Still.filterRegs | split

theorem State.unstage_still {s₀ s : State} (h : Still s₀ s) (w : Switch) : Still s₀ (State.unstage s w) := by
  unfold State.unstage
  try dsimp only
  repeat' first | with_reducible assumption | with_reducible refine Still.ite ?_ ?_ | with_reducible refine Still.foldl ?_ ?_ | with_reducible refine Still.iteP ?_ ?_ | with_reducible refine Still.foldlP ?_ ?_ | (intro _; intros; try dsimp only) | fail_if_no_progress with_reducible refine Still.upd ?_ | with_reducible apply Still.filterMem | with_reducible apply Still.filterRegs | split

theorem State.endSwitch_still {s₀ s : State} (h : Still s₀ s) (w : Switch) (result : Nat) : Still s₀ (State.endSwitch s w result) := by
  unfold State.endSwitch
  try dsimp only
  repeat' first | with_reducible assumption | with_reducible refine Still.ite ?_ ?_ | with_reducible refine Still.foldl ?_ ?_ | with_reducible refine Still.iteP ?_ ?_ | with_reducible refine Still.foldlP ?_ ?_ | (intro _; intros; try dsimp only) | with_reducible apply State.setFld_still | with_reducible apply State.accState_still | with_reducible apply State.accResult_still | with_reducible apply State.setInflight_still | with_reducible apply State.dropAccordTriggers_still | with_reducible apply State.unstage_still | fail_if_no_progress with_reducible refine Still.upd ?_ | split

theorem State.cancelSwitch_still {s₀ s : State} (h : Still s₀ s) : Still s₀ (State.cancelSwitch s) := by
  unfold State.cancelSwitch
  try dsimp only
  repeat' first | with_reducible assumption | with_reducible refine Still.ite ?_ ?_ | with_reducible refine Still.foldl ?_ ?_ | with_reducible refine Still.iteP ?_ ?_ | with_reducible refine Still.foldlP ?_ ?_ | (intro _; intros; try dsimp only) | with_reducible apply State.endSwitch_still | fail_if_no_progress with_reducible refine Still.upd ?_ | split

theorem State.refuseSwitch_still {s₀ s : State} (h : Still s₀ s) (w : Switch) : Still s₀ (State.refuseSwitch s w) := by
  unfold State.refuseSwitch
  try dsimp only
  repeat' first | with_reducible assumption | with_reducible refine Still.ite ?_ ?_ | with_reducible refine Still.foldl ?_ ?_ | with_reducible refine Still.iteP ?_ ?_ | with_reducible refine Still.foldlP ?_ ?_ | (intro _; intros; try dsimp only) | with_reducible apply State.fault_still | with_reducible apply State.endSwitch_still | split

theorem State.lateSwitch_still {s₀ s : State} (h : Still s₀ s) (w : Switch) : Still s₀ (State.lateSwitch s w) := by
  unfold State.lateSwitch
  try dsimp only
  repeat' first | with_reducible assumption | with_reducible refine Still.ite ?_ ?_ | with_reducible refine Still.foldl ?_ ?_ | with_reducible refine Still.iteP ?_ ?_ | with_reducible refine Still.foldlP ?_ ?_ | (intro _; intros; try dsimp only) | with_reducible apply State.setReg_still | with_reducible apply State.setFld_still | with_reducible apply State.refuseSwitch_still | split

theorem State.accordReady_still {s₀ s : State} (h : Still s₀ s) (w : Switch) : Still s₀ (State.accordReady s w) := by
  unfold State.accordReady
  try dsimp only
  repeat' first | with_reducible assumption | with_reducible refine Still.ite ?_ ?_ | with_reducible refine Still.foldl ?_ ?_ | with_reducible refine Still.iteP ?_ ?_ | with_reducible refine Still.foldlP ?_ ?_ | (intro _; intros; try dsimp only) | with_reducible apply State.setReg_still | with_reducible apply State.setFld_still | with_reducible apply State.setBit_still | with_reducible apply State.accState_still | with_reducible apply State.accResult_still | with_reducible apply State.setInflight_still | with_reducible apply State.lateSwitch_still | fail_if_no_progress with_reducible refine Still.upd ?_ | split

theorem State.accordAdmitted_still {s₀ s : State} (h : Still s₀ s) (n : Nat) (z : AdmSnap) (r : AdmResult) : Still s₀ (State.accordAdmitted s n z r) := by
  unfold State.accordAdmitted
  try dsimp only
  repeat' first | with_reducible assumption | with_reducible refine Still.ite ?_ ?_ | with_reducible refine Still.foldl ?_ ?_ | with_reducible refine Still.iteP ?_ ?_ | with_reducible refine Still.foldlP ?_ ?_ | (intro _; intros; try dsimp only) | with_reducible apply State.accState_still | with_reducible apply State.setInflight_still | with_reducible apply State.refuseSwitch_still | with_reducible apply State.accordReady_still | fail_if_no_progress with_reducible refine Still.upd ?_ | with_reducible apply Still.filterMem | with_reducible apply Still.filterRegs | split

theorem State.stage_still {s₀ s : State} (h : Still s₀ s) (w : Switch) : Still s₀ (State.stage s w) := by
  unfold State.stage
  try dsimp only
  repeat' first | with_reducible assumption | with_reducible refine Still.ite ?_ ?_ | with_reducible refine Still.foldl ?_ ?_ | with_reducible refine Still.iteP ?_ ?_ | with_reducible refine Still.foldlP ?_ ?_ | (intro _; intros; try dsimp only) | with_reducible apply State.storeLe_still | with_reducible apply State.configOn_still | fail_if_no_progress with_reducible refine Still.upd ?_ | with_reducible apply Still.filterMem | with_reducible apply Still.filterRegs | split

theorem execAccordStagingComplete_still (s : State) : StillO s (execAccordStagingComplete s) := by
  unfold execAccordStagingComplete
  try dsimp only
  repeat' first | with_reducible assumption | with_reducible refine StillO.go ?_ | with_reducible refine StillO.ite ?_ ?_ | with_reducible exact Still.refl _ | with_reducible refine Still.ite ?_ ?_ | with_reducible refine Still.foldl ?_ ?_ | with_reducible refine Still.iteP ?_ ?_ | with_reducible refine Still.foldlP ?_ ?_ | (intro _; intros; try dsimp only) | with_reducible apply State.accordReady_still | with_reducible apply State.stage_still | fail_if_no_progress with_reducible refine Still.upd ?_ | split

theorem State.accordConflict_still {s₀ s : State} (h : Still s₀ s) : Still s₀ (State.accordConflict s) := by
  unfold State.accordConflict
  try dsimp only
  repeat' first | with_reducible assumption | with_reducible refine Still.ite ?_ ?_ | with_reducible refine Still.foldl ?_ ?_ | with_reducible refine Still.iteP ?_ ?_ | with_reducible refine Still.foldlP ?_ ?_ | (intro _; intros; try dsimp only) | with_reducible apply State.setBit_still | with_reducible apply State.accResult_still | split

theorem State.takeSwitch_still {s₀ s : State} (h : Still s₀ s) (n : Nat) (source : Nat) (orbit : Option (BitVec 48)) (prep : Bool) : Still s₀ (State.takeSwitch s n source orbit prep) := by
  unfold State.takeSwitch
  try dsimp only
  repeat' first | with_reducible assumption | with_reducible refine Still.ite ?_ ?_ | with_reducible refine Still.foldl ?_ ?_ | with_reducible refine Still.iteP ?_ ?_ | with_reducible refine Still.foldlP ?_ ?_ | (intro _; intros; try dsimp only) | with_reducible apply State.setFld_still | with_reducible apply State.trigger_still | with_reducible apply State.unprepare_still | with_reducible apply State.accState_still | with_reducible apply State.setInflight_still | with_reducible apply State.stage_still | fail_if_no_progress with_reducible refine Still.upd ?_ | split

theorem State.accordRequest_still {s₀ s0 : State} (h : Still s₀ s0) (n : Nat) (source : Nat) (orbit : Option (BitVec 48)) (prep : Bool) : Still s₀ (State.accordRequest s0 n source orbit prep) := by
  unfold State.accordRequest
  try dsimp only
  repeat' first | with_reducible assumption | with_reducible refine Still.ite ?_ ?_ | with_reducible refine Still.foldl ?_ ?_ | with_reducible refine Still.iteP ?_ ?_ | with_reducible refine Still.foldlP ?_ ?_ | (intro _; intros; try dsimp only) | with_reducible apply State.setFld_still | with_reducible apply State.setBit_still | with_reducible apply State.unprepare_still | with_reducible apply State.accResult_still | with_reducible apply State.setInflight_still | with_reducible apply State.endSwitch_still | with_reducible apply State.stage_still | with_reducible apply State.accordConflict_still | with_reducible apply State.takeSwitch_still | fail_if_no_progress with_reducible refine Still.upd ?_ | split

theorem execGlbSwitch_still (n : Byte) (s : State) : StillO s (execGlbSwitch n s) := by
  unfold execGlbSwitch
  try dsimp only
  repeat' first | with_reducible assumption | with_reducible refine StillO.go ?_ | with_reducible refine StillO.ite ?_ ?_ | with_reducible exact Still.refl _ | with_reducible refine Still.ite ?_ ?_ | with_reducible refine Still.foldl ?_ ?_ | with_reducible refine Still.iteP ?_ ?_ | with_reducible refine Still.foldlP ?_ ?_ | (intro _; intros; try dsimp only) | with_reducible apply State.accordRequest_still | split

theorem execGlbPrepare_still (n : Byte) (s : State) : StillO s (execGlbPrepare n s) := by
  unfold execGlbPrepare
  try dsimp only
  repeat' first | with_reducible assumption | with_reducible refine StillO.go ?_ | with_reducible refine StillO.ite ?_ ?_ | with_reducible exact Still.refl _ | with_reducible refine Still.ite ?_ ?_ | with_reducible refine Still.foldl ?_ ?_ | with_reducible refine Still.iteP ?_ ?_ | with_reducible refine Still.foldlP ?_ ?_ | (intro _; intros; try dsimp only) | with_reducible apply State.accordRequest_still | split

theorem State.glbUnprepare_still {s₀ s : State} (h : Still s₀ s) : Still s₀ (State.glbUnprepare s) := by
  unfold State.glbUnprepare
  try dsimp only
  repeat' first | with_reducible assumption | with_reducible refine Still.ite ?_ ?_ | with_reducible refine Still.foldl ?_ ?_ | with_reducible refine Still.iteP ?_ ?_ | with_reducible refine Still.foldlP ?_ ?_ | (intro _; intros; try dsimp only) | with_reducible apply State.unprepare_still | with_reducible apply State.endSwitch_still | fail_if_no_progress with_reducible refine Still.upd ?_ | split

theorem execGlbUnprepare_still (_n : Byte) (s : State) : StillO s (execGlbUnprepare _n s) := by
  unfold execGlbUnprepare
  try dsimp only
  repeat' first | with_reducible assumption | with_reducible refine StillO.go ?_ | with_reducible refine StillO.ite ?_ ?_ | with_reducible exact Still.refl _ | with_reducible refine Still.ite ?_ ?_ | with_reducible refine Still.foldl ?_ ?_ | with_reducible refine Still.iteP ?_ ?_ | with_reducible refine Still.foldlP ?_ ?_ | (intro _; intros; try dsimp only) | with_reducible apply State.glbUnprepare_still | split

theorem State.accordCmdWrite_still {s₀ s : State} (h : Still s₀ s) (v : W32) : Still s₀ (State.accordCmdWrite s v) := by
  unfold State.accordCmdWrite
  try dsimp only
  repeat' first | with_reducible assumption | with_reducible refine Still.ite ?_ ?_ | with_reducible refine Still.foldl ?_ ?_ | with_reducible refine Still.iteP ?_ ?_ | with_reducible refine Still.foldlP ?_ ?_ | (intro _; intros; try dsimp only) | with_reducible apply State.accordRequest_still | with_reducible apply State.glbUnprepare_still | fail_if_no_progress with_reducible refine Still.upd ?_ | split

theorem State.hotSwap_still {s₀ s : State} (h : Still s₀ s) : Still s₀ (State.hotSwap s) := by
  unfold State.hotSwap
  try dsimp only
  repeat' first | with_reducible assumption | with_reducible refine Still.ite ?_ ?_ | with_reducible refine Still.foldl ?_ ?_ | with_reducible refine Still.iteP ?_ ?_ | with_reducible refine Still.foldlP ?_ ?_ | (intro _; intros; try dsimp only) | with_reducible apply State.setByte_still | with_reducible apply State.stage_still | fail_if_no_progress with_reducible refine Still.upd ?_ | with_reducible apply Still.filterMem | with_reducible apply Still.filterRegs | split

theorem State.sectorsAdmitted_still {s₀ s : State} (h : Still s₀ s) (old : BitVec 16) (new : BitVec 16) (cold : List Nat) : Still s₀ (State.sectorsAdmitted s old new cold) := by
  unfold State.sectorsAdmitted
  try dsimp only
  repeat' first | with_reducible assumption | with_reducible refine Still.ite ?_ ?_ | with_reducible refine Still.foldl ?_ ?_ | with_reducible refine Still.iteP ?_ ?_ | with_reducible refine Still.foldlP ?_ ?_ | (intro _; intros; try dsimp only) | with_reducible apply State.dropOut_still | with_reducible apply State.orderlyDown_still | with_reducible apply State.sectorUp_still | split

theorem State.accordEffect_still {s₀ s : State} (h : Still s₀ s) : Still s₀ (State.accordEffect s) := by
  unfold State.accordEffect
  try dsimp only
  repeat' first | with_reducible assumption | with_reducible refine Still.ite ?_ ?_ | with_reducible refine Still.foldl ?_ ?_ | with_reducible refine Still.iteP ?_ ?_ | with_reducible refine Still.foldlP ?_ ?_ | (intro _; intros; try dsimp only) | with_reducible apply State.setFld_still | with_reducible apply State.setBit_still | with_reducible apply State.unprepare_still | with_reducible apply State.clusterReset_still | with_reducible apply State.sectorReset_still | with_reducible apply State.admForce_still | with_reducible apply State.configOn_still | with_reducible apply State.accState_still | with_reducible apply State.accResult_still | with_reducible apply State.setInflight_still | with_reducible apply State.stage_still | with_reducible apply State.sectorsAdmitted_still | fail_if_no_progress with_reducible refine Still.upd ?_ | with_reducible apply Still.filterMem | with_reducible apply Still.filterRegs | split

theorem State.accordDeadline_still {s₀ s : State} (h : Still s₀ s) : Still s₀ (State.accordDeadline s) := by
  unfold State.accordDeadline
  try dsimp only
  repeat' first | with_reducible assumption | with_reducible refine Still.ite ?_ ?_ | with_reducible refine Still.foldl ?_ ?_ | with_reducible refine Still.iteP ?_ ?_ | with_reducible refine Still.foldlP ?_ ?_ | (intro _; intros; try dsimp only) | with_reducible apply State.lateSwitch_still | with_reducible apply State.stage_still | fail_if_no_progress with_reducible refine Still.upd ?_ | split

end Sys2Proof.Machine
end

