-- ==== Sys2Proof/Laws/KeepsTouchstone.lean ====
section
/-!
SUPPORT. Sys2Proof/Laws/KeepsTouchstone.lean: every operation of Machine/Touchstone.lean leaves standing what Laws/Keeps.lean says.
-/
set_option linter.unusedTactic false
set_option linter.unreachableTactic false
namespace Sys2Proof.Machine

theorem State.setTlane_still {s₀ s : State} (h : Still s₀ s) (i : Nat) (k : TLane) : Still s₀ (State.setTlane s i k) := by
  unfold State.setTlane
  try dsimp only
  repeat' first | with_reducible assumption | with_reducible refine Still.ite ?_ ?_ | with_reducible refine Still.foldl ?_ ?_ | with_reducible refine Still.iteP ?_ ?_ | with_reducible refine Still.foldlP ?_ ?_ | (intro _; intros; try dsimp only) | fail_if_no_progress with_reducible refine Still.upd ?_ | fail_if_no_progress with_reducible refine Still.updTsb ?_ | fail_if_no_progress with_reducible refine Still.updAny ?_ ⟨rfl, rfl, rfl, rfl, rfl, rfl, rfl, rfl⟩ | split

theorem State.setQualified_still {s₀ s : State} (h : Still s₀ s) (i : Nat) (b : Bool) : Still s₀ (State.setQualified s i b) := by
  unfold State.setQualified
  try dsimp only
  repeat' first | with_reducible assumption | with_reducible refine Still.ite ?_ ?_ | with_reducible refine Still.foldl ?_ ?_ | with_reducible refine Still.iteP ?_ ?_ | with_reducible refine Still.foldlP ?_ ?_ | (intro _; intros; try dsimp only) | with_reducible apply State.setBit_still | split

theorem State.decide_still {s₀ s : State} (h : Still s₀ s) (k : Nat) (w : Byte × Byte) : Still s₀ (State.decide_ s k w) := by
  unfold State.decide_
  try dsimp only
  repeat' first | with_reducible assumption | with_reducible refine Still.ite ?_ ?_ | with_reducible refine Still.foldl ?_ ?_ | with_reducible refine Still.iteP ?_ ?_ | with_reducible refine Still.foldlP ?_ ?_ | (intro _; intros; try dsimp only) | fail_if_no_progress with_reducible refine Still.upd ?_ | fail_if_no_progress with_reducible refine Still.updTsb ?_ | fail_if_no_progress with_reducible refine Still.updAny ?_ ⟨rfl, rfl, rfl, rfl, rfl, rfl, rfl, rfl⟩ | with_reducible apply Still.filterMem | with_reducible apply Still.filterRegs | split

theorem execTimingWord_still (lane : Fin 2) (word : TimingChars) (s : State) : StillO s (execTimingWord lane word s) := by
  unfold execTimingWord
  try dsimp only
  repeat' first | with_reducible assumption | with_reducible refine StillO.go ?_ | with_reducible refine StillO.ite ?_ ?_ | with_reducible exact Still.refl _ | with_reducible refine Still.ite ?_ ?_ | with_reducible refine Still.foldl ?_ ?_ | with_reducible refine Still.iteP ?_ ?_ | with_reducible refine Still.foldlP ?_ ?_ | (intro _; intros; try dsimp only) | with_reducible apply State.setFld_still | with_reducible apply State.setBit_still | with_reducible apply State.count_still | with_reducible apply State.take_still | with_reducible apply State.setTlane_still | with_reducible apply State.setQualified_still | with_reducible apply State.decide_still | fail_if_no_progress with_reducible refine Still.upd ?_ | fail_if_no_progress with_reducible refine Still.updTsb ?_ | fail_if_no_progress with_reducible refine Still.updAny ?_ ⟨rfl, rfl, rfl, rfl, rfl, rfl, rfl, rfl⟩ | with_reducible apply Still.filterMem | with_reducible apply Still.filterRegs | split

theorem State.callSwap_still {s₀ s : State} (h : Still s₀ s) : Still s₀ (State.callSwap s) := by
  unfold State.callSwap
  try dsimp only
  repeat' first | with_reducible assumption | with_reducible refine Still.ite ?_ ?_ | with_reducible refine Still.foldl ?_ ?_ | with_reducible refine Still.iteP ?_ ?_ | with_reducible refine Still.foldlP ?_ ?_ | (intro _; intros; try dsimp only) | fail_if_no_progress with_reducible refine Still.upd ?_ | fail_if_no_progress with_reducible refine Still.updTsb ?_ | fail_if_no_progress with_reducible refine Still.updAny ?_ ⟨rfl, rfl, rfl, rfl, rfl, rfl, rfl, rfl⟩ | split

theorem execTimingLaneFailure_still (lane : Fin 2) (lossOfLock : Bool) (s : State) : StillO s (execTimingLaneFailure lane lossOfLock s) := by
  unfold execTimingLaneFailure
  try dsimp only
  repeat' first | with_reducible assumption | with_reducible refine StillO.go ?_ | with_reducible refine StillO.ite ?_ ?_ | with_reducible exact Still.refl _ | with_reducible refine Still.ite ?_ ?_ | with_reducible refine Still.foldl ?_ ?_ | with_reducible refine Still.iteP ?_ ?_ | with_reducible refine Still.foldlP ?_ ?_ | (intro _; intros; try dsimp only) | with_reducible apply State.setBit_still | with_reducible apply State.count_still | with_reducible apply State.setTlane_still | with_reducible apply State.setQualified_still | with_reducible apply State.callSwap_still | fail_if_no_progress with_reducible refine Still.upd ?_ | with_reducible apply Still.filterMem | with_reducible apply Still.filterRegs | split

theorem execFailover_still (s : State) : StillO s (execFailover s) := by
  unfold execFailover
  try dsimp only
  repeat' first | with_reducible assumption | with_reducible refine StillO.go ?_ | with_reducible refine StillO.ite ?_ ?_ | with_reducible exact Still.refl _ | with_reducible refine Still.ite ?_ ?_ | with_reducible refine Still.foldl ?_ ?_ | with_reducible refine Still.iteP ?_ ?_ | with_reducible refine Still.foldlP ?_ ?_ | (intro _; intros; try dsimp only) | with_reducible apply State.setFld_still | with_reducible apply State.setBit_still | with_reducible apply State.fault_still | fail_if_no_progress with_reducible refine Still.upd ?_ | fail_if_no_progress with_reducible refine Still.updTsb ?_ | fail_if_no_progress with_reducible refine Still.updAny ?_ ⟨rfl, rfl, rfl, rfl, rfl, rfl, rfl, rfl⟩ | split

theorem State.measureOffset_still {s₀ s : State} (h : Still s₀ s) : Still s₀ (State.measureOffset s) := by
  unfold State.measureOffset
  try dsimp only
  repeat' first | with_reducible assumption | with_reducible refine Still.ite ?_ ?_ | with_reducible refine Still.foldl ?_ ?_ | with_reducible refine Still.iteP ?_ ?_ | with_reducible refine Still.foldlP ?_ ?_ | (intro _; intros; try dsimp only) | with_reducible apply State.setFld_still | with_reducible apply State.setBit_still | fail_if_no_progress with_reducible refine Still.upd ?_ | split

theorem execTimingLaneQualify_still (lane : Fin 2) (steps : Int) (s : State) : StillO s (execTimingLaneQualify lane steps s) := by
  unfold execTimingLaneQualify
  try dsimp only
  repeat' first | with_reducible assumption | with_reducible refine StillO.go ?_ | with_reducible refine StillO.ite ?_ ?_ | with_reducible exact Still.refl _ | with_reducible refine Still.ite ?_ ?_ | with_reducible refine Still.foldl ?_ ?_ | with_reducible refine Still.iteP ?_ ?_ | with_reducible refine Still.foldlP ?_ ?_ | (intro _; intros; try dsimp only) | with_reducible apply State.setTlane_still | with_reducible apply State.setQualified_still | with_reducible apply State.callSwap_still | with_reducible apply State.measureOffset_still | fail_if_no_progress with_reducible refine Still.upd ?_ | with_reducible apply Still.filterMem | with_reducible apply Still.filterRegs | split

theorem State.tsbSwap_still {s₀ s : State} (h : Still s₀ s) : Still s₀ (State.tsbSwap s) := by
  unfold State.tsbSwap
  try dsimp only
  repeat' first | with_reducible assumption | with_reducible refine Still.ite ?_ ?_ | with_reducible refine Still.foldl ?_ ?_ | with_reducible refine Still.iteP ?_ ?_ | with_reducible refine Still.foldlP ?_ ?_ | (intro _; intros; try dsimp only) | with_reducible apply State.setBit_still | with_reducible apply State.callSwap_still | split

theorem execTsbSwap_still (s : State) : StillO s (execTsbSwap s) := by
  unfold execTsbSwap
  try dsimp only
  repeat' first | with_reducible assumption | with_reducible refine StillO.go ?_ | with_reducible refine StillO.ite ?_ ?_ | with_reducible exact Still.refl _ | with_reducible refine Still.ite ?_ ?_ | with_reducible refine Still.foldl ?_ ?_ | with_reducible refine Still.iteP ?_ ?_ | with_reducible refine Still.foldlP ?_ ?_ | (intro _; intros; try dsimp only) | with_reducible apply State.tsbSwap_still | split

theorem State.tsbRealign_still {s₀ s : State} (h : Still s₀ s) : Still s₀ (State.tsbRealign s) := by
  unfold State.tsbRealign
  try dsimp only
  repeat' first | with_reducible assumption | with_reducible refine Still.ite ?_ ?_ | with_reducible refine Still.foldl ?_ ?_ | with_reducible refine Still.iteP ?_ ?_ | with_reducible refine Still.foldlP ?_ ?_ | (intro _; intros; try dsimp only) | fail_if_no_progress with_reducible refine Still.upd ?_ | fail_if_no_progress with_reducible refine Still.updTsb ?_ | fail_if_no_progress with_reducible refine Still.updAny ?_ ⟨rfl, rfl, rfl, rfl, rfl, rfl, rfl, rfl⟩ | split

theorem execTsbRealign_still (s : State) : StillO s (execTsbRealign s) := by
  unfold execTsbRealign
  try dsimp only
  repeat' first | with_reducible assumption | with_reducible refine StillO.go ?_ | with_reducible refine StillO.ite ?_ ?_ | with_reducible exact Still.refl _ | with_reducible refine Still.ite ?_ ?_ | with_reducible refine Still.foldl ?_ ?_ | with_reducible refine Still.iteP ?_ ?_ | with_reducible refine Still.foldlP ?_ ?_ | (intro _; intros; try dsimp only) | with_reducible apply State.tsbRealign_still | split

theorem State.sectorsLost_still {s₀ s : State} (h : Still s₀ s) : Still s₀ (State.sectorsLost s) := by
  unfold State.sectorsLost
  try dsimp only
  repeat' first | with_reducible assumption | with_reducible refine Still.ite ?_ ?_ | with_reducible refine Still.foldl ?_ ?_ | with_reducible refine Still.iteP ?_ ?_ | with_reducible refine Still.foldlP ?_ ?_ | (intro _; intros; try dsimp only) | with_reducible apply State.sectorOut_still | split

theorem State.readmitDue_still {s₀ s : State} (h : Still s₀ s) : Still s₀ (State.readmitDue s) := by
  unfold State.readmitDue
  try dsimp only
  repeat' first | with_reducible assumption | with_reducible refine Still.ite ?_ ?_ | with_reducible refine Still.foldl ?_ ?_ | with_reducible refine Still.iteP ?_ ?_ | with_reducible refine Still.foldlP ?_ ?_ | (intro _; intros; try dsimp only) | with_reducible apply State.trigger_still | with_reducible apply State.lanesMeasure_still | fail_if_no_progress with_reducible refine Still.upd ?_ | fail_if_no_progress with_reducible refine Still.updTsb ?_ | fail_if_no_progress with_reducible refine Still.updAny ?_ ⟨rfl, rfl, rfl, rfl, rfl, rfl, rfl, rfl⟩ | split

theorem State.enterLost_still {s₀ s : State} (h : Still s₀ s) : Still s₀ (State.enterLost s) := by
  unfold State.enterLost
  try dsimp only
  repeat' first | with_reducible assumption | with_reducible refine Still.ite ?_ ?_ | with_reducible refine Still.foldl ?_ ?_ | with_reducible refine Still.iteP ?_ ?_ | with_reducible refine Still.foldlP ?_ ?_ | (intro _; intros; try dsimp only) | with_reducible apply State.setFld_still | with_reducible apply State.setBit_still | with_reducible apply State.setTsbState_still | with_reducible apply State.fault_still | with_reducible apply State.cancelSwitch_still | with_reducible apply State.sectorsLost_still | fail_if_no_progress with_reducible refine Still.upd ?_ | fail_if_no_progress with_reducible refine Still.updTsb ?_ | fail_if_no_progress with_reducible refine Still.updAny ?_ ⟨rfl, rfl, rfl, rfl, rfl, rfl, rfl, rfl⟩ | split

theorem State.countFrom_keeps {s₀ s : State} (h : Keeps s₀ s) (k : Int) (o : BitVec 48) : Keeps s₀ (State.countFrom s k o) := by
  unfold State.countFrom
  try dsimp only
  repeat' first | with_reducible assumption | with_reducible refine Keeps.ite ?_ ?_ | with_reducible refine Keeps.foldl ?_ ?_ | with_reducible refine Keeps.iteP ?_ ?_ | with_reducible refine Keeps.foldlP ?_ ?_ | (intro _; intros; try dsimp only) | fail_if_no_progress with_reducible refine Keeps.upd ?_ | fail_if_no_progress with_reducible refine Keeps.updTsb ?_ | fail_if_no_progress with_reducible refine Keeps.updAny ?_ ⟨rfl, rfl, rfl⟩ | split

theorem State.countSet_keeps {s₀ s : State} (h : Keeps s₀ s) (k : Int) (payload : Option Byte) : Keeps s₀ (State.countSet s k payload) := by
  unfold State.countSet
  try dsimp only
  repeat' first | with_reducible assumption | with_reducible refine Keeps.ite ?_ ?_ | with_reducible refine Keeps.foldl ?_ ?_ | with_reducible refine Keeps.iteP ?_ ?_ | with_reducible refine Keeps.foldlP ?_ ?_ | (intro _; intros; try dsimp only) | with_reducible apply fun h => Keeps.of_still h (State.setBit_still (Still.refl _) _ _ _) | with_reducible apply State.countFrom_keeps | fail_if_no_progress with_reducible refine Keeps.upd ?_ | fail_if_no_progress with_reducible refine Keeps.updTsb ?_ | fail_if_no_progress with_reducible refine Keeps.updAny ?_ ⟨rfl, rfl, rfl⟩ | split

theorem State.inPlace_keeps {s₀ s : State} (h : Keeps s₀ s) (k : Int) (payload : Option Byte) : Keeps s₀ (State.inPlace s k payload) := by
  unfold State.inPlace
  try dsimp only
  repeat' first | with_reducible assumption | with_reducible refine Keeps.ite ?_ ?_ | with_reducible refine Keeps.foldl ?_ ?_ | with_reducible refine Keeps.iteP ?_ ?_ | with_reducible refine Keeps.foldlP ?_ ?_ | (intro _; intros; try dsimp only) | with_reducible apply fun h => Keeps.of_still h (State.count_still (Still.refl _) _ _ _ _) | fail_if_no_progress with_reducible refine Keeps.upd ?_ | fail_if_no_progress with_reducible refine Keeps.updTsb ?_ | fail_if_no_progress with_reducible refine Keeps.updAny ?_ ⟨rfl, rfl, rfl⟩ | split

theorem State.establish_keeps {s₀ s : State} (h : Keeps s₀ s) (k : Int) (payload : Option Byte) : Keeps s₀ (State.establish s k payload) := by
  unfold State.establish
  try dsimp only
  repeat' first | with_reducible assumption | with_reducible refine Keeps.ite ?_ ?_ | with_reducible refine Keeps.foldl ?_ ?_ | with_reducible refine Keeps.iteP ?_ ?_ | with_reducible refine Keeps.foldlP ?_ ?_ | (intro _; intros; try dsimp only) | with_reducible apply fun h => Keeps.of_still h (State.setBit_still (Still.refl _) _ _ _) | with_reducible apply fun h => Keeps.of_still h (State.count_still (Still.refl _) _ _ _ _) | with_reducible apply fun h => Keeps.of_still h (State.setTsbState_still (Still.refl _) _) | with_reducible apply fun h => Keeps.of_still h (State.take_still (Still.refl _) _) | with_reducible apply fun h => Keeps.of_still h (State.startFails_still (Still.refl _) _ _) | with_reducible apply fun h => Keeps.of_still h (State.readmitDue_still (Still.refl _)) | with_reducible apply State.countSet_keeps | with_reducible apply State.inPlace_keeps | fail_if_no_progress with_reducible refine Keeps.upd ?_ | fail_if_no_progress with_reducible refine Keeps.updTsb ?_ | fail_if_no_progress with_reducible refine Keeps.updAny ?_ ⟨rfl, rfl, rfl⟩ | split

theorem State.moveCount_keeps {s₀ s : State} (h : Keeps s₀ s) (k : Int) : Keeps s₀ (State.moveCount s k) := by
  unfold State.moveCount
  try dsimp only
  repeat' first | with_reducible assumption | with_reducible refine Keeps.ite ?_ ?_ | with_reducible refine Keeps.foldl ?_ ?_ | with_reducible refine Keeps.iteP ?_ ?_ | with_reducible refine Keeps.foldlP ?_ ?_ | (intro _; intros; try dsimp only) | with_reducible apply fun h => Keeps.of_still h (State.setBit_still (Still.refl _) _ _ _) | with_reducible apply fun h => Keeps.of_still h (State.cancelSwitch_still (Still.refl _)) | with_reducible apply fun h => Keeps.of_still h (State.sectorsLost_still (Still.refl _)) | with_reducible apply fun h => Keeps.of_still h (State.readmitDue_still (Still.refl _)) | with_reducible apply State.countFrom_keeps | fail_if_no_progress with_reducible refine Keeps.upd ?_ | fail_if_no_progress with_reducible refine Keeps.updTsb ?_ | fail_if_no_progress with_reducible refine Keeps.updAny ?_ ⟨rfl, rfl, rfl⟩ | split

theorem State.misplaced_still {s₀ s : State} (h : Still s₀ s) (c : Nat) (o : BitVec 48) : Still s₀ (State.misplaced s c o) := by
  unfold State.misplaced
  try dsimp only
  repeat' first | with_reducible assumption | with_reducible refine Still.ite ?_ ?_ | with_reducible refine Still.foldl ?_ ?_ | with_reducible refine Still.iteP ?_ ?_ | with_reducible refine Still.foldlP ?_ ?_ | (intro _; intros; try dsimp only) | with_reducible apply State.setReg_still | with_reducible apply State.setBit_still | with_reducible apply State.count_still | with_reducible apply State.fault_still | fail_if_no_progress with_reducible refine Still.upd ?_ | fail_if_no_progress with_reducible refine Still.updTsb ?_ | fail_if_no_progress with_reducible refine Still.updAny ?_ ⟨rfl, rfl, rfl, rfl, rfl, rfl, rfl, rfl⟩ | with_reducible apply Still.filterMem | with_reducible apply Still.filterRegs | split

theorem State.marker_keeps {s₀ s : State} (h : Keeps s₀ s) (k : Int) (payload : Option Byte) : Keeps s₀ (State.marker s k payload) := by
  unfold State.marker
  try dsimp only
  repeat' first | with_reducible assumption | with_reducible refine Keeps.ite ?_ ?_ | with_reducible refine Keeps.foldl ?_ ?_ | with_reducible refine Keeps.iteP ?_ ?_ | with_reducible refine Keeps.foldlP ?_ ?_ | (intro _; intros; try dsimp only) | with_reducible apply State.inPlace_keeps | with_reducible apply State.establish_keeps | with_reducible apply State.moveCount_keeps | with_reducible apply fun h => Keeps.of_still h (State.misplaced_still (Still.refl _) _ _) | fail_if_no_progress with_reducible refine Keeps.upd ?_ | split

theorem execOrbit_keeps (s : State) : KeepsO s (execOrbit s) := by
  unfold execOrbit
  try dsimp only
  repeat' first | with_reducible assumption | with_reducible refine KeepsO.go ?_ | with_reducible refine KeepsO.ite ?_ ?_ | with_reducible exact Keeps.refl _ | with_reducible refine Keeps.ite ?_ ?_ | with_reducible refine Keeps.foldl ?_ ?_ | with_reducible refine Keeps.iteP ?_ ?_ | with_reducible refine Keeps.foldlP ?_ ?_ | (intro _; intros; try dsimp only) | with_reducible apply State.marker_keeps | fail_if_no_progress with_reducible refine Keeps.upd ?_ | fail_if_no_progress with_reducible refine Keeps.updTsb ?_ | fail_if_no_progress with_reducible refine Keeps.updAny ?_ ⟨rfl, rfl, rfl⟩ | split

theorem execOrbitPinMarker_keeps (s : State) : KeepsO s (execOrbitPinMarker s) := by
  unfold execOrbitPinMarker
  try dsimp only
  repeat' first | with_reducible assumption | with_reducible refine KeepsO.go ?_ | with_reducible refine KeepsO.ite ?_ ?_ | with_reducible exact Keeps.refl _ | with_reducible refine Keeps.ite ?_ ?_ | with_reducible refine Keeps.foldl ?_ ?_ | with_reducible refine Keeps.iteP ?_ ?_ | with_reducible refine Keeps.foldlP ?_ ?_ | (intro _; intros; try dsimp only) | with_reducible apply State.marker_keeps | split

theorem State.doneCmd_still {s₀ s : State} (h : Still s₀ s) : Still s₀ (State.doneCmd s) := by
  unfold State.doneCmd
  try dsimp only
  repeat' first | with_reducible assumption | with_reducible refine Still.ite ?_ ?_ | with_reducible refine Still.foldl ?_ ?_ | with_reducible refine Still.iteP ?_ ?_ | with_reducible refine Still.foldlP ?_ ?_ | (intro _; intros; try dsimp only) | fail_if_no_progress with_reducible refine Still.upd ?_ | fail_if_no_progress with_reducible refine Still.updTsb ?_ | fail_if_no_progress with_reducible refine Still.updAny ?_ ⟨rfl, rfl, rfl, rfl, rfl, rfl, rfl, rfl⟩ | split

theorem State.onCmd_still (s : State) (code : Nat) (f : Nat → Byte → State → State) (hf : ∀ e p s₁, Still s s₁ → Still s (f e p s₁)) : StillO s (State.onCmd s code f) := by
  unfold State.onCmd
  try dsimp only
  repeat' first | with_reducible assumption | with_reducible apply hf | with_reducible refine StillO.go ?_ | with_reducible refine StillO.ite ?_ ?_ | with_reducible exact Still.refl _ | with_reducible refine Still.ite ?_ ?_ | with_reducible refine Still.foldl ?_ ?_ | with_reducible refine Still.iteP ?_ ?_ | with_reducible refine Still.foldlP ?_ ?_ | (intro _; intros; try dsimp only) | with_reducible apply State.doneCmd_still | fail_if_no_progress with_reducible refine Still.upd ?_ | split

theorem execNop_still (s : State) : StillO s (execNop s) := by
  unfold execNop
  try dsimp only
  repeat' first | with_reducible assumption | with_reducible refine StillO.go ?_ | with_reducible refine StillO.ite ?_ ?_ | with_reducible exact Still.refl _ | with_reducible refine Still.ite ?_ ?_ | with_reducible refine Still.foldl ?_ ?_ | with_reducible refine Still.iteP ?_ ?_ | with_reducible refine Still.foldlP ?_ ?_ | (intro _; intros; try dsimp only) | with_reducible apply State.onCmd_still | split

theorem execAccept_still (s : State) : StillO s (execAccept s) := by
  unfold execAccept
  try dsimp only
  repeat' first | with_reducible assumption | with_reducible refine StillO.go ?_ | with_reducible refine StillO.ite ?_ ?_ | with_reducible exact Still.refl _ | with_reducible refine Still.ite ?_ ?_ | with_reducible refine Still.foldl ?_ ?_ | with_reducible refine Still.iteP ?_ ?_ | with_reducible refine Still.foldlP ?_ ?_ | (intro _; intros; try dsimp only) | with_reducible apply State.acceptAt_still | with_reducible apply State.onCmd_still | split

theorem State.resync_still {s₀ s : State} (h : Still s₀ s) : Still s₀ (State.resync s) := by
  unfold State.resync
  try dsimp only
  repeat' first | with_reducible assumption | with_reducible refine Still.ite ?_ ?_ | with_reducible refine Still.foldl ?_ ?_ | with_reducible refine Still.iteP ?_ ?_ | with_reducible refine Still.foldlP ?_ ?_ | (intro _; intros; try dsimp only) | with_reducible apply State.queueResync_still | with_reducible apply State.readoutResync_still | with_reducible apply State.tsbRealign_still | with_reducible apply Still.filterMem | with_reducible apply Still.filterRegs | split

theorem execResync_still (s : State) : StillO s (execResync s) := by
  unfold execResync
  try dsimp only
  repeat' first | with_reducible assumption | with_reducible refine StillO.go ?_ | with_reducible refine StillO.ite ?_ ?_ | with_reducible exact Still.refl _ | with_reducible refine Still.ite ?_ ?_ | with_reducible refine Still.foldl ?_ ?_ | with_reducible refine Still.iteP ?_ ?_ | with_reducible refine Still.foldlP ?_ ?_ | (intro _; intros; try dsimp only) | with_reducible apply State.onCmd_still | with_reducible apply State.resync_still | split

theorem execTestpulse_still (s : State) : StillO s (execTestpulse s) := by
  unfold execTestpulse
  try dsimp only
  repeat' first | with_reducible assumption | with_reducible refine StillO.go ?_ | with_reducible refine StillO.ite ?_ ?_ | with_reducible exact Still.refl _ | with_reducible refine Still.ite ?_ ?_ | with_reducible refine Still.foldl ?_ ?_ | with_reducible refine Still.iteP ?_ ?_ | with_reducible refine Still.foldlP ?_ ?_ | (intro _; intros; try dsimp only) | with_reducible apply State.onCmd_still | split

theorem State.calRise_still {s₀ s : State} (h : Still s₀ s) : Still s₀ (State.calRise s) := by
  unfold State.calRise
  try dsimp only
  repeat' first | with_reducible assumption | with_reducible refine Still.ite ?_ ?_ | with_reducible refine Still.foldl ?_ ?_ | with_reducible refine Still.iteP ?_ ?_ | with_reducible refine Still.foldlP ?_ ?_ | (intro _; intros; try dsimp only) | fail_if_no_progress with_reducible refine Still.upd ?_ | fail_if_no_progress with_reducible refine Still.updTsb ?_ | fail_if_no_progress with_reducible refine Still.updAny ?_ ⟨rfl, rfl, rfl, rfl, rfl, rfl, rfl, rfl⟩ | with_reducible apply Still.filterMem | with_reducible apply Still.filterRegs | split

theorem State.calPulse_still {s₀ s : State} (h : Still s₀ s) (mask : Nat) (rise : Nat) (w : Nat) : Still s₀ (State.calPulse s mask rise w) := by
  unfold State.calPulse
  try dsimp only
  repeat' first | with_reducible assumption | with_reducible refine Still.ite ?_ ?_ | with_reducible refine Still.foldl ?_ ?_ | with_reducible refine Still.iteP ?_ ?_ | with_reducible refine Still.foldlP ?_ ?_ | (intro _; intros; try dsimp only) | with_reducible apply State.calRise_still | fail_if_no_progress with_reducible refine Still.upd ?_ | fail_if_no_progress with_reducible refine Still.updTsb ?_ | fail_if_no_progress with_reducible refine Still.updAny ?_ ⟨rfl, rfl, rfl, rfl, rfl, rfl, rfl, rfl⟩ | split

theorem execCalstrobe_still (s : State) : StillO s (execCalstrobe s) := by
  unfold execCalstrobe
  try dsimp only
  repeat' first | with_reducible assumption | with_reducible refine StillO.go ?_ | with_reducible refine StillO.ite ?_ ?_ | with_reducible exact Still.refl _ | with_reducible refine Still.ite ?_ ?_ | with_reducible refine Still.foldl ?_ ?_ | with_reducible refine Still.iteP ?_ ?_ | with_reducible refine Still.foldlP ?_ ?_ | (intro _; intros; try dsimp only) | with_reducible apply State.onCmd_still | with_reducible apply State.calPulse_still | split

theorem execCalPinFall_still (pin : Fin 4) (s : State) : StillO s (execCalPinFall pin s) := by
  unfold execCalPinFall
  try dsimp only
  repeat' first | with_reducible assumption | with_reducible refine StillO.go ?_ | with_reducible refine StillO.ite ?_ ?_ | with_reducible exact Still.refl _ | with_reducible refine Still.ite ?_ ?_ | with_reducible refine Still.foldl ?_ ?_ | with_reducible refine Still.iteP ?_ ?_ | with_reducible refine Still.foldlP ?_ ?_ | (intro _; intros; try dsimp only) | fail_if_no_progress with_reducible refine Still.upd ?_ | fail_if_no_progress with_reducible refine Still.updTsb ?_ | fail_if_no_progress with_reducible refine Still.updAny ?_ ⟨rfl, rfl, rfl, rfl, rfl, rfl, rfl, rfl⟩ | with_reducible apply Still.filterMem | with_reducible apply Still.filterRegs | split

theorem State.clearCounters_still {s₀ s : State} (h : Still s₀ s) : Still s₀ (State.clearCounters s) := by
  unfold State.clearCounters
  try dsimp only
  repeat' first | with_reducible assumption | with_reducible refine Still.ite ?_ ?_ | with_reducible refine Still.foldl ?_ ?_ | with_reducible refine Still.iteP ?_ ?_ | with_reducible refine Still.foldlP ?_ ?_ | (intro _; intros; try dsimp only) | with_reducible apply State.setReg_still | with_reducible apply State.setTask_still | with_reducible apply Still.filterMem | with_reducible apply Still.filterRegs | split

theorem State.counterReset_still {s₀ s : State} (h : Still s₀ s) (p : Byte) : Still s₀ (State.counterReset s p) := by
  unfold State.counterReset
  try dsimp only
  repeat' first | with_reducible assumption | with_reducible refine Still.ite ?_ ?_ | with_reducible refine Still.foldl ?_ ?_ | with_reducible refine Still.iteP ?_ ?_ | with_reducible refine Still.foldlP ?_ ?_ | (intro _; intros; try dsimp only) | with_reducible apply State.setReg_still | with_reducible apply State.setBit_still | with_reducible apply State.clearCounters_still | fail_if_no_progress with_reducible refine Still.upd ?_ | fail_if_no_progress with_reducible refine Still.updTsb ?_ | fail_if_no_progress with_reducible refine Still.updAny ?_ ⟨rfl, rfl, rfl, rfl, rfl, rfl, rfl, rfl⟩ | split

theorem execCounterReset_still (s : State) : StillO s (execCounterReset s) := by
  unfold execCounterReset
  try dsimp only
  repeat' first | with_reducible assumption | with_reducible refine StillO.go ?_ | with_reducible refine StillO.ite ?_ ?_ | with_reducible exact Still.refl _ | with_reducible refine Still.ite ?_ ?_ | with_reducible refine Still.foldl ?_ ?_ | with_reducible refine Still.iteP ?_ ?_ | with_reducible refine Still.foldlP ?_ ?_ | (intro _; intros; try dsimp only) | with_reducible apply State.onCmd_still | with_reducible apply State.counterReset_still | split

theorem execQuietStart_still (s : State) : StillO s (execQuietStart s) := by
  unfold execQuietStart
  try dsimp only
  repeat' first | with_reducible assumption | with_reducible refine StillO.go ?_ | with_reducible refine StillO.ite ?_ ?_ | with_reducible exact Still.refl _ | with_reducible refine Still.ite ?_ ?_ | with_reducible refine Still.foldl ?_ ?_ | with_reducible refine Still.iteP ?_ ?_ | with_reducible refine Still.foldlP ?_ ?_ | (intro _; intros; try dsimp only) | with_reducible apply State.setBit_still | with_reducible apply State.onCmd_still | split

theorem execQuietEnd_still (s : State) : StillO s (execQuietEnd s) := by
  unfold execQuietEnd
  try dsimp only
  repeat' first | with_reducible assumption | with_reducible refine StillO.go ?_ | with_reducible refine StillO.ite ?_ ?_ | with_reducible exact Still.refl _ | with_reducible refine Still.ite ?_ ?_ | with_reducible refine Still.foldl ?_ ?_ | with_reducible refine Still.iteP ?_ ?_ | with_reducible refine Still.foldlP ?_ ?_ | (intro _; intros; try dsimp only) | with_reducible apply State.setBit_still | with_reducible apply State.onCmd_still | split

theorem execAccordSwitch_still (s : State) : StillO s (execAccordSwitch s) := by
  unfold execAccordSwitch
  try dsimp only
  repeat' first | with_reducible assumption | with_reducible refine StillO.go ?_ | with_reducible refine StillO.ite ?_ ?_ | with_reducible exact Still.refl _ | with_reducible refine Still.ite ?_ ?_ | with_reducible refine Still.foldl ?_ ?_ | with_reducible refine Still.iteP ?_ ?_ | with_reducible refine Still.foldlP ?_ ?_ | (intro _; intros; try dsimp only) | with_reducible apply State.accordRequest_still | with_reducible apply State.onCmd_still | split

theorem execReservedCommand_still (s : State) : StillO s (execReservedCommand s) := by
  unfold execReservedCommand
  try dsimp only
  repeat' first | with_reducible assumption | with_reducible refine StillO.go ?_ | with_reducible refine StillO.ite ?_ ?_ | with_reducible exact Still.refl _ | with_reducible refine Still.ite ?_ ?_ | with_reducible refine Still.foldl ?_ ?_ | with_reducible refine Still.iteP ?_ ?_ | with_reducible refine Still.foldlP ?_ ?_ | (intro _; intros; try dsimp only) | with_reducible apply State.count_still | with_reducible apply State.doneCmd_still | fail_if_no_progress with_reducible refine Still.upd ?_ | split

theorem State.nowRead_still {s₀ s : State} (h : Still s₀ s) : Still s₀ (State.nowRead s).1 := by
  unfold State.nowRead
  try dsimp only
  repeat' first | with_reducible assumption | with_reducible refine Still.ite ?_ ?_ | with_reducible refine Still.foldl ?_ ?_ | with_reducible refine Still.iteP ?_ ?_ | with_reducible refine Still.foldlP ?_ ?_ | (intro _; intros; try dsimp only) | with_reducible apply State.setReg_still | split

theorem execTsbNowRead_still (s : State) : StillO s (execTsbNowRead s) := by
  unfold execTsbNowRead
  try dsimp only
  repeat' first | with_reducible assumption | with_reducible refine StillO.go ?_ | with_reducible refine StillO.ite ?_ ?_ | with_reducible exact Still.refl _ | with_reducible refine Still.ite ?_ ?_ | with_reducible refine Still.foldl ?_ ?_ | with_reducible refine Still.iteP ?_ ?_ | with_reducible refine Still.foldlP ?_ ?_ | (intro _; intros; try dsimp only) | with_reducible apply State.read_still | with_reducible apply State.nowRead_still | fail_if_no_progress with_reducible refine Still.upd ?_ | split

theorem State.snapshot_still {s₀ s : State} (h : Still s₀ s) (mask : Nat) : Still s₀ (State.snapshot s mask) := by
  unfold State.snapshot
  try dsimp only
  repeat' first | with_reducible assumption | with_reducible refine Still.ite ?_ ?_ | with_reducible refine Still.foldl ?_ ?_ | with_reducible refine Still.iteP ?_ ?_ | with_reducible refine Still.foldlP ?_ ?_ | (intro _; intros; try dsimp only) | with_reducible apply State.setReg_still | with_reducible apply Still.filterMem | with_reducible apply Still.filterRegs | split

theorem execTsbSnap_still (mask : BitVec 7) (s : State) : StillO s (execTsbSnap mask s) := by
  unfold execTsbSnap
  try dsimp only
  repeat' first | with_reducible assumption | with_reducible refine StillO.go ?_ | with_reducible refine StillO.ite ?_ ?_ | with_reducible exact Still.refl _ | with_reducible refine Still.ite ?_ ?_ | with_reducible refine Still.foldl ?_ ?_ | with_reducible refine Still.iteP ?_ ?_ | with_reducible refine Still.foldlP ?_ ?_ | (intro _; intros; try dsimp only) | with_reducible apply State.snapshot_still | split

theorem execFclkLock_keeps (s : State) : KeepsO s (execFclkLock s) := by
  unfold execFclkLock
  try dsimp only
  repeat' first | with_reducible assumption | with_reducible refine KeepsO.go ?_ | with_reducible refine KeepsO.ite ?_ ?_ | with_reducible exact Keeps.refl _ | with_reducible refine Keeps.ite ?_ ?_ | with_reducible refine Keeps.foldl ?_ ?_ | with_reducible refine Keeps.iteP ?_ ?_ | with_reducible refine Keeps.foldlP ?_ ?_ | (intro _; intros; try dsimp only) | with_reducible apply fun h => Keeps.of_still h (State.setTsbState_still (Still.refl _) _) | with_reducible apply fun h => Keeps.of_still h (State.slotBegins_still (Still.refl _)) | with_reducible apply State.marker_keeps | fail_if_no_progress with_reducible refine Keeps.upd ?_ | fail_if_no_progress with_reducible refine Keeps.updTsb ?_ | fail_if_no_progress with_reducible refine Keeps.updAny ?_ ⟨rfl, rfl, rfl⟩ | split

theorem execLockTimeout_still (noEdge : Bool) (s : State) : StillO s (execLockTimeout noEdge s) := by
  unfold execLockTimeout
  try dsimp only
  repeat' first | with_reducible assumption | with_reducible refine StillO.go ?_ | with_reducible refine StillO.ite ?_ ?_ | with_reducible exact Still.refl _ | with_reducible refine Still.ite ?_ ?_ | with_reducible refine Still.foldl ?_ ?_ | with_reducible refine Still.iteP ?_ ?_ | with_reducible refine Still.foldlP ?_ ?_ | (intro _; intros; try dsimp only) | with_reducible apply State.startFails_still | fail_if_no_progress with_reducible refine Still.upd ?_ | split

theorem execClockLoss_still (s : State) : StillO s (execClockLoss s) := by
  unfold execClockLoss
  try dsimp only
  repeat' first | with_reducible assumption | with_reducible refine StillO.go ?_ | with_reducible refine StillO.ite ?_ ?_ | with_reducible exact Still.refl _ | with_reducible refine Still.ite ?_ ?_ | with_reducible refine Still.foldl ?_ ?_ | with_reducible refine Still.iteP ?_ ?_ | with_reducible refine Still.foldlP ?_ ?_ | (intro _; intros; try dsimp only) | with_reducible apply State.setBit_still | with_reducible apply State.setTsbState_still | with_reducible apply State.fault_still | with_reducible apply State.enterLost_still | fail_if_no_progress with_reducible refine Still.upd ?_ | fail_if_no_progress with_reducible refine Still.updTsb ?_ | fail_if_no_progress with_reducible refine Still.updAny ?_ ⟨rfl, rfl, rfl, rfl, rfl, rfl, rfl, rfl⟩ | split

theorem execClockReturn_still (steps : Int) (s : State) : StillO s (execClockReturn steps s) := by
  unfold execClockReturn
  try dsimp only
  repeat' first | with_reducible assumption | with_reducible refine StillO.go ?_ | with_reducible refine StillO.ite ?_ ?_ | with_reducible exact Still.refl _ | with_reducible refine Still.ite ?_ ?_ | with_reducible refine Still.foldl ?_ ?_ | with_reducible refine Still.iteP ?_ ?_ | with_reducible refine Still.foldlP ?_ ?_ | (intro _; intros; try dsimp only) | with_reducible apply State.setTsbState_still | fail_if_no_progress with_reducible refine Still.upd ?_ | fail_if_no_progress with_reducible refine Still.updTsb ?_ | fail_if_no_progress with_reducible refine Still.updAny ?_ ⟨rfl, rfl, rfl, rfl, rfl, rfl, rfl, rfl⟩ | split

theorem execHoldoverExpiry_still (s : State) : StillO s (execHoldoverExpiry s) := by
  unfold execHoldoverExpiry
  try dsimp only
  repeat' first | with_reducible assumption | with_reducible refine StillO.go ?_ | with_reducible refine StillO.ite ?_ ?_ | with_reducible exact Still.refl _ | with_reducible refine Still.ite ?_ ?_ | with_reducible refine Still.foldl ?_ ?_ | with_reducible refine Still.iteP ?_ ?_ | with_reducible refine Still.foldlP ?_ ?_ | (intro _; intros; try dsimp only) | with_reducible apply State.enterLost_still | split

theorem execReturnQualified_still (s : State) : StillO s (execReturnQualified s) := by
  unfold execReturnQualified
  try dsimp only
  repeat' first | with_reducible assumption | with_reducible refine StillO.go ?_ | with_reducible refine StillO.ite ?_ ?_ | with_reducible exact Still.refl _ | with_reducible refine Still.ite ?_ ?_ | with_reducible refine Still.foldl ?_ ?_ | with_reducible refine Still.iteP ?_ ?_ | with_reducible refine Still.foldlP ?_ ?_ | (intro _; intros; try dsimp only) | fail_if_no_progress with_reducible refine Still.upd ?_ | fail_if_no_progress with_reducible refine Still.updTsb ?_ | fail_if_no_progress with_reducible refine Still.updAny ?_ ⟨rfl, rfl, rfl, rfl, rfl, rfl, rfl, rfl⟩ | split

end Sys2Proof.Machine
end

