-- ==== Sys2Proof/Laws/KeepsAdvance.lean ====
section
/-!
SUPPORT. Sys2Proof/Laws/KeepsAdvance.lean: every operation of Machine/Advance.lean leaves standing what Laws/Keeps.lean says.
-/
set_option linter.unusedTactic false
set_option linter.unreachableTactic false
namespace Sys2Proof.Machine

theorem State.laneRings_still {s₀ s : State} (h : Still s₀ s) (l : Nat) : Still s₀ (State.laneRings s l) := by
  unfold State.laneRings
  try dsimp only
  repeat' first | with_reducible assumption | with_reducible refine Still.ite ?_ ?_ | with_reducible refine Still.foldl ?_ ?_ | with_reducible refine Still.iteP ?_ ?_ | with_reducible refine Still.foldlP ?_ ?_ | (intro _; intros; try dsimp only) | with_reducible apply State.ringWrite_still | fail_if_no_progress with_reducible refine Still.upd ?_ | split

theorem State.coldPorts_still {s₀ s : State} (h : Still s₀ s) (n : Nat) : Still s₀ (State.coldPorts s n) := by
  unfold State.coldPorts
  try dsimp only
  repeat' first | with_reducible assumption | with_reducible refine Still.ite ?_ ?_ | with_reducible refine Still.foldl ?_ ?_ | with_reducible refine Still.iteP ?_ ?_ | with_reducible refine Still.foldlP ?_ ?_ | (intro _; intros; try dsimp only) | with_reducible apply State.olpPush_still | fail_if_no_progress with_reducible refine Still.upd ?_ | split

theorem State.endSlot_still {s₀ s : State} (h : Still s₀ s) : Still s₀ (State.endSlot s) := by
  unfold State.endSlot
  try dsimp only
  repeat' first | with_reducible assumption | with_reducible refine Still.ite ?_ ?_ | with_reducible refine Still.foldl ?_ ?_ | with_reducible refine Still.iteP ?_ ?_ | with_reducible refine Still.foldlP ?_ ?_ | (intro _; intros; try dsimp only) | with_reducible apply State.throttleSample_still | with_reducible apply State.switchRoute_still | with_reducible apply State.countWatchdog_still | with_reducible apply State.laneRings_still | with_reducible apply State.coldPorts_still | split

theorem State.countOn_keeps {s₀ s : State} (h : Keeps s₀ s) (m : Nat) (l : Nat) : Keeps s₀ (State.countOn s m l) := by
  unfold State.countOn
  try dsimp only
  repeat' first | with_reducible assumption | with_reducible refine Keeps.ite ?_ ?_ | with_reducible refine Keeps.foldl ?_ ?_ | with_reducible refine Keeps.iteP ?_ ?_ | with_reducible refine Keeps.foldlP ?_ ?_ | (intro _; intros; try dsimp only) | fail_if_no_progress with_reducible refine Keeps.upd ?_ | fail_if_no_progress with_reducible refine Keeps.updTsb ?_ | fail_if_no_progress with_reducible refine Keeps.updAny ?_ ⟨rfl, rfl, rfl⟩ | split

theorem State.contextSet_still {s₀ s : State} (h : Still s₀ s) (k : Nat) (v : Nat) : Still s₀ (State.contextSet s k v) := by
  unfold State.contextSet
  try dsimp only
  repeat' first | with_reducible assumption | with_reducible refine Still.ite ?_ ?_ | with_reducible refine Still.foldl ?_ ?_ | with_reducible refine Still.iteP ?_ ?_ | with_reducible refine Still.foldlP ?_ ?_ | (intro _; intros; try dsimp only) | with_reducible apply State.setBit_still | split

theorem State.mapsApply_still {s₀ s : State} (h : Still s₀ s) : Still s₀ (State.mapsApply s) := by
  unfold State.mapsApply
  try dsimp only
  repeat' first | with_reducible assumption | with_reducible refine Still.ite ?_ ?_ | with_reducible refine Still.foldl ?_ ?_ | with_reducible refine Still.iteP ?_ ?_ | with_reducible refine Still.foldlP ?_ ?_ | (intro _; intros; try dsimp only) | with_reducible apply State.setReg_still | split

theorem State.quietFollow_still {s₀ s : State} (h : Still s₀ s) : Still s₀ (State.quietFollow s) := by
  unfold State.quietFollow
  try dsimp only
  repeat' first | with_reducible assumption | with_reducible refine Still.ite ?_ ?_ | with_reducible refine Still.foldl ?_ ?_ | with_reducible refine Still.iteP ?_ ?_ | with_reducible refine Still.foldlP ?_ ?_ | (intro _; intros; try dsimp only) | with_reducible apply State.contextSet_still | fail_if_no_progress with_reducible refine Still.upd ?_ | split

theorem State.action_still {s₀ s : State} (h : Still s₀ s) (act : Nat) (target : Nat) (arg : Nat) : Still s₀ (State.action s act target arg) := by
  unfold State.action
  try dsimp only
  repeat' first | with_reducible assumption | with_reducible refine Still.ite ?_ ?_ | with_reducible refine Still.foldl ?_ ?_ | with_reducible refine Still.iteP ?_ ?_ | with_reducible refine Still.foldlP ?_ ?_ | (intro _; intros; try dsimp only) | with_reducible apply State.sendFlag_still | with_reducible apply State.syncReset_still | with_reducible apply State.accordRequest_still | with_reducible apply State.calPulse_still | with_reducible apply State.snapshot_still | with_reducible apply State.contextSet_still | fail_if_no_progress with_reducible refine Still.upd ?_ | with_reducible apply Still.filterMem | with_reducible apply Still.filterRegs | split

theorem State.fire_still {s₀ s : State} (h : Still s₀ s) (i : Nat) : Still s₀ (State.fire s i) := by
  unfold State.fire
  try dsimp only
  repeat' first | with_reducible assumption | with_reducible refine Still.ite ?_ ?_ | with_reducible refine Still.foldl ?_ ?_ | with_reducible refine Still.iteP ?_ ?_ | with_reducible refine Still.foldlP ?_ ?_ | (intro _; intros; try dsimp only) | with_reducible apply State.setReg_still | with_reducible apply State.setBit_still | with_reducible apply State.action_still | split

theorem State.fireAll_still {s₀ s : State} (h : Still s₀ s) : Still s₀ (State.fireAll s) := by
  unfold State.fireAll
  try dsimp only
  repeat' first | with_reducible assumption | with_reducible refine Still.ite ?_ ?_ | with_reducible refine Still.foldl ?_ ?_ | with_reducible refine Still.iteP ?_ ?_ | with_reducible refine Still.foldlP ?_ ?_ | (intro _; intros; try dsimp only) | with_reducible apply State.fire_still | split

theorem State.commandWord_still {s₀ s : State} (h : Still s₀ s) : Still s₀ (State.commandWord s) := by
  unfold State.commandWord
  try dsimp only
  repeat' first | with_reducible assumption | with_reducible refine Still.ite ?_ ?_ | with_reducible refine Still.foldl ?_ ?_ | with_reducible refine Still.iteP ?_ ?_ | with_reducible refine Still.foldlP ?_ ?_ | (intro _; intros; try dsimp only) | with_reducible apply State.setBit_still | with_reducible apply State.count_still | fail_if_no_progress with_reducible refine Still.upd ?_ | fail_if_no_progress with_reducible refine Still.updTsb ?_ | fail_if_no_progress with_reducible refine Still.updAny ?_ ⟨rfl, rfl, rfl, rfl, rfl, rfl, rfl, rfl⟩ | with_reducible apply Still.filterMem | with_reducible apply Still.filterRegs | split

theorem State.orbitStart_still {s₀ s : State} (h : Still s₀ s) : Still s₀ (State.orbitStart s) := by
  unfold State.orbitStart
  try dsimp only
  repeat' first | with_reducible assumption | with_reducible refine Still.ite ?_ ?_ | with_reducible refine Still.foldl ?_ ?_ | with_reducible refine Still.iteP ?_ ?_ | with_reducible refine Still.foldlP ?_ ?_ | (intro _; intros; try dsimp only) | with_reducible apply State.spareJoins_still | with_reducible apply State.admForce_still | with_reducible apply State.sectorsAdmitted_still | with_reducible apply State.accordEffect_still | fail_if_no_progress with_reducible refine Still.upd ?_ | split

theorem State.crossNow_still {s₀ s : State} (h : Still s₀ s) : Still s₀ (State.crossNow s) := by
  unfold State.crossNow
  try dsimp only
  repeat' first | with_reducible assumption | with_reducible refine Still.ite ?_ ?_ | with_reducible refine Still.foldl ?_ ?_ | with_reducible refine Still.iteP ?_ ?_ | with_reducible refine Still.foldlP ?_ ?_ | (intro _; intros; try dsimp only) | with_reducible apply State.crossAll_still | fail_if_no_progress with_reducible refine Still.upd ?_ | with_reducible apply Still.filterMem | with_reducible apply Still.filterRegs | split

theorem State.crossingStart_still {s₀ s : State} (h : Still s₀ s) : Still s₀ (State.crossingStart s) := by
  unfold State.crossingStart
  try dsimp only
  repeat' first | with_reducible assumption | with_reducible refine Still.ite ?_ ?_ | with_reducible refine Still.foldl ?_ ?_ | with_reducible refine Still.iteP ?_ ?_ | with_reducible refine Still.foldlP ?_ ?_ | (intro _; intros; try dsimp only) | with_reducible apply State.realignDue_still | with_reducible apply State.mapsApply_still | with_reducible apply State.commandWord_still | with_reducible apply State.orbitStart_still | with_reducible apply State.crossNow_still | split

theorem State.slotEvents_still {s₀ s : State} (h : Still s₀ s) : Still s₀ (State.slotEvents s) := by
  unfold State.slotEvents
  try dsimp only
  repeat' first | with_reducible assumption | with_reducible refine Still.ite ?_ ?_ | with_reducible refine Still.foldl ?_ ?_ | with_reducible refine Still.iteP ?_ ?_ | with_reducible refine Still.foldlP ?_ ?_ | (intro _; intros; try dsimp only) | with_reducible apply State.raiseSlot_still | with_reducible apply Still.filterMem | with_reducible apply Still.filterRegs | split

theorem State.enterSlot_still {s₀ s : State} (h : Still s₀ s) : Still s₀ (State.enterSlot s) := by
  unfold State.enterSlot
  try dsimp only
  repeat' first | with_reducible assumption | with_reducible refine Still.ite ?_ ?_ | with_reducible refine Still.foldl ?_ ?_ | with_reducible refine Still.iteP ?_ ?_ | with_reducible refine Still.foldlP ?_ ?_ | (intro _; intros; try dsimp only) | with_reducible apply State.slotBegins_still | with_reducible apply State.payDispatcher_still | with_reducible apply State.cellsAdvance_still | with_reducible apply State.readContexts_still | with_reducible apply State.sortLand_still | with_reducible apply State.paySectors_still | with_reducible apply State.levelGroup_still | with_reducible apply State.hotSwap_still | with_reducible apply State.accordDeadline_still | with_reducible apply State.calRise_still | with_reducible apply State.quietFollow_still | with_reducible apply State.fireAll_still | with_reducible apply State.crossingStart_still | with_reducible apply State.slotEvents_still | split

theorem State.advance_keeps {s₀ s : State} (h : Keeps s₀ s) : Keeps s₀ (State.advance s) := by
  unfold State.advance
  try dsimp only
  repeat' first | with_reducible assumption | with_reducible refine Keeps.ite ?_ ?_ | with_reducible refine Keeps.foldl ?_ ?_ | with_reducible refine Keeps.iteP ?_ ?_ | with_reducible refine Keeps.foldlP ?_ ?_ | (intro _; intros; try dsimp only) | with_reducible apply fun h => Keeps.of_still h (State.endSlot_still (Still.refl _)) | with_reducible apply State.countOn_keeps | with_reducible apply fun h => Keeps.of_still h (State.enterSlot_still (Still.refl _)) | split

theorem execSlotAdvance_keeps (s : State) : KeepsO s (execSlotAdvance s) := by
  unfold execSlotAdvance
  try dsimp only
  repeat' first | with_reducible assumption | with_reducible refine KeepsO.go ?_ | with_reducible refine KeepsO.ite ?_ ?_ | with_reducible exact Keeps.refl _ | with_reducible refine Keeps.ite ?_ ?_ | with_reducible refine Keeps.foldl ?_ ?_ | with_reducible refine Keeps.iteP ?_ ?_ | with_reducible refine Keeps.foldlP ?_ ?_ | (intro _; intros; try dsimp only) | with_reducible apply State.advance_keeps | split

theorem execCrossingAdvance_keeps (s : State) : KeepsO s (execCrossingAdvance s) := by
  unfold execCrossingAdvance
  try dsimp only
  repeat' first | with_reducible assumption | with_reducible refine KeepsO.go ?_ | with_reducible refine KeepsO.ite ?_ ?_ | with_reducible exact Keeps.refl _ | with_reducible refine Keeps.ite ?_ ?_ | with_reducible refine Keeps.foldl ?_ ?_ | with_reducible refine Keeps.iteP ?_ ?_ | with_reducible refine Keeps.foldlP ?_ ?_ | (intro _; intros; try dsimp only) | with_reducible apply State.advance_keeps | split

theorem State.qrefFails_still {s₀ s : State} (h : Still s₀ s) (out : BitVec 4) : Still s₀ (State.qrefFails s out) := by
  unfold State.qrefFails
  try dsimp only
  repeat' first | with_reducible assumption | with_reducible refine Still.ite ?_ ?_ | with_reducible refine Still.foldl ?_ ?_ | with_reducible refine Still.iteP ?_ ?_ | with_reducible refine Still.foldlP ?_ ?_ | (intro _; intros; try dsimp only) | with_reducible apply State.startFails_still | fail_if_no_progress with_reducible refine Still.upd ?_ | split

theorem execOrbitAdvance_keeps (qref : BitVec 4) (s : State) : KeepsO s (execOrbitAdvance qref s) := by
  unfold execOrbitAdvance
  try dsimp only
  repeat' first | with_reducible assumption | with_reducible refine KeepsO.go ?_ | with_reducible refine KeepsO.ite ?_ ?_ | with_reducible exact Keeps.refl _ | with_reducible refine Keeps.ite ?_ ?_ | with_reducible refine Keeps.foldl ?_ ?_ | with_reducible refine Keeps.iteP ?_ ?_ | with_reducible refine Keeps.foldlP ?_ ?_ | (intro _; intros; try dsimp only) | with_reducible apply fun h => Keeps.of_still h (State.qrefCheck_still (Still.refl _) _) | with_reducible apply State.advance_keeps | with_reducible apply fun h => Keeps.of_still h (State.qrefFails_still (Still.refl _) _) | split

end Sys2Proof.Machine
end

