-- ==== Sys2Proof/Laws/KeepsChecks.lean ====
section
/-!
SUPPORT. Sys2Proof/Laws/KeepsChecks.lean: every operation of Machine/Checks.lean leaves standing what Laws/Keeps.lean says.
-/
set_option linter.unusedTactic false
set_option linter.unreachableTactic false
namespace Sys2Proof.Machine

theorem State.loadFails_still {s₀ s : State} (h : Still s₀ s) (e : LoadFail) : Still s₀ (State.loadFails s e) := by
  unfold State.loadFails
  try dsimp only
  repeat' first | with_reducible assumption | with_reducible refine Still.ite ?_ ?_ | with_reducible refine Still.foldl ?_ ?_ | with_reducible refine Still.iteP ?_ ?_ | with_reducible refine Still.foldlP ?_ ?_ | (intro _; intros; try dsimp only) | with_reducible apply State.admReport_still | with_reducible apply State.attemptFails_still | split

end Sys2Proof.Machine
end

