-- ==== Sys2Proof/Laws/KeepsKeys.lean ====
section
/-!
SUPPORT. Sys2Proof/Laws/KeepsKeys.lean: every operation of Machine/Keys.lean leaves standing what Laws/Keeps.lean says.
-/
set_option linter.unusedTactic false
set_option linter.unreachableTactic false
namespace Sys2Proof.Machine

/-- A state fuse once blown stays blown: the state of the slot does not go back. -/
theorem KeySlot.code_mono (o k : KeySlot) :
    o.code ≤ KeySlot.code { k with prog := o.prog || k.prog, rev := o.rev || k.rev } := by
  cases ho : o.rev <;> cases hp : o.prog <;> cases hk : k.rev <;> cases hq : k.prog <;> simp [KeySlot.code, ho, hp]

theorem State.setSlot_still {s₀ s : State} (h : Still s₀ s) (i : Nat) (k : KeySlot) : Still s₀ (State.setSlot s i k) := by
  refine h.trans ⟨⟨fun v => v.of_eq ⟨rfl, rfl, rfl, rfl, rfl, rfl, rfl, rfl, rfl, rfl, rfl, rfl, rfl⟩, rfl,
    ⟨rfl, fun j => ?_, fun _ => rfl, id⟩⟩, rfl, rfl, rfl, rfl, rfl⟩
  have e1 : ∀ v : Vector KeySlot 6, v.get j = v[j.val] := fun _ => rfl
  simp only [State.setSlot, e1, Vector.getElem_setIfInBounds]
  split
  · rename_i e
    have : s.slot i = s.fuses.slots[j.val] := by
      subst e
      simp [State.slot, Array.getD_eq_getD_getElem?]
    rw [this]
    exact KeySlot.code_mono _ _
  · exact Nat.le_refl _

theorem State.set8_still {s₀ s : State} (h : Still s₀ s) (reg : Nat → Nat) (b : List Byte) : Still s₀ (State.set8 s reg b) := by
  unfold State.set8
  try dsimp only
  repeat' first | with_reducible assumption | with_reducible refine Still.ite ?_ ?_ | with_reducible refine Still.foldl ?_ ?_ | with_reducible refine Still.iteP ?_ ?_ | with_reducible refine Still.foldlP ?_ ?_ | (intro _; intros; try dsimp only) | with_reducible apply State.setReg_still | split

theorem State.showKeys_still {s₀ s : State} (h : Still s₀ s) : Still s₀ (State.showKeys s) := by
  unfold State.showKeys
  try dsimp only
  repeat' first | with_reducible assumption | with_reducible refine Still.ite ?_ ?_ | with_reducible refine Still.foldl ?_ ?_ | with_reducible refine Still.iteP ?_ ?_ | with_reducible refine Still.foldlP ?_ ?_ | (intro _; intros; try dsimp only) | with_reducible apply State.setFld_still | split

theorem State.fuseFields_still {s₀ s : State} (h : Still s₀ s) : Still s₀ (State.fuseFields s) := by
  unfold State.fuseFields
  try dsimp only
  repeat' first | with_reducible assumption | with_reducible refine Still.ite ?_ ?_ | with_reducible refine Still.foldl ?_ ?_ | with_reducible refine Still.iteP ?_ ?_ | with_reducible refine Still.foldlP ?_ ?_ | (intro _; intros; try dsimp only) | with_reducible apply State.setReg_still | with_reducible apply State.setBit_still | with_reducible apply State.set8_still | with_reducible apply State.showKeys_still | split

end Sys2Proof.Machine
end

