-- ==== Sys2Proof/Laws/KeepsStart.lean ====
section
/-!
SUPPORT. Sys2Proof/Laws/KeepsStart.lean: every operation of Machine/Start.lean leaves standing what Laws/Keeps.lean says.
-/
set_option linter.unusedTactic false
set_option linter.unreachableTactic false
namespace Sys2Proof.Machine

theorem State.atStep_still {s₀ s : State} (h : Still s₀ s) (n : Nat) : Still s₀ (State.atStep s n) := by
  unfold State.atStep
  try dsimp only
  repeat' first | with_reducible assumption | with_reducible refine Still.ite ?_ ?_ | with_reducible refine Still.foldl ?_ ?_ | with_reducible refine Still.iteP ?_ ?_ | with_reducible refine Still.foldlP ?_ ?_ | (intro _; intros; try dsimp only) | with_reducible apply State.setFld_still | split

theorem State.powerRuns_still {s₀ s : State} (h : Still s₀ s) : Still s₀ (State.powerRuns s) := by
  unfold State.powerRuns
  try dsimp only
  repeat' first | with_reducible assumption | with_reducible refine Still.ite ?_ ?_ | with_reducible refine Still.foldl ?_ ?_ | with_reducible refine Still.iteP ?_ ?_ | with_reducible refine Still.foldlP ?_ ?_ | (intro _; intros; try dsimp only) | with_reducible apply State.setFld_still | split

theorem State.noteFails_still {s₀ s : State} (h : Still s₀ s) (step : Nat) (code : Nat) : Still s₀ (State.noteFails s step code) := by
  unfold State.noteFails
  try dsimp only
  repeat' first | with_reducible assumption | with_reducible refine Still.ite ?_ ?_ | with_reducible refine Still.foldl ?_ ?_ | with_reducible refine Still.iteP ?_ ?_ | with_reducible refine Still.foldlP ?_ ?_ | (intro _; intros; try dsimp only) | with_reducible apply State.histAdd_still | with_reducible apply State.baseNote_still | with_reducible apply State.powerRuns_still | split

theorem State.railOff_keeps {s₀ s : State} (h : Keeps s₀ s) (step : Nat) (code : Nat) : Keeps s₀ (State.railOff s step code) := by
  unfold State.railOff
  try dsimp only
  repeat' first | with_reducible assumption | with_reducible refine Keeps.ite ?_ ?_ | with_reducible refine Keeps.foldl ?_ ?_ | with_reducible refine Keeps.iteP ?_ ?_ | with_reducible refine Keeps.foldlP ?_ ?_ | (intro _; intros; try dsimp only) | with_reducible apply fun h => Keeps.of_still h (State.setFld_still (Still.refl _) _ _ _ _) | with_reducible apply fun h => Keeps.of_still h (State.histAdd_still (Still.refl _) _ _ _ _) | with_reducible apply fun h => Keeps.of_still h (State.allDown_still (Still.refl _) _) | with_reducible apply fun h => Keeps.of_still h (State.railsOff_still (Still.refl _) _) | with_reducible apply State.globalOff_keeps | split

theorem State.railDefaults_still {s₀ s : State} (h : Still s₀ s) : Still s₀ (State.railDefaults s) := by
  unfold State.railDefaults
  try dsimp only
  repeat' first | with_reducible assumption | with_reducible refine Still.ite ?_ ?_ | with_reducible refine Still.foldl ?_ ?_ | with_reducible refine Still.iteP ?_ ?_ | with_reducible refine Still.foldlP ?_ ?_ | (intro _; intros; try dsimp only) | with_reducible apply State.setReg_still | with_reducible apply State.setFld_still | split

theorem State.globalUp_still {s₀ s : State} (h : Still s₀ s) : Still s₀ (State.globalUp s) := by
  unfold State.globalUp
  try dsimp only
  repeat' first | with_reducible assumption | with_reducible refine Still.ite ?_ ?_ | with_reducible refine Still.foldl ?_ ?_ | with_reducible refine Still.iteP ?_ ?_ | with_reducible refine Still.foldlP ?_ ?_ | (intro _; intros; try dsimp only) | with_reducible apply State.setReg_still | with_reducible apply State.fuseFields_still | fail_if_no_progress with_reducible refine Still.upd ?_ | split

theorem State.railUp_still {s₀ s : State} (h : Still s₀ s) (env : StartEnv) (r : Nat) : Still s₀ (State.railUp s env r).1 := by
  unfold State.railUp
  try dsimp only
  repeat' first | with_reducible assumption | with_reducible refine Still.ite ?_ ?_ | with_reducible refine Still.foldl ?_ ?_ | with_reducible refine Still.iteP ?_ ?_ | with_reducible refine Still.foldlP ?_ ?_ | (intro _; intros; try dsimp only) | with_reducible apply State.pmbus_still | with_reducible apply State.globalUp_still | fail_if_no_progress with_reducible refine Still.upd ?_ | split

theorem State.railsUp_still {s₀ s : State} (h : Still s₀ s) (env : StartEnv) (l : List Nat) :
    Still s₀ (s.railsUp env l).1 := by
  induction l generalizing s with
  | nil => exact h
  | cons x l ih =>
    unfold State.railsUp
    dsimp only
    split
    · exact ih (State.railUp_still h _ _)
    · exact State.railUp_still h _ _

theorem State.assayRepair_still {s₀ s : State} (h : Still s₀ s) (m : Nat) (row : Nat) (named : Option Nat) : Still s₀ (State.assayRepair s m row named) := by
  unfold State.assayRepair
  try dsimp only
  repeat' first | with_reducible assumption | with_reducible refine Still.ite ?_ ?_ | with_reducible refine Still.foldl ?_ ?_ | with_reducible refine Still.iteP ?_ ?_ | with_reducible refine Still.foldlP ?_ ?_ | (intro _; intros; try dsimp only) | fail_if_no_progress with_reducible refine Still.upd ?_ | fail_if_no_progress with_reducible refine Still.updProt ?_ | fail_if_no_progress with_reducible refine Still.updAny ?_ ⟨rfl, rfl, rfl, rfl, rfl, rfl, rfl, rfl⟩ | split

theorem State.knownRepairs_still {s₀ s : State} (h : Still s₀ s) (flash : Bool) : Still s₀ (State.knownRepairs s flash) := by
  unfold State.knownRepairs
  try dsimp only
  repeat' first | with_reducible assumption | with_reducible refine Still.ite ?_ ?_ | with_reducible refine Still.foldl ?_ ?_ | with_reducible refine Still.iteP ?_ ?_ | with_reducible refine Still.foldlP ?_ ?_ | (intro _; intros; try dsimp only) | with_reducible apply State.assayRepair_still | split

theorem State.marchRow_still {s₀ s : State} (h : Still s₀ s) (m : Nat) (row : Nat) (bits : BitVec 72) : Still s₀ (State.marchRow s m row bits).1 := by
  unfold State.marchRow
  try dsimp only
  repeat' first | with_reducible assumption | with_reducible refine Still.ite ?_ ?_ | with_reducible refine Still.foldl ?_ ?_ | with_reducible refine Still.iteP ?_ ?_ | with_reducible refine Still.foldlP ?_ ?_ | (intro _; intros; try dsimp only) | with_reducible apply State.noSpare_still | with_reducible apply State.assayRepair_still | fail_if_no_progress with_reducible refine Still.upd ?_ | fail_if_no_progress with_reducible refine Still.updProt ?_ | fail_if_no_progress with_reducible refine Still.updAny ?_ ⟨rfl, rfl, rfl, rfl, rfl, rfl, rfl, rfl⟩ | split

theorem State.march_still {s₀ s : State} (h : Still s₀ s) (l : List (W32 × Nat × BitVec 72)) : Still s₀ (s.march l).1 := by
  induction l generalizing s with
  | nil => exact h
  | cons x l ih =>
    unfold State.march
    dsimp only
    split
    · exact ih (State.marchRow_still h _ _ _)
    · exact State.marchRow_still h _ _ _

theorem State.assay_still {s₀ s : State} (h : Still s₀ s) (env : StartEnv) : Still s₀ (State.assay s env).1 := by
  have h1 : Still s₀ { s with prot := { s.prot with spares := [], flips := [], stuck := (s.prot.stuck.filter (fun e => !persistent (keyMem e.1))) } } :=
       h.of_inv (fun i => { i with flips := rfl }) rfl rfl rfl
  exact State.march_still (State.knownRepairs_still h1 _) _

theorem State.histStep6_still {s₀ s : State} (h : Still s₀ s) (powerOn : Bool) : Still s₀ (State.histStep6 s powerOn) := by
  unfold State.histStep6
  try dsimp only
  repeat' first | with_reducible assumption | with_reducible refine Still.ite ?_ ?_ | with_reducible refine Still.foldl ?_ ?_ | with_reducible refine Still.iteP ?_ ?_ | with_reducible refine Still.foldlP ?_ ?_ | (intro _; intros; try dsimp only) | with_reducible apply State.setReg_still | with_reducible apply State.setBit_still | with_reducible apply State.fillHist_still | fail_if_no_progress with_reducible refine Still.upd ?_ | split

theorem State.keepSections_still {s₀ s : State} (h : Still s₀ s) (slot : Nat) (l : List ImgSec) : Still s₀ (State.keepSections s slot l) := by
  unfold State.keepSections
  try dsimp only
  repeat' first | with_reducible assumption | with_reducible refine Still.ite ?_ ?_ | with_reducible refine Still.foldl ?_ ?_ | with_reducible refine Still.iteP ?_ ?_ | with_reducible refine Still.foldlP ?_ ?_ | (intro _; intros; try dsimp only) | with_reducible apply State.store_still | fail_if_no_progress with_reducible refine Still.upd ?_ | split

theorem State.sectorsUp_still {s₀ s : State} (h : Still s₀ s) (env : StartEnv) : Still s₀ (State.sectorsUp s env) := by
  unfold State.sectorsUp
  try dsimp only
  repeat' first | with_reducible assumption | with_reducible refine Still.ite ?_ ?_ | with_reducible refine Still.foldl ?_ ?_ | with_reducible refine Still.iteP ?_ ?_ | with_reducible refine Still.foldlP ?_ ?_ | (intro _; intros; try dsimp only) | with_reducible apply State.setFld_still | with_reducible apply State.setSecPower_still | with_reducible apply State.overcurrent_still | split

theorem State.quadsUp_still {s₀ s : State} (h : Still s₀ s) : Still s₀ (State.quadsUp s) := by
  unfold State.quadsUp
  try dsimp only
  repeat' first | with_reducible assumption | with_reducible refine Still.ite ?_ ?_ | with_reducible refine Still.foldl ?_ ?_ | with_reducible refine Still.iteP ?_ ?_ | with_reducible refine Still.foldlP ?_ ?_ | (intro _; intros; try dsimp only) | with_reducible apply State.quadReset_still | fail_if_no_progress with_reducible refine Still.upd ?_ | split

theorem State.newVouts_still {s₀ s : State} (h : Still s₀ s) (env : StartEnv) (old : Nat → Nat) : Still s₀ (State.newVouts s env old).1 := by
  unfold State.newVouts
  try dsimp only
  repeat' first | with_reducible assumption | with_reducible refine Still.ite ?_ ?_ | with_reducible refine Still.foldl ?_ ?_ | with_reducible refine Still.iteP ?_ ?_ | with_reducible refine Still.foldlP ?_ ?_ | (intro _; intros; try dsimp only) | with_reducible apply State.pmbus_still | with_reducible apply Still.filterMem | with_reducible apply Still.filterRegs | split

theorem State.govpCopies_still {s₀ s : State} (h : Still s₀ s) : Still s₀ (State.govpCopies s) := by
  unfold State.govpCopies
  try dsimp only
  repeat' first | with_reducible assumption | with_reducible refine Still.ite ?_ ?_ | with_reducible refine Still.foldl ?_ ?_ | with_reducible refine Still.iteP ?_ ?_ | with_reducible refine Still.foldlP ?_ ?_ | (intro _; intros; try dsimp only) | with_reducible apply State.setBit_still | split

theorem State.loadAll_still {s₀ s : State} (h : Still s₀ s) : Still s₀ (State.loadAll s) := by
  unfold State.loadAll
  try dsimp only
  repeat' first | with_reducible assumption | with_reducible refine Still.ite ?_ ?_ | with_reducible refine Still.foldl ?_ ?_ | with_reducible refine Still.iteP ?_ ?_ | with_reducible refine Still.foldlP ?_ ?_ | (intro _; intros; try dsimp only) | with_reducible apply State.dptLoad_still | with_reducible apply State.applyLoads_still | with_reducible apply State.quadsUp_still | with_reducible apply State.govpCopies_still | split

theorem State.loaded9_still {s₀ s : State} (h : Still s₀ s) (env : StartEnv) (old : Nat → Nat) : Still s₀ (State.loaded9 s env old) := by
  unfold State.loaded9
  try dsimp only
  repeat' first | with_reducible assumption | with_reducible refine Still.ite ?_ ?_ | with_reducible refine Still.foldl ?_ ?_ | with_reducible refine Still.iteP ?_ ?_ | with_reducible refine Still.foldlP ?_ ?_ | (intro _; intros; try dsimp only) | with_reducible apply State.setFld_still | with_reducible apply State.attemptFails_still | with_reducible apply State.loadFails_still | with_reducible apply State.newVouts_still | fail_if_no_progress with_reducible refine Still.upd ?_ | split

theorem State.fixed9_still {s₀ s0 : State} (h : Still s₀ s0) (env : StartEnv) : Still s₀ (State.fixed9 s0 env) := by
  unfold State.fixed9
  try dsimp only
  repeat' first | with_reducible assumption | with_reducible refine Still.ite ?_ ?_ | with_reducible refine Still.foldl ?_ ?_ | with_reducible refine Still.iteP ?_ ?_ | with_reducible refine Still.foldlP ?_ ?_ | (intro _; intros; try dsimp only) | with_reducible apply State.loadFails_still | with_reducible apply State.atStep_still | with_reducible apply State.sectorsUp_still | with_reducible apply State.loadAll_still | with_reducible apply State.loaded9_still | fail_if_no_progress with_reducible refine Still.upd ?_ | split

theorem State.verified_still {s₀ s : State} (h : Still s₀ s) (slot : Nat) (i : Img) : Still s₀ (State.verified s slot i) := by
  unfold State.verified
  try dsimp only
  repeat' first | with_reducible assumption | with_reducible refine Still.ite ?_ ?_ | with_reducible refine Still.foldl ?_ ?_ | with_reducible refine Still.iteP ?_ ?_ | with_reducible refine Still.foldlP ?_ ?_ | (intro _; intros; try dsimp only) | with_reducible apply State.setFld_still | fail_if_no_progress with_reducible refine Still.upd ?_ | split

theorem State.fixed7_still {s₀ s0 : State} (h : Still s₀ s0) (env : StartEnv) (slot : Nat) (slotLen : Nat) : Still s₀ (State.fixed7 s0 env slot slotLen) := by
  unfold State.fixed7
  try dsimp only
  repeat' first | with_reducible assumption | with_reducible refine Still.ite ?_ ?_ | with_reducible refine Still.foldl ?_ ?_ | with_reducible refine Still.iteP ?_ ?_ | with_reducible refine Still.foldlP ?_ ?_ | (intro _; intros; try dsimp only) | with_reducible apply State.loadFails_still | with_reducible apply State.atStep_still | with_reducible apply State.keepSections_still | with_reducible apply State.fixed9_still | with_reducible apply State.verified_still | fail_if_no_progress with_reducible refine Still.upd ?_ | split

theorem State.heldClearNow_still {s₀ s : State} (h : Still s₀ s) : Still s₀ (State.heldClearNow s) := by
  unfold State.heldClearNow
  try dsimp only
  repeat' first | with_reducible assumption | with_reducible refine Still.ite ?_ ?_ | with_reducible refine Still.foldl ?_ ?_ | with_reducible refine Still.iteP ?_ ?_ | with_reducible refine Still.foldlP ?_ ?_ | (intro _; intros; try dsimp only) | with_reducible apply State.commitNow_still | fail_if_no_progress with_reducible refine Still.upd ?_ | split

theorem State.fixed6_still {s₀ s0 : State} (h : Still s₀ s0) (env : StartEnv) (powerOn : Bool) (repairs : List (List Byte)) : Still s₀ (State.fixed6 s0 env powerOn repairs).1 := by
  unfold State.fixed6
  try dsimp only
  repeat' first | with_reducible assumption | with_reducible refine Still.ite ?_ ?_ | with_reducible refine Still.foldl ?_ ?_ | with_reducible refine Still.iteP ?_ ?_ | with_reducible refine Still.foldlP ?_ ?_ | (intro _; intros; try dsimp only) | with_reducible apply State.setFld_still | with_reducible apply State.setBit_still | with_reducible apply State.commitNow_still | with_reducible apply State.baseNote_still | with_reducible apply State.atStep_still | with_reducible apply State.powerRuns_still | with_reducible apply State.noteFails_still | with_reducible apply State.histStep6_still | with_reducible apply State.heldClearNow_still | fail_if_no_progress with_reducible refine Still.upd ?_ | split

theorem State.mapTiles_still {s₀ s : State} (h : Still s₀ s) : Still s₀ (State.mapTiles s) := by
  unfold State.mapTiles
  try dsimp only
  repeat' first | with_reducible assumption | with_reducible refine Still.ite ?_ ?_ | with_reducible refine Still.foldl ?_ ?_ | with_reducible refine Still.iteP ?_ ?_ | with_reducible refine Still.foldlP ?_ ?_ | (intro _; intros; try dsimp only) | fail_if_no_progress with_reducible refine Still.upd ?_ | split

theorem State.reachSlot_keeps {s₀ s0 : State} (h : Keeps s₀ s0) (env : StartEnv) (powerOn : Bool) : Keeps s₀ (State.reachSlot s0 env powerOn).1 := by
  unfold State.reachSlot
  try dsimp only
  repeat' first | with_reducible assumption | with_reducible refine Keeps.ite ?_ ?_ | with_reducible refine Keeps.foldl ?_ ?_ | with_reducible refine Keeps.iteP ?_ ?_ | with_reducible refine Keeps.foldlP ?_ ?_ | (intro _; intros; try dsimp only) | with_reducible apply fun h => Keeps.of_still h (State.setFld_still (Still.refl _) _ _ _ _) | with_reducible apply fun h => Keeps.of_still h (State.railsOff_still (Still.refl _) _) | with_reducible apply fun h => Keeps.of_still h (State.atStep_still (Still.refl _) _) | with_reducible apply fun h => Keeps.of_still h (State.powerRuns_still (Still.refl _)) | with_reducible apply fun h => Keeps.of_still h (State.noteFails_still (Still.refl _) _ _) | with_reducible apply State.railOff_keeps | with_reducible apply fun h => Keeps.of_still h (State.railDefaults_still (Still.refl _)) | with_reducible apply fun h => Keeps.of_still h (State.railUp_still (Still.refl _) _ _) | with_reducible apply fun h => Keeps.of_still h (State.railsUp_still (Still.refl _) _ _) | with_reducible apply fun h => Keeps.of_still h (State.assay_still (Still.refl _) _) | with_reducible apply fun h => Keeps.of_still h (State.fixed6_still (Still.refl _) _ _ _) | with_reducible apply fun h => Keeps.of_still h (State.mapTiles_still (Still.refl _)) | fail_if_no_progress with_reducible refine Keeps.upd ?_ | with_reducible apply Keeps.filterMem | with_reducible apply Keeps.filterRegs | split

theorem State.fixed3_keeps {s₀ s : State} (h : Keeps s₀ s) (env : StartEnv) (powerOn : Bool) : Keeps s₀ (State.fixed3 s env powerOn) := by
  unfold State.fixed3
  try dsimp only
  repeat' first | with_reducible assumption | with_reducible refine Keeps.ite ?_ ?_ | with_reducible refine Keeps.foldl ?_ ?_ | with_reducible refine Keeps.iteP ?_ ?_ | with_reducible refine Keeps.foldlP ?_ ?_ | (intro _; intros; try dsimp only) | with_reducible apply fun h => Keeps.of_still h (State.fixed7_still (Still.refl _) _ _ _) | with_reducible apply State.reachSlot_keeps | fail_if_no_progress with_reducible refine Keeps.upd ?_ | split

theorem State.powerOnClear_keeps {s₀ s : State} (h : Keeps s₀ s) (env : StartEnv) : Keeps s₀ (State.powerOnClear s env) := h.trans ⟨fun _ => { State.reset_inv with mem := rfl }, rfl, FusesKept.refl _⟩

theorem State.powerOnReset_keeps {s₀ s : State} (h : Keeps s₀ s) (env : StartEnv) : Keeps s₀ (State.powerOnReset s env) := by
  unfold State.powerOnReset
  try dsimp only
  repeat' first | with_reducible assumption | with_reducible refine Keeps.ite ?_ ?_ | with_reducible refine Keeps.foldl ?_ ?_ | with_reducible refine Keeps.iteP ?_ ?_ | with_reducible refine Keeps.foldlP ?_ ?_ | (intro _; intros; try dsimp only) | with_reducible apply State.fixed3_keeps | with_reducible apply State.powerOnClear_keeps | split

theorem execPowerOnReset_keeps (env : StartEnv) (s : State) : KeepsO s (execPowerOnReset env s) := by
  unfold execPowerOnReset
  try dsimp only
  repeat' first | with_reducible assumption | with_reducible refine KeepsO.go ?_ | with_reducible refine KeepsO.ite ?_ ?_ | with_reducible exact Keeps.refl _ | with_reducible refine Keeps.ite ?_ ?_ | with_reducible refine Keeps.foldl ?_ ?_ | with_reducible refine Keeps.iteP ?_ ?_ | with_reducible refine Keeps.foldlP ?_ ?_ | (intro _; intros; try dsimp only) | with_reducible apply State.powerOnReset_keeps | split

theorem State.restartRecord_still {s₀ s : State} (h : Still s₀ s) (ccm : Bool) : Still s₀ (State.restartRecord s ccm) := by
  unfold State.restartRecord
  try dsimp only
  repeat' first | with_reducible assumption | with_reducible refine Still.ite ?_ ?_ | with_reducible refine Still.foldl ?_ ?_ | with_reducible refine Still.iteP ?_ ?_ | with_reducible refine Still.foldlP ?_ ?_ | (intro _; intros; try dsimp only) | with_reducible apply State.event_still | with_reducible apply State.commitAll_still | fail_if_no_progress with_reducible refine Still.upd ?_ | split

theorem State.restartClear_keeps {s₀ s : State} (h : Keeps s₀ s) : Keeps s₀ (State.restartClear s) := by
  unfold State.restartClear
  try dsimp only
  repeat' first | with_reducible assumption | with_reducible refine Keeps.ite ?_ ?_ | with_reducible refine Keeps.foldl ?_ ?_ | with_reducible refine Keeps.iteP ?_ ?_ | with_reducible refine Keeps.foldlP ?_ ?_ | (intro _; intros; try dsimp only) | with_reducible apply fun h => Keeps.of_still h (State.event_still (Still.refl _) _ _) | with_reducible apply fun h => Keeps.of_still h (State.commitAll_still (Still.refl _)) | with_reducible apply State.warmClear_keeps | with_reducible apply fun h => Keeps.of_still h (State.outputsOff_still (Still.refl _)) | with_reducible apply fun h => Keeps.of_still h (State.restartRecord_still (Still.refl _) _) | fail_if_no_progress with_reducible refine Keeps.upd ?_ | split

theorem State.warmRestart_keeps {s₀ s : State} (h : Keeps s₀ s) (env : StartEnv) : Keeps s₀ (State.warmRestart s env) := by
  unfold State.warmRestart
  try dsimp only
  repeat' first | with_reducible assumption | with_reducible refine Keeps.ite ?_ ?_ | with_reducible refine Keeps.foldl ?_ ?_ | with_reducible refine Keeps.iteP ?_ ?_ | with_reducible refine Keeps.foldlP ?_ ?_ | (intro _; intros; try dsimp only) | with_reducible apply State.fixed3_keeps | with_reducible apply State.restartClear_keeps | split

theorem execWarmRestart_keeps (env : StartEnv) (s : State) : KeepsO s (execWarmRestart env s) := by
  unfold execWarmRestart
  try dsimp only
  repeat' first | with_reducible assumption | with_reducible refine KeepsO.go ?_ | with_reducible refine KeepsO.ite ?_ ?_ | with_reducible exact Keeps.refl _ | with_reducible refine Keeps.ite ?_ ?_ | with_reducible refine Keeps.foldl ?_ ?_ | with_reducible refine Keeps.iteP ?_ ?_ | with_reducible refine Keeps.foldlP ?_ ?_ | (intro _; intros; try dsimp only) | with_reducible apply State.warmRestart_keeps | split

theorem State.askRestart_still {s₀ s : State} (h : Still s₀ s) : Still s₀ (State.askRestart s) := by
  unfold State.askRestart
  try dsimp only
  repeat' first | with_reducible assumption | with_reducible refine Still.ite ?_ ?_ | with_reducible refine Still.foldl ?_ ?_ | with_reducible refine Still.iteP ?_ ?_ | with_reducible refine Still.foldlP ?_ ?_ | (intro _; intros; try dsimp only) | fail_if_no_progress with_reducible refine Still.upd ?_ | split

theorem execBootRestart_still (s : State) : StillO s (execBootRestart s) := by
  unfold execBootRestart
  try dsimp only
  repeat' first | with_reducible assumption | with_reducible refine StillO.go ?_ | with_reducible refine StillO.ite ?_ ?_ | with_reducible exact Still.refl _ | with_reducible refine Still.ite ?_ ?_ | with_reducible refine Still.foldl ?_ ?_ | with_reducible refine Still.iteP ?_ ?_ | with_reducible refine Still.foldlP ?_ ?_ | (intro _; intros; try dsimp only) | with_reducible apply State.askRestart_still | split

theorem State.clearFails_still {s₀ s : State} (h : Still s₀ s) : Still s₀ (State.clearFails s) := by
  unfold State.clearFails
  try dsimp only
  repeat' first | with_reducible assumption | with_reducible refine Still.ite ?_ ?_ | with_reducible refine Still.foldl ?_ ?_ | with_reducible refine Still.iteP ?_ ?_ | with_reducible refine Still.foldlP ?_ ?_ | (intro _; intros; try dsimp only) | with_reducible apply State.commitNow_still | with_reducible apply State.commitAll_still | split

theorem execBootClearFails_still (s : State) : StillO s (execBootClearFails s) := by
  unfold execBootClearFails
  try dsimp only
  repeat' first | with_reducible assumption | with_reducible refine StillO.go ?_ | with_reducible refine StillO.ite ?_ ?_ | with_reducible exact Still.refl _ | with_reducible refine Still.ite ?_ ?_ | with_reducible refine Still.foldl ?_ ?_ | with_reducible refine Still.iteP ?_ ?_ | with_reducible refine Still.foldlP ?_ ?_ | (intro _; intros; try dsimp only) | with_reducible apply State.clearFails_still | split

theorem State.nextStep_still {s₀ s : State} (h : Still s₀ s) : Still s₀ (State.nextStep s) := by
  unfold State.nextStep
  try dsimp only
  repeat' first | with_reducible assumption | with_reducible refine Still.ite ?_ ?_ | with_reducible refine Still.foldl ?_ ?_ | with_reducible refine Still.iteP ?_ ?_ | with_reducible refine Still.foldlP ?_ ?_ | (intro _; intros; try dsimp only) | with_reducible apply State.setFld_still | split

theorem State.stepDone_still {s₀ s : State} (h : Still s₀ s) (op : Nat) (f : W32 → State → State) (hf : ∀ a s, Still s₀ s → Still s₀ (f a s)) : Still s₀ (State.stepDone s op f) := by
  unfold State.stepDone
  try dsimp only
  repeat' first | with_reducible assumption | with_reducible apply hf | with_reducible refine Still.ite ?_ ?_ | with_reducible refine Still.foldl ?_ ?_ | with_reducible refine Still.iteP ?_ ?_ | with_reducible refine Still.foldlP ?_ ?_ | (intro _; intros; try dsimp only) | with_reducible apply State.nextStep_still | fail_if_no_progress with_reducible refine Still.upd ?_ | split

theorem execWaitLock_still (s : State) : StillO s (execWaitLock s) := by
  unfold execWaitLock
  try dsimp only
  repeat' first | with_reducible assumption | with_reducible refine StillO.go ?_ | with_reducible refine StillO.ite ?_ ?_ | with_reducible exact Still.refl _ | with_reducible refine Still.ite ?_ ?_ | with_reducible refine Still.foldl ?_ ?_ | with_reducible refine Still.iteP ?_ ?_ | with_reducible refine Still.foldlP ?_ ?_ | (intro _; intros; try dsimp only) | with_reducible apply State.stepDone_still | split

theorem State.txStart_still {s₀ s : State} (h : Still s₀ s) : Still s₀ (State.txStart s) := by
  unfold State.txStart
  try dsimp only
  repeat' first | with_reducible assumption | with_reducible refine Still.ite ?_ ?_ | with_reducible refine Still.foldl ?_ ?_ | with_reducible refine Still.iteP ?_ ?_ | with_reducible refine Still.foldlP ?_ ?_ | (intro _; intros; try dsimp only) | with_reducible apply State.setLane_still | fail_if_no_progress with_reducible refine Still.upd ?_ | split

theorem State.releaseOutputs_still {s₀ s : State} (h : Still s₀ s) (arg : W32) : Still s₀ (State.releaseOutputs s arg) := by
  unfold State.releaseOutputs
  try dsimp only
  repeat' first | with_reducible assumption | with_reducible refine Still.ite ?_ ?_ | with_reducible refine Still.foldl ?_ ?_ | with_reducible refine Still.iteP ?_ ?_ | with_reducible refine Still.foldlP ?_ ?_ | (intro _; intros; try dsimp only) | with_reducible apply State.txStart_still | fail_if_no_progress with_reducible refine Still.upd ?_ | split

theorem execReleaseOutputs_still (s : State) : StillO s (execReleaseOutputs s) := by
  unfold execReleaseOutputs
  try dsimp only
  repeat' first | with_reducible assumption | with_reducible refine StillO.go ?_ | with_reducible refine StillO.ite ?_ ?_ | with_reducible exact Still.refl _ | with_reducible refine Still.ite ?_ ?_ | with_reducible refine Still.foldl ?_ ?_ | with_reducible refine Still.iteP ?_ ?_ | with_reducible refine Still.foldlP ?_ ?_ | (intro _; intros; try dsimp only) | with_reducible apply State.stepDone_still | with_reducible apply State.releaseOutputs_still | split

theorem execReleaseSetreset_still (s : State) : StillO s (execReleaseSetreset s) := by
  unfold execReleaseSetreset
  try dsimp only
  repeat' first | with_reducible assumption | with_reducible refine StillO.go ?_ | with_reducible refine StillO.ite ?_ ?_ | with_reducible exact Still.refl _ | with_reducible refine Still.ite ?_ ?_ | with_reducible refine Still.foldl ?_ ?_ | with_reducible refine Still.iteP ?_ ?_ | with_reducible refine Still.foldlP ?_ ?_ | (intro _; intros; try dsimp only) | with_reducible apply State.stepDone_still | fail_if_no_progress with_reducible refine Still.upd ?_ | split

theorem execEnableWrites_still (s : State) : StillO s (execEnableWrites s) := by
  unfold execEnableWrites
  try dsimp only
  repeat' first | with_reducible assumption | with_reducible refine StillO.go ?_ | with_reducible refine StillO.ite ?_ ?_ | with_reducible exact Still.refl _ | with_reducible refine Still.ite ?_ ?_ | with_reducible refine Still.foldl ?_ ?_ | with_reducible refine Still.iteP ?_ ?_ | with_reducible refine Still.foldlP ?_ ?_ | (intro _; intros; try dsimp only) | with_reducible apply State.stepDone_still | fail_if_no_progress with_reducible refine Still.upd ?_ | split

theorem execWaitAlign_still (timeout : Bool) (s : State) : StillO s (execWaitAlign timeout s) := by
  unfold execWaitAlign
  try dsimp only
  repeat' first | with_reducible assumption | with_reducible refine StillO.go ?_ | with_reducible refine StillO.ite ?_ ?_ | with_reducible exact Still.refl _ | with_reducible refine Still.ite ?_ ?_ | with_reducible refine Still.foldl ?_ ?_ | with_reducible refine Still.iteP ?_ ?_ | with_reducible refine Still.foldlP ?_ ?_ | (intro _; intros; try dsimp only) | with_reducible apply State.nextStep_still | fail_if_no_progress with_reducible refine Still.upd ?_ | split

theorem execAdmitStep_still (s : State) : StillO s (execAdmitStep s) := by
  unfold execAdmitStep
  try dsimp only
  repeat' first | with_reducible assumption | with_reducible refine StillO.go ?_ | with_reducible refine StillO.ite ?_ ?_ | with_reducible exact Still.refl _ | with_reducible refine Still.ite ?_ ?_ | with_reducible refine Still.foldl ?_ ?_ | with_reducible refine Still.iteP ?_ ?_ | with_reducible refine Still.foldlP ?_ ?_ | (intro _; intros; try dsimp only) | with_reducible apply State.trigger_still | fail_if_no_progress with_reducible refine Still.upd ?_ | split

theorem State.sectorsStart_still {s₀ s : State} (h : Still s₀ s) : Still s₀ (State.sectorsStart s) := by
  unfold State.sectorsStart
  try dsimp only
  repeat' first | with_reducible assumption | with_reducible refine Still.ite ?_ ?_ | with_reducible refine Still.foldl ?_ ?_ | with_reducible refine Still.iteP ?_ ?_ | with_reducible refine Still.foldlP ?_ ?_ | (intro _; intros; try dsimp only) | with_reducible apply State.crossAll_still | with_reducible apply State.sectorJoin_still | with_reducible apply Still.filterMem | with_reducible apply Still.filterRegs | split

theorem State.runStart_still {s₀ s : State} (h : Still s₀ s) : Still s₀ (State.runStart s) := by
  unfold State.runStart
  try dsimp only
  repeat' first | with_reducible assumption | with_reducible refine Still.ite ?_ ?_ | with_reducible refine Still.foldl ?_ ?_ | with_reducible refine Still.iteP ?_ ?_ | with_reducible refine Still.foldlP ?_ ?_ | (intro _; intros; try dsimp only) | with_reducible apply State.setFld_still | with_reducible apply State.dptLoad_still | with_reducible apply State.commitNow_still | with_reducible apply State.commitAll_still | with_reducible apply State.sectorsStart_still | fail_if_no_progress with_reducible refine Still.upd ?_ | fail_if_no_progress with_reducible refine Still.updDpt ?_ | fail_if_no_progress with_reducible refine Still.updAny ?_ ⟨rfl, rfl, rfl, rfl, rfl, rfl, rfl, rfl⟩ | split

theorem execRunStart_still (s : State) : StillO s (execRunStart s) := by
  unfold execRunStart
  try dsimp only
  repeat' first | with_reducible assumption | with_reducible refine StillO.go ?_ | with_reducible refine StillO.ite ?_ ?_ | with_reducible exact Still.refl _ | with_reducible refine Still.ite ?_ ?_ | with_reducible refine Still.foldl ?_ ?_ | with_reducible refine Still.iteP ?_ ?_ | with_reducible refine Still.foldlP ?_ ?_ | (intro _; intros; try dsimp only) | with_reducible apply State.runStart_still | split

theorem execLqclkLock_still (q : QuadNo) (s : State) : StillO s (execLqclkLock q s) := by
  unfold execLqclkLock
  try dsimp only
  repeat' first | with_reducible assumption | with_reducible refine StillO.go ?_ | with_reducible refine StillO.ite ?_ ?_ | with_reducible exact Still.refl _ | with_reducible refine Still.ite ?_ ?_ | with_reducible refine Still.foldl ?_ ?_ | with_reducible refine Still.iteP ?_ ?_ | with_reducible refine Still.foldlP ?_ ?_ | (intro _; intros; try dsimp only) | with_reducible apply State.txStart_still | fail_if_no_progress with_reducible refine Still.upd ?_ | split

theorem State.candidateOf_still {s₀ s : State} (h : Still s₀ s) (t : AdmTrigger) : Still s₀ (State.candidateOf s t).1 := by
  unfold State.candidateOf
  try dsimp only
  repeat' first | with_reducible assumption | with_reducible refine Still.ite ?_ ?_ | with_reducible refine Still.foldl ?_ ?_ | with_reducible refine Still.iteP ?_ ?_ | with_reducible refine Still.foldlP ?_ ?_ | (intro _; intros; try dsimp only) | with_reducible apply State.candidateCfg_still | fail_if_no_progress with_reducible refine Still.upd ?_ | split

theorem execAdmissionRun_still (period : Nat) (s : State) : StillO s (execAdmissionRun period s) := by
  unfold execAdmissionRun
  try dsimp only
  repeat' first | with_reducible assumption | with_reducible refine StillO.go ?_ | with_reducible refine StillO.ite ?_ ?_ | with_reducible exact Still.refl _ | with_reducible refine Still.ite ?_ ?_ | with_reducible refine Still.foldl ?_ ?_ | with_reducible refine Still.iteP ?_ ?_ | with_reducible refine Still.foldlP ?_ ?_ | (intro _; intros; try dsimp only) | with_reducible apply State.setFld_still | with_reducible apply State.setBit_still | with_reducible apply State.trigger_still | with_reducible apply State.candidateOf_still | fail_if_no_progress with_reducible refine Still.upd ?_ | split

theorem State.startAdmitted_still {s₀ s : State} (h : Still s₀ s) (r : AdmResult) : Still s₀ (State.startAdmitted s r) := by
  unfold State.startAdmitted
  try dsimp only
  repeat' first | with_reducible assumption | with_reducible refine Still.ite ?_ ?_ | with_reducible refine Still.foldl ?_ ?_ | with_reducible refine Still.iteP ?_ ?_ | with_reducible refine Still.foldlP ?_ ?_ | (intro _; intros; try dsimp only) | with_reducible apply State.admForce_still | with_reducible apply State.startFails_still | with_reducible apply State.orderlyDown_still | with_reducible apply State.stepDone_still | fail_if_no_progress with_reducible refine Still.upd ?_ | split

theorem State.readmitted_still {s₀ s : State} (h : Still s₀ s) (r : AdmResult) : Still s₀ (State.readmitted s r) := by
  unfold State.readmitted
  try dsimp only
  repeat' first | with_reducible assumption | with_reducible refine Still.ite ?_ ?_ | with_reducible refine Still.foldl ?_ ?_ | with_reducible refine Still.iteP ?_ ?_ | with_reducible refine Still.foldlP ?_ ?_ | (intro _; intros; try dsimp only) | with_reducible apply State.fault_still | fail_if_no_progress with_reducible refine Still.upd ?_ | fail_if_no_progress with_reducible refine Still.updTsb ?_ | fail_if_no_progress with_reducible refine Still.updAny ?_ ⟨rfl, rfl, rfl, rfl, rfl, rfl, rfl, rfl⟩ | split

theorem State.adopted_still {s₀ s : State} (h : Still s₀ s) (z : AdmSnap) (r : AdmResult) (ls : List Nat) : Still s₀ (State.adopted s z r ls) := by
  unfold State.adopted
  try dsimp only
  repeat' first | with_reducible assumption | with_reducible refine Still.ite ?_ ?_ | with_reducible refine Still.foldl ?_ ?_ | with_reducible refine Still.iteP ?_ ?_ | with_reducible refine Still.foldlP ?_ ?_ | (intro _; intros; try dsimp only) | with_reducible apply State.setFld_still | with_reducible apply State.setLane_still | with_reducible apply State.setLaneState_still | with_reducible apply State.latAdmit_still | fail_if_no_progress with_reducible refine Still.upd ?_ | split

theorem execAdmissionComplete_still (s : State) : StillO s (execAdmissionComplete s) := by
  unfold execAdmissionComplete
  try dsimp only
  repeat' first | with_reducible assumption | with_reducible refine StillO.go ?_ | with_reducible refine StillO.ite ?_ ?_ | with_reducible exact Still.refl _ | with_reducible refine Still.ite ?_ ?_ | with_reducible refine Still.foldl ?_ ?_ | with_reducible refine Still.iteP ?_ ?_ | with_reducible refine Still.foldlP ?_ ?_ | (intro _; intros; try dsimp only) | with_reducible apply State.setBit_still | with_reducible apply State.fault_still | with_reducible apply State.trigger_still | with_reducible apply State.admReport_still | with_reducible apply State.latAdmit_still | with_reducible apply State.retryHeld_still | with_reducible apply State.accordAdmitted_still | with_reducible apply State.startAdmitted_still | with_reducible apply State.readmitted_still | with_reducible apply State.adopted_still | fail_if_no_progress with_reducible refine Still.upd ?_ | split

end Sys2Proof.Machine
end

