-- ==== Sys2Proof/Laws/KeepsHallmark.lean ====
section
/-!
SUPPORT. Sys2Proof/Laws/KeepsHallmark.lean: every operation of Machine/Hallmark.lean leaves standing what Laws/Keeps.lean says.
-/
set_option linter.unusedTactic false
set_option linter.unreachableTactic false
namespace Sys2Proof.Machine

theorem State.hlmTake_still {s₀ s : State} (h : Still s₀ s) (op : Nat) (f : State → State × Option HlmResult × List Byte × Nat) (hf : ∀ s, Still s₀ s → Still s₀ (f s).1) : Still s₀ (State.hlmTake s op f) := by
  unfold State.hlmTake
  try dsimp only
  repeat' first | with_reducible assumption | with_reducible apply hf | with_reducible refine Still.ite ?_ ?_ | with_reducible refine Still.foldl ?_ ?_ | with_reducible refine Still.iteP ?_ ?_ | with_reducible refine Still.foldlP ?_ ?_ | (intro _; intros; try dsimp only) | with_reducible apply State.setFld_still | with_reducible apply State.setBit_still | fail_if_no_progress with_reducible refine Still.upd ?_ | split

theorem State.hlmEnd_still {s₀ s : State} (h : Still s₀ s) (r : Nat) : Still s₀ (State.hlmEnd s r) := by
  unfold State.hlmEnd
  try dsimp only
  repeat' first | with_reducible assumption | with_reducible refine Still.ite ?_ ?_ | with_reducible refine Still.foldl ?_ ?_ | with_reducible refine Still.iteP ?_ ?_ | with_reducible refine Still.foldlP ?_ ?_ | (intro _; intros; try dsimp only) | with_reducible apply State.setFld_still | with_reducible apply State.setBit_still | fail_if_no_progress with_reducible refine Still.upd ?_ | split

theorem State.authTake_still {s₀ s : State} (h : Still s₀ s) (op : Nat) : Still s₀ (State.authTake s op) := by
  unfold State.authTake
  try dsimp only
  repeat' first | with_reducible assumption | with_reducible refine Still.ite ?_ ?_ | with_reducible refine Still.foldl ?_ ?_ | with_reducible refine Still.iteP ?_ ?_ | with_reducible refine Still.foldlP ?_ ?_ | (intro _; intros; try dsimp only) | with_reducible apply State.setBit_still | with_reducible apply State.hlmTake_still | split

theorem State.hlmCmd_still {s₀ s : State} (h : Still s₀ s) (op : Nat) : Still s₀ (State.hlmCmd s op) := by
  unfold State.hlmCmd
  try dsimp only
  repeat' first | with_reducible assumption | with_reducible refine Still.ite ?_ ?_ | with_reducible refine Still.foldl ?_ ?_ | with_reducible refine Still.iteP ?_ ?_ | with_reducible refine Still.foldlP ?_ ?_ | (intro _; intros; try dsimp only) | with_reducible apply State.setBit_still | with_reducible apply State.hlmTake_still | with_reducible apply State.authTake_still | split

theorem execChallenge_still (s : State) : StillO s (execChallenge s) := by
  unfold execChallenge
  try dsimp only
  repeat' first | with_reducible assumption | with_reducible refine StillO.go ?_ | with_reducible refine StillO.ite ?_ ?_ | with_reducible exact Still.refl _ | with_reducible refine Still.ite ?_ ?_ | with_reducible refine Still.foldl ?_ ?_ | with_reducible refine Still.iteP ?_ ?_ | with_reducible refine Still.foldlP ?_ ?_ | (intro _; intros; try dsimp only) | with_reducible apply State.hlmCmd_still | split

theorem execAttest_still (s : State) : StillO s (execAttest s) := by
  unfold execAttest
  try dsimp only
  repeat' first | with_reducible assumption | with_reducible refine StillO.go ?_ | with_reducible refine StillO.ite ?_ ?_ | with_reducible exact Still.refl _ | with_reducible refine Still.ite ?_ ?_ | with_reducible refine Still.foldl ?_ ?_ | with_reducible refine Still.iteP ?_ ?_ | with_reducible refine Still.foldlP ?_ ?_ | (intro _; intros; try dsimp only) | with_reducible apply State.hlmCmd_still | split

theorem execCertRead_still (s : State) : StillO s (execCertRead s) := by
  unfold execCertRead
  try dsimp only
  repeat' first | with_reducible assumption | with_reducible refine StillO.go ?_ | with_reducible refine StillO.ite ?_ ?_ | with_reducible exact Still.refl _ | with_reducible refine Still.ite ?_ ?_ | with_reducible refine Still.foldl ?_ ?_ | with_reducible refine Still.iteP ?_ ?_ | with_reducible refine Still.foldlP ?_ ?_ | (intro _; intros; try dsimp only) | with_reducible apply State.hlmCmd_still | split

theorem execCertStore_still (s : State) : StillO s (execCertStore s) := by
  unfold execCertStore
  try dsimp only
  repeat' first | with_reducible assumption | with_reducible refine StillO.go ?_ | with_reducible refine StillO.ite ?_ ?_ | with_reducible exact Still.refl _ | with_reducible refine Still.ite ?_ ?_ | with_reducible refine Still.foldl ?_ ?_ | with_reducible refine Still.iteP ?_ ?_ | with_reducible refine Still.foldlP ?_ ?_ | (intro _; intros; try dsimp only) | with_reducible apply State.hlmCmd_still | split

theorem execKeySet_still (vfuse : Bool) (s : State) : StillO s (execKeySet vfuse s) := by
  unfold execKeySet
  try dsimp only
  repeat' first | with_reducible assumption | with_reducible refine StillO.go ?_ | with_reducible refine StillO.ite ?_ ?_ | with_reducible exact Still.refl _ | with_reducible refine Still.ite ?_ ?_ | with_reducible refine Still.foldl ?_ ?_ | with_reducible refine Still.iteP ?_ ?_ | with_reducible refine Still.foldlP ?_ ?_ | (intro _; intros; try dsimp only) | with_reducible apply State.hlmCmd_still | fail_if_no_progress with_reducible refine Still.upd ?_ | split

theorem execKeyRevoke_still (vfuse : Bool) (s : State) : StillO s (execKeyRevoke vfuse s) := by
  unfold execKeyRevoke
  try dsimp only
  repeat' first | with_reducible assumption | with_reducible refine StillO.go ?_ | with_reducible refine StillO.ite ?_ ?_ | with_reducible exact Still.refl _ | with_reducible refine Still.ite ?_ ?_ | with_reducible refine Still.foldl ?_ ?_ | with_reducible refine Still.iteP ?_ ?_ | with_reducible refine Still.foldlP ?_ ?_ | (intro _; intros; try dsimp only) | with_reducible apply State.hlmCmd_still | fail_if_no_progress with_reducible refine Still.upd ?_ | split

theorem execDebugUnlock_still (s : State) : StillO s (execDebugUnlock s) := by
  unfold execDebugUnlock
  try dsimp only
  repeat' first | with_reducible assumption | with_reducible refine StillO.go ?_ | with_reducible refine StillO.ite ?_ ?_ | with_reducible exact Still.refl _ | with_reducible refine Still.ite ?_ ?_ | with_reducible refine Still.foldl ?_ ?_ | with_reducible refine Still.iteP ?_ ?_ | with_reducible refine Still.foldlP ?_ ?_ | (intro _; intros; try dsimp only) | with_reducible apply State.hlmCmd_still | split

theorem execDebugLock_still (s : State) : StillO s (execDebugLock s) := by
  unfold execDebugLock
  try dsimp only
  repeat' first | with_reducible assumption | with_reducible refine StillO.go ?_ | with_reducible refine StillO.ite ?_ ?_ | with_reducible exact Still.refl _ | with_reducible refine Still.ite ?_ ?_ | with_reducible refine Still.foldl ?_ ?_ | with_reducible refine Still.iteP ?_ ?_ | with_reducible refine Still.foldlP ?_ ?_ | (intro _; intros; try dsimp only) | with_reducible apply State.hlmCmd_still | split

theorem execGenkey_still (vfuse : Bool) (s : State) : StillO s (execGenkey vfuse s) := by
  unfold execGenkey
  try dsimp only
  repeat' first | with_reducible assumption | with_reducible refine StillO.go ?_ | with_reducible refine StillO.ite ?_ ?_ | with_reducible exact Still.refl _ | with_reducible refine Still.ite ?_ ?_ | with_reducible refine Still.foldl ?_ ?_ | with_reducible refine Still.iteP ?_ ?_ | with_reducible refine Still.foldlP ?_ ?_ | (intro _; intros; try dsimp only) | with_reducible apply State.hlmCmd_still | fail_if_no_progress with_reducible refine Still.upd ?_ | split

theorem State.drawBytes_still {s₀ s : State} (h : Still s₀ s) (n : Nat) : Still s₀ (s.drawBytes n).1 := by
  induction n generalizing s with
  | zero => exact h
  | succ n ih => exact ih (State.draw_still h)

theorem State.blowSlot_still {s₀ s : State} (h : Still s₀ s) (i : Nat) (k : KeySlot) : Still s₀ (State.blowSlot s i k) := by
  unfold State.blowSlot
  try dsimp only
  repeat' first | with_reducible assumption | with_reducible refine Still.ite ?_ ?_ | with_reducible refine Still.foldl ?_ ?_ | with_reducible refine Still.iteP ?_ ?_ | with_reducible refine Still.foldlP ?_ ?_ | (intro _; intros; try dsimp only) | with_reducible apply State.setSlot_still | with_reducible apply State.showKeys_still | split

theorem State.blowSeeds_still {s₀ s : State} (h : Still s₀ s) (d : List Byte) : Still s₀ (State.blowSeeds s d) := by
  refine h.trans ⟨⟨fun v => v.of_eq ⟨rfl, rfl, rfl, rfl, rfl, rfl, rfl, rfl, rfl, rfl, rfl, rfl, rfl⟩, rfl, 
    ⟨rfl, fun _ => Nat.le_refl _, fun e => ?_, id⟩⟩, rfl, rfl, rfl, rfl, rfl⟩
  cases hs : s.fuses.seeds with
  | none => exact absurd hs e
  | some x => simp [State.blowSeeds, hs]

theorem State.spoilSeeds_still {s₀ s : State} (h : Still s₀ s) : Still s₀ (State.spoilSeeds s) := h.trans ⟨⟨fun v => v.of_eq ⟨rfl, rfl, rfl, rfl, rfl, rfl, rfl, rfl, rfl, rfl, rfl, rfl, rfl⟩, rfl, 
    ⟨rfl, fun _ => Nat.le_refl _, fun _ => rfl, fun _ => rfl⟩⟩, rfl, rfl, rfl, rfl, rfl⟩

theorem State.hlmFinish_still {s₀ s : State} (h : Still s₀ s) (o : HlmOp) (readBack : Bool) : Still s₀ (State.hlmFinish s o readBack) := by
  unfold State.hlmFinish
  try dsimp only
  repeat' first | with_reducible assumption | with_reducible refine Still.ite ?_ ?_ | with_reducible refine Still.foldl ?_ ?_ | with_reducible refine Still.iteP ?_ ?_ | with_reducible refine Still.foldlP ?_ ?_ | (intro _; intros; try dsimp only) | with_reducible apply State.setBit_still | with_reducible apply State.setBytes_still | with_reducible apply State.draw_still | with_reducible apply State.take_still | with_reducible apply State.commitNow_still | with_reducible apply State.commitAll_still | with_reducible apply State.set8_still | with_reducible apply State.hlmEnd_still | with_reducible apply State.drawBytes_still | with_reducible apply State.blowSlot_still | with_reducible apply State.blowSeeds_still | with_reducible apply State.spoilSeeds_still | fail_if_no_progress with_reducible refine Still.upd ?_ | split

theorem State.hlmComplete_still {s₀ s : State} (h : Still s₀ s) (readBack : Bool) : Still s₀ (State.hlmComplete s readBack) := by
  unfold State.hlmComplete
  try dsimp only
  repeat' first | with_reducible assumption | with_reducible refine Still.ite ?_ ?_ | with_reducible refine Still.foldl ?_ ?_ | with_reducible refine Still.iteP ?_ ?_ | with_reducible refine Still.foldlP ?_ ?_ | (intro _; intros; try dsimp only) | with_reducible apply State.hlmEnd_still | with_reducible apply State.hlmFinish_still | fail_if_no_progress with_reducible refine Still.upd ?_ | split

theorem execHallmarkOpComplete_still (readBack : Bool) (s : State) : StillO s (execHallmarkOpComplete readBack s) := by
  unfold execHallmarkOpComplete
  try dsimp only
  repeat' first | with_reducible assumption | with_reducible refine StillO.go ?_ | with_reducible refine StillO.ite ?_ ?_ | with_reducible exact Still.refl _ | with_reducible refine Still.ite ?_ ?_ | with_reducible refine Still.foldl ?_ ?_ | with_reducible refine Still.iteP ?_ ?_ | with_reducible refine Still.foldlP ?_ ?_ | (intro _; intros; try dsimp only) | with_reducible apply State.hlmComplete_still | split

theorem execVfuseFall_still (s : State) : StillO s (execVfuseFall s) := by
  unfold execVfuseFall
  try dsimp only
  repeat' first | with_reducible assumption | with_reducible refine StillO.go ?_ | with_reducible refine StillO.ite ?_ ?_ | with_reducible exact Still.refl _ | with_reducible refine Still.ite ?_ ?_ | with_reducible refine Still.foldl ?_ ?_ | with_reducible refine Still.iteP ?_ ?_ | with_reducible refine Still.foldlP ?_ ?_ | (intro _; intros; try dsimp only) | with_reducible apply State.hlmFinish_still | fail_if_no_progress with_reducible refine Still.upd ?_ | split

end Sys2Proof.Machine
end

