-- ==== Sys2Proof/Laws/KeepsBus.lean ====
section
/-!
SUPPORT. Sys2Proof/Laws/KeepsBus.lean: every operation of Machine/Bus.lean leaves standing what Laws/Keeps.lean says.
-/
set_option linter.unusedTactic false
set_option linter.unreachableTactic false
namespace Sys2Proof.Machine

theorem State.wordRead_still {s₀ s : State} (h : Still s₀ s) (a : Nat) : Still s₀ (State.wordRead s a).1 := by
  unfold State.wordRead
  try dsimp only
  repeat' first | with_reducible assumption | with_reducible refine Still.ite ?_ ?_ | with_reducible refine Still.foldl ?_ ?_ | with_reducible refine Still.iteP ?_ ?_ | with_reducible refine Still.foldlP ?_ ?_ | (intro _; intros; try dsimp only) | with_reducible apply State.nowRead_still | split

theorem State.resetCmdWrite_still {s₀ s : State} (h : Still s₀ s) (v : W32) : Still s₀ (State.resetCmdWrite s v) := by
  unfold State.resetCmdWrite
  try dsimp only
  repeat' first | with_reducible assumption | with_reducible refine Still.ite ?_ ?_ | with_reducible refine Still.foldl ?_ ?_ | with_reducible refine Still.iteP ?_ ?_ | with_reducible refine Still.foldlP ?_ ?_ | (intro _; intros; try dsimp only) | with_reducible apply State.cmdErr_still | with_reducible apply State.resetSectors_still | with_reducible apply State.resetQuads_still | fail_if_no_progress with_reducible refine Still.upd ?_ | split

theorem State.tsbCmdWrite_still {s₀ s : State} (h : Still s₀ s) (v : W32) : Still s₀ (State.tsbCmdWrite s v) := by
  unfold State.tsbCmdWrite
  try dsimp only
  repeat' first | with_reducible assumption | with_reducible refine Still.ite ?_ ?_ | with_reducible refine Still.foldl ?_ ?_ | with_reducible refine Still.iteP ?_ ?_ | with_reducible refine Still.foldlP ?_ ?_ | (intro _; intros; try dsimp only) | with_reducible apply State.tsbSwap_still | with_reducible apply State.tsbRealign_still | with_reducible apply State.snapshot_still | split

theorem State.bootCmdWrite_still {s₀ s : State} (h : Still s₀ s) (v : W32) : Still s₀ (State.bootCmdWrite s v) := by
  unfold State.bootCmdWrite
  try dsimp only
  repeat' first | with_reducible assumption | with_reducible refine Still.ite ?_ ?_ | with_reducible refine Still.foldl ?_ ?_ | with_reducible refine Still.iteP ?_ ?_ | with_reducible refine Still.foldlP ?_ ?_ | (intro _; intros; try dsimp only) | with_reducible apply State.askRestart_still | with_reducible apply State.clearFails_still | split

theorem State.pwrCmdWrite_still {s₀ s : State} (h : Still s₀ s) (v : W32) : Still s₀ (State.pwrCmdWrite s v) := by
  unfold State.pwrCmdWrite
  try dsimp only
  repeat' first | with_reducible assumption | with_reducible refine Still.ite ?_ ?_ | with_reducible refine Still.foldl ?_ ?_ | with_reducible refine Still.iteP ?_ ?_ | with_reducible refine Still.foldlP ?_ ?_ | (intro _; intros; try dsimp only) | with_reducible apply State.setBit_still | with_reducible apply State.pwrClearNow_still | with_reducible apply State.pwrRetry_still | fail_if_no_progress with_reducible refine Still.upd ?_ | split

theorem State.dptCmdWrite_still {s₀ s : State} (h : Still s₀ s) (v : W32) : Still s₀ (State.dptCmdWrite s v) := by
  unfold State.dptCmdWrite
  try dsimp only
  repeat' first | with_reducible assumption | with_reducible refine Still.ite ?_ ?_ | with_reducible refine Still.foldl ?_ ?_ | with_reducible refine Still.iteP ?_ ?_ | with_reducible refine Still.foldlP ?_ ?_ | (intro _; intros; try dsimp only) | with_reducible apply State.readiness_still | with_reducible apply State.applyFlag_still | with_reducible apply State.dptCmd_still | with_reducible apply State.cycleCmd_still | with_reducible apply State.dispatcherResetNow_still | split

theorem State.cmdWrite_still {s₀ s : State} (h : Still s₀ s) (o : Nat) (v : W32) : Still s₀ (State.cmdWrite s o v) := by
  unfold State.cmdWrite
  try dsimp only
  repeat' first | with_reducible assumption | with_reducible refine Still.ite ?_ ?_ | with_reducible refine Still.foldl ?_ ?_ | with_reducible refine Still.iteP ?_ ?_ | with_reducible refine Still.foldlP ?_ ?_ | (intro _; intros; try dsimp only) | with_reducible apply State.injArm_still | with_reducible apply State.slgRestart_still | with_reducible apply State.accordCmdWrite_still | with_reducible apply State.hlmCmd_still | with_reducible apply State.resetCmdWrite_still | with_reducible apply State.tsbCmdWrite_still | with_reducible apply State.bootCmdWrite_still | with_reducible apply State.pwrCmdWrite_still | with_reducible apply State.dptCmdWrite_still | split

theorem State.fieldWrite_still {s₀ s : State} (h : Still s₀ s) (r : RegSpec) (a : Nat) (v : W32) : Still s₀ (State.fieldWrite s r a v).1 := by
  unfold State.fieldWrite
  try dsimp only
  repeat' first | with_reducible assumption | with_reducible refine Still.ite ?_ ?_ | with_reducible refine Still.foldl ?_ ?_ | with_reducible refine Still.iteP ?_ ?_ | with_reducible refine Still.foldlP ?_ ?_ | (intro _; intros; try dsimp only) | with_reducible apply State.setReg_still | split

theorem State.laneCtrlWrite_still {s₀ s : State} (h : Still s₀ s) (r : RegSpec) (l : Nat) (a : Nat) (v : W32) : Still s₀ (State.laneCtrlWrite s r l a v).1 := by
  unfold State.laneCtrlWrite
  try dsimp only
  repeat' first | with_reducible assumption | with_reducible refine Still.ite ?_ ?_ | with_reducible refine Still.foldl ?_ ?_ | with_reducible refine Still.iteP ?_ ?_ | with_reducible refine Still.foldlP ?_ ?_ | (intro _; intros; try dsimp only) | with_reducible apply State.laneRealign_still | with_reducible apply State.laneAdopt_still | with_reducible apply State.rxEnWrite_still | with_reducible apply State.txEnWrite_still | with_reducible apply State.pdWrite_still | with_reducible apply State.fieldWrite_still | fail_if_no_progress with_reducible refine Still.upd ?_ | split

theorem State.descriptorWrite_still {s₀ s : State} (h : Still s₀ s) (r : RegSpec) (a : Nat) (v : W32) : Still s₀ (State.descriptorWrite s r a v).1 := by
  unfold State.descriptorWrite
  try dsimp only
  repeat' first | with_reducible assumption | with_reducible refine Still.ite ?_ ?_ | with_reducible refine Still.foldl ?_ ?_ | with_reducible refine Still.iteP ?_ ?_ | with_reducible refine Still.foldlP ?_ ?_ | (intro _; intros; try dsimp only) | with_reducible apply State.readRow_still | with_reducible apply State.rowWritten_still | with_reducible apply State.fieldWrite_still | split

theorem State.regWrite_still {s₀ s : State} (h : Still s₀ s) (a : Nat) (v : W32) : Still s₀ (State.regWrite s a v).1 := by
  unfold State.regWrite
  try dsimp only
  repeat' first | with_reducible assumption | with_reducible refine Still.ite ?_ ?_ | with_reducible refine Still.foldl ?_ ?_ | with_reducible refine Still.iteP ?_ ?_ | with_reducible refine Still.foldlP ?_ ?_ | (intro _; intros; try dsimp only) | with_reducible apply State.setLe_still | with_reducible apply State.rptrWrite_still | with_reducible apply State.schedPar_still | with_reducible apply State.cmdWrite_still | with_reducible apply State.fieldWrite_still | with_reducible apply State.laneCtrlWrite_still | with_reducible apply State.descriptorWrite_still | fail_if_no_progress with_reducible refine Still.upd ?_ | split

theorem State.scratchTagged_still {s₀ s : State} (h : Still s₀ s) (t : Nat) (o : Nat) (n : Nat) : Still s₀ (State.scratchTagged s t o n) := by
  unfold State.scratchTagged
  try dsimp only
  repeat' first | with_reducible assumption | with_reducible refine Still.ite ?_ ?_ | with_reducible refine Still.foldl ?_ ?_ | with_reducible refine Still.iteP ?_ ?_ | with_reducible refine Still.foldlP ?_ ?_ | (intro _; intros; try dsimp only) | with_reducible apply State.store_still | split

theorem State.memWrite_still {s₀ s : State} (h : Still s₀ s) (a : Nat) (b : List Byte) : Still s₀ (State.memWrite s a b).1 := by
  unfold State.memWrite
  try dsimp only
  repeat' first | with_reducible assumption | with_reducible refine Still.ite ?_ ?_ | with_reducible refine Still.foldl ?_ ?_ | with_reducible refine Still.iteP ?_ ?_ | with_reducible refine Still.foldlP ?_ ?_ | (intro _; intros; try dsimp only) | with_reducible apply State.store_still | with_reducible apply State.noteSecond_still | with_reducible apply State.take_still | with_reducible apply State.scratchTagged_still | fail_if_no_progress with_reducible refine Still.upd ?_ | split

theorem State.busRead_still {s₀ s : State} (h : Still s₀ s) (a : Nat) (n : Nat) (reg : Bool) : Still s₀ (State.busRead s a n reg).1 := by
  unfold State.busRead
  try dsimp only
  repeat' first | with_reducible assumption | with_reducible refine Still.ite ?_ ?_ | with_reducible refine Still.foldl ?_ ?_ | with_reducible refine Still.iteP ?_ ?_ | with_reducible refine Still.foldlP ?_ ?_ | (intro _; intros; try dsimp only) | with_reducible apply State.read_still | with_reducible apply State.drainError_still | with_reducible apply State.wordRead_still | fail_if_no_progress with_reducible refine Still.upd ?_ | with_reducible apply Still.filterMem | with_reducible apply Still.filterRegs | split

theorem State.busWrite_still {s₀ s : State} (h : Still s₀ s) (a : Nat) (b : List Byte) (reg : Bool) : Still s₀ (State.busWrite s a b reg).1 := by
  unfold State.busWrite
  try dsimp only
  repeat' first | with_reducible assumption | with_reducible refine Still.ite ?_ ?_ | with_reducible refine Still.foldl ?_ ?_ | with_reducible refine Still.iteP ?_ ?_ | with_reducible refine Still.foldlP ?_ ?_ | (intro _; intros; try dsimp only) | with_reducible apply State.regWrite_still | with_reducible apply State.memWrite_still | split

theorem State.serve_still {s₀ s : State} (h : Still s₀ s) (p : Packet) (bad : Nat → State → State) (f : Bool → State → State) (hb : ∀ n s, Still s₀ s → Still s₀ (bad n s)) (hf : ∀ b s, Still s₀ s → Still s₀ (f b s)) : Still s₀ (State.serve s p bad f) := by
  unfold State.serve
  try dsimp only
  repeat' first | with_reducible assumption | with_reducible apply hf | with_reducible apply hb | with_reducible refine Still.ite ?_ ?_ | with_reducible refine Still.foldl ?_ ?_ | with_reducible refine Still.iteP ?_ ?_ | with_reducible refine Still.foldlP ?_ ?_ | (intro _; intros; try dsimp only) | fail_if_no_progress with_reducible refine Still.upd ?_ | split

theorem execNocRd_still (p : Packet) (s : State) : StillO s (execNocRd p s) := by
  unfold execNocRd
  try dsimp only
  repeat' first | with_reducible assumption | with_reducible refine StillO.go ?_ | with_reducible refine StillO.ite ?_ ?_ | with_reducible exact Still.refl _ | with_reducible refine Still.ite ?_ ?_ | with_reducible refine Still.foldl ?_ ?_ | with_reducible refine Still.iteP ?_ ?_ | with_reducible refine Still.foldlP ?_ ?_ | (intro _; intros; try dsimp only) | with_reducible apply State.reply_still | with_reducible apply State.answer_still | with_reducible apply State.request_still | with_reducible apply State.busRead_still | with_reducible apply State.serve_still | split

theorem execNocWr_still (p : Packet) (s : State) : StillO s (execNocWr p s) := by
  unfold execNocWr
  try dsimp only
  repeat' first | with_reducible assumption | with_reducible refine StillO.go ?_ | with_reducible refine StillO.ite ?_ ?_ | with_reducible exact Still.refl _ | with_reducible refine Still.ite ?_ ?_ | with_reducible refine Still.foldl ?_ ?_ | with_reducible refine Still.iteP ?_ ?_ | with_reducible refine Still.foldlP ?_ ?_ | (intro _; intros; try dsimp only) | with_reducible apply State.answer_still | with_reducible apply State.request_still | with_reducible apply State.busWrite_still | with_reducible apply State.serve_still | split

theorem execNocWrp_still (p : Packet) (s : State) : StillO s (execNocWrp p s) := by
  unfold execNocWrp
  try dsimp only
  repeat' first | with_reducible assumption | with_reducible refine StillO.go ?_ | with_reducible refine StillO.ite ?_ ?_ | with_reducible exact Still.refl _ | with_reducible refine Still.ite ?_ ?_ | with_reducible refine Still.foldl ?_ ?_ | with_reducible refine Still.iteP ?_ ?_ | with_reducible refine Still.foldlP ?_ ?_ | (intro _; intros; try dsimp only) | with_reducible apply State.freePosted_still | with_reducible apply State.request_still | with_reducible apply State.busWrite_still | with_reducible apply State.serve_still | split

theorem State.blocked_still {s₀ s : State} (h : Still s₀ s) (a n : Nat) {t : State} {e : Nat} (hb : s.blocked a n = some (t, e)) :
    Still s₀ t := by
  unfold State.blocked at hb
  repeat' split at hb
  all_goals first | (cases hb; exact h) | (cases hb; exact State.setBit_still (State.count_still h _ _ _ _) _ _ _) | cases hb

theorem State.accessRead_still {s₀ s : State} (h : Still s₀ s) (a : Nat) (n : Nat) : Still s₀ (State.accessRead s a n).1 := by
  unfold State.accessRead
  split
  · rename_i e; exact State.blocked_still h _ _ e
  · exact State.busRead_still h _ _ _

theorem State.accessWrite_still {s₀ s : State} (h : Still s₀ s) (a : Nat) (b : List Byte) : Still s₀ (State.accessWrite s a b).1 := by
  unfold State.accessWrite
  split
  · rename_i e; exact State.blocked_still h _ _ e
  · exact State.busWrite_still h _ _ _

theorem execRegisterWrite_still (a : BitVec 40) (v : W32) (s : State) : StillO s (execRegisterWrite a v s) := by
  unfold execRegisterWrite
  try dsimp only
  repeat' first | with_reducible assumption | with_reducible refine StillO.go ?_ | with_reducible refine StillO.ite ?_ ?_ | with_reducible exact Still.refl _ | with_reducible refine Still.ite ?_ ?_ | with_reducible refine Still.foldl ?_ ?_ | with_reducible refine Still.iteP ?_ ?_ | with_reducible refine Still.foldlP ?_ ?_ | (intro _; intros; try dsimp only) | with_reducible apply State.accessWrite_still | split

theorem State.tapDebug_still {s₀ s : State} (h : Still s₀ s) : Still s₀ (State.tapDebug s) := by
  unfold State.tapDebug
  try dsimp only
  repeat' first | with_reducible assumption | with_reducible refine Still.ite ?_ ?_ | with_reducible refine Still.foldl ?_ ?_ | with_reducible refine Still.iteP ?_ ?_ | with_reducible refine Still.foldlP ?_ ?_ | (intro _; intros; try dsimp only) | fail_if_no_progress with_reducible refine Still.upd ?_ | split

theorem execJtagAccessRead_still (a : BitVec 40) (s : State) : StillO s (execJtagAccessRead a s) := by
  unfold execJtagAccessRead
  try dsimp only
  repeat' first | with_reducible assumption | with_reducible refine StillO.go ?_ | with_reducible refine StillO.ite ?_ ?_ | with_reducible exact Still.refl _ | with_reducible refine Still.ite ?_ ?_ | with_reducible refine Still.foldl ?_ ?_ | with_reducible refine Still.iteP ?_ ?_ | with_reducible refine Still.foldlP ?_ ?_ | (intro _; intros; try dsimp only) | with_reducible apply State.accessRead_still | with_reducible apply State.tapDebug_still | fail_if_no_progress with_reducible refine Still.upd ?_ | split

theorem execJtagAccessWrite_still (a : BitVec 40) (v : W32) (s : State) : StillO s (execJtagAccessWrite a v s) := by
  unfold execJtagAccessWrite
  try dsimp only
  repeat' first | with_reducible assumption | with_reducible refine StillO.go ?_ | with_reducible refine StillO.ite ?_ ?_ | with_reducible exact Still.refl _ | with_reducible refine Still.ite ?_ ?_ | with_reducible refine Still.foldl ?_ ?_ | with_reducible refine Still.iteP ?_ ?_ | with_reducible refine Still.foldlP ?_ ?_ | (intro _; intros; try dsimp only) | with_reducible apply State.accessWrite_still | with_reducible apply State.tapDebug_still | fail_if_no_progress with_reducible refine Still.upd ?_ | split

end Sys2Proof.Machine
end

