-- ==== Sys2Proof/Laws/KeepsFrames.lean ====
section
/-!
SUPPORT. Sys2Proof/Laws/KeepsFrames.lean: every operation of Machine/Frames.lean leaves standing what Laws/Keeps.lean says.
-/
set_option linter.unusedTactic false
set_option linter.unreachableTactic false
namespace Sys2Proof.Machine

theorem State.sendFrame_still {s₀ s : State} (h : Still s₀ s) (f : List Byte) : Still s₀ (State.sendFrame s f) := by
  unfold State.sendFrame
  try dsimp only
  repeat' first | with_reducible assumption | with_reducible refine Still.ite ?_ ?_ | with_reducible refine Still.foldl ?_ ?_ | with_reducible refine Still.iteP ?_ ?_ | with_reducible refine Still.foldlP ?_ ?_ | (intro _; intros; try dsimp only) | fail_if_no_progress with_reducible refine Still.upd ?_ | split

theorem State.mgtDrop_still {s₀ s : State} (h : Still s₀ s) : Still s₀ (State.mgtDrop s) := by
  unfold State.mgtDrop
  try dsimp only
  repeat' first | with_reducible assumption | with_reducible refine Still.ite ?_ ?_ | with_reducible refine Still.foldl ?_ ?_ | with_reducible refine Still.iteP ?_ ?_ | with_reducible refine Still.foldlP ?_ ?_ | (intro _; intros; try dsimp only) | with_reducible apply State.count_still | split

theorem State.sendIp_still {s₀ s : State} (h : Still s₀ s) (mac : List Byte) (ip : Nat) (proto : Nat) (data : List Byte) : Still s₀ (State.sendIp s mac ip proto data).1 := by
  unfold State.sendIp
  try dsimp only
  repeat' first | with_reducible assumption | with_reducible refine Still.ite ?_ ?_ | with_reducible refine Still.foldl ?_ ?_ | with_reducible refine Still.iteP ?_ ?_ | with_reducible refine Still.foldlP ?_ ?_ | (intro _; intros; try dsimp only) | with_reducible apply State.draw_still | with_reducible apply State.sendFrame_still | split

theorem State.arp_still {s₀ s : State} (h : Still s₀ s) (src : List Byte) (p : List Byte) : Still s₀ (State.arp s src p) := by
  unfold State.arp
  try dsimp only
  repeat' first | with_reducible assumption | with_reducible refine Still.ite ?_ ?_ | with_reducible refine Still.foldl ?_ ?_ | with_reducible refine Still.iteP ?_ ?_ | with_reducible refine Still.foldlP ?_ ?_ | (intro _; intros; try dsimp only) | with_reducible apply State.take_still | with_reducible apply State.sendFrame_still | split

theorem State.echo_still {s₀ s : State} (h : Still s₀ s) (mac : List Byte) (ip : Nat) (d : List Byte) : Still s₀ (State.echo s mac ip d) := by
  unfold State.echo
  try dsimp only
  repeat' first | with_reducible assumption | with_reducible refine Still.ite ?_ ?_ | with_reducible refine Still.foldl ?_ ?_ | with_reducible refine Still.iteP ?_ ?_ | with_reducible refine Still.foldlP ?_ ?_ | (intro _; intros; try dsimp only) | with_reducible apply State.sendIp_still | split

theorem State.respondTo_still {s₀ s : State} (h : Still s₀ s) (r : MgtReq) (status : Nat) (arg : Nat) (data : List Byte) : Still s₀ (State.respondTo s r status arg data).1 := by
  unfold State.respondTo
  try dsimp only
  repeat' first | with_reducible assumption | with_reducible refine Still.ite ?_ ?_ | with_reducible refine Still.foldl ?_ ?_ | with_reducible refine Still.iteP ?_ ?_ | with_reducible refine Still.foldlP ?_ ?_ | (intro _; intros; try dsimp only) | with_reducible apply State.sendIp_still | split

theorem State.keep_still {s₀ s : State} (h : Still s₀ s) (r : MgtReq) (status : Nat) (frame : List Byte) : Still s₀ (State.keep s r status frame) := by
  unfold State.keep
  try dsimp only
  repeat' first | with_reducible assumption | with_reducible refine Still.ite ?_ ?_ | with_reducible refine Still.foldl ?_ ?_ | with_reducible refine Still.iteP ?_ ?_ | with_reducible refine Still.foldlP ?_ ?_ | (intro _; intros; try dsimp only) | fail_if_no_progress with_reducible refine Still.upd ?_ | with_reducible apply Still.filterMem | with_reducible apply Still.filterRegs | split

theorem State.answered_still {s₀ s : State} (h : Still s₀ s) (r : MgtReq) (status : Nat) (arg : Nat) (data : List Byte) : Still s₀ (State.answered s r status arg data) := by
  unfold State.answered
  try dsimp only
  repeat' first | with_reducible assumption | with_reducible refine Still.ite ?_ ?_ | with_reducible refine Still.foldl ?_ ?_ | with_reducible refine Still.iteP ?_ ?_ | with_reducible refine Still.foldlP ?_ ?_ | (intro _; intros; try dsimp only) | with_reducible apply State.count_still | with_reducible apply State.respondTo_still | with_reducible apply State.keep_still | split

theorem State.resend_still {s₀ s : State} (h : Still s₀ s) (k : Kept) : Still s₀ (State.resend s k) := by
  unfold State.resend
  try dsimp only
  repeat' first | with_reducible assumption | with_reducible refine Still.ite ?_ ?_ | with_reducible refine Still.foldl ?_ ?_ | with_reducible refine Still.iteP ?_ ?_ | with_reducible refine Still.foldlP ?_ ?_ | (intro _; intros; try dsimp only) | with_reducible apply State.count_still | with_reducible apply State.sendFrame_still | split

theorem State.settleBad_still {s₀ s : State} (h : Still s₀ s) (n : Nat) : Still s₀ (State.settleBad n s) := by
  induction n generalizing s with
  | zero => exact h
  | succ n ih =>
    unfold State.settleBad
    dsimp only
    split
    · rename_i r rest e
      have h1 : Still s₀ { s with mgt := { s.mgt with queue := rest } } := by
        with_reducible refine Still.upd h
      refine Still.ite (ih ?_) h
      split
      · exact Still.ite (State.answered_still h1 _ _ _ _) (State.resend_still h1 _)
      · exact State.answered_still h1 _ _ _ _
    · exact h

theorem State.payload_still {s₀ s : State} (h : Still s₀ s) (mac : List Byte) (ip : Nat) (port : Nat) (d : List Byte) : Still s₀ (State.payload s mac ip port d) := by
  unfold State.payload
  try dsimp only
  repeat' first | with_reducible assumption | with_reducible refine Still.ite ?_ ?_ | with_reducible refine Still.foldl ?_ ?_ | with_reducible refine Still.iteP ?_ ?_ | with_reducible refine Still.foldlP ?_ ?_ | (intro _; intros; try dsimp only) | with_reducible apply State.mgtDrop_still | with_reducible apply State.resend_still | with_reducible apply State.settleBad_still | fail_if_no_progress with_reducible refine Still.upd ?_ | split

theorem State.datagram_still {s₀ s : State} (h : Still s₀ s) (mac : List Byte) (p : List Byte) : Still s₀ (State.datagram s mac p) := by
  unfold State.datagram
  try dsimp only
  repeat' first | with_reducible assumption | with_reducible refine Still.ite ?_ ?_ | with_reducible refine Still.foldl ?_ ?_ | with_reducible refine Still.iteP ?_ ?_ | with_reducible refine Still.foldlP ?_ ?_ | (intro _; intros; try dsimp only) | with_reducible apply State.take_still | with_reducible apply State.mgtDrop_still | with_reducible apply State.echo_still | with_reducible apply State.payload_still | split

theorem execMgmtFrame_still (f : List Byte) (s : State) : StillO s (execMgmtFrame f s) := by
  unfold execMgmtFrame
  try dsimp only
  repeat' first | with_reducible assumption | with_reducible refine StillO.go ?_ | with_reducible refine StillO.ite ?_ ?_ | with_reducible exact Still.refl _ | with_reducible refine Still.ite ?_ ?_ | with_reducible refine Still.foldl ?_ ?_ | with_reducible refine Still.iteP ?_ ?_ | with_reducible refine Still.foldlP ?_ ?_ | (intro _; intros; try dsimp only) | with_reducible apply State.take_still | with_reducible apply State.arp_still | with_reducible apply State.datagram_still | split

end Sys2Proof.Machine
end

