-- ==== Sys2Proof/Laws/KeepsMgmt.lean ====
section
/-!
SUPPORT. Sys2Proof/Laws/KeepsMgmt.lean: every operation of Machine/Mgmt.lean leaves standing what Laws/Keeps.lean says.
-/
set_option linter.unusedTactic false
set_option linter.unreachableTactic false
namespace Sys2Proof.Machine

theorem State.serveHead_still {s₀ s : State} (h : Still s₀ s) (mine : MgtReq → Bool) (k : Option Nat) (base : MgtReq → Bool) (f : State → MgtReq → State × Option Reply) (hf : ∀ s r, Still s₀ s → Still s₀ (f s r).1) : Still s₀ (State.serveHead s mine k base f) := by
  unfold State.serveHead
  try dsimp only
  repeat' first | with_reducible assumption | with_reducible apply hf | with_reducible refine Still.ite ?_ ?_ | with_reducible refine Still.foldl ?_ ?_ | with_reducible refine Still.iteP ?_ ?_ | with_reducible refine Still.foldlP ?_ ?_ | (intro _; intros; try dsimp only) | with_reducible apply State.answered_still | with_reducible apply State.resend_still | with_reducible apply State.settleBad_still | fail_if_no_progress with_reducible refine Still.upd ?_ | split

theorem State.readRange_still {s₀ s : State} (h : Still s₀ s) (l : List (Nat × Nat)) (acc : List Byte) :
    Still s₀ (s.readRange l acc).1 := by
  induction l generalizing s acc with
  | nil => exact h
  | cons x l ih =>
    unfold State.readRange
    dsimp only
    split
    · exact ih (State.accessRead_still h _ _) _
    · exact State.accessRead_still h _ _

theorem State.writeRange_still {s₀ s : State} (h : Still s₀ s) (n : Nat) (l : List (Nat × Nat)) (b : List Byte) :
    Still s₀ (s.writeRange n l b).1 := by
  induction l generalizing s n b with
  | nil => exact h
  | cons x l ih =>
    unfold State.writeRange
    dsimp only
    split
    · exact ih (State.accessWrite_still h _ _) _ _
    · exact State.accessWrite_still h _ _

theorem execMgmtRead_still (s : State) : StillO s (execMgmtRead s) := by
  unfold execMgmtRead
  try dsimp only
  repeat' first | with_reducible assumption | with_reducible refine StillO.go ?_ | with_reducible refine StillO.ite ?_ ?_ | with_reducible exact Still.refl _ | with_reducible refine Still.ite ?_ ?_ | with_reducible refine Still.foldl ?_ ?_ | with_reducible refine Still.iteP ?_ ?_ | with_reducible refine Still.foldlP ?_ ?_ | (intro _; intros; try dsimp only) | with_reducible apply State.serveHead_still | with_reducible apply State.readRange_still | split

theorem execMgmtWrite_still (s : State) : StillO s (execMgmtWrite s) := by
  unfold execMgmtWrite
  try dsimp only
  repeat' first | with_reducible assumption | with_reducible refine StillO.go ?_ | with_reducible refine StillO.ite ?_ ?_ | with_reducible exact Still.refl _ | with_reducible refine Still.ite ?_ ?_ | with_reducible refine Still.foldl ?_ ?_ | with_reducible refine Still.iteP ?_ ?_ | with_reducible refine Still.foldlP ?_ ?_ | (intro _; intros; try dsimp only) | with_reducible apply State.serveHead_still | with_reducible apply State.writeRange_still | split

theorem State.stream_still {s₀ s : State} (h : Still s₀ s) (k : Nat) (r : MgtReq) (a n : Nat) :
    Still s₀ (State.stream k s r a n) := by
  induction k generalizing s a n with
  | zero => exact h
  | succ k ih =>
    unfold State.stream
    dsimp only
    split
    · exact State.answered_still (State.readRange_still h _ _) _ _ _ _
    · exact ih (State.respondTo_still (State.readRange_still h _ _) _ _ _ _) _ _

theorem execStreamRead_still (s : State) : StillO s (execStreamRead s) := by
  unfold execStreamRead
  try dsimp only
  repeat' first | with_reducible assumption | with_reducible refine StillO.go ?_ | with_reducible refine StillO.ite ?_ ?_ | with_reducible exact Still.refl _ | with_reducible refine Still.ite ?_ ?_ | with_reducible refine Still.foldl ?_ ?_ | with_reducible refine Still.iteP ?_ ?_ | with_reducible refine Still.foldlP ?_ ?_ | (intro _; intros; try dsimp only) | with_reducible apply State.serveHead_still | with_reducible apply State.stream_still | split

theorem State.setMark_still {s₀ s : State} (h : Still s₀ s) (slot : Nat) (n : Nat) : Still s₀ (State.setMark s slot n) := by
  unfold State.setMark
  try dsimp only
  repeat' first | with_reducible assumption | with_reducible refine Still.ite ?_ ?_ | with_reducible refine Still.foldl ?_ ?_ | with_reducible refine Still.iteP ?_ ?_ | with_reducible refine Still.foldlP ?_ ?_ | (intro _; intros; try dsimp only) | fail_if_no_progress with_reducible refine Still.upd ?_ | split

theorem State.setDirty_still {s₀ s : State} (h : Still s₀ s) (slot : Nat) (b : Bool) : Still s₀ (State.setDirty s slot b) := by
  unfold State.setDirty
  try dsimp only
  repeat' first | with_reducible assumption | with_reducible refine Still.ite ?_ ?_ | with_reducible refine Still.foldl ?_ ?_ | with_reducible refine Still.iteP ?_ ?_ | with_reducible refine Still.foldlP ?_ ?_ | (intro _; intros; try dsimp only) | fail_if_no_progress with_reducible refine Still.upd ?_ | split

theorem State.putDirectory_still {s₀ s : State} (h : Still s₀ s) (act : Nat) (slot : Nat) (len : Nat) : Still s₀ (State.putDirectory s act slot len) := by
  unfold State.putDirectory
  try dsimp only
  repeat' first | with_reducible assumption | with_reducible refine Still.ite ?_ ?_ | with_reducible refine Still.foldl ?_ ?_ | with_reducible refine Still.iteP ?_ ?_ | with_reducible refine Still.foldlP ?_ ?_ | (intro _; intros; try dsimp only) | with_reducible apply State.commitNow_still | with_reducible apply State.commitAll_still | fail_if_no_progress with_reducible refine Still.upd ?_ | split

theorem State.markEmpty_still {s₀ s : State} (h : Still s₀ s) (slot : Nat) : Still s₀ (State.markEmpty s slot) := by
  unfold State.markEmpty
  try dsimp only
  repeat' first | with_reducible assumption | with_reducible refine Still.ite ?_ ?_ | with_reducible refine Still.foldl ?_ ?_ | with_reducible refine Still.iteP ?_ ?_ | with_reducible refine Still.foldlP ?_ ?_ | (intro _; intros; try dsimp only) | with_reducible apply State.setDirty_still | with_reducible apply State.putDirectory_still | split

theorem execImageWrite_still (flashOk : Bool) (s : State) : StillO s (execImageWrite flashOk s) := by
  unfold execImageWrite
  try dsimp only
  repeat' first | with_reducible assumption | with_reducible refine StillO.go ?_ | with_reducible refine StillO.ite ?_ ?_ | with_reducible exact Still.refl _ | with_reducible refine Still.ite ?_ ?_ | with_reducible refine Still.foldl ?_ ?_ | with_reducible refine Still.iteP ?_ ?_ | with_reducible refine Still.foldlP ?_ ?_ | (intro _; intros; try dsimp only) | with_reducible apply State.take_still | with_reducible apply State.drawBytes_still | with_reducible apply State.serveHead_still | with_reducible apply State.setMark_still | with_reducible apply State.markEmpty_still | fail_if_no_progress with_reducible refine Still.upd ?_ | split

theorem execImageCommit_still (flashOk : Bool) (s : State) : StillO s (execImageCommit flashOk s) := by
  unfold execImageCommit
  try dsimp only
  repeat' first | with_reducible assumption | with_reducible refine StillO.go ?_ | with_reducible refine StillO.ite ?_ ?_ | with_reducible exact Still.refl _ | with_reducible refine Still.ite ?_ ?_ | with_reducible refine Still.foldl ?_ ?_ | with_reducible refine Still.iteP ?_ ?_ | with_reducible refine Still.foldlP ?_ ?_ | (intro _; intros; try dsimp only) | with_reducible apply State.serveHead_still | with_reducible apply State.setDirty_still | with_reducible apply State.putDirectory_still | fail_if_no_progress with_reducible refine Still.upd ?_ | split

theorem execPing_still (s : State) : StillO s (execPing s) := by
  unfold execPing
  try dsimp only
  repeat' first | with_reducible assumption | with_reducible refine StillO.go ?_ | with_reducible refine StillO.ite ?_ ?_ | with_reducible exact Still.refl _ | with_reducible refine Still.ite ?_ ?_ | with_reducible refine Still.foldl ?_ ?_ | with_reducible refine Still.iteP ?_ ?_ | with_reducible refine Still.foldlP ?_ ?_ | (intro _; intros; try dsimp only) | with_reducible apply State.serveHead_still | split

theorem execAccord_still (s : State) : StillO s (execAccord s) := by
  unfold execAccord
  try dsimp only
  repeat' first | with_reducible assumption | with_reducible refine StillO.go ?_ | with_reducible refine StillO.ite ?_ ?_ | with_reducible exact Still.refl _ | with_reducible refine Still.ite ?_ ?_ | with_reducible refine Still.foldl ?_ ?_ | with_reducible refine Still.iteP ?_ ?_ | with_reducible refine Still.foldlP ?_ ?_ | (intro _; intros; try dsimp only) | with_reducible apply State.accessWrite_still | with_reducible apply State.serveHead_still | split

theorem execEngineDead_still (s : State) : StillO s (execEngineDead s) := by
  unfold execEngineDead
  try dsimp only
  repeat' first | with_reducible assumption | with_reducible refine StillO.go ?_ | with_reducible refine StillO.ite ?_ ?_ | with_reducible exact Still.refl _ | with_reducible refine Still.ite ?_ ?_ | with_reducible refine Still.foldl ?_ ?_ | with_reducible refine Still.iteP ?_ ?_ | with_reducible refine Still.foldlP ?_ ?_ | (intro _; intros; try dsimp only) | with_reducible apply State.declareDead_still | with_reducible apply State.serveHead_still | split

theorem execMgtLinkChange_still (up : Bool) (s : State) : StillO s (execMgtLinkChange up s) := by
  unfold execMgtLinkChange
  try dsimp only
  repeat' first | with_reducible assumption | with_reducible refine StillO.go ?_ | with_reducible refine StillO.ite ?_ ?_ | with_reducible exact Still.refl _ | with_reducible refine Still.ite ?_ ?_ | with_reducible refine Still.foldl ?_ ?_ | with_reducible refine Still.iteP ?_ ?_ | with_reducible refine Still.foldlP ?_ ?_ | (intro _; intros; try dsimp only) | with_reducible apply State.setBit_still | split

theorem execI2cRead_still (ptr : Byte) (s : State) : StillO s (execI2cRead ptr s) := by
  unfold execI2cRead
  try dsimp only
  repeat' first | with_reducible assumption | with_reducible refine StillO.go ?_ | with_reducible refine StillO.ite ?_ ?_ | with_reducible exact Still.refl _ | with_reducible refine Still.ite ?_ ?_ | with_reducible refine Still.foldl ?_ ?_ | with_reducible refine Still.iteP ?_ ?_ | with_reducible refine Still.foldlP ?_ ?_ | (intro _; intros; try dsimp only) | fail_if_no_progress with_reducible refine Still.upd ?_ | split

theorem State.i2cResult_still {s₀ s : State} (h : Still s₀ s) (ptr : Nat) (code : Nat) : Still s₀ (State.i2cResult s ptr code) := by
  unfold State.i2cResult
  try dsimp only
  repeat' first | with_reducible assumption | with_reducible refine Still.ite ?_ ?_ | with_reducible refine Still.foldl ?_ ?_ | with_reducible refine Still.iteP ?_ ?_ | with_reducible refine Still.foldlP ?_ ?_ | (intro _; intros; try dsimp only) | fail_if_no_progress with_reducible refine Still.upd ?_ | split

theorem State.i2cCommand_still {s₀ s : State} (h : Still s₀ s) (ptr : Nat) (confirm : Byte) (pec : Byte) (data : List Byte) (early : Bool) (f : State → State × Nat) (hf : ∀ s, Still s₀ s → Still s₀ (f s).1) : Still s₀ (State.i2cCommand s ptr confirm pec data early f) := by
  unfold State.i2cCommand
  try dsimp only
  repeat' first | with_reducible assumption | with_reducible apply hf | with_reducible refine Still.ite ?_ ?_ | with_reducible refine Still.foldl ?_ ?_ | with_reducible refine Still.iteP ?_ ?_ | with_reducible refine Still.foldlP ?_ ?_ | (intro _; intros; try dsimp only) | with_reducible apply State.i2cResult_still | split

theorem execI2cRestart_still (confirm : Byte) (pec : Byte) (s : State) : StillO s (execI2cRestart confirm pec s) := by
  unfold execI2cRestart
  try dsimp only
  repeat' first | with_reducible assumption | with_reducible refine StillO.go ?_ | with_reducible refine StillO.ite ?_ ?_ | with_reducible exact Still.refl _ | with_reducible refine Still.ite ?_ ?_ | with_reducible refine Still.foldl ?_ ?_ | with_reducible refine Still.iteP ?_ ?_ | with_reducible refine Still.foldlP ?_ ?_ | (intro _; intros; try dsimp only) | with_reducible apply State.askRestart_still | with_reducible apply State.i2cCommand_still | split

theorem execI2cClearFails_still (confirm : Byte) (pec : Byte) (s : State) : StillO s (execI2cClearFails confirm pec s) := by
  unfold execI2cClearFails
  try dsimp only
  repeat' first | with_reducible assumption | with_reducible refine StillO.go ?_ | with_reducible refine StillO.ite ?_ ?_ | with_reducible exact Still.refl _ | with_reducible refine Still.ite ?_ ?_ | with_reducible refine Still.foldl ?_ ?_ | with_reducible refine Still.iteP ?_ ?_ | with_reducible refine Still.foldlP ?_ ?_ | (intro _; intros; try dsimp only) | with_reducible apply State.clearFails_still | with_reducible apply State.i2cCommand_still | fail_if_no_progress with_reducible refine Still.upd ?_ | split

theorem execI2cPwrClear_still (confirm : Byte) (pec : Byte) (s : State) : StillO s (execI2cPwrClear confirm pec s) := by
  unfold execI2cPwrClear
  try dsimp only
  repeat' first | with_reducible assumption | with_reducible refine StillO.go ?_ | with_reducible refine StillO.ite ?_ ?_ | with_reducible exact Still.refl _ | with_reducible refine Still.ite ?_ ?_ | with_reducible refine Still.foldl ?_ ?_ | with_reducible refine Still.iteP ?_ ?_ | with_reducible refine Still.foldlP ?_ ?_ | (intro _; intros; try dsimp only) | with_reducible apply State.pwrClearNow_still | with_reducible apply State.i2cCommand_still | split

theorem execI2cSectorRetry_still (mask : BitVec 16) (confirm : Byte) (pec : Byte) (s : State) : StillO s (execI2cSectorRetry mask confirm pec s) := by
  unfold execI2cSectorRetry
  try dsimp only
  repeat' first | with_reducible assumption | with_reducible refine StillO.go ?_ | with_reducible refine StillO.ite ?_ ?_ | with_reducible exact Still.refl _ | with_reducible refine Still.ite ?_ ?_ | with_reducible refine Still.foldl ?_ ?_ | with_reducible refine Still.iteP ?_ ?_ | with_reducible refine Still.foldlP ?_ ?_ | (intro _; intros; try dsimp only) | with_reducible apply State.pwrRetry_still | with_reducible apply State.i2cCommand_still | split

theorem State.tapInstr_still {s₀ s : State} (h : Still s₀ s) (ir : Byte) (held : Option (BitVec 101)) (hz : Bool) : Still s₀ (State.tapInstr s ir held hz) := by
  unfold State.tapInstr
  try dsimp only
  repeat' first | with_reducible assumption | with_reducible refine Still.ite ?_ ?_ | with_reducible refine Still.foldl ?_ ?_ | with_reducible refine Still.iteP ?_ ?_ | with_reducible refine Still.foldlP ?_ ?_ | (intro _; intros; try dsimp only) | fail_if_no_progress with_reducible refine Still.upd ?_ | split

theorem execExtest_still (s : State) : StillO s (execExtest s) := by
  unfold execExtest
  try dsimp only
  repeat' first | with_reducible assumption | with_reducible refine StillO.go ?_ | with_reducible refine StillO.ite ?_ ?_ | with_reducible exact Still.refl _ | with_reducible refine Still.ite ?_ ?_ | with_reducible refine Still.foldl ?_ ?_ | with_reducible refine Still.iteP ?_ ?_ | with_reducible refine Still.foldlP ?_ ?_ | (intro _; intros; try dsimp only) | with_reducible apply State.tapInstr_still | split

theorem execSamplePreload_still (pins : BitVec 101) (load : BitVec 101) (s : State) : StillO s (execSamplePreload pins load s) := by
  unfold execSamplePreload
  try dsimp only
  repeat' first | with_reducible assumption | with_reducible refine StillO.go ?_ | with_reducible refine StillO.ite ?_ ?_ | with_reducible exact Still.refl _ | with_reducible refine Still.ite ?_ ?_ | with_reducible refine Still.foldl ?_ ?_ | with_reducible refine Still.iteP ?_ ?_ | with_reducible refine Still.foldlP ?_ ?_ | (intro _; intros; try dsimp only) | with_reducible apply State.tapInstr_still | fail_if_no_progress with_reducible refine Still.upd ?_ | split

theorem execIdcode_still (s : State) : StillO s (execIdcode s) := by
  unfold execIdcode
  try dsimp only
  repeat' first | with_reducible assumption | with_reducible refine StillO.go ?_ | with_reducible refine StillO.ite ?_ ?_ | with_reducible exact Still.refl _ | with_reducible refine Still.ite ?_ ?_ | with_reducible refine Still.foldl ?_ ?_ | with_reducible refine Still.iteP ?_ ?_ | with_reducible refine Still.foldlP ?_ ?_ | (intro _; intros; try dsimp only) | with_reducible apply State.tapInstr_still | fail_if_no_progress with_reducible refine Still.upd ?_ | split

theorem execClamp_still (s : State) : StillO s (execClamp s) := by
  unfold execClamp
  try dsimp only
  repeat' first | with_reducible assumption | with_reducible refine StillO.go ?_ | with_reducible refine StillO.ite ?_ ?_ | with_reducible exact Still.refl _ | with_reducible refine Still.ite ?_ ?_ | with_reducible refine Still.foldl ?_ ?_ | with_reducible refine Still.iteP ?_ ?_ | with_reducible refine Still.foldlP ?_ ?_ | (intro _; intros; try dsimp only) | with_reducible apply State.tapInstr_still | fail_if_no_progress with_reducible refine Still.upd ?_ | split

theorem execHighz_still (s : State) : StillO s (execHighz s) := by
  unfold execHighz
  try dsimp only
  repeat' first | with_reducible assumption | with_reducible refine StillO.go ?_ | with_reducible refine StillO.ite ?_ ?_ | with_reducible exact Still.refl _ | with_reducible refine Still.ite ?_ ?_ | with_reducible refine Still.foldl ?_ ?_ | with_reducible refine Still.iteP ?_ ?_ | with_reducible refine Still.foldlP ?_ ?_ | (intro _; intros; try dsimp only) | with_reducible apply State.tapInstr_still | fail_if_no_progress with_reducible refine Still.upd ?_ | split

theorem execBypass_still (s : State) : StillO s (execBypass s) := by
  unfold execBypass
  try dsimp only
  repeat' first | with_reducible assumption | with_reducible refine StillO.go ?_ | with_reducible refine StillO.ite ?_ ?_ | with_reducible exact Still.refl _ | with_reducible refine Still.ite ?_ ?_ | with_reducible refine Still.foldl ?_ ?_ | with_reducible refine Still.iteP ?_ ?_ | with_reducible refine Still.foldlP ?_ ?_ | (intro _; intros; try dsimp only) | with_reducible apply State.tapInstr_still | fail_if_no_progress with_reducible refine Still.upd ?_ | split

end Sys2Proof.Machine
end

