-- ==== Sys2Proof/Laws/State.lean ====
section
/-!
SUPPORT. Sys2Proof/Laws/State.lean: each update of Machine/Ops.lean leaves every other field of the state as it is: one lemma for each
field and each update.
-/
namespace Sys2Proof.Machine.State

/-! ### setReg -/
section
variable (s : State) (a : Nat) (w : W32)
@[simp] theorem setReg_regs0 : (s.setReg a w).regs0 = s.regs0 := rfl
@[simp] theorem setReg_tasks0 : (s.setReg a w).tasks0 = s.tasks0 := rfl
@[simp] theorem setReg_mem : (s.setReg a w).mem = s.mem := rfl
@[simp] theorem setReg_ports : (s.setReg a w).ports = s.ports := rfl
@[simp] theorem setReg_tsb : (s.setReg a w).tsb = s.tsb := rfl
@[simp] theorem setReg_cells : (s.setReg a w).cells = s.cells := rfl
@[simp] theorem setReg_link : (s.setReg a w).link = s.link := rfl
@[simp] theorem setReg_linkB : (s.setReg a w).linkB = s.linkB := rfl
@[simp] theorem setReg_line1 : (s.setReg a w).line1 = s.line1 := rfl
@[simp] theorem setReg_line2 : (s.setReg a w).line2 = s.line2 := rfl
@[simp] theorem setReg_held : (s.setReg a w).held = s.held := rfl
@[simp] theorem setReg_leaves : (s.setReg a w).leaves = s.leaves := rfl
@[simp] theorem setReg_dec : (s.setReg a w).dec = s.dec := rfl
@[simp] theorem setReg_decPins : (s.setReg a w).decPins = s.decPins := rfl
@[simp] theorem setReg_sortWrites : (s.setReg a w).sortWrites = s.sortWrites := rfl
@[simp] theorem setReg_sorters : (s.setReg a w).sorters = s.sorters := rfl
@[simp] theorem setReg_merge : (s.setReg a w).merge = s.merge := rfl
@[simp] theorem setReg_lanes : (s.setReg a w).lanes = s.lanes := rfl
@[simp] theorem setReg_queues : (s.setReg a w).queues = s.queues := rfl
@[simp] theorem setReg_engines : (s.setReg a w).engines = s.engines := rfl
@[simp] theorem setReg_dpt : (s.setReg a w).dpt = s.dpt := rfl
@[simp] theorem setReg_readout : (s.setReg a w).readout = s.readout := rfl
@[simp] theorem setReg_drz : (s.setReg a w).drz = s.drz := rfl
@[simp] theorem setReg_net : (s.setReg a w).net = s.net := rfl
@[simp] theorem setReg_flash : (s.setReg a w).flash = s.flash := rfl
@[simp] theorem setReg_boot : (s.setReg a w).boot = s.boot := rfl
@[simp] theorem setReg_commits : (s.setReg a w).commits = s.commits := rfl
@[simp] theorem setReg_adm : (s.setReg a w).adm = s.adm := rfl
@[simp] theorem setReg_acc : (s.setReg a w).acc = s.acc := rfl
@[simp] theorem setReg_reloads : (s.setReg a w).reloads = s.reloads := rfl
@[simp] theorem setReg_sectorResets : (s.setReg a w).sectorResets = s.sectorResets := rfl
@[simp] theorem setReg_prot : (s.setReg a w).prot = s.prot := rfl
@[simp] theorem setReg_pwr : (s.setReg a w).pwr = s.pwr := rfl
@[simp] theorem setReg_fuses : (s.setReg a w).fuses = s.fuses := rfl
@[simp] theorem setReg_hlm : (s.setReg a w).hlm = s.hlm := rfl
@[simp] theorem setReg_mgt : (s.setReg a w).mgt = s.mgt := rfl
@[simp] theorem setReg_powered : (s.setReg a w).powered = s.powered := rfl
@[simp] theorem setReg_testMode : (s.setReg a w).testMode = s.testMode := rfl
@[simp] theorem setReg_vfuse : (s.setReg a w).vfuse = s.vfuse := rfl
@[simp] theorem setReg_free : (s.setReg a w).free = s.free := rfl
@[simp] theorem setReg_pending : (s.setReg a w).pending = s.pending := rfl
end

/-! ### setFld -/
section
variable (s : State) (a hi lo v : Nat)
@[simp] theorem setFld_regs0 : (s.setFld a hi lo v).regs0 = s.regs0 := rfl
@[simp] theorem setFld_tasks0 : (s.setFld a hi lo v).tasks0 = s.tasks0 := rfl
@[simp] theorem setFld_mem : (s.setFld a hi lo v).mem = s.mem := rfl
@[simp] theorem setFld_ports : (s.setFld a hi lo v).ports = s.ports := rfl
@[simp] theorem setFld_tsb : (s.setFld a hi lo v).tsb = s.tsb := rfl
@[simp] theorem setFld_cells : (s.setFld a hi lo v).cells = s.cells := rfl
@[simp] theorem setFld_link : (s.setFld a hi lo v).link = s.link := rfl
@[simp] theorem setFld_linkB : (s.setFld a hi lo v).linkB = s.linkB := rfl
@[simp] theorem setFld_line1 : (s.setFld a hi lo v).line1 = s.line1 := rfl
@[simp] theorem setFld_line2 : (s.setFld a hi lo v).line2 = s.line2 := rfl
@[simp] theorem setFld_held : (s.setFld a hi lo v).held = s.held := rfl
@[simp] theorem setFld_leaves : (s.setFld a hi lo v).leaves = s.leaves := rfl
@[simp] theorem setFld_dec : (s.setFld a hi lo v).dec = s.dec := rfl
@[simp] theorem setFld_decPins : (s.setFld a hi lo v).decPins = s.decPins := rfl
@[simp] theorem setFld_sortWrites : (s.setFld a hi lo v).sortWrites = s.sortWrites := rfl
@[simp] theorem setFld_sorters : (s.setFld a hi lo v).sorters = s.sorters := rfl
@[simp] theorem setFld_merge : (s.setFld a hi lo v).merge = s.merge := rfl
@[simp] theorem setFld_lanes : (s.setFld a hi lo v).lanes = s.lanes := rfl
@[simp] theorem setFld_queues : (s.setFld a hi lo v).queues = s.queues := rfl
@[simp] theorem setFld_engines : (s.setFld a hi lo v).engines = s.engines := rfl
@[simp] theorem setFld_dpt : (s.setFld a hi lo v).dpt = s.dpt := rfl
@[simp] theorem setFld_readout : (s.setFld a hi lo v).readout = s.readout := rfl
@[simp] theorem setFld_drz : (s.setFld a hi lo v).drz = s.drz := rfl
@[simp] theorem setFld_net : (s.setFld a hi lo v).net = s.net := rfl
@[simp] theorem setFld_flash : (s.setFld a hi lo v).flash = s.flash := rfl
@[simp] theorem setFld_boot : (s.setFld a hi lo v).boot = s.boot := rfl
@[simp] theorem setFld_commits : (s.setFld a hi lo v).commits = s.commits := rfl
@[simp] theorem setFld_adm : (s.setFld a hi lo v).adm = s.adm := rfl
@[simp] theorem setFld_acc : (s.setFld a hi lo v).acc = s.acc := rfl
@[simp] theorem setFld_reloads : (s.setFld a hi lo v).reloads = s.reloads := rfl
@[simp] theorem setFld_sectorResets : (s.setFld a hi lo v).sectorResets = s.sectorResets := rfl
@[simp] theorem setFld_prot : (s.setFld a hi lo v).prot = s.prot := rfl
@[simp] theorem setFld_pwr : (s.setFld a hi lo v).pwr = s.pwr := rfl
@[simp] theorem setFld_fuses : (s.setFld a hi lo v).fuses = s.fuses := rfl
@[simp] theorem setFld_hlm : (s.setFld a hi lo v).hlm = s.hlm := rfl
@[simp] theorem setFld_mgt : (s.setFld a hi lo v).mgt = s.mgt := rfl
@[simp] theorem setFld_powered : (s.setFld a hi lo v).powered = s.powered := rfl
@[simp] theorem setFld_testMode : (s.setFld a hi lo v).testMode = s.testMode := rfl
@[simp] theorem setFld_vfuse : (s.setFld a hi lo v).vfuse = s.vfuse := rfl
@[simp] theorem setFld_free : (s.setFld a hi lo v).free = s.free := rfl
@[simp] theorem setFld_pending : (s.setFld a hi lo v).pending = s.pending := rfl
end

/-! ### setBit -/
section
variable (s : State) (a i : Nat) (b : Bool)
@[simp] theorem setBit_regs0 : (s.setBit a i b).regs0 = s.regs0 := rfl
@[simp] theorem setBit_tasks0 : (s.setBit a i b).tasks0 = s.tasks0 := rfl
@[simp] theorem setBit_mem : (s.setBit a i b).mem = s.mem := rfl
@[simp] theorem setBit_ports : (s.setBit a i b).ports = s.ports := rfl
@[simp] theorem setBit_tsb : (s.setBit a i b).tsb = s.tsb := rfl
@[simp] theorem setBit_cells : (s.setBit a i b).cells = s.cells := rfl
@[simp] theorem setBit_link : (s.setBit a i b).link = s.link := rfl
@[simp] theorem setBit_linkB : (s.setBit a i b).linkB = s.linkB := rfl
@[simp] theorem setBit_line1 : (s.setBit a i b).line1 = s.line1 := rfl
@[simp] theorem setBit_line2 : (s.setBit a i b).line2 = s.line2 := rfl
@[simp] theorem setBit_held : (s.setBit a i b).held = s.held := rfl
@[simp] theorem setBit_leaves : (s.setBit a i b).leaves = s.leaves := rfl
@[simp] theorem setBit_dec : (s.setBit a i b).dec = s.dec := rfl
@[simp] theorem setBit_decPins : (s.setBit a i b).decPins = s.decPins := rfl
@[simp] theorem setBit_sortWrites : (s.setBit a i b).sortWrites = s.sortWrites := rfl
@[simp] theorem setBit_sorters : (s.setBit a i b).sorters = s.sorters := rfl
@[simp] theorem setBit_merge : (s.setBit a i b).merge = s.merge := rfl
@[simp] theorem setBit_lanes : (s.setBit a i b).lanes = s.lanes := rfl
@[simp] theorem setBit_queues : (s.setBit a i b).queues = s.queues := rfl
@[simp] theorem setBit_engines : (s.setBit a i b).engines = s.engines := rfl
@[simp] theorem setBit_dpt : (s.setBit a i b).dpt = s.dpt := rfl
@[simp] theorem setBit_readout : (s.setBit a i b).readout = s.readout := rfl
@[simp] theorem setBit_drz : (s.setBit a i b).drz = s.drz := rfl
@[simp] theorem setBit_net : (s.setBit a i b).net = s.net := rfl
@[simp] theorem setBit_flash : (s.setBit a i b).flash = s.flash := rfl
@[simp] theorem setBit_boot : (s.setBit a i b).boot = s.boot := rfl
@[simp] theorem setBit_commits : (s.setBit a i b).commits = s.commits := rfl
@[simp] theorem setBit_adm : (s.setBit a i b).adm = s.adm := rfl
@[simp] theorem setBit_acc : (s.setBit a i b).acc = s.acc := rfl
@[simp] theorem setBit_reloads : (s.setBit a i b).reloads = s.reloads := rfl
@[simp] theorem setBit_sectorResets : (s.setBit a i b).sectorResets = s.sectorResets := rfl
@[simp] theorem setBit_prot : (s.setBit a i b).prot = s.prot := rfl
@[simp] theorem setBit_pwr : (s.setBit a i b).pwr = s.pwr := rfl
@[simp] theorem setBit_fuses : (s.setBit a i b).fuses = s.fuses := rfl
@[simp] theorem setBit_hlm : (s.setBit a i b).hlm = s.hlm := rfl
@[simp] theorem setBit_mgt : (s.setBit a i b).mgt = s.mgt := rfl
@[simp] theorem setBit_powered : (s.setBit a i b).powered = s.powered := rfl
@[simp] theorem setBit_testMode : (s.setBit a i b).testMode = s.testMode := rfl
@[simp] theorem setBit_vfuse : (s.setBit a i b).vfuse = s.vfuse := rfl
@[simp] theorem setBit_free : (s.setBit a i b).free = s.free := rfl
@[simp] theorem setBit_pending : (s.setBit a i b).pending = s.pending := rfl
end

/-! ### count -/
section
variable (s : State) (a hi lo k : Nat)
@[simp] theorem count_regs0 : (s.count a hi lo k).regs0 = s.regs0 := rfl
@[simp] theorem count_tasks0 : (s.count a hi lo k).tasks0 = s.tasks0 := rfl
@[simp] theorem count_mem : (s.count a hi lo k).mem = s.mem := rfl
@[simp] theorem count_ports : (s.count a hi lo k).ports = s.ports := rfl
@[simp] theorem count_tsb : (s.count a hi lo k).tsb = s.tsb := rfl
@[simp] theorem count_cells : (s.count a hi lo k).cells = s.cells := rfl
@[simp] theorem count_link : (s.count a hi lo k).link = s.link := rfl
@[simp] theorem count_linkB : (s.count a hi lo k).linkB = s.linkB := rfl
@[simp] theorem count_line1 : (s.count a hi lo k).line1 = s.line1 := rfl
@[simp] theorem count_line2 : (s.count a hi lo k).line2 = s.line2 := rfl
@[simp] theorem count_held : (s.count a hi lo k).held = s.held := rfl
@[simp] theorem count_leaves : (s.count a hi lo k).leaves = s.leaves := rfl
@[simp] theorem count_dec : (s.count a hi lo k).dec = s.dec := rfl
@[simp] theorem count_decPins : (s.count a hi lo k).decPins = s.decPins := rfl
@[simp] theorem count_sortWrites : (s.count a hi lo k).sortWrites = s.sortWrites := rfl
@[simp] theorem count_sorters : (s.count a hi lo k).sorters = s.sorters := rfl
@[simp] theorem count_merge : (s.count a hi lo k).merge = s.merge := rfl
@[simp] theorem count_lanes : (s.count a hi lo k).lanes = s.lanes := rfl
@[simp] theorem count_queues : (s.count a hi lo k).queues = s.queues := rfl
@[simp] theorem count_engines : (s.count a hi lo k).engines = s.engines := rfl
@[simp] theorem count_dpt : (s.count a hi lo k).dpt = s.dpt := rfl
@[simp] theorem count_readout : (s.count a hi lo k).readout = s.readout := rfl
@[simp] theorem count_drz : (s.count a hi lo k).drz = s.drz := rfl
@[simp] theorem count_net : (s.count a hi lo k).net = s.net := rfl
@[simp] theorem count_flash : (s.count a hi lo k).flash = s.flash := rfl
@[simp] theorem count_boot : (s.count a hi lo k).boot = s.boot := rfl
@[simp] theorem count_commits : (s.count a hi lo k).commits = s.commits := rfl
@[simp] theorem count_adm : (s.count a hi lo k).adm = s.adm := rfl
@[simp] theorem count_acc : (s.count a hi lo k).acc = s.acc := rfl
@[simp] theorem count_reloads : (s.count a hi lo k).reloads = s.reloads := rfl
@[simp] theorem count_sectorResets : (s.count a hi lo k).sectorResets = s.sectorResets := rfl
@[simp] theorem count_prot : (s.count a hi lo k).prot = s.prot := rfl
@[simp] theorem count_pwr : (s.count a hi lo k).pwr = s.pwr := rfl
@[simp] theorem count_fuses : (s.count a hi lo k).fuses = s.fuses := rfl
@[simp] theorem count_hlm : (s.count a hi lo k).hlm = s.hlm := rfl
@[simp] theorem count_mgt : (s.count a hi lo k).mgt = s.mgt := rfl
@[simp] theorem count_powered : (s.count a hi lo k).powered = s.powered := rfl
@[simp] theorem count_testMode : (s.count a hi lo k).testMode = s.testMode := rfl
@[simp] theorem count_vfuse : (s.count a hi lo k).vfuse = s.vfuse := rfl
@[simp] theorem count_free : (s.count a hi lo k).free = s.free := rfl
@[simp] theorem count_pending : (s.count a hi lo k).pending = s.pending := rfl
end

/-! ### setByte -/
section
variable (s : State) (a : Nat) (b : Byte)
@[simp] theorem setByte_regs : (s.setByte a b).regs = s.regs := rfl
@[simp] theorem setByte_regs0 : (s.setByte a b).regs0 = s.regs0 := rfl
@[simp] theorem setByte_tasks0 : (s.setByte a b).tasks0 = s.tasks0 := rfl
@[simp] theorem setByte_ports : (s.setByte a b).ports = s.ports := rfl
@[simp] theorem setByte_tsb : (s.setByte a b).tsb = s.tsb := rfl
@[simp] theorem setByte_cells : (s.setByte a b).cells = s.cells := rfl
@[simp] theorem setByte_link : (s.setByte a b).link = s.link := rfl
@[simp] theorem setByte_linkB : (s.setByte a b).linkB = s.linkB := rfl
@[simp] theorem setByte_line1 : (s.setByte a b).line1 = s.line1 := rfl
@[simp] theorem setByte_line2 : (s.setByte a b).line2 = s.line2 := rfl
@[simp] theorem setByte_held : (s.setByte a b).held = s.held := rfl
@[simp] theorem setByte_leaves : (s.setByte a b).leaves = s.leaves := rfl
@[simp] theorem setByte_dec : (s.setByte a b).dec = s.dec := rfl
@[simp] theorem setByte_decPins : (s.setByte a b).decPins = s.decPins := rfl
@[simp] theorem setByte_sortWrites : (s.setByte a b).sortWrites = s.sortWrites := rfl
@[simp] theorem setByte_sorters : (s.setByte a b).sorters = s.sorters := rfl
@[simp] theorem setByte_merge : (s.setByte a b).merge = s.merge := rfl
@[simp] theorem setByte_lanes : (s.setByte a b).lanes = s.lanes := rfl
@[simp] theorem setByte_queues : (s.setByte a b).queues = s.queues := rfl
@[simp] theorem setByte_engines : (s.setByte a b).engines = s.engines := rfl
@[simp] theorem setByte_dpt : (s.setByte a b).dpt = s.dpt := rfl
@[simp] theorem setByte_readout : (s.setByte a b).readout = s.readout := rfl
@[simp] theorem setByte_drz : (s.setByte a b).drz = s.drz := rfl
@[simp] theorem setByte_net : (s.setByte a b).net = s.net := rfl
@[simp] theorem setByte_flash : (s.setByte a b).flash = s.flash := rfl
@[simp] theorem setByte_boot : (s.setByte a b).boot = s.boot := rfl
@[simp] theorem setByte_commits : (s.setByte a b).commits = s.commits := rfl
@[simp] theorem setByte_adm : (s.setByte a b).adm = s.adm := rfl
@[simp] theorem setByte_acc : (s.setByte a b).acc = s.acc := rfl
@[simp] theorem setByte_reloads : (s.setByte a b).reloads = s.reloads := rfl
@[simp] theorem setByte_sectorResets : (s.setByte a b).sectorResets = s.sectorResets := rfl
@[simp] theorem setByte_prot : (s.setByte a b).prot = s.prot := rfl
@[simp] theorem setByte_pwr : (s.setByte a b).pwr = s.pwr := rfl
@[simp] theorem setByte_fuses : (s.setByte a b).fuses = s.fuses := rfl
@[simp] theorem setByte_hlm : (s.setByte a b).hlm = s.hlm := rfl
@[simp] theorem setByte_mgt : (s.setByte a b).mgt = s.mgt := rfl
@[simp] theorem setByte_powered : (s.setByte a b).powered = s.powered := rfl
@[simp] theorem setByte_testMode : (s.setByte a b).testMode = s.testMode := rfl
@[simp] theorem setByte_vfuse : (s.setByte a b).vfuse = s.vfuse := rfl
@[simp] theorem setByte_free : (s.setByte a b).free = s.free := rfl
@[simp] theorem setByte_pending : (s.setByte a b).pending = s.pending := rfl
end

/-! ### setCell -/
section
variable (s : State) (c : Nat) (v : CellSt)
@[simp] theorem setCell_regs : (s.setCell c v).regs = s.regs := rfl
@[simp] theorem setCell_regs0 : (s.setCell c v).regs0 = s.regs0 := rfl
@[simp] theorem setCell_tasks0 : (s.setCell c v).tasks0 = s.tasks0 := rfl
@[simp] theorem setCell_mem : (s.setCell c v).mem = s.mem := rfl
@[simp] theorem setCell_ports : (s.setCell c v).ports = s.ports := rfl
@[simp] theorem setCell_tsb : (s.setCell c v).tsb = s.tsb := rfl
@[simp] theorem setCell_link : (s.setCell c v).link = s.link := rfl
@[simp] theorem setCell_linkB : (s.setCell c v).linkB = s.linkB := rfl
@[simp] theorem setCell_line1 : (s.setCell c v).line1 = s.line1 := rfl
@[simp] theorem setCell_line2 : (s.setCell c v).line2 = s.line2 := rfl
@[simp] theorem setCell_held : (s.setCell c v).held = s.held := rfl
@[simp] theorem setCell_leaves : (s.setCell c v).leaves = s.leaves := rfl
@[simp] theorem setCell_dec : (s.setCell c v).dec = s.dec := rfl
@[simp] theorem setCell_decPins : (s.setCell c v).decPins = s.decPins := rfl
@[simp] theorem setCell_sortWrites : (s.setCell c v).sortWrites = s.sortWrites := rfl
@[simp] theorem setCell_sorters : (s.setCell c v).sorters = s.sorters := rfl
@[simp] theorem setCell_merge : (s.setCell c v).merge = s.merge := rfl
@[simp] theorem setCell_lanes : (s.setCell c v).lanes = s.lanes := rfl
@[simp] theorem setCell_queues : (s.setCell c v).queues = s.queues := rfl
@[simp] theorem setCell_engines : (s.setCell c v).engines = s.engines := rfl
@[simp] theorem setCell_dpt : (s.setCell c v).dpt = s.dpt := rfl
@[simp] theorem setCell_readout : (s.setCell c v).readout = s.readout := rfl
@[simp] theorem setCell_drz : (s.setCell c v).drz = s.drz := rfl
@[simp] theorem setCell_net : (s.setCell c v).net = s.net := rfl
@[simp] theorem setCell_flash : (s.setCell c v).flash = s.flash := rfl
@[simp] theorem setCell_boot : (s.setCell c v).boot = s.boot := rfl
@[simp] theorem setCell_commits : (s.setCell c v).commits = s.commits := rfl
@[simp] theorem setCell_adm : (s.setCell c v).adm = s.adm := rfl
@[simp] theorem setCell_acc : (s.setCell c v).acc = s.acc := rfl
@[simp] theorem setCell_reloads : (s.setCell c v).reloads = s.reloads := rfl
@[simp] theorem setCell_sectorResets : (s.setCell c v).sectorResets = s.sectorResets := rfl
@[simp] theorem setCell_prot : (s.setCell c v).prot = s.prot := rfl
@[simp] theorem setCell_pwr : (s.setCell c v).pwr = s.pwr := rfl
@[simp] theorem setCell_fuses : (s.setCell c v).fuses = s.fuses := rfl
@[simp] theorem setCell_hlm : (s.setCell c v).hlm = s.hlm := rfl
@[simp] theorem setCell_mgt : (s.setCell c v).mgt = s.mgt := rfl
@[simp] theorem setCell_powered : (s.setCell c v).powered = s.powered := rfl
@[simp] theorem setCell_testMode : (s.setCell c v).testMode = s.testMode := rfl
@[simp] theorem setCell_vfuse : (s.setCell c v).vfuse = s.vfuse := rfl
@[simp] theorem setCell_free : (s.setCell c v).free = s.free := rfl
@[simp] theorem setCell_pending : (s.setCell c v).pending = s.pending := rfl
end

/-! ### setQueue -/
section
variable (s : State) (q : Nat) (v : Queue)
@[simp] theorem setQueue_regs : (s.setQueue q v).regs = s.regs := rfl
@[simp] theorem setQueue_regs0 : (s.setQueue q v).regs0 = s.regs0 := rfl
@[simp] theorem setQueue_tasks0 : (s.setQueue q v).tasks0 = s.tasks0 := rfl
@[simp] theorem setQueue_mem : (s.setQueue q v).mem = s.mem := rfl
@[simp] theorem setQueue_ports : (s.setQueue q v).ports = s.ports := rfl
@[simp] theorem setQueue_tsb : (s.setQueue q v).tsb = s.tsb := rfl
@[simp] theorem setQueue_cells : (s.setQueue q v).cells = s.cells := rfl
@[simp] theorem setQueue_link : (s.setQueue q v).link = s.link := rfl
@[simp] theorem setQueue_linkB : (s.setQueue q v).linkB = s.linkB := rfl
@[simp] theorem setQueue_line1 : (s.setQueue q v).line1 = s.line1 := rfl
@[simp] theorem setQueue_line2 : (s.setQueue q v).line2 = s.line2 := rfl
@[simp] theorem setQueue_held : (s.setQueue q v).held = s.held := rfl
@[simp] theorem setQueue_leaves : (s.setQueue q v).leaves = s.leaves := rfl
@[simp] theorem setQueue_dec : (s.setQueue q v).dec = s.dec := rfl
@[simp] theorem setQueue_decPins : (s.setQueue q v).decPins = s.decPins := rfl
@[simp] theorem setQueue_sortWrites : (s.setQueue q v).sortWrites = s.sortWrites := rfl
@[simp] theorem setQueue_sorters : (s.setQueue q v).sorters = s.sorters := rfl
@[simp] theorem setQueue_merge : (s.setQueue q v).merge = s.merge := rfl
@[simp] theorem setQueue_lanes : (s.setQueue q v).lanes = s.lanes := rfl
@[simp] theorem setQueue_engines : (s.setQueue q v).engines = s.engines := rfl
@[simp] theorem setQueue_dpt : (s.setQueue q v).dpt = s.dpt := rfl
@[simp] theorem setQueue_readout : (s.setQueue q v).readout = s.readout := rfl
@[simp] theorem setQueue_drz : (s.setQueue q v).drz = s.drz := rfl
@[simp] theorem setQueue_net : (s.setQueue q v).net = s.net := rfl
@[simp] theorem setQueue_flash : (s.setQueue q v).flash = s.flash := rfl
@[simp] theorem setQueue_boot : (s.setQueue q v).boot = s.boot := rfl
@[simp] theorem setQueue_commits : (s.setQueue q v).commits = s.commits := rfl
@[simp] theorem setQueue_adm : (s.setQueue q v).adm = s.adm := rfl
@[simp] theorem setQueue_acc : (s.setQueue q v).acc = s.acc := rfl
@[simp] theorem setQueue_reloads : (s.setQueue q v).reloads = s.reloads := rfl
@[simp] theorem setQueue_sectorResets : (s.setQueue q v).sectorResets = s.sectorResets := rfl
@[simp] theorem setQueue_prot : (s.setQueue q v).prot = s.prot := rfl
@[simp] theorem setQueue_pwr : (s.setQueue q v).pwr = s.pwr := rfl
@[simp] theorem setQueue_fuses : (s.setQueue q v).fuses = s.fuses := rfl
@[simp] theorem setQueue_hlm : (s.setQueue q v).hlm = s.hlm := rfl
@[simp] theorem setQueue_mgt : (s.setQueue q v).mgt = s.mgt := rfl
@[simp] theorem setQueue_powered : (s.setQueue q v).powered = s.powered := rfl
@[simp] theorem setQueue_testMode : (s.setQueue q v).testMode = s.testMode := rfl
@[simp] theorem setQueue_vfuse : (s.setQueue q v).vfuse = s.vfuse := rfl
@[simp] theorem setQueue_free : (s.setQueue q v).free = s.free := rfl
@[simp] theorem setQueue_pending : (s.setQueue q v).pending = s.pending := rfl
end

/-! ### setEng -/
section
variable (s : State) (p : Nat) (v : EngSt)
@[simp] theorem setEng_regs : (s.setEng p v).regs = s.regs := rfl
@[simp] theorem setEng_regs0 : (s.setEng p v).regs0 = s.regs0 := rfl
@[simp] theorem setEng_tasks0 : (s.setEng p v).tasks0 = s.tasks0 := rfl
@[simp] theorem setEng_mem : (s.setEng p v).mem = s.mem := rfl
@[simp] theorem setEng_ports : (s.setEng p v).ports = s.ports := rfl
@[simp] theorem setEng_tsb : (s.setEng p v).tsb = s.tsb := rfl
@[simp] theorem setEng_cells : (s.setEng p v).cells = s.cells := rfl
@[simp] theorem setEng_link : (s.setEng p v).link = s.link := rfl
@[simp] theorem setEng_linkB : (s.setEng p v).linkB = s.linkB := rfl
@[simp] theorem setEng_line1 : (s.setEng p v).line1 = s.line1 := rfl
@[simp] theorem setEng_line2 : (s.setEng p v).line2 = s.line2 := rfl
@[simp] theorem setEng_held : (s.setEng p v).held = s.held := rfl
@[simp] theorem setEng_leaves : (s.setEng p v).leaves = s.leaves := rfl
@[simp] theorem setEng_dec : (s.setEng p v).dec = s.dec := rfl
@[simp] theorem setEng_decPins : (s.setEng p v).decPins = s.decPins := rfl
@[simp] theorem setEng_sortWrites : (s.setEng p v).sortWrites = s.sortWrites := rfl
@[simp] theorem setEng_sorters : (s.setEng p v).sorters = s.sorters := rfl
@[simp] theorem setEng_merge : (s.setEng p v).merge = s.merge := rfl
@[simp] theorem setEng_lanes : (s.setEng p v).lanes = s.lanes := rfl
@[simp] theorem setEng_queues : (s.setEng p v).queues = s.queues := rfl
@[simp] theorem setEng_dpt : (s.setEng p v).dpt = s.dpt := rfl
@[simp] theorem setEng_readout : (s.setEng p v).readout = s.readout := rfl
@[simp] theorem setEng_drz : (s.setEng p v).drz = s.drz := rfl
@[simp] theorem setEng_net : (s.setEng p v).net = s.net := rfl
@[simp] theorem setEng_flash : (s.setEng p v).flash = s.flash := rfl
@[simp] theorem setEng_boot : (s.setEng p v).boot = s.boot := rfl
@[simp] theorem setEng_commits : (s.setEng p v).commits = s.commits := rfl
@[simp] theorem setEng_adm : (s.setEng p v).adm = s.adm := rfl
@[simp] theorem setEng_acc : (s.setEng p v).acc = s.acc := rfl
@[simp] theorem setEng_reloads : (s.setEng p v).reloads = s.reloads := rfl
@[simp] theorem setEng_sectorResets : (s.setEng p v).sectorResets = s.sectorResets := rfl
@[simp] theorem setEng_prot : (s.setEng p v).prot = s.prot := rfl
@[simp] theorem setEng_pwr : (s.setEng p v).pwr = s.pwr := rfl
@[simp] theorem setEng_fuses : (s.setEng p v).fuses = s.fuses := rfl
@[simp] theorem setEng_hlm : (s.setEng p v).hlm = s.hlm := rfl
@[simp] theorem setEng_mgt : (s.setEng p v).mgt = s.mgt := rfl
@[simp] theorem setEng_powered : (s.setEng p v).powered = s.powered := rfl
@[simp] theorem setEng_testMode : (s.setEng p v).testMode = s.testMode := rfl
@[simp] theorem setEng_vfuse : (s.setEng p v).vfuse = s.vfuse := rfl
@[simp] theorem setEng_free : (s.setEng p v).free = s.free := rfl
@[simp] theorem setEng_pending : (s.setEng p v).pending = s.pending := rfl
end

/-! ### setSorter -/
section
variable (s : State) (k : Nat) (v : Sorter)
@[simp] theorem setSorter_regs : (s.setSorter k v).regs = s.regs := rfl
@[simp] theorem setSorter_regs0 : (s.setSorter k v).regs0 = s.regs0 := rfl
@[simp] theorem setSorter_tasks0 : (s.setSorter k v).tasks0 = s.tasks0 := rfl
@[simp] theorem setSorter_mem : (s.setSorter k v).mem = s.mem := rfl
@[simp] theorem setSorter_ports : (s.setSorter k v).ports = s.ports := rfl
@[simp] theorem setSorter_tsb : (s.setSorter k v).tsb = s.tsb := rfl
@[simp] theorem setSorter_cells : (s.setSorter k v).cells = s.cells := rfl
@[simp] theorem setSorter_link : (s.setSorter k v).link = s.link := rfl
@[simp] theorem setSorter_linkB : (s.setSorter k v).linkB = s.linkB := rfl
@[simp] theorem setSorter_line1 : (s.setSorter k v).line1 = s.line1 := rfl
@[simp] theorem setSorter_line2 : (s.setSorter k v).line2 = s.line2 := rfl
@[simp] theorem setSorter_held : (s.setSorter k v).held = s.held := rfl
@[simp] theorem setSorter_leaves : (s.setSorter k v).leaves = s.leaves := rfl
@[simp] theorem setSorter_dec : (s.setSorter k v).dec = s.dec := rfl
@[simp] theorem setSorter_decPins : (s.setSorter k v).decPins = s.decPins := rfl
@[simp] theorem setSorter_sortWrites : (s.setSorter k v).sortWrites = s.sortWrites := rfl
@[simp] theorem setSorter_merge : (s.setSorter k v).merge = s.merge := rfl
@[simp] theorem setSorter_lanes : (s.setSorter k v).lanes = s.lanes := rfl
@[simp] theorem setSorter_queues : (s.setSorter k v).queues = s.queues := rfl
@[simp] theorem setSorter_engines : (s.setSorter k v).engines = s.engines := rfl
@[simp] theorem setSorter_dpt : (s.setSorter k v).dpt = s.dpt := rfl
@[simp] theorem setSorter_readout : (s.setSorter k v).readout = s.readout := rfl
@[simp] theorem setSorter_drz : (s.setSorter k v).drz = s.drz := rfl
@[simp] theorem setSorter_net : (s.setSorter k v).net = s.net := rfl
@[simp] theorem setSorter_flash : (s.setSorter k v).flash = s.flash := rfl
@[simp] theorem setSorter_boot : (s.setSorter k v).boot = s.boot := rfl
@[simp] theorem setSorter_commits : (s.setSorter k v).commits = s.commits := rfl
@[simp] theorem setSorter_adm : (s.setSorter k v).adm = s.adm := rfl
@[simp] theorem setSorter_acc : (s.setSorter k v).acc = s.acc := rfl
@[simp] theorem setSorter_reloads : (s.setSorter k v).reloads = s.reloads := rfl
@[simp] theorem setSorter_sectorResets : (s.setSorter k v).sectorResets = s.sectorResets := rfl
@[simp] theorem setSorter_prot : (s.setSorter k v).prot = s.prot := rfl
@[simp] theorem setSorter_pwr : (s.setSorter k v).pwr = s.pwr := rfl
@[simp] theorem setSorter_fuses : (s.setSorter k v).fuses = s.fuses := rfl
@[simp] theorem setSorter_hlm : (s.setSorter k v).hlm = s.hlm := rfl
@[simp] theorem setSorter_mgt : (s.setSorter k v).mgt = s.mgt := rfl
@[simp] theorem setSorter_powered : (s.setSorter k v).powered = s.powered := rfl
@[simp] theorem setSorter_testMode : (s.setSorter k v).testMode = s.testMode := rfl
@[simp] theorem setSorter_vfuse : (s.setSorter k v).vfuse = s.vfuse := rfl
@[simp] theorem setSorter_free : (s.setSorter k v).free = s.free := rfl
@[simp] theorem setSorter_pending : (s.setSorter k v).pending = s.pending := rfl
end

/-! ### setRo -/
section
variable (s : State) (k : Nat) (v : Readout)
@[simp] theorem setRo_regs : (s.setRo k v).regs = s.regs := rfl
@[simp] theorem setRo_regs0 : (s.setRo k v).regs0 = s.regs0 := rfl
@[simp] theorem setRo_tasks0 : (s.setRo k v).tasks0 = s.tasks0 := rfl
@[simp] theorem setRo_mem : (s.setRo k v).mem = s.mem := rfl
@[simp] theorem setRo_ports : (s.setRo k v).ports = s.ports := rfl
@[simp] theorem setRo_tsb : (s.setRo k v).tsb = s.tsb := rfl
@[simp] theorem setRo_cells : (s.setRo k v).cells = s.cells := rfl
@[simp] theorem setRo_link : (s.setRo k v).link = s.link := rfl
@[simp] theorem setRo_linkB : (s.setRo k v).linkB = s.linkB := rfl
@[simp] theorem setRo_line1 : (s.setRo k v).line1 = s.line1 := rfl
@[simp] theorem setRo_line2 : (s.setRo k v).line2 = s.line2 := rfl
@[simp] theorem setRo_held : (s.setRo k v).held = s.held := rfl
@[simp] theorem setRo_leaves : (s.setRo k v).leaves = s.leaves := rfl
@[simp] theorem setRo_dec : (s.setRo k v).dec = s.dec := rfl
@[simp] theorem setRo_decPins : (s.setRo k v).decPins = s.decPins := rfl
@[simp] theorem setRo_sortWrites : (s.setRo k v).sortWrites = s.sortWrites := rfl
@[simp] theorem setRo_sorters : (s.setRo k v).sorters = s.sorters := rfl
@[simp] theorem setRo_merge : (s.setRo k v).merge = s.merge := rfl
@[simp] theorem setRo_lanes : (s.setRo k v).lanes = s.lanes := rfl
@[simp] theorem setRo_queues : (s.setRo k v).queues = s.queues := rfl
@[simp] theorem setRo_engines : (s.setRo k v).engines = s.engines := rfl
@[simp] theorem setRo_dpt : (s.setRo k v).dpt = s.dpt := rfl
@[simp] theorem setRo_drz : (s.setRo k v).drz = s.drz := rfl
@[simp] theorem setRo_net : (s.setRo k v).net = s.net := rfl
@[simp] theorem setRo_flash : (s.setRo k v).flash = s.flash := rfl
@[simp] theorem setRo_boot : (s.setRo k v).boot = s.boot := rfl
@[simp] theorem setRo_commits : (s.setRo k v).commits = s.commits := rfl
@[simp] theorem setRo_adm : (s.setRo k v).adm = s.adm := rfl
@[simp] theorem setRo_acc : (s.setRo k v).acc = s.acc := rfl
@[simp] theorem setRo_reloads : (s.setRo k v).reloads = s.reloads := rfl
@[simp] theorem setRo_sectorResets : (s.setRo k v).sectorResets = s.sectorResets := rfl
@[simp] theorem setRo_prot : (s.setRo k v).prot = s.prot := rfl
@[simp] theorem setRo_pwr : (s.setRo k v).pwr = s.pwr := rfl
@[simp] theorem setRo_fuses : (s.setRo k v).fuses = s.fuses := rfl
@[simp] theorem setRo_hlm : (s.setRo k v).hlm = s.hlm := rfl
@[simp] theorem setRo_mgt : (s.setRo k v).mgt = s.mgt := rfl
@[simp] theorem setRo_powered : (s.setRo k v).powered = s.powered := rfl
@[simp] theorem setRo_testMode : (s.setRo k v).testMode = s.testMode := rfl
@[simp] theorem setRo_vfuse : (s.setRo k v).vfuse = s.vfuse := rfl
@[simp] theorem setRo_free : (s.setRo k v).free = s.free := rfl
@[simp] theorem setRo_pending : (s.setRo k v).pending = s.pending := rfl
end

/-! ### setDrz -/
section
variable (s : State) (d : Nat) (v : Drz)
@[simp] theorem setDrz_regs : (s.setDrz d v).regs = s.regs := rfl
@[simp] theorem setDrz_regs0 : (s.setDrz d v).regs0 = s.regs0 := rfl
@[simp] theorem setDrz_tasks0 : (s.setDrz d v).tasks0 = s.tasks0 := rfl
@[simp] theorem setDrz_mem : (s.setDrz d v).mem = s.mem := rfl
@[simp] theorem setDrz_ports : (s.setDrz d v).ports = s.ports := rfl
@[simp] theorem setDrz_tsb : (s.setDrz d v).tsb = s.tsb := rfl
@[simp] theorem setDrz_cells : (s.setDrz d v).cells = s.cells := rfl
@[simp] theorem setDrz_link : (s.setDrz d v).link = s.link := rfl
@[simp] theorem setDrz_linkB : (s.setDrz d v).linkB = s.linkB := rfl
@[simp] theorem setDrz_line1 : (s.setDrz d v).line1 = s.line1 := rfl
@[simp] theorem setDrz_line2 : (s.setDrz d v).line2 = s.line2 := rfl
@[simp] theorem setDrz_held : (s.setDrz d v).held = s.held := rfl
@[simp] theorem setDrz_leaves : (s.setDrz d v).leaves = s.leaves := rfl
@[simp] theorem setDrz_dec : (s.setDrz d v).dec = s.dec := rfl
@[simp] theorem setDrz_decPins : (s.setDrz d v).decPins = s.decPins := rfl
@[simp] theorem setDrz_sortWrites : (s.setDrz d v).sortWrites = s.sortWrites := rfl
@[simp] theorem setDrz_sorters : (s.setDrz d v).sorters = s.sorters := rfl
@[simp] theorem setDrz_merge : (s.setDrz d v).merge = s.merge := rfl
@[simp] theorem setDrz_lanes : (s.setDrz d v).lanes = s.lanes := rfl
@[simp] theorem setDrz_queues : (s.setDrz d v).queues = s.queues := rfl
@[simp] theorem setDrz_engines : (s.setDrz d v).engines = s.engines := rfl
@[simp] theorem setDrz_dpt : (s.setDrz d v).dpt = s.dpt := rfl
@[simp] theorem setDrz_readout : (s.setDrz d v).readout = s.readout := rfl
@[simp] theorem setDrz_net : (s.setDrz d v).net = s.net := rfl
@[simp] theorem setDrz_flash : (s.setDrz d v).flash = s.flash := rfl
@[simp] theorem setDrz_boot : (s.setDrz d v).boot = s.boot := rfl
@[simp] theorem setDrz_commits : (s.setDrz d v).commits = s.commits := rfl
@[simp] theorem setDrz_adm : (s.setDrz d v).adm = s.adm := rfl
@[simp] theorem setDrz_acc : (s.setDrz d v).acc = s.acc := rfl
@[simp] theorem setDrz_reloads : (s.setDrz d v).reloads = s.reloads := rfl
@[simp] theorem setDrz_sectorResets : (s.setDrz d v).sectorResets = s.sectorResets := rfl
@[simp] theorem setDrz_prot : (s.setDrz d v).prot = s.prot := rfl
@[simp] theorem setDrz_pwr : (s.setDrz d v).pwr = s.pwr := rfl
@[simp] theorem setDrz_fuses : (s.setDrz d v).fuses = s.fuses := rfl
@[simp] theorem setDrz_hlm : (s.setDrz d v).hlm = s.hlm := rfl
@[simp] theorem setDrz_mgt : (s.setDrz d v).mgt = s.mgt := rfl
@[simp] theorem setDrz_powered : (s.setDrz d v).powered = s.powered := rfl
@[simp] theorem setDrz_testMode : (s.setDrz d v).testMode = s.testMode := rfl
@[simp] theorem setDrz_vfuse : (s.setDrz d v).vfuse = s.vfuse := rfl
@[simp] theorem setDrz_free : (s.setDrz d v).free = s.free := rfl
@[simp] theorem setDrz_pending : (s.setDrz d v).pending = s.pending := rfl
end

/-! ### setLane -/
section
variable (s : State) (l : Nat) (v : LaneSt)
@[simp] theorem setLane_regs : (s.setLane l v).regs = s.regs := rfl
@[simp] theorem setLane_regs0 : (s.setLane l v).regs0 = s.regs0 := rfl
@[simp] theorem setLane_tasks0 : (s.setLane l v).tasks0 = s.tasks0 := rfl
@[simp] theorem setLane_mem : (s.setLane l v).mem = s.mem := rfl
@[simp] theorem setLane_ports : (s.setLane l v).ports = s.ports := rfl
@[simp] theorem setLane_tsb : (s.setLane l v).tsb = s.tsb := rfl
@[simp] theorem setLane_cells : (s.setLane l v).cells = s.cells := rfl
@[simp] theorem setLane_link : (s.setLane l v).link = s.link := rfl
@[simp] theorem setLane_linkB : (s.setLane l v).linkB = s.linkB := rfl
@[simp] theorem setLane_line1 : (s.setLane l v).line1 = s.line1 := rfl
@[simp] theorem setLane_line2 : (s.setLane l v).line2 = s.line2 := rfl
@[simp] theorem setLane_held : (s.setLane l v).held = s.held := rfl
@[simp] theorem setLane_leaves : (s.setLane l v).leaves = s.leaves := rfl
@[simp] theorem setLane_dec : (s.setLane l v).dec = s.dec := rfl
@[simp] theorem setLane_decPins : (s.setLane l v).decPins = s.decPins := rfl
@[simp] theorem setLane_sortWrites : (s.setLane l v).sortWrites = s.sortWrites := rfl
@[simp] theorem setLane_sorters : (s.setLane l v).sorters = s.sorters := rfl
@[simp] theorem setLane_merge : (s.setLane l v).merge = s.merge := rfl
@[simp] theorem setLane_queues : (s.setLane l v).queues = s.queues := rfl
@[simp] theorem setLane_engines : (s.setLane l v).engines = s.engines := rfl
@[simp] theorem setLane_dpt : (s.setLane l v).dpt = s.dpt := rfl
@[simp] theorem setLane_readout : (s.setLane l v).readout = s.readout := rfl
@[simp] theorem setLane_drz : (s.setLane l v).drz = s.drz := rfl
@[simp] theorem setLane_net : (s.setLane l v).net = s.net := rfl
@[simp] theorem setLane_flash : (s.setLane l v).flash = s.flash := rfl
@[simp] theorem setLane_boot : (s.setLane l v).boot = s.boot := rfl
@[simp] theorem setLane_commits : (s.setLane l v).commits = s.commits := rfl
@[simp] theorem setLane_adm : (s.setLane l v).adm = s.adm := rfl
@[simp] theorem setLane_acc : (s.setLane l v).acc = s.acc := rfl
@[simp] theorem setLane_reloads : (s.setLane l v).reloads = s.reloads := rfl
@[simp] theorem setLane_sectorResets : (s.setLane l v).sectorResets = s.sectorResets := rfl
@[simp] theorem setLane_prot : (s.setLane l v).prot = s.prot := rfl
@[simp] theorem setLane_pwr : (s.setLane l v).pwr = s.pwr := rfl
@[simp] theorem setLane_fuses : (s.setLane l v).fuses = s.fuses := rfl
@[simp] theorem setLane_hlm : (s.setLane l v).hlm = s.hlm := rfl
@[simp] theorem setLane_mgt : (s.setLane l v).mgt = s.mgt := rfl
@[simp] theorem setLane_powered : (s.setLane l v).powered = s.powered := rfl
@[simp] theorem setLane_testMode : (s.setLane l v).testMode = s.testMode := rfl
@[simp] theorem setLane_vfuse : (s.setLane l v).vfuse = s.vfuse := rfl
@[simp] theorem setLane_free : (s.setLane l v).free = s.free := rfl
@[simp] theorem setLane_pending : (s.setLane l v).pending = s.pending := rfl
end

/-! ### setTask -/
section
variable (s : State) (t : Nat) (v : TaskSt)
@[simp] theorem setTask_regs : (s.setTask t v).regs = s.regs := rfl
@[simp] theorem setTask_regs0 : (s.setTask t v).regs0 = s.regs0 := rfl
@[simp] theorem setTask_tasks0 : (s.setTask t v).tasks0 = s.tasks0 := rfl
@[simp] theorem setTask_mem : (s.setTask t v).mem = s.mem := rfl
@[simp] theorem setTask_ports : (s.setTask t v).ports = s.ports := rfl
@[simp] theorem setTask_tsb : (s.setTask t v).tsb = s.tsb := rfl
@[simp] theorem setTask_cells : (s.setTask t v).cells = s.cells := rfl
@[simp] theorem setTask_link : (s.setTask t v).link = s.link := rfl
@[simp] theorem setTask_linkB : (s.setTask t v).linkB = s.linkB := rfl
@[simp] theorem setTask_line1 : (s.setTask t v).line1 = s.line1 := rfl
@[simp] theorem setTask_line2 : (s.setTask t v).line2 = s.line2 := rfl
@[simp] theorem setTask_held : (s.setTask t v).held = s.held := rfl
@[simp] theorem setTask_leaves : (s.setTask t v).leaves = s.leaves := rfl
@[simp] theorem setTask_dec : (s.setTask t v).dec = s.dec := rfl
@[simp] theorem setTask_decPins : (s.setTask t v).decPins = s.decPins := rfl
@[simp] theorem setTask_sortWrites : (s.setTask t v).sortWrites = s.sortWrites := rfl
@[simp] theorem setTask_sorters : (s.setTask t v).sorters = s.sorters := rfl
@[simp] theorem setTask_merge : (s.setTask t v).merge = s.merge := rfl
@[simp] theorem setTask_lanes : (s.setTask t v).lanes = s.lanes := rfl
@[simp] theorem setTask_queues : (s.setTask t v).queues = s.queues := rfl
@[simp] theorem setTask_engines : (s.setTask t v).engines = s.engines := rfl
@[simp] theorem setTask_readout : (s.setTask t v).readout = s.readout := rfl
@[simp] theorem setTask_drz : (s.setTask t v).drz = s.drz := rfl
@[simp] theorem setTask_net : (s.setTask t v).net = s.net := rfl
@[simp] theorem setTask_flash : (s.setTask t v).flash = s.flash := rfl
@[simp] theorem setTask_boot : (s.setTask t v).boot = s.boot := rfl
@[simp] theorem setTask_commits : (s.setTask t v).commits = s.commits := rfl
@[simp] theorem setTask_adm : (s.setTask t v).adm = s.adm := rfl
@[simp] theorem setTask_acc : (s.setTask t v).acc = s.acc := rfl
@[simp] theorem setTask_reloads : (s.setTask t v).reloads = s.reloads := rfl
@[simp] theorem setTask_sectorResets : (s.setTask t v).sectorResets = s.sectorResets := rfl
@[simp] theorem setTask_prot : (s.setTask t v).prot = s.prot := rfl
@[simp] theorem setTask_pwr : (s.setTask t v).pwr = s.pwr := rfl
@[simp] theorem setTask_fuses : (s.setTask t v).fuses = s.fuses := rfl
@[simp] theorem setTask_hlm : (s.setTask t v).hlm = s.hlm := rfl
@[simp] theorem setTask_mgt : (s.setTask t v).mgt = s.mgt := rfl
@[simp] theorem setTask_powered : (s.setTask t v).powered = s.powered := rfl
@[simp] theorem setTask_testMode : (s.setTask t v).testMode = s.testMode := rfl
@[simp] theorem setTask_vfuse : (s.setTask t v).vfuse = s.vfuse := rfl
@[simp] theorem setTask_free : (s.setTask t v).free = s.free := rfl
@[simp] theorem setTask_pending : (s.setTask t v).pending = s.pending := rfl
@[simp] theorem setTask_dpt_eng : (s.setTask t v).dpt.eng = s.dpt.eng := rfl
@[simp] theorem setTask_dpt_msgs : (s.setTask t v).dpt.msgs = s.dpt.msgs := rfl
@[simp] theorem setTask_dpt_posts : (s.setTask t v).dpt.posts = s.dpt.posts := rfl
@[simp] theorem setTask_dpt_responses : (s.setTask t v).dpt.responses = s.dpt.responses := rfl
@[simp] theorem setTask_dpt_dirty : (s.setTask t v).dpt.dirty = s.dpt.dirty := rfl
@[simp] theorem setTask_dpt_fresh : (s.setTask t v).dpt.fresh = s.dpt.fresh := rfl
@[simp] theorem setTask_dpt_cycle : (s.setTask t v).dpt.cycle = s.dpt.cycle := rfl
@[simp] theorem setTask_dpt_reloaded : (s.setTask t v).dpt.reloaded = s.dpt.reloaded := rfl
@[simp] theorem setTask_dpt_slg : (s.setTask t v).dpt.slg = s.dpt.slg := rfl
@[simp] theorem setTask_dpt_slgLost : (s.setTask t v).dpt.slgLost = s.dpt.slgLost := rfl
@[simp] theorem setTask_dpt_slgTime : (s.setTask t v).dpt.slgTime = s.dpt.slgTime := rfl
end

/-! ### setEngDpt -/
section
variable (s : State) (p : Nat) (v : EngDpt)
@[simp] theorem setEngDpt_regs : (s.setEngDpt p v).regs = s.regs := rfl
@[simp] theorem setEngDpt_regs0 : (s.setEngDpt p v).regs0 = s.regs0 := rfl
@[simp] theorem setEngDpt_tasks0 : (s.setEngDpt p v).tasks0 = s.tasks0 := rfl
@[simp] theorem setEngDpt_mem : (s.setEngDpt p v).mem = s.mem := rfl
@[simp] theorem setEngDpt_ports : (s.setEngDpt p v).ports = s.ports := rfl
@[simp] theorem setEngDpt_tsb : (s.setEngDpt p v).tsb = s.tsb := rfl
@[simp] theorem setEngDpt_cells : (s.setEngDpt p v).cells = s.cells := rfl
@[simp] theorem setEngDpt_link : (s.setEngDpt p v).link = s.link := rfl
@[simp] theorem setEngDpt_linkB : (s.setEngDpt p v).linkB = s.linkB := rfl
@[simp] theorem setEngDpt_line1 : (s.setEngDpt p v).line1 = s.line1 := rfl
@[simp] theorem setEngDpt_line2 : (s.setEngDpt p v).line2 = s.line2 := rfl
@[simp] theorem setEngDpt_held : (s.setEngDpt p v).held = s.held := rfl
@[simp] theorem setEngDpt_leaves : (s.setEngDpt p v).leaves = s.leaves := rfl
@[simp] theorem setEngDpt_dec : (s.setEngDpt p v).dec = s.dec := rfl
@[simp] theorem setEngDpt_decPins : (s.setEngDpt p v).decPins = s.decPins := rfl
@[simp] theorem setEngDpt_sortWrites : (s.setEngDpt p v).sortWrites = s.sortWrites := rfl
@[simp] theorem setEngDpt_sorters : (s.setEngDpt p v).sorters = s.sorters := rfl
@[simp] theorem setEngDpt_merge : (s.setEngDpt p v).merge = s.merge := rfl
@[simp] theorem setEngDpt_lanes : (s.setEngDpt p v).lanes = s.lanes := rfl
@[simp] theorem setEngDpt_queues : (s.setEngDpt p v).queues = s.queues := rfl
@[simp] theorem setEngDpt_engines : (s.setEngDpt p v).engines = s.engines := rfl
@[simp] theorem setEngDpt_readout : (s.setEngDpt p v).readout = s.readout := rfl
@[simp] theorem setEngDpt_drz : (s.setEngDpt p v).drz = s.drz := rfl
@[simp] theorem setEngDpt_net : (s.setEngDpt p v).net = s.net := rfl
@[simp] theorem setEngDpt_flash : (s.setEngDpt p v).flash = s.flash := rfl
@[simp] theorem setEngDpt_boot : (s.setEngDpt p v).boot = s.boot := rfl
@[simp] theorem setEngDpt_commits : (s.setEngDpt p v).commits = s.commits := rfl
@[simp] theorem setEngDpt_adm : (s.setEngDpt p v).adm = s.adm := rfl
@[simp] theorem setEngDpt_acc : (s.setEngDpt p v).acc = s.acc := rfl
@[simp] theorem setEngDpt_reloads : (s.setEngDpt p v).reloads = s.reloads := rfl
@[simp] theorem setEngDpt_sectorResets : (s.setEngDpt p v).sectorResets = s.sectorResets := rfl
@[simp] theorem setEngDpt_prot : (s.setEngDpt p v).prot = s.prot := rfl
@[simp] theorem setEngDpt_pwr : (s.setEngDpt p v).pwr = s.pwr := rfl
@[simp] theorem setEngDpt_fuses : (s.setEngDpt p v).fuses = s.fuses := rfl
@[simp] theorem setEngDpt_hlm : (s.setEngDpt p v).hlm = s.hlm := rfl
@[simp] theorem setEngDpt_mgt : (s.setEngDpt p v).mgt = s.mgt := rfl
@[simp] theorem setEngDpt_powered : (s.setEngDpt p v).powered = s.powered := rfl
@[simp] theorem setEngDpt_testMode : (s.setEngDpt p v).testMode = s.testMode := rfl
@[simp] theorem setEngDpt_vfuse : (s.setEngDpt p v).vfuse = s.vfuse := rfl
@[simp] theorem setEngDpt_free : (s.setEngDpt p v).free = s.free := rfl
@[simp] theorem setEngDpt_pending : (s.setEngDpt p v).pending = s.pending := rfl
@[simp] theorem setEngDpt_dpt_tasks : (s.setEngDpt p v).dpt.tasks = s.dpt.tasks := rfl
@[simp] theorem setEngDpt_dpt_msgs : (s.setEngDpt p v).dpt.msgs = s.dpt.msgs := rfl
@[simp] theorem setEngDpt_dpt_posts : (s.setEngDpt p v).dpt.posts = s.dpt.posts := rfl
@[simp] theorem setEngDpt_dpt_responses : (s.setEngDpt p v).dpt.responses = s.dpt.responses := rfl
@[simp] theorem setEngDpt_dpt_dirty : (s.setEngDpt p v).dpt.dirty = s.dpt.dirty := rfl
@[simp] theorem setEngDpt_dpt_fresh : (s.setEngDpt p v).dpt.fresh = s.dpt.fresh := rfl
@[simp] theorem setEngDpt_dpt_cycle : (s.setEngDpt p v).dpt.cycle = s.dpt.cycle := rfl
@[simp] theorem setEngDpt_dpt_reloaded : (s.setEngDpt p v).dpt.reloaded = s.dpt.reloaded := rfl
@[simp] theorem setEngDpt_dpt_slg : (s.setEngDpt p v).dpt.slg = s.dpt.slg := rfl
@[simp] theorem setEngDpt_dpt_slgLost : (s.setEngDpt p v).dpt.slgLost = s.dpt.slgLost := rfl
@[simp] theorem setEngDpt_dpt_slgTime : (s.setEngDpt p v).dpt.slgTime = s.dpt.slgTime := rfl
end

end Sys2Proof.Machine.State
end

