-- ==== Sys2Proof/Laws/Ops.lean ====
section
/-!
SUPPORT. Sys2Proof/Laws/Ops.lean: a read after a write, for registers, their fields, bytes of the memory windows and the tables of the
units.
-/
namespace Sys2Proof

/-- Bit `i` of a field of a word. -/
theorem bitsOf_testBit {w : Nat} (x : BitVec w) (hi lo i : Nat) :
    (bitsOf x hi lo).testBit i = (decide (i < hi + 1 - lo) && x.getLsbD (lo + i)) := by
  simp only [bitsOf, Nat.testBit_mod_two_pow, Nat.testBit_div_two_pow, BitVec.getLsbD, Nat.add_comm lo i]

/-- Bit `i` of a word with a field replaced. -/
theorem putBits_getLsbD {w : Nat} (x : BitVec w) (hi lo v i : Nat) :
    (putBits x hi lo v).getLsbD i =
      (decide (i < w) && if lo ≤ i ∧ i < hi + 1 then v.testBit (i - lo) else x.getLsbD i) := by
  have hm : ∀ j, ((2 ^ (hi + 1 - lo) - 1) * 2 ^ lo).testBit j = decide (lo ≤ j ∧ j < hi + 1) := by
    intro j
    rw [Nat.testBit_mul_two_pow, Nat.testBit_two_pow_sub_one]
    by_cases h1 : lo ≤ j <;> simp [h1] <;> omega
  simp only [putBits, BitVec.getLsbD_or, BitVec.getLsbD_and, BitVec.getLsbD_not, BitVec.getLsbD_ofNat, hm,
    Nat.testBit_mul_two_pow]
  by_cases h : i < w
  · by_cases h1 : lo ≤ i <;> by_cases h2 : i < hi + 1 <;> simp [h, h1, h2]
  · simp [h, BitVec.getLsbD_of_ge x i (by omega)]

/-- A field reads as it was written, cut to its width. -/
theorem bitsOf_putBits_self {w : Nat} (x : BitVec w) {hi lo : Nat} (v : Nat) (h : hi < w) :
    bitsOf (putBits x hi lo v) hi lo = v % 2 ^ (hi + 1 - lo) := by
  apply Nat.eq_of_testBit_eq
  intro i
  rw [bitsOf_testBit, putBits_getLsbD, Nat.testBit_mod_two_pow]
  by_cases h1 : i < hi + 1 - lo
  · have h2 : lo + i < w := by omega
    have h3 : lo + i < hi + 1 := by omega
    simp [h1, h2, h3]
  · simp [h1]

/-- A field is left as it is by a write of a field above it or below it. -/
theorem bitsOf_putBits_of_disjoint {w : Nat} (x : BitVec w) {hi lo hi' lo' : Nat} (v : Nat) (h : hi' < lo ∨ hi < lo') (hw : hi' < w) :
    bitsOf (putBits x hi lo v) hi' lo' = bitsOf x hi' lo' := by
  apply Nat.eq_of_testBit_eq
  intro i
  rw [bitsOf_testBit, bitsOf_testBit, putBits_getLsbD]
  by_cases h1 : i < hi' + 1 - lo'
  · have h2 : lo' + i < w := by omega
    have h3 : ¬(lo ≤ lo' + i ∧ lo' + i < hi + 1) := by omega
    rw [if_neg h3]
    simp [h1, h2]
  · simp [h1]

namespace Machine.State
variable {s : State}

/-! ### Registers -/

theorem reg_setReg_self (h : s.Inv) (a : Nat) (w : W32) : (s.setReg a w).reg a = w :=
  Tbl.get_set_self (Tbl.wfBy_rising h.regs)
theorem reg_setReg_of_ne (h : s.Inv) {a b : Nat} (w : W32) (hab : b ≠ a) : (s.setReg a w).reg b = s.reg b :=
  Tbl.get_set_of_ne (Tbl.wfBy_rising h.regs) hab

theorem reg_setFld_self (h : s.Inv) (a hi lo v : Nat) : (s.setFld a hi lo v).reg a = putBits (s.reg a) hi lo v :=
  reg_setReg_self h _ _
theorem reg_setFld_of_ne (h : s.Inv) {a b : Nat} (hi lo v : Nat) (hab : b ≠ a) : (s.setFld a hi lo v).reg b = s.reg b :=
  reg_setReg_of_ne h _ hab

theorem fld_setFld_self (h : s.Inv) (a : Nat) {hi lo : Nat} (v : Nat) (hw : hi < 32) :
    (s.setFld a hi lo v).fld a hi lo = v % 2 ^ (hi + 1 - lo) := by
  simp only [fld, reg_setFld_self h]; exact bitsOf_putBits_self _ _ hw
theorem fld_setFld_of_ne (h : s.Inv) {a b : Nat} (hi lo v hi' lo' : Nat) (hab : b ≠ a) :
    (s.setFld a hi lo v).fld b hi' lo' = s.fld b hi' lo' := by
  simp only [fld, reg_setFld_of_ne h _ _ _ hab]
theorem fld_setFld_of_disjoint (h : s.Inv) (a : Nat) {hi lo hi' lo' : Nat} (v : Nat) (hd : hi' < lo ∨ hi < lo') (hw : hi' < 32) :
    (s.setFld a hi lo v).fld a hi' lo' = s.fld a hi' lo' := by
  simp only [fld, reg_setFld_self h]; exact bitsOf_putBits_of_disjoint _ _ hd hw
theorem rbit_setFld_of_ne (h : s.Inv) {a b : Nat} (hi lo v i : Nat) (hab : b ≠ a) :
    (s.setFld a hi lo v).rbit b i = s.rbit b i := by
  simp only [rbit, reg_setFld_of_ne h _ _ _ hab]
theorem rbit_setFld_of_disjoint (h : s.Inv) (a : Nat) {hi lo i : Nat} (v : Nat) (hd : i < lo ∨ hi < i) :
    (s.setFld a hi lo v).rbit a i = s.rbit a i := by
  simp only [rbit, reg_setFld_self h, putBits_getLsbD]
  by_cases hi32 : i < 32
  · have : ¬(lo ≤ i ∧ i < hi + 1) := by omega
    rw [if_neg this]
    simp [hi32]
  · simp [hi32, BitVec.getLsbD_of_ge (s.reg a) i (by omega)]

theorem rbit_setBit_self (h : s.Inv) (a : Nat) {i : Nat} (b : Bool) (hi : i < 32) : (s.setBit a i b).rbit a i = b := by
  simp only [rbit, setBit, reg_setFld_self h, putBits_getLsbD]
  cases b <;> simp [hi]
theorem rbit_setBit_of_ne (h : s.Inv) {a b : Nat} (i j : Nat) (v : Bool) (hab : b ≠ a) :
    (s.setBit a i v).rbit b j = s.rbit b j := rbit_setFld_of_ne h _ _ _ _ hab
theorem rbit_setBit_of_ne_bit (h : s.Inv) (a : Nat) {i j : Nat} (v : Bool) (hij : j ≠ i) :
    (s.setBit a i v).rbit a j = s.rbit a j := rbit_setFld_of_disjoint h _ _ (by omega)
theorem reg_setBit_of_ne (h : s.Inv) {a b : Nat} (i : Nat) (v : Bool) (hab : b ≠ a) : (s.setBit a i v).reg b = s.reg b :=
  reg_setFld_of_ne h _ _ _ hab
theorem fld_setBit_of_ne (h : s.Inv) {a b : Nat} (i hi lo : Nat) (v : Bool) (hab : b ≠ a) :
    (s.setBit a i v).fld b hi lo = s.fld b hi lo := fld_setFld_of_ne h _ _ _ _ _ hab
theorem fld_setBit_of_disjoint (h : s.Inv) (a : Nat) {i hi lo : Nat} (v : Bool) (hd : hi < i ∨ i < lo) (hw : hi < 32) :
    (s.setBit a i v).fld a hi lo = s.fld a hi lo := fld_setFld_of_disjoint h _ _ hd hw

theorem reg_count_of_ne (h : s.Inv) {a b : Nat} (hi lo k : Nat) (hab : b ≠ a) : (s.count a hi lo k).reg b = s.reg b :=
  reg_setFld_of_ne h _ _ _ hab
theorem fld_count_self (h : s.Inv) (a : Nat) {hi lo : Nat} (k : Nat) (hw : hi < 32) :
    (s.count a hi lo k).fld a hi lo = satAdd (2 ^ (hi + 1 - lo) - 1) (s.fld a hi lo) k := by
  rw [count, fld_setFld_self h _ _ hw, Nat.mod_eq_of_lt]
  have : 0 < 2 ^ (hi + 1 - lo) := Nat.two_pow_pos _
  unfold satAdd
  split <;> omega

/-! ### The form of the state after a write, and registers in one form for simp -/

theorem reg_setReg (h : s.Inv) (a b : Nat) (w : W32) : (s.setReg a w).reg b = if b = a then w else s.reg b := by
  split
  · rename_i e; rw [e, reg_setReg_self h]
  · rename_i e; exact reg_setReg_of_ne h _ e
theorem reg_setFld (h : s.Inv) (a b hi lo v : Nat) :
    (s.setFld a hi lo v).reg b = if b = a then putBits (s.reg a) hi lo v else s.reg b := reg_setReg h _ _ _
theorem reg_setBit (h : s.Inv) (a b i : Nat) (v : Bool) :
    (s.setBit a i v).reg b = if b = a then putBits (s.reg a) i i (if v then 1 else 0) else s.reg b := reg_setFld h _ _ _ _ _
theorem reg_count (h : s.Inv) (a b hi lo k : Nat) :
    (s.count a hi lo k).reg b = if b = a then putBits (s.reg a) hi lo (satAdd (2 ^ (hi + 1 - lo) - 1) (s.fld a hi lo) k) else s.reg b :=
  reg_setFld h _ _ _ _ _

theorem inv_setReg (h : s.Inv) (a : Nat) (w : W32) : (s.setReg a w).Inv := (setReg_still (Still.refl s) _ _).inv h
theorem inv_setFld (h : s.Inv) (a hi lo v : Nat) : (s.setFld a hi lo v).Inv := (setFld_still (Still.refl s) _ _ _ _).inv h
theorem inv_setBit (h : s.Inv) (a i : Nat) (b : Bool) : (s.setBit a i b).Inv := (setBit_still (Still.refl s) _ _ _).inv h
theorem inv_count (h : s.Inv) (a hi lo k : Nat) : (s.count a hi lo k).Inv := (count_still (Still.refl s) _ _ _ _).inv h

/-! ### Bytes of the memory windows -/

theorem byte_setByte_self (h : s.Inv) (a : Nat) (b : Byte) : (s.setByte a b).byte a = b :=
  Tbl.get_set_self (Tbl.wf_rising h.mem)
theorem byte_setByte_of_ne (h : s.Inv) {a c : Nat} (b : Byte) (hc : c ≠ a) : (s.setByte a b).byte c = s.byte c :=
  Tbl.get_set_of_ne (Tbl.wf_rising h.mem) hc
theorem inv_setByte (h : s.Inv) (a : Nat) (b : Byte) : (s.setByte a b).Inv := (setByte_still (Still.refl s) _ _).inv h

/-- Writing `n` bytes from `a` on leaves every byte outside them as it was. -/
theorem byte_setLe_of_outside (h : s.Inv) (a n v : Nat) {c : Nat} (hc : c < a ∨ a + n ≤ c) :
    (s.setLe a n v).byte c = s.byte c := by
  induction n generalizing s a v with
  | zero => rfl
  | succ n ih => rw [setLe, ih (inv_setByte h _ _) _ _ (by omega), byte_setByte_of_ne h _ (by omega)]

/-- Byte `i` of the `n` written from `a` on. -/
theorem byte_setLe (h : s.Inv) (a n v i : Nat) (hi : i < n) : (s.setLe a n v).byte (a + i) = BitVec.ofNat 8 (v / 256 ^ i) := by
  induction n generalizing s a v i with
  | zero => omega
  | succ n ih =>
    rw [setLe]
    cases i with
    | zero =>
      rw [byte_setLe_of_outside (inv_setByte h _ _) _ _ _ (by omega), Nat.add_zero, byte_setByte_self h]
      simp
    | succ i =>
      rw [show a + (i + 1) = a + 1 + i by omega, ih (inv_setByte h _ _) _ _ _ (by omega), Nat.div_div_eq_div_mul,
        Nat.pow_succ, Nat.mul_comm]

/-- Writing a list of bytes from `a` on leaves every byte outside them as it was. -/
theorem byte_setBytes_of_outside (h : s.Inv) (a : Nat) (l : List Byte) {c : Nat} (hc : c < a ∨ a + l.length ≤ c) :
    (s.setBytes a l).byte c = s.byte c := by
  induction l generalizing s a with
  | nil => rfl
  | cons b l ih =>
    simp only [List.length_cons] at hc
    rw [setBytes, ih (inv_setByte h _ _) _ (by omega), byte_setByte_of_ne h _ (by omega)]

/-! ### The tables of the units -/

theorem cell_setCell_self (h : s.Inv) (c : Nat) (v : CellSt) : (s.setCell c v).cell c = v :=
  Tbl.get_set_self (Tbl.wf_rising h.cells)
theorem cell_setCell_of_ne (h : s.Inv) {c k : Nat} (v : CellSt) (hk : k ≠ c) : (s.setCell c v).cell k = s.cell k :=
  Tbl.get_set_of_ne (Tbl.wf_rising h.cells) hk
theorem queue_setQueue_self (h : s.Inv) (c : Nat) (v : Queue) : (s.setQueue c v).queue c = v :=
  Tbl.get_set_self (Tbl.wf_rising h.queues)
theorem queue_setQueue_of_ne (h : s.Inv) {c k : Nat} (v : Queue) (hk : k ≠ c) : (s.setQueue c v).queue k = s.queue k :=
  Tbl.get_set_of_ne (Tbl.wf_rising h.queues) hk
theorem eng_setEng_self (h : s.Inv) (c : Nat) (v : EngSt) : (s.setEng c v).eng c = v :=
  Tbl.get_set_self (Tbl.wf_rising h.engines)
/-- Two writes of one engine are the second. -/
theorem setEng_setEng (h : s.Inv) (c : Nat) (v w : EngSt) : (s.setEng c v).setEng c w = s.setEng c w := by
  simp only [State.setEng]; congr 1; exact Tbl.set_set (Tbl.wf_rising h.engines)
theorem eng_setEng_of_ne (h : s.Inv) {c k : Nat} (v : EngSt) (hk : k ≠ c) : (s.setEng c v).eng k = s.eng k :=
  Tbl.get_set_of_ne (Tbl.wf_rising h.engines) hk
theorem task_setTask_self (h : s.Inv) (c : Nat) (v : TaskSt) : (s.setTask c v).task c = v :=
  Tbl.get_set_self (Tbl.wf_rising h.tasks)
theorem task_setTask_of_ne (h : s.Inv) {c k : Nat} (v : TaskSt) (hk : k ≠ c) : (s.setTask c v).task k = s.task k :=
  Tbl.get_set_of_ne (Tbl.wf_rising h.tasks) hk
theorem engDpt_setEngDpt_self (h : s.Inv) (c : Nat) (v : EngDpt) : (s.setEngDpt c v).engDpt c = v :=
  Tbl.get_set_self (Tbl.wf_rising h.engDpt)
theorem engDpt_setEngDpt_of_ne (h : s.Inv) {c k : Nat} (v : EngDpt) (hk : k ≠ c) : (s.setEngDpt c v).engDpt k = s.engDpt k :=
  Tbl.get_set_of_ne (Tbl.wf_rising h.engDpt) hk
theorem sorter_setSorter_self (h : s.Inv) (c : Nat) (v : Sorter) : (s.setSorter c v).sorter c = v :=
  Tbl.get_set_self (Tbl.wf_rising h.sorters)
theorem sorter_setSorter_of_ne (h : s.Inv) {c k : Nat} (v : Sorter) (hk : k ≠ c) : (s.setSorter c v).sorter k = s.sorter k :=
  Tbl.get_set_of_ne (Tbl.wf_rising h.sorters) hk
theorem ro_setRo_self (h : s.Inv) (c : Nat) (v : Readout) : (s.setRo c v).ro c = v :=
  Tbl.get_set_self (Tbl.wf_rising h.readout)
theorem drzOf_setDrz_self (h : s.Inv) (c : Nat) (v : Drz) : (s.setDrz c v).drzOf c = v :=
  Tbl.get_set_self (Tbl.wf_rising h.drz)
theorem drzOf_setDrz_of_ne (h : s.Inv) {c k : Nat} (v : Drz) (hk : k ≠ c) : (s.setDrz c v).drzOf k = s.drzOf k :=
  Tbl.get_set_of_ne (Tbl.wf_rising h.drz) hk
theorem lane_setLane_self (h : s.Inv) (c : Nat) (v : LaneSt) : (s.setLane c v).lane c = v :=
  Tbl.get_set_self (Tbl.wf_rising h.lanes)
theorem lane_setLane_of_ne (h : s.Inv) {c k : Nat} (v : LaneSt) (hk : k ≠ c) : (s.setLane c v).lane k = s.lane k :=
  Tbl.get_set_of_ne (Tbl.wf_rising h.lanes) hk

end Machine.State
end Sys2Proof
end

