-- ==== Sys2Proof/Laws/PerInstr.lean ====
section
/-!
SUPPORT. Sys2Proof/Laws/PerInstr.lean: per command, what a well-formed command carries from outside is bounded.
-/
namespace Sys2Proof

/-- How many units a command carries from outside: data bytes of a packet, blocks or characters of a crossing, octets of a frame. -/
def Instr.carried : Instr → Nat
  | .mirpelFrame _ b _ => b.length
  | .rawCrossing _ r _ => match r with
    | .r64 b => b.length
    | .r8 c => c.length
  | .routerHeader _ _ p | .ageIncrement _ _ p => p.data.length
  | .nocRd p | .nocWr p | .nocWrp p | .nocRdr p | .nocWra p | .nocCret p | .nocPost p | .nocPrsp p | .nocStrm p
  | .nocRstn p => p.data.length
  | .mgmtFrame f => f.length
  | _ => 0

/-- A well-formed packet carries at most 256 bytes, a whole number of data units (R326). -/
theorem Packet.wf_data {p : Packet} (h : p.wf = true) : p.data.length ≤ 256 ∧ p.data.length % 16 = 0 := by
  simp only [Packet.wf, Bool.and_eq_true, decide_eq_true_eq] at h
  omega

namespace Laws.Sizes

/-- A well-formed command carries no more than the largest Ethernet frame. -/
def Statement (i : Instr) : Prop := i.WellFormed = true → i.carried ≤ 1514

theorem of_packet {i : Instr} {p : Packet} (hw : i.WellFormed = p.wf) (hc : i.carried = p.data.length) : Statement i := by
  intro h
  rw [hc]
  exact le_trans (Packet.wf_data (hw ▸ h)).1 (by decide)

theorem of_units {i : Instr} {n : Nat} (hw : i.WellFormed = unitsWf n) (hc : i.carried = n) : Statement i := by
  intro h
  rw [hw, unitsWf, decide_eq_true_eq] at h
  rw [hc]
  exact le_trans h (by decide)

theorem of_zero {i : Instr} (hc : i.carried = 0) : Statement i := fun _ => hc ▸ Nat.zero_le _

theorem slotAdvance : Statement .slotAdvance := of_zero rfl
theorem crossingAdvance : Statement .crossingAdvance := of_zero rfl
theorem orbitAdvance (x0 : BitVec 4) : Statement (.orbitAdvance x0) := of_zero rfl
theorem tsbNowRead : Statement .tsbNowRead := of_zero rfl
theorem timingWord (x0 : Fin 2) (x1 : TimingChars) : Statement (.timingWord x0 x1) := of_zero rfl
theorem nop : Statement .nop := of_zero rfl
theorem orbit : Statement .orbit := of_zero rfl
theorem orbitPinMarker : Statement .orbitPinMarker := of_zero rfl
theorem accept : Statement .accept := of_zero rfl
theorem resync : Statement .resync := of_zero rfl
theorem testpulse : Statement .testpulse := of_zero rfl
theorem calstrobe : Statement .calstrobe := of_zero rfl
theorem calPinFall (x0 : Fin 4) : Statement (.calPinFall x0) := of_zero rfl
theorem counterReset : Statement .counterReset := of_zero rfl
theorem quietStart : Statement .quietStart := of_zero rfl
theorem quietEnd : Statement .quietEnd := of_zero rfl
theorem accordSwitch : Statement .accordSwitch := of_zero rfl
theorem reservedCommand : Statement .reservedCommand := of_zero rfl
theorem timingLaneFailure (x0 : Fin 2) (x1 : Bool) : Statement (.timingLaneFailure x0 x1) := of_zero rfl
theorem failover : Statement .failover := of_zero rfl
theorem timingLaneQualify (x0 : Fin 2) (x1 : Int) : Statement (.timingLaneQualify x0 x1) := of_zero rfl
theorem tsbSwap : Statement .tsbSwap := of_zero rfl
theorem tsbRealign : Statement .tsbRealign := of_zero rfl
theorem tsbSnap (x0 : BitVec 7) : Statement (.tsbSnap x0) := of_zero rfl
theorem fclkLock : Statement .fclkLock := of_zero rfl
theorem lockTimeout (x0 : Bool) : Statement (.lockTimeout x0) := of_zero rfl
theorem clockLoss : Statement .clockLoss := of_zero rfl
theorem clockReturn (x0 : Int) : Statement (.clockReturn x0) := of_zero rfl
theorem holdoverExpiry : Statement .holdoverExpiry := of_zero rfl
theorem returnQualified : Statement .returnQualified := of_zero rfl
theorem laneAcquireLock (x0 : LaneNo) : Statement (.laneAcquireLock x0) := of_zero rfl
theorem mirpelFrame (x0 : LaneNo) (x1 : List Block66) (x2 : Nat) : Statement (.mirpelFrame x0 x1 x2) := of_units rfl rfl
theorem rawCrossing (x0 : LaneNo) (x1 : RawCrossing) (x2 : Nat) : Statement (.rawCrossing x0 x1 x2) := by
  cases x1 <;> exact of_units rfl rfl
theorem frameDelivery (x0 : LaneNo) : Statement (.frameDelivery x0) := of_zero rfl
theorem laneLoss (x0 : LaneNo) : Statement (.laneLoss x0) := of_zero rfl
theorem laneJoin (x0 : LaneNo) : Statement (.laneJoin x0) := of_zero rfl
theorem laneRealign (x0 : LaneNo) : Statement (.laneRealign x0) := of_zero rfl
theorem laneAdopt (x0 : LaneNo) : Statement (.laneAdopt x0) := of_zero rfl
theorem rxEnWrite (x0 : LaneNo) (x1 : Bool) : Statement (.rxEnWrite x0 x1) := of_zero rfl
theorem txEnWrite (x0 : LaneNo) (x1 : Bool) : Statement (.txEnWrite x0 x1) := of_zero rfl
theorem pdWrite (x0 : LaneNo) (x1 : Bool) : Statement (.pdWrite x0 x1) := of_zero rfl
theorem mirpelTxFrame (x0 : LaneNo) : Statement (.mirpelTxFrame x0) := of_zero rfl
theorem systemTxFrame (x0 : LaneNo) : Statement (.systemTxFrame x0) := of_zero rfl
theorem readoutTxFrame (x0 : LaneNo) : Statement (.readoutTxFrame x0) := of_zero rfl
theorem cellNop (x0 : CellNo) : Statement (.cellNop x0) := of_zero rfl
theorem cellPass (x0 : CellNo) : Statement (.cellPass x0) := of_zero rfl
theorem cellConst (x0 : CellNo) : Statement (.cellConst x0) := of_zero rfl
theorem cellAdd (x0 : CellNo) : Statement (.cellAdd x0) := of_zero rfl
theorem cellSub (x0 : CellNo) : Statement (.cellSub x0) := of_zero rfl
theorem cellAdds (x0 : CellNo) : Statement (.cellAdds x0) := of_zero rfl
theorem cellMin (x0 : CellNo) : Statement (.cellMin x0) := of_zero rfl
theorem cellMax (x0 : CellNo) : Statement (.cellMax x0) := of_zero rfl
theorem cellAbs (x0 : CellNo) : Statement (.cellAbs x0) := of_zero rfl
theorem cellCmp (x0 : CellNo) : Statement (.cellCmp x0) := of_zero rfl
theorem cellThr (x0 : CellNo) : Statement (.cellThr x0) := of_zero rfl
theorem cellAnd (x0 : CellNo) : Statement (.cellAnd x0) := of_zero rfl
theorem cellOr (x0 : CellNo) : Statement (.cellOr x0) := of_zero rfl
theorem cellXor (x0 : CellNo) : Statement (.cellXor x0) := of_zero rfl
theorem cellNot (x0 : CellNo) : Statement (.cellNot x0) := of_zero rfl
theorem cellShl (x0 : CellNo) : Statement (.cellShl x0) := of_zero rfl
theorem cellShr (x0 : CellNo) : Statement (.cellShr x0) := of_zero rfl
theorem cellAsr (x0 : CellNo) : Statement (.cellAsr x0) := of_zero rfl
theorem cellMul8 (x0 : CellNo) : Statement (.cellMul8 x0) := of_zero rfl
theorem cellSel (x0 : CellNo) : Statement (.cellSel x0) := of_zero rfl
theorem cellLut4 (x0 : CellNo) : Statement (.cellLut4 x0) := of_zero rfl
theorem cellCnt (x0 : CellNo) : Statement (.cellCnt x0) := of_zero rfl
theorem cellAcc (x0 : CellNo) : Statement (.cellAcc x0) := of_zero rfl
theorem cellDelay (x0 : CellNo) : Statement (.cellDelay x0) := of_zero rfl
theorem cellSrd (x0 : CellNo) : Statement (.cellSrd x0) := of_zero rfl
theorem cellSwr (x0 : CellNo) : Statement (.cellSwr x0) := of_zero rfl
theorem decEdge (x0 : Fin 16) : Statement (.decEdge x0) := of_zero rfl
theorem sorterCapture (x0 : SectorNo) : Statement (.sorterCapture x0) := of_zero rfl
theorem sorterEmit (x0 : SectorNo) : Statement (.sorterEmit x0) := of_zero rfl
theorem mergeCapture : Statement .mergeCapture := of_zero rfl
theorem mergeEmit : Statement .mergeEmit := of_zero rfl
theorem queuePush (x0 : QueueNo) : Statement (.queuePush x0) := of_zero rfl
theorem queuePop (x0 : QueueNo) : Statement (.queuePop x0) := of_zero rfl
theorem markGapLand (x0 : QueueNo) : Statement (.markGapLand x0) := of_zero rfl
theorem postResponse (x0 : QueueNo) : Statement (.postResponse x0) := of_zero rfl
theorem markRefusedLand (x0 : QueueNo) : Statement (.markRefusedLand x0) := of_zero rfl
theorem streamSend (x0 : QueueNo) : Statement (.streamSend x0) := of_zero rfl
theorem budgetOverrun (x0 : EngineNo) : Statement (.budgetOverrun x0) := of_zero rfl
theorem slotEvent (x0 : EngineNo) : Statement (.slotEvent x0) := of_zero rfl
theorem engFault (x0 : EngineNo) : Statement (.engFault x0) := of_zero rfl
theorem watchdog (x0 : EngineNo) : Statement (.watchdog x0) := of_zero rfl
theorem holdoff (x0 : EngineNo) : Statement (.holdoff x0) := of_zero rfl
theorem inWake (x0 : EngineNo) : Statement (.inWake x0) := of_zero rfl
theorem outWake (x0 : EngineNo) : Statement (.outWake x0) := of_zero rfl
theorem declareDead (x0 : EngineNo) : Statement (.declareDead x0) := of_zero rfl
theorem spareCopyComplete (x0 : EngineNo) : Statement (.spareCopyComplete x0) := of_zero rfl
theorem engNop (x0 : EngineNo) : Statement (.engNop x0) := of_zero rfl
theorem illegalInstruction (x0 : EngineNo) : Statement (.illegalInstruction x0) := of_zero rfl
theorem engBr (x0 : EngineNo) : Statement (.engBr x0) := of_zero rfl
theorem engCall (x0 : EngineNo) : Statement (.engCall x0) := of_zero rfl
theorem engRet (x0 : EngineNo) : Statement (.engRet x0) := of_zero rfl
theorem engRep (x0 : EngineNo) : Statement (.engRep x0) := of_zero rfl
theorem engLoop (x0 : EngineNo) : Statement (.engLoop x0) := of_zero rfl
theorem engYield (x0 : EngineNo) : Statement (.engYield x0) := of_zero rfl
theorem engDone (x0 : EngineNo) : Statement (.engDone x0) := of_zero rfl
theorem engEvt (x0 : EngineNo) : Statement (.engEvt x0) := of_zero rfl
theorem engSync (x0 : EngineNo) : Statement (.engSync x0) := of_zero rfl
theorem engIn (x0 : EngineNo) : Statement (.engIn x0) := of_zero rfl
theorem engOut (x0 : EngineNo) : Statement (.engOut x0) := of_zero rfl
theorem engSignal (x0 : EngineNo) : Statement (.engSignal x0) := of_zero rfl
theorem engClrf (x0 : EngineNo) : Statement (.engClrf x0) := of_zero rfl
theorem engPost (x0 : EngineNo) : Statement (.engPost x0) := of_zero rfl
theorem aluAdd (x0 : EngineNo) : Statement (.aluAdd x0) := of_zero rfl
theorem aluSub (x0 : EngineNo) : Statement (.aluSub x0) := of_zero rfl
theorem aluAdds (x0 : EngineNo) : Statement (.aluAdds x0) := of_zero rfl
theorem aluSubs (x0 : EngineNo) : Statement (.aluSubs x0) := of_zero rfl
theorem aluAnd (x0 : EngineNo) : Statement (.aluAnd x0) := of_zero rfl
theorem aluOr (x0 : EngineNo) : Statement (.aluOr x0) := of_zero rfl
theorem aluXor (x0 : EngineNo) : Statement (.aluXor x0) := of_zero rfl
theorem aluNot (x0 : EngineNo) : Statement (.aluNot x0) := of_zero rfl
theorem aluNeg (x0 : EngineNo) : Statement (.aluNeg x0) := of_zero rfl
theorem aluAbs (x0 : EngineNo) : Statement (.aluAbs x0) := of_zero rfl
theorem aluMin (x0 : EngineNo) : Statement (.aluMin x0) := of_zero rfl
theorem aluMax (x0 : EngineNo) : Statement (.aluMax x0) := of_zero rfl
theorem aluCmp (x0 : EngineNo) : Statement (.aluCmp x0) := of_zero rfl
theorem aluTst (x0 : EngineNo) : Statement (.aluTst x0) := of_zero rfl
theorem aluShl (x0 : EngineNo) : Statement (.aluShl x0) := of_zero rfl
theorem aluShr (x0 : EngineNo) : Statement (.aluShr x0) := of_zero rfl
theorem aluAsr (x0 : EngineNo) : Statement (.aluAsr x0) := of_zero rfl
theorem aluCnt (x0 : EngineNo) : Statement (.aluCnt x0) := of_zero rfl
theorem aluLdi (x0 : EngineNo) : Statement (.aluLdi x0) := of_zero rfl
theorem engLdx (x0 : EngineNo) : Statement (.engLdx x0) := of_zero rfl
theorem engLdy (x0 : EngineNo) : Statement (.engLdy x0) := of_zero rfl
theorem engStx (x0 : EngineNo) : Statement (.engStx x0) := of_zero rfl
theorem engSty (x0 : EngineNo) : Statement (.engSty x0) := of_zero rfl
theorem engMov (x0 : EngineNo) : Statement (.engMov x0) := of_zero rfl
theorem engMac (x0 : EngineNo) : Statement (.engMac x0) := of_zero rfl
theorem engMsu (x0 : EngineNo) : Statement (.engMsu x0) := of_zero rfl
theorem engMpy (x0 : EngineNo) : Statement (.engMpy x0) := of_zero rfl
theorem engClrmac (x0 : EngineNo) : Statement (.engClrmac x0) := of_zero rfl
theorem dispatcherCycle (x0 : List W32) (x1 : Nat) (x2 : Nat) : Statement (.dispatcherCycle x0 x1 x2) := of_zero rfl
theorem flagSetArrival (x0 : FlagSrc) : Statement (.flagSetArrival x0) := of_zero rfl
theorem itemCopyComplete (x0 : EngineNo) : Statement (.itemCopyComplete x0) := of_zero rfl
theorem dispatch (x0 : EngineNo) : Statement (.dispatch x0) := of_zero rfl
theorem dptCancel (x0 : TaskNo) : Statement (.dptCancel x0) := of_zero rfl
theorem dptResume (x0 : TaskNo) : Statement (.dptResume x0) := of_zero rfl
theorem dptDisable (x0 : TaskNo) : Statement (.dptDisable x0) := of_zero rfl
theorem dptEnable (x0 : TaskNo) : Statement (.dptEnable x0) := of_zero rfl
theorem dptDrain (x0 : TaskNo) : Statement (.dptDrain x0) := of_zero rfl
theorem dptSignal (x0 : TaskNo) (x1 : Fin 32) : Statement (.dptSignal x0 x1) := of_zero rfl
theorem dptClrf (x0 : TaskNo) (x1 : Fin 32) : Statement (.dptClrf x0 x1) := of_zero rfl
theorem engDisable (x0 : BitVec 10) : Statement (.engDisable x0) := of_zero rfl
theorem engEnable (x0 : BitVec 10) : Statement (.engEnable x0) := of_zero rfl
theorem dispatcherReset : Statement .dispatcherReset := of_zero rfl
theorem dispatcherResume : Statement .dispatcherResume := of_zero rfl
theorem sillageWrite : Statement .sillageWrite := of_zero rfl
theorem sillageRestart : Statement .sillageRestart := of_zero rfl
theorem packetOpen (x0 : SectorNo) : Statement (.packetOpen x0) := of_zero rfl
theorem builderWord (x0 : SectorNo) : Statement (.builderWord x0) := of_zero rfl
theorem packetClose (x0 : SectorNo) : Statement (.packetClose x0) := of_zero rfl
theorem readerTakePacket (x0 : DrzNo) : Statement (.readerTakePacket x0) := of_zero rfl
theorem rptrWrite (x0 : DrzNo) (x1 : BitVec 15) : Statement (.rptrWrite x0 x1) := of_zero rfl
theorem throttlePinEdge : Statement .throttlePinEdge := of_zero rfl
theorem routerHeader (x0 : RouterNo) (x1 : Fin 9) (x2 : Packet) : Statement (.routerHeader x0 x1 x2) := of_packet rfl rfl
theorem ageIncrement (x0 : RouterNo) (x1 : Fin 9) (x2 : Packet) : Statement (.ageIncrement x0 x1 x2) := of_packet rfl rfl
theorem nocRd (x0 : Packet) : Statement (.nocRd x0) := of_packet rfl rfl
theorem nocWr (x0 : Packet) : Statement (.nocWr x0) := of_packet rfl rfl
theorem nocWrp (x0 : Packet) : Statement (.nocWrp x0) := of_packet rfl rfl
theorem nocRdr (x0 : Packet) : Statement (.nocRdr x0) := of_packet rfl rfl
theorem nocWra (x0 : Packet) : Statement (.nocWra x0) := of_packet rfl rfl
theorem nocCret (x0 : Packet) : Statement (.nocCret x0) := of_packet rfl rfl
theorem nocPost (x0 : Packet) : Statement (.nocPost x0) := of_packet rfl rfl
theorem nocPrsp (x0 : Packet) : Statement (.nocPrsp x0) := of_packet rfl rfl
theorem nocStrm (x0 : Packet) : Statement (.nocStrm x0) := of_packet rfl rfl
theorem nocRstn (x0 : Packet) : Statement (.nocRstn x0) := of_packet rfl rfl
theorem cretSend (x0 : BitVec 10) (x1 : BitVec 10) : Statement (.cretSend x0 x1) := of_zero rfl
theorem replyTimeout (x0 : BitVec 10) (x1 : Byte) : Statement (.replyTimeout x0 x1) := of_zero rfl
theorem fenceBroadcast : Statement .fenceBroadcast := of_zero rfl
theorem admissionRun (x0 : Nat) : Statement (.admissionRun x0) := of_zero rfl
theorem admissionComplete : Statement .admissionComplete := of_zero rfl
theorem powerOnReset (x0 : StartEnv) : Statement (.powerOnReset x0) := of_zero rfl
theorem warmRestart (x0 : StartEnv) : Statement (.warmRestart x0) := of_zero rfl
theorem waitLock : Statement .waitLock := of_zero rfl
theorem releaseOutputs : Statement .releaseOutputs := of_zero rfl
theorem releaseSetreset : Statement .releaseSetreset := of_zero rfl
theorem enableWrites : Statement .enableWrites := of_zero rfl
theorem waitAlign (x0 : Bool) : Statement (.waitAlign x0) := of_zero rfl
theorem admitStep : Statement .admitStep := of_zero rfl
theorem runStart : Statement .runStart := of_zero rfl
theorem recordCommit : Statement .recordCommit := of_zero rfl
theorem bootRestart : Statement .bootRestart := of_zero rfl
theorem bootClearFails : Statement .bootClearFails := of_zero rfl
theorem reloadComplete (x0 : RegionNo) : Statement (.reloadComplete x0) := of_zero rfl
theorem regionRejoin (x0 : RegionNo) : Statement (.regionRejoin x0) := of_zero rfl
theorem accordStagingComplete : Statement .accordStagingComplete := of_zero rfl
theorem glbSwitch (x0 : Byte) : Statement (.glbSwitch x0) := of_zero rfl
theorem glbPrepare (x0 : Byte) : Statement (.glbPrepare x0) := of_zero rfl
theorem glbUnprepare (x0 : Byte) : Statement (.glbUnprepare x0) := of_zero rfl
theorem scrubRead (x0 : Scrubber) : Statement (.scrubRead x0) := of_zero rfl
theorem scrubRewrite (x0 : Scrubber) : Statement (.scrubRewrite x0) := of_zero rfl
theorem repairCopyStart (x0 : BitVec 16) : Statement (.repairCopyStart x0) := of_zero rfl
theorem repairCopyComplete (x0 : BitVec 16) : Statement (.repairCopyComplete x0) := of_zero rfl
theorem injectionArm (x0 : W32) : Statement (.injectionArm x0) := of_zero rfl
theorem railPoll (x0 : Fin 3) (x1 : RailReading) : Statement (.railPoll x0 x1) := of_zero rfl
theorem sectorPowerGood (x0 : SectorNo) : Statement (.sectorPowerGood x0) := of_zero rfl
theorem sectorPowerTimeout (x0 : SectorNo) : Statement (.sectorPowerTimeout x0) := of_zero rfl
theorem orderlyDownComplete (x0 : SectorNo) : Statement (.orderlyDownComplete x0) := of_zero rfl
theorem sectorOvercurrent (x0 : SectorNo) : Statement (.sectorOvercurrent x0) := of_zero rfl
theorem sensorSample (x0 : Fin 32) (x1 : BitVec 16) : Statement (.sensorSample x0 x1) := of_zero rfl
theorem throttleUpdate : Statement .throttleUpdate := of_zero rfl
theorem thermalTrip (x0 : Fin 32) : Statement (.thermalTrip x0) := of_zero rfl
theorem pwrRetry (x0 : BitVec 16) : Statement (.pwrRetry x0) := of_zero rfl
theorem pwrClear : Statement .pwrClear := of_zero rfl
theorem challenge : Statement .challenge := of_zero rfl
theorem attest : Statement .attest := of_zero rfl
theorem certRead : Statement .certRead := of_zero rfl
theorem certStore : Statement .certStore := of_zero rfl
theorem keySet (x0 : Bool) : Statement (.keySet x0) := of_zero rfl
theorem keyRevoke (x0 : Bool) : Statement (.keyRevoke x0) := of_zero rfl
theorem debugUnlock : Statement .debugUnlock := of_zero rfl
theorem debugLock : Statement .debugLock := of_zero rfl
theorem genkey (x0 : Bool) : Statement (.genkey x0) := of_zero rfl
theorem hallmarkOpComplete (x0 : Bool) : Statement (.hallmarkOpComplete x0) := of_zero rfl
theorem mgmtFrame (x0 : List Byte) : Statement (.mgmtFrame x0) := by
  intro h
  simp only [Instr.WellFormed, frameWf, Bool.and_eq_true, decide_eq_true_eq] at h
  exact h.2
theorem mgmtRead : Statement .mgmtRead := of_zero rfl
theorem mgmtWrite : Statement .mgmtWrite := of_zero rfl
theorem streamRead : Statement .streamRead := of_zero rfl
theorem imageWrite (x0 : Bool) : Statement (.imageWrite x0) := of_zero rfl
theorem imageCommit (x0 : Bool) : Statement (.imageCommit x0) := of_zero rfl
theorem ping : Statement .ping := of_zero rfl
theorem accord : Statement .accord := of_zero rfl
theorem engineDead : Statement .engineDead := of_zero rfl
theorem i2cRead (x0 : Byte) : Statement (.i2cRead x0) := of_zero rfl
theorem i2cRestart (x0 : Byte) (x1 : Byte) : Statement (.i2cRestart x0 x1) := of_zero rfl
theorem i2cClearFails (x0 : Byte) (x1 : Byte) : Statement (.i2cClearFails x0 x1) := of_zero rfl
theorem i2cPwrClear (x0 : Byte) (x1 : Byte) : Statement (.i2cPwrClear x0 x1) := of_zero rfl
theorem i2cSectorRetry (x0 : BitVec 16) (x1 : Byte) (x2 : Byte) : Statement (.i2cSectorRetry x0 x1 x2) := of_zero rfl
theorem extest : Statement .extest := of_zero rfl
theorem samplePreload (x0 : BitVec 101) (x1 : BitVec 101) : Statement (.samplePreload x0 x1) := of_zero rfl
theorem idcode : Statement .idcode := of_zero rfl
theorem clamp : Statement .clamp := of_zero rfl
theorem highz : Statement .highz := of_zero rfl
theorem bypass : Statement .bypass := of_zero rfl
theorem jtagAccessRead (x0 : BitVec 40) : Statement (.jtagAccessRead x0) := of_zero rfl
theorem jtagAccessWrite (x0 : BitVec 40) (x1 : W32) : Statement (.jtagAccessWrite x0 x1) := of_zero rfl
theorem glbResetSector (x0 : BitVec 16) : Statement (.glbResetSector x0) := of_zero rfl
theorem glbResetQuad (x0 : BitVec 4) : Statement (.glbResetQuad x0) := of_zero rfl
theorem registerWrite (x0 : BitVec 40) (x1 : W32) : Statement (.registerWrite x0 x1) := of_zero rfl
theorem powerRemoval : Statement .powerRemoval := of_zero rfl
theorem vfuseFall : Statement .vfuseFall := of_zero rfl
theorem sensorNotUpdated (x0 : Fin 32) : Statement (.sensorNotUpdated x0) := of_zero rfl
theorem lqclkLock (x0 : QuadNo) : Statement (.lqclkLock x0) := of_zero rfl
theorem mgtLinkChange (x0 : Bool) : Statement (.mgtLinkChange x0) := of_zero rfl
theorem emergencyDownComplete (x0 : SectorNo) : Statement (.emergencyDownComplete x0) := of_zero rfl

end Laws.Sizes

end Sys2Proof
end

