-- ==== Sys2Proof/Tests/Slice0.lean ====
section
/-!
SUPPORT. Sys2Proof/Tests/Slice0.lean: small tests: hand-worked results from the spec, terms that WellFormed refuses, and states that meet
the hypotheses of the statements.
-/
namespace Sys2Proof.Tests

open Sys2Proof.Machine

set_option Elab.async false

/-- The form of a state, as one evaluation. -/
def formOk (s : State) : Bool :=
  Memory.wf s.mem && Tbl.wfBy regReset s.regs && Tbl.wf CellSt.dflt s.cells && Tbl.wf Sorter.dflt s.sorters && Tbl.wf LaneSt.dflt s.lanes &&
    Tbl.wf Queue.dflt s.queues && Tbl.wf EngSt.dflt s.engines && Tbl.wf Readout.dflt s.readout && Tbl.wf Drz.dflt s.drz &&
    Tbl.wf TaskSt.dflt s.dpt.tasks && Tbl.wf EngDpt.dflt s.dpt.eng && Tbl.wf none s.reloads && Tbl.wf 0 s.prot.flips &&
    s.queues.all (fun e => decide (e.2.stages.length ≤ 8))

theorem get_stages {t : Tbl Queue} (h : t.all (fun e => decide (e.2.stages.length ≤ 8)) = true) (q : Nat) :
    (Tbl.get Queue.dflt t q).stages.length ≤ 8 := by
  induction t with
  | nil => exact Nat.zero_le _
  | cons e t ih =>
    rw [List.all_cons, Bool.and_eq_true, decide_eq_true_eq] at h
    rw [Tbl.get]
    split
    · exact Nat.zero_le _
    · split
      · exact h.1
      · exact ih h.2

theorem inv_of {s : State} (h : formOk s = true) : s.Inv := by
  simp only [formOk, Bool.and_eq_true] at h
  obtain ⟨⟨⟨⟨⟨⟨⟨⟨⟨⟨⟨⟨⟨h1, h2⟩, h3⟩, h4⟩, h5⟩, h6⟩, h7⟩, h8⟩, h9⟩, h10⟩, h11⟩, h12⟩, h13⟩, h14⟩ := h
  exact ⟨h1, h2, h3, h4, h5, h6, h7, h8, h9, h10, h11, h12, h13, get_stages h14⟩

/-- A state with some registers at other words. -/
def withRegs (s : State) (l : List (Nat × Nat)) : State := l.foldl (fun s x => s.setReg x.1 (BitVec.ofNat 32 x.2)) s
/-- The state that a command answers. -/
def after (c : Instr) (s : State) : State := match exec c s with
  | .next t => t
  | _ => State.reset
/-- Geometry: L crossings of M slots. -/
def geom (l m : Nat) : Nat × Nat := (Reg.tsbGeom, l * 65536 + m)

/-! ### The block and Touchstone -/

/-- Touchstone in a state of its Table 2, 4 crossings of 8 slots, with other registers and its own state. -/
def ts (code : Nat) (t : Tsb := {}) (l : List (Nat × Nat) := []) : State :=
  withRegs { State.reset with tsb := t } ([geom 4 8, (Reg.tsbStatus, code)] ++ l)

theorem hyp_StepRunsFrontCommand : ({ State.reset with pending := [.nop] } : State).pending = .nop :: [] ∧ State.reset.pending = [] :=
  ⟨rfl, rfl⟩
theorem hyp_steps_from_reset : State.reset.Inv ∧ step State.reset = .next State.reset := ⟨inv_of (by decide +kernel), rfl⟩
theorem hyp_OnlyClockMovesTheCount : movesCount .nop = false ∧ exec .nop State.reset = .next State.reset := ⟨rfl, rfl⟩

theorem hyp_FclkEdgeAdvancesCount :
    (∀ s ∈ [ts 2, ts 2 { slot := 7 }, ts 2 { slot := 7, crossing := 3 }, ts 1 { slot := 6, crossing := 3 }], s.tsbState ≠ .unlocked ∧
      bitsOf (s.reg Reg.tsbGeom) 7 0 = 8 ∧ bitsOf (s.reg Reg.tsbGeom) 31 16 = 4) := by decide +kernel
/-- R35: slot 7 of crossing 3 of an orbit of 4 crossings of 8 slots is the last of the orbit. -/
theorem test_orbit_wraps : let t := after .slotAdvance (ts 2 { orbit := 9, slot := 7, crossing := 3 })
    (t.tsb.orbit, t.tsb.crossing, t.tsb.slot) = (10, 0, 0) := by decide +kernel
theorem pin_marker (s : State) (k : Int) (h : s.fld Reg.tsbCtrl 1 0 = 0) (hk : k = (s.tsb.cx : Int) + (if s.fld Reg.tsbPhase 9 0 = 0 then 0 else 1)) :
    MarkerOf .orbitPinMarker s k none := Or.inr ⟨rfl, h, hk, rfl⟩
theorem word_marker (s : State) (j : Nat) (b : Byte) (h : s.fld Reg.tsbCtrl 1 0 = 1) (hj : s.tsb.orbitDue = some (j, b)) :
    MarkerOf .orbit s j (some b) := Or.inl ⟨rfl, h, j, b, hj, rfl, rfl⟩

/-- Touchstone ALIGNED at crossing 1, the pin marker at the next crossing boundary: misplaced; and at crossing 3: in place. -/
def pinAt (code crossing : Nat) (t : Tsb := {}) : State := ts code { t with crossing := crossing, cx := 40 } [(Reg.tsbCtrl, 0), (Reg.tsbPhase, 5)]

theorem hyp_EstablishedCountStands_pin (x : Nat) (h : x ∈ [1, 3]) : (pinAt 2 x).Inv ∧ (pinAt 2 x).tsbState = .aligned ∧
    MarkerOf .orbitPinMarker (pinAt 2 x) 41 none ∧ (pinAt 2 x).tsb.moveArmed = false ∧ (pinAt 2 x).tsb.orbitReset = false ∧
    ((x = 3 ∧ ((pinAt 2 x).crossingPlus (41 - (pinAt 2 x).tsb.cx)).2 = 0) ∨ (x = 1 ∧ ((pinAt 2 x).crossingPlus (41 - (pinAt 2 x).tsb.cx)).2 ≠ 0)) := by
  simp only [List.mem_cons, List.not_mem_nil, or_false] at h
  obtain rfl | rfl := h
  · exact ⟨inv_of (by decide +kernel), by decide +kernel, pin_marker _ _ (by decide +kernel) (by decide +kernel), rfl, rfl, by decide +kernel⟩
  · exact ⟨inv_of (by decide +kernel), by decide +kernel, pin_marker _ _ (by decide +kernel) (by decide +kernel), rfl, rfl, by decide +kernel⟩

/-- The same from a timing lane, in HOLDOVER: an ORBIT word for crossing 43, three on, is in place. -/
def wordAt : State := ts 3 { crossing := 1, cx := 40, orbitDue := some (43, 0x12) } [(Reg.tsbCtrl, 1)]
theorem hyp_EstablishedCountStands_word : wordAt.Inv ∧ wordAt.tsbState = .holdover ∧ MarkerOf .orbit wordAt 43 (some 0x12) ∧
    wordAt.tsb.moveArmed = false ∧ wordAt.tsb.orbitReset = false ∧ (wordAt.crossingPlus (43 - wordAt.tsb.cx)).2 = 0 :=
  ⟨inv_of (by decide +kernel), by decide +kernel, word_marker _ _ _ (by decide +kernel) rfl, rfl, rfl, by decide +kernel⟩
/-- R52: a misplaced marker is counted and moves nothing. -/
theorem test_misplaced_marker : let t := after .orbitPinMarker (pinAt 2 1)
    (t.tsb.crossing, t.reg Reg.tsbOrbitErrCnt) = (1, 1) := by decide +kernel
/-- R52: at crossing 2 in three consecutive orbits, with another marker elsewhere in between. -/
theorem test_orbit_slip : let t := after .orbitPinMarker (pinAt 2 1 { orbit := 5, slips := [(7, 5, 1), (2, 4, 2)] })
    (t.rbit Reg.tsbStatus 10, t.rbit Reg.glbFault 1, t.tsb.slips) = (true, true, [(2, 5, 3), (7, 5, 1)]) := by decide +kernel
theorem test_marker_number_error : let t := after .orbit wordAt
    (t.reg Reg.tsbOrbitNumErr, t.reg Reg.tsbOrbitErrCnt) = (1, 0) := by decide +kernel

/-- LOCKING: no marker yet; one at the right distance; one at a wrong distance, twice before the same. -/
def est (t : Tsb) : State := pinAt 1 1 t
theorem hyp_MarkersEstablishTheCount : (∀ s ∈ [est {}, est { est := some 37 }, est { est := some 40, wrong := [2, 1] },
      (est { est := some 40, wrong := [1, 1] }).setFld Reg.bootStatus 31 28 2], formOk s = true ∧ s.tsbState = .locking ∧ s.fld Reg.tsbCtrl 1 0 = 0 ∧
      (41 : Int) = (s.tsb.cx : Int) + (if s.fld Reg.tsbPhase 9 0 = 0 then 0 else 1) ∧ 1 ≤ s.L) ∧
    (est {}).tsb.est = none ∧ ((est { est := some 37 }).tsb.est = some 37 ∧ (41 : Int) = 37 + (est { est := some 37 }).L) ∧
    ((1 : Nat) ≠ (est {}).L ∧ ([2, 1] : List Nat).take 2 ≠ [1, 1]) ∧ ((est {}).setFld Reg.bootStatus 31 28 2).phase = 2 := by decide +kernel
/-- The confirming marker with a COUNTER_RESET of the orbit number waiting, from the pin and from a timing lane. -/
theorem hyp_MarkersEstablish_word : (∀ t ∈ [({ est := some 40, orbitDue := some (44, 9), cx := 43 } : Tsb),
      { est := some 40, orbitDue := some (44, 9), cx := 43, orbitReset := true }],
      let s := ts 1 t [(Reg.tsbCtrl, 1)]
      formOk s = true ∧ s.tsbState = .locking ∧ s.fld Reg.tsbCtrl 1 0 = 1 ∧ s.tsb.orbitDue = some (44, 9) ∧ (44 : Int) = 40 + s.L) := by
  decide +kernel
theorem test_second_marker_aligns : (after .orbitPinMarker (est { est := some 37 })).tsbState = .aligned := by decide +kernel

/-- A timing word arrives on the active lane A in crossing 40, lane B qualified or not, with or without its word for 40. -/
def word (status : Nat) (b : Option (Byte × Byte)) : State :=
  ts (2 + status) { cx := 40, laneB := { words := [(40, b)] } } [(Reg.tsbCtrl, 1)]
def good : TimingChars := { comma := true, cmd := some 0x10, payload := some 0x55, crc := some (crc8 [0x10, 0x55]) }
def bad : TimingChars := { good with comma := false }
theorem hyp_ActiveWordDecidesCommand : (∀ s ∈ [word 0x60 (some (0x10, 0x55)), word 0x60 (some (0, 0)), word 0x20 none, word 0x60 none],
      formOk s = true ∧ ((0 : Fin 2) : Nat) = s.activeLane ∧ 40 = ((s.tsb.cx : Int) + s.laneOffset 0).toNat ∧ (∀ d ∈ s.tsb.decided, d.1 ≠ 40)) ∧
    goodWord good = some (0x10, 0x55) ∧ goodWord bad = none ∧ (word 0x60 (some (0, 0))).qualified 1 = true ∧
    ((word 0x60 (some (0, 0))).tlane 1).wordFor 40 = some (0, 0) := by decide +kernel
/-- A word on the standby lane B in crossing 40, which waits for one, or whose active lane's recovery has no lock; an active lane that has
failed with no other to take its place. -/
theorem hyp_StandbyWord : (∀ s ∈ [({ word 0x60 none with tsb := { (word 0x60 none).tsb with awaiting := [40] } } : State), word 0x60 none], formOk s = true ∧
      ((1 : Fin 2) : Nat) = 1 - s.activeLane ∧ 40 = ((s.tsb.cx : Int) + s.laneOffset 1).toNat ∧ (∀ d ∈ s.tsb.decided, d.1 ≠ 40) ∧
      s.qualified 1 = true ∧ (((s.tlane 1).hist.take 15).filter id).length ≤ 1) ∧ (word 0x60 none).rbit (Reg.tlnStatus 0) 7 = false ∧
    (let s := ts 2 { cx := 40, laneA := { failed := true } } [(Reg.tsbCtrl, 0)]
     formOk s = true ∧ s.activeUsed = false ∧ ((0 : Fin 2) : Nat) = s.activeLane) := by decide +kernel
/-- R38: a bad word is replaced by the standby lane's, and counted. -/
theorem test_standby_word : let t := after (.timingWord 0 bad) (word 0x60 (some (0x30, 7)))
    (t.tsb.decided, t.reg Reg.tsbSubstCnt) = ([(40, (0x30, 7))], 1) := by decide +kernel

/-- A command waits for its effect in this crossing. -/
def due (c p : Byte) (l : List (Nat × Nat) := []) (t : Tsb := {}) : State := ts 2 { t with due := some (c, p) } l
theorem hyp_timing_commands : (∀ c ∈ [0x00, 0x40, 0xA0, 0xF3, 0x70, 0x80, 0x60, 0x5F, 0x57], formOk (due c 3) = true ∧ (due c 3).tsb.due = some (c, 3)) ∧
    bitsOf (0x00 : Byte) 7 4 = 0 ∧ bitsOf (0x40 : Byte) 7 4 = 4 ∧ 10 ≤ bitsOf (0xA0 : Byte) 7 4 ∧ bitsOf (0x70 : Byte) 7 4 = 7 ∧ bitsOf (0x80 : Byte) 7 4 = 8 ∧
    bitsOf (0x60 : Byte) 7 4 = 6 ∧ bitsOf (0x5F : Byte) 7 4 = 5 ∧ (due 0x70 0 [(Reg.tsbCtrl, 0x80)]).rbit Reg.tsbCtrl 7 = true := by decide +kernel
theorem test_quiet : let t := after .quietStart (due 0x70 0 [(Reg.tsbCtrl, 0x80)])
    (t.rbit Reg.tsbStatus 7, t.tsb.due) = (true, none) := by decide +kernel
/-- R42: the edge into slot M − 1 = 7 of crossing 40, QUIET_START due in crossing 41, leaves the change to map 1 waiting. -/
def quietEdge : State := ts 2 { slot := 6, cx := 40, decided := [(39, (0x70, 0))] } [(Reg.tsbCtrl, 0x81)]
theorem hyp_QuietEdge : formOk quietEdge = true ∧ quietEdge.counting = true ∧ (let t := after .slotAdvance quietEdge
    t.tsb.slot + 1 = t.M ∧ t.rbit Reg.tsbCtrl 7 = true ∧ t.tsb.cx ≠ 0 ∧ t.tsbState = .aligned ∧
    (t.wordUsed (t.tsb.cx - 1)).map (·.1) = some (0x70, 0) ∧ t.rbit (Reg.secMapsel 3) 1 = true) := by decide +kernel
/-- R40: the CAL pulse of M slots from slot 3. -/
theorem test_calstrobe : (after .calstrobe (due 0x5A 3 [] { tick := 80 })).tsb.cal = [{ mask := 0xA, rise := 83, fall := 91 }] := by decide +kernel

/-- After COUNTER_RESET with bit 0, the in-place marker gives the orbit number. -/
def resetAt : State := pinAt 2 3 { orbitReset := true }
theorem hyp_CounterResetClears : resetAt.tsbState = .aligned ∧ resetAt.tsb.moveArmed = false ∧ resetAt.tsb.orbitReset = true ∧
    MarkerOf .orbitPinMarker resetAt 41 none ∧ (resetAt.crossingPlus (41 - resetAt.tsb.cx)).2 = 0 ∧
    exec .orbitPinMarker resetAt = .next (after .orbitPinMarker resetAt) :=
  ⟨by decide +kernel, rfl, rfl, pin_marker _ _ (by decide +kernel) (by decide +kernel), by decide +kernel, rfl⟩

def calm : State := ts 2 { tick := 91, cal := [{ mask := 0xA, rise := 83, fall := 91 }], calPins := 0xA }
theorem hyp_CalPinsPulse : bitsOf (0x5A : Byte) 7 4 = 5 ∧ (due 0x5A 8).M = 8 ∧ (due 0x5A 0).planeRuns = true ∧ (∃ c ∈ calm.tsb.cal, c.mask.getLsbD 1 = true ∧ c.fall ≤ calm.tsb.tick) := by
  decide +kernel
theorem test_cal_pin_falls : (after (.calPinFall 1) calm).tsb.calPins = 8 := by decide +kernel

/-- Timing lane A fails: by loss of lock; by 4 commas missing; by 3 bad words of 16. -/
def fail (a : TLane) : State := ts (2 + 0x60) { laneA := a } [(Reg.tsbFail, 3 * 16 + 4)]
theorem hyp_FailedLaneGivesWay : (∀ a ∈ [{ }, { noComma := 4 }, ({ hist := [true, false, true, true] } : TLane)], formOk (fail a) = true ∧
      (0 : Nat) = (fail a).activeLane ∧ (fail a).qualified (1 - 0) = true) ∧
    (1 ≤ (fail {}).fld Reg.tsbFail 3 0 ∧ (fail {}).fld Reg.tsbFail 3 0 ≤ ((fail { noComma := 4 }).tlane 0).noComma) ∧
    (1 ≤ (fail {}).fld Reg.tsbFail 8 4 ∧ (fail {}).fld Reg.tsbFail 8 4 ≤ (((fail { hist := [true, false, true, true] }).tlane 0).hist.filter id).length) := by
  decide +kernel
theorem test_lane_failure : let t := after (.timingLaneFailure 0 false) (fail { noComma := 4 })
    (t.qualified 0, t.tsb.swapDue.isSome) = (false, true) := by decide +kernel

def swap (st : Nat) (t : Tsb := {}) : State := ts (2 + st) t
theorem hyp_StandbyLaneTakesOver : formOk (swap 0x40 { swapDue := some 4, cx := 5 }) = true ∧ (swap 0x40).qualified (1 - (swap 0x40).activeLane) = true ∧
    (swap 0x20).qualified (1 - (swap 0x20).activeLane) = false ∧ (swap 0x40 { swapDue := some 4, cx := 5 }).tsb.slot = 0 := by decide +kernel
theorem test_failover : (after .failover (swap 0x40 { swapDue := some 4, cx := 5 })).activeLane = 1 := by decide +kernel

def quali (a : TLane) (b : TLane) (st : Nat) (ctrl : Nat) : State :=
  ts (2 + st) { laneA := a, laneB := b } [(Reg.tsbCtrl, ctrl), (Reg.tlnStatus 0, 0x80), (Reg.tlnStatus 1, 0x80)]
/-- A qualifies while B is active, with AUTO_REVERT set or not; B qualifies while A is active and has failed, or has not. -/
theorem hyp_LaneQualifies : (∀ s ∈ [quali { clean := 256 } {} 0x10 0x100, quali { clean := 256 } {} 0x10 0, quali { failed := true } { clean := 256 } 0 0,
      quali {} { clean := 256, hist := [true] } 0 0], formOk s = true) ∧
    (quali { clean := 256 } {} 0x10 0x100).rbit (Reg.tlnStatus 0) 7 = true ∧ (quali {} {} 0 0).rbit (Reg.tlnStatus 1) 7 = true ∧
    (0 : Nat) ≠ (quali {} {} 0x10 0).activeLane ∧ (1 : Nat) ≠ (quali {} {} 0 0).activeLane ∧ (-2 : Int).natAbs ≤ 2 ∧
    (quali {} {} 0x10 0x100).rbit Reg.tsbCtrl 8 = true ∧ ((quali {} {} 0 0).tlane 1).clean < 256 ∧ 2 < (3 : Int).natAbs ∧ ((quali { failed := true } {} 0 0).tlane 0).failed = true := by decide +kernel

theorem hyp_SnapshotAndNowRead : formOk (ts 2) = true ∧ (0x49 : BitVec 7) ≠ 0 ∧ (0x49 : BitVec 7).getLsbD 0 = true ∧ (0x49 : BitVec 7).getLsbD 3 = true ∧
    (0x49 : BitVec 7).getLsbD 6 = true ∧ (ts 2).tsb.crossing < 65536 ∧ (ts 2).tsb.slot < 128 := by decide +kernel
theorem test_now_read : (after .tsbNowRead (ts 2 { crossing := 3, slot := 5 })).mgt.read = 0x30005 := by decide +kernel
/-- R66: counted before the fire slot 9, counted in it one more. -/
theorem test_snapshot : (after (.tsbSnap 1) { ts 2 {} [(Reg.tsbCmdLost, 10)] with regs0 := (ts 2 {} [(Reg.tsbCmdLost, 9)]).regs }).reg
    (Reg.tsbCntSnap 1) = 9 := by decide +kernel

theorem hyp_LockHoldoverAndLost : (∀ s ∈ [ts 0, ts 5 { ret := .locking }, ts 0 {} [(Reg.tsbCtrl, 1)], ts 0x21 {} [(Reg.tsbCtrl, 1)], ts 1, ts 2 {} [(Reg.tsbHoldover, 100)],
      ts 3 { cx := 140, holdAt := 40 } [(Reg.tsbHoldover, 100)], ts 3 { cx := 141, holdAt := 40 } [(Reg.tsbHoldover, 100)], ts 2 {} [(Reg.tsbHoldover, 0)], ts 4,
      ts 5 { ret := .qualifying, goodAt := some 7, cx := 107 } [(Reg.tsbReturnQual, 100)],
      ts 0x42 { laneA := { failed := true } } [(Reg.tsbCtrl, 1)]], formOk s = true) ∧
    ((ts 0).tsbState = .unlocked ∧ 1 ≤ (ts 0).L ∧ 8 ≤ (ts 0).M ∧ (ts 0).phase ≠ 5 ∧ (ts 0).cxTiming = false ∧ (ts 0 {} [(Reg.tsbCtrl, 1)]).cxTiming = true) ∧
    ((ts 5).tsbState = .returning ∧ (ts 1).tsbState = .locking ∧ (ts 2).tsbState = .aligned ∧ (ts 3).tsbState = .holdover ∧ (ts 4).tsbState = .lost) ∧
    (ts 3 {} [(Reg.tsbHoldover, 100)]).fld Reg.tsbHoldover 11 0 = 100 ∧ (ts 2 {} [(Reg.tsbHoldover, 0)]).fld Reg.tsbHoldover 11 0 = 0 ∧
    (ts 5 {} [(Reg.tsbReturnQual, 100)]).fld Reg.tsbReturnQual 15 0 = 100 ∧ (ts 2).tsb.swapDue = none ∧ (ts 2 { swapDue := some 5 }).tsb.swapDue ≠ none ∧ (ts 0x42).activeLane = 0 ∧ (ts 0x42).qualified (1 - 0) = true := by decide +kernel
theorem test_holdover_ends : (after .holdoverExpiry (ts 3 { cx := 141, holdAt := 40 } [(Reg.tsbHoldover, 100)])).tsbState = .lost := by decide +kernel
theorem test_clock_loss : (after .clockLoss (ts 2 {} [(Reg.tsbHoldover, 100)])).tsbState = .holdover := by decide +kernel


/-! ### Lanes (chapter 3) -/

/-- Touchstone ALIGNED, lane 3 in a mode word of LAN_CFG, in a lane state, its quadrant powered. -/
def ln (cfg st : Nat) (k : LaneSt := {}) (l : List (Nat × Nat) := []) (t : Tsb := { cx := 40, crossing := 0, tick := 320 }) : State :=
  let s := ts 2 t ([(Reg.lanCfg 3, cfg), (Reg.lanStatus 3, st)] ++ l)
  ({ s with pwr := { s.pwr with quads := 1 } }).setLane 3 k
/-- Mirpel receive, frames of 3 blocks: 8 words. -/
def mirpel : Nat := 2 ^ 30 + 3 * 256

theorem hyp_LanesLockJoinAndAreLost : (∀ st ∈ [0, 1, 4, 5, 6], formOk (ln mirpel st) = true ∧ (ln mirpel st).laneState 3 = st) ∧
    (ln mirpel 1).rxPowered 3 = true ∧ (ln mirpel 1).rbit (Reg.lanStatus 3) 5 = false ∧ (ln mirpel 4).planeRuns = true ∧
    (ln mirpel 4 { joinSince := 39 }).tsb.ret = .none ∧ (ln mirpel 4).tsb.crossing = 0 ∧ (ln mirpel 4).tsb.slot = 0 ∧
    (let s := ln mirpel 4 { joinSince := 312 }; (s.lane 3).joinSince + s.M ≤ s.tsb.tick) ∧
    (let s := ln mirpel 4 { joinSince := 313 }; s.tsb.tick < (s.lane 3).joinSince + s.M) ∧
    ((ln mirpel 5 { goneTick := some 320 }).lane 3).goneTick = some (ln mirpel 5).tsb.tick ∧ ((ln mirpel 5).lane 3).goneTick ≠ some 320 ∧
    ((ln mirpel 5 { lossTick := some 320 }).lane 3).lossTick = some (ln mirpel 5).tsb.tick ∧ ((ln mirpel 5).lane 3).lossTick ≠ some 320 ∧
    (ln mirpel 4 {} [] { crossing := 3 }).tsb.crossing ≠ 0 := by decide +kernel
theorem test_lane_joins : (after (.laneJoin 3) (ln mirpel 4 { joinSince := 39 })).laneState 3 = 5 := by decide +kernel
theorem test_lane_lost : let t := after (.laneLoss 3) (ln mirpel 5)
    (t.laneState 3, t.fld (Reg.lanEvtcnt 3) 15 8) = (1, 1) := by decide +kernel

theorem hyp_LaneEnables : (∀ c ∈ [0, 1, 2], formOk (ln mirpel 5 {} [(Reg.lanCtrl 3, c)]) = true) ∧
    (ln mirpel 5 {} [(Reg.lanCtrl 3, 2)]).fld (Reg.lanCtrl 3) 1 0 ≠ 0 ∧ (ln mirpel 5 {} [(Reg.lanCtrl 3, 0)]).fld (Reg.lanCtrl 3) 1 0 = 0 ∧
    (ln mirpel 5 {} [(Reg.lanCtrl 3, 0)]).rbit (Reg.lanCtrl 3) 2 = false := by decide +kernel
theorem test_pd_waits_for_tx_en : (after (.pdWrite 3 true) (ln mirpel 5 {} [(Reg.lanCtrl 3, 2)])).rbit (Reg.lanCtrl 3) 2 = false := by
  decide +kernel

/-- A transmitter in mode m that sends frames of 3 blocks, in this slot, TXLAT 2. -/
def sender (m : Nat) : State := ln (m * 2 ^ 28 + 3 * 256) 0 { txOn := true } [(Reg.lanCtrl 3, 2 * 256)]
theorem hyp_SentFrameIsWellFormed (m : Fin 4) (h : 1 ≤ m.val) : formOk (sender m) = true ∧ (sender m).txDue 3 m = true := by
  revert m
  decide +kernel

/-- The blocks of a Mirpel frame with its checks: its crossing 38, two payload blocks of rising words. -/
def frameBlocks : List Block66 := ((sender 1).txFrame 3 (0xD2 + 2 * 2 ^ 8) [1, 2, 3, 4, 5, 6, 7, 8]).lane 3 |>.sent
/-- A lane that waits for crossing 38, to be delivered a crossing later. -/
def receiver (st : Nat) : State := ln mirpel st { next := some 38 } [(Reg.lanEq 3, 2 ^ 24)]
theorem hyp_ArrivedFrameWaits : formOk (receiver 5) = true ∧ 4 ≤ (receiver 5).laneState 3 ∧ (receiver 5).rxMode 3 = 1 ∧ (receiver 5).rxSys 3 = false ∧
    frameBlocks.length = (receiver 5).fld (Reg.lanCfg 3) 15 8 ∧
    (∃ h ∈ (descrambleBlocks ((receiver 5).lane 3).rxScr frameBlocks).2.head?, bitsOf h.2 7 0 = 0xD2) ∧ ((receiver 5).lane 3).next = some 38 := by
  decide +kernel
/-- A raw 8b/10b crossing of 9 characters, and one whose marker is missing. -/
def rawLane : State := ln (3 * 2 ^ 30 + 9 * 256) 5 { next := some 38 }
def chars (k : Bool) : RawCrossing := .r8 (some (k, 0xBC) :: [1, 2, 3, 4, 5, 6, 7, 8].map (fun b => some (false, b)))
theorem hyp_StaysAligned : StaysAligned (receiver 5) 3 (frameBlocks.map (fun b => syncBad b.1)) 7 ∧
    ¬StaysAligned (ln mirpel 5 { next := some 38, badHdr := 3 }) 3 [] 2 ∧ StaysAligned rawLane 3 [] 7 ∧
    ¬StaysAligned (ln (3 * 2 ^ 30 + 9 * 256) 5 { next := some 38, badHdr := 3 }) 3 [] 2 := by
  unfold StaysAligned
  decide +kernel
/-- R76, R88: the words of the frame as they were sent, word 0 tagged FRAME. -/
theorem test_frame_arrives : ((after (.mirpelFrame 3 frameBlocks 100) (receiver 5)).lane 3).frames.map (fun f => (f.cx, f.row, f.words)) =
    [(39, 7, FWord.frame 1 :: [2, 3, 4, 5, 6, 7, 8].map FWord.data)] := by decide +kernel
/-- A frame with one payload bit changed meets row 6. -/
theorem test_frame_check : ((after (.mirpelFrame 3 (frameBlocks.take 2 ++ (frameBlocks.drop 2).map (fun b => (b.1, b.2 ^^^ 4))) 100)
    (receiver 5)).lane 3).frames.map (fun f => f.row) = [6] := by decide +kernel
theorem hyp_RawCrossingWaits : formOk rawLane = true ∧ 4 ≤ rawLane.laneState 3 ∧ (rawLane.lane 3).next = some 38 ∧
    rawLane.rawTake 3 (chars true) = some (true, FWord.frame 0x0201 :: [0x0403, 0x0605, 0x0807].map FWord.data) ∧
    (rawLane.rawTake 3 (chars false)).map (·.1) = some false := by decide +kernel

/-- A delivery at slot 0: a frame of each row, the lane LIVE or not, RX_EN on or off. -/
def deliv (st row : Nat) (en : Bool) : State :=
  ln mirpel st { frames := [{ cx := 40, tick := 300, row := row, words := List.replicate 8 (FWord.data 9), dark := false, sreset := false }] }
    [(Reg.lanCtrl 3, if en then 1 else 0)]
theorem hyp_DeliveryFollowsTable7 : ∀ x ∈ [(5, 2, true), (5, 3, true), (5, 4, true), (5, 5, true), (5, 6, true), (5, 7, true), (6, 7, true), (5, 7, false)],
    let s := deliv x.1 x.2.1 x.2.2
    formOk s = true ∧ s.planeRuns = true ∧ s.rxMode 3 ≠ 0 ∧ s.fld (Reg.lanEq 3) 22 16 = s.tsb.slot ∧
    (s.lane 3).deliver.map (·.start) ≠ some s.tsb.tick ∧ s.rxOn 3 s.tsb.cx = x.2.2 ∧
    ((s.lane 3).frames.find? (fun g => g.cx == s.tsb.cx)).map (fun f => (f.row, f.lost, f.live)) = some (x.2.1, false, false) := by decide +kernel
/-- R90: no frame waits for the crossing of a LIVE lane. -/
theorem test_missing_frame_is_a_loss : let t := after (.frameDelivery 3) (ln mirpel 5)
    ((t.lane 3).frames, t.laneState 3, t.fld (Reg.lanEvtcnt 3) 15 8) = ([], 1, 1) := by decide +kernel
theorem test_bad_payload_is_poison : let t := after (.frameDelivery 3) (deliv 5 6 true)
    ((t.lane 3).deliver.map (·.words), t.fld (Reg.lanErrcnt 3) 31 16) = (some (List.replicate 8 (FWord.poison 2)), 1) := by decide +kernel

/-! ### Cells (chapter 4) -/

/-- A cell field: OP, operand codes, the rest of bits 30:16, IMM. -/
def cf (op srcA srcB rest imm : Nat) : Nat := op * 2 ^ 43 + srcA * 2 ^ 37 + srcB * 2 ^ 31 + rest + imm
/-- The plane runs, cluster 0 in it, cell 0 with a field in context 0 and its local registers 0 and 1 at two words. -/
def cel (f : Nat) (a b : FWord) (k : CellSt := {}) : State :=
  ((ts 2 {} [(Reg.glbCl 0, 2 ^ 31)]).setLe (tileWin 0) 8 f).setCell 0 { k with loc0 := a, loc1 := b }
/-- A MARK word. -/
def mark (d : W16) : FWord := { tag := .mark, d := d }
def mod1 : Nat := 2 ^ 20
def mkz : Nat := 2 ^ 26

theorem hyp_cells (op : Nat) (h : op < 0x1A) : let s := cel (cf op 0x20 0x21 0 0x7FFF) (FWord.data 0x8000) (FWord.data 0x7FFF)
    formOk s = true ∧ s.cellDue 0 op = true ∧ s.opA 0 (fieldNow s 0) = FWord.data 0x8000 ∧ s.opB 0 (fieldNow s 0) = FWord.data 0x7FFF := by
  have key : ∀ op ∈ List.range 0x1A, let s := cel (cf op 0x20 0x21 0 0x7FFF) (FWord.data 0x8000) (FWord.data 0x7FFF)
    formOk s = true ∧ s.cellDue 0 op = true ∧ s.opA 0 (fieldNow s 0) = FWord.data 0x8000 ∧ s.opB 0 (fieldNow s 0) = FWord.data 0x7FFF := by
    decide +kernel
  exact key op (List.mem_range.mpr h)
/-- The forms of CMP, THR, ADDS and ACC by MOD; words of every tag; a word whose parity fails. -/
theorem hyp_cell_forms : (∀ m ∈ List.range 8, cfMod (fieldNow (cel (cf 9 0x20 0x21 (m * mod1) 5) FWord.zero FWord.zero) 0) = BitVec.ofNat 3 m) ∧
    cfDst (fieldNow (cel (cf 0x16 0x20 0x21 (2 ^ 30 + 2 ^ 28) 0) FWord.zero FWord.zero) 0) = some 1 ∧
    cfMkz (fieldNow (cel (cf 3 0x20 0x21 mkz 0) FWord.zero FWord.zero) 0) = true ∧
    (∀ x ∈ [FWord.poison 3, mark 0x4000, FWord.frame 7, FWord.data 7], (cel (cf 3 0x20 0x21 0 0) x x).opA 0 (fieldNow (cel (cf 3 0x20 0x21 0 0) x x) 0) = x ∧
      x.bad = false) ∧ ({ FWord.data 7 with bad := true } : FWord).bad = true := by decide +kernel
/-- What the cell makes. -/
def made (c : CellNo → Instr) (s : State) : Option (FWord × Option Bool) := ((after (c 0) s).cell 0).issued.map (fun u => (u.res, u.flag))
/-- Table 7: 0xFFFF + 2 = 1 with carry; signed ADDS of 0x7FFF and 1 saturates; 2 - 3 borrows. -/
theorem test_cell_add : made .cellAdd (cel (cf 3 0x20 0x21 0 0) (FWord.data 0xFFFF) (FWord.data 2)) = some (FWord.data 1, some true) := by decide +kernel
theorem test_cell_adds_signed : made .cellAdds (cel (cf 5 0x20 0x21 mod1 0) (FWord.data 0x7FFF) (FWord.data 1)) = some (FWord.data 0x7FFF, some true) := by
  decide +kernel
theorem test_cell_sub : made .cellSub (cel (cf 4 0x20 0x21 0 0) (FWord.data 2) (FWord.data 3)) = some (FWord.data 0xFFFF, some true) := by decide +kernel
theorem test_cell_abs : made .cellAbs (cel (cf 8 0x20 0x21 0 0) (FWord.data 0x8000) FWord.zero) = some (FWord.data 0x7FFF, some true) := by decide +kernel
theorem test_cell_asr : made .cellAsr (cel (cf 0x11 0x20 0x21 0 0) (FWord.data 0x8003) (FWord.data 1)) = some (FWord.data 0xC001, some true) := by decide +kernel
theorem test_cell_mul8_signed : made .cellMul8 (cel (cf 0x12 0x20 0x21 mod1 0) (FWord.data 0xFF) (FWord.data 2)) = some (FWord.data 0xFFFE, none) := by
  decide +kernel
theorem test_cell_poison_wins : made .cellAdd (cel (cf 3 0x20 0x21 0 0) (mark 1) (FWord.poison 9)) = some (FWord.poison 9, some false) := by decide +kernel
theorem test_cell_parity : made .cellAdd (cel (cf 3 0x20 0x21 0 0) { FWord.data 1 with bad := true } FWord.zero) = some (FWord.poison 1, some false) := by
  decide +kernel

theorem hyp_ResultStagesAndScratch : (∃ u k, (k : CellSt).issued = some u ∧ k.stage2 = none ∧ k.stage3 = none ∧ cfOuth u.field = false ∧ u.res.bad = false) ∧
    State.reset.Inv ∧ State.reset.protIdle = true ∧ (mark 5).bad = false :=
  ⟨⟨{ field := 0, res := FWord.data 5, flag := some true, scr := none, evTask := 0, evFlag := 0 },
    { issued := some { field := 0, res := FWord.data 5, flag := some true, scr := none, evTask := 0, evFlag := 0 } }, rfl, rfl, rfl, by decide, by decide⟩,
    inv_of (by decide +kernel), by decide +kernel, by decide⟩
theorem test_scratch : ((State.reset.scratchWrite 5 511 (mark 0x1234)).scratchRead 5 511).2 = mark 0x1234 := by decide +kernel

/-! ### Sorters, DEC (chapters 5 and 6) -/

/-- The plane runs, sector 0 in it; its sorter on, sampling at slot 0, BADRANK br; the merge unit over sectors 0 and 1. -/
def srt (br : Nat) (z : Sorter) (t : Tsb := { tick := 100 }) : State :=
  ({ ts 2 t [(Reg.glbSecState 0, 2 ^ 30), (Reg.srtCfg 0, 2 ^ 13 + br * 2 ^ 14), (Reg.mrgCfg, 3 * 2 ^ 16 + 2 ^ 13 + br * 2 ^ 14)] with }).setSorter 0 z
/-- Pairs with keys 5 (at 1 and 3), 9 (at 4), a bad one at 2. -/
def pairs : Tbl (Option FWord) := [(1, some (FWord.data 5)), (2, some (FWord.poison 2)), (3, some (FWord.data 5)), (4, some (FWord.data 9))]
theorem hyp_SorterRanksPairs : ∀ br ∈ [0, 1, 2], let s := srt br { inputs := pairs }
    formOk s = true ∧ s.planeRuns = true ∧ s.secIn 0 = true ∧ s.srtOn 0 = true ∧ s.fld (Reg.srtCfg 0) 6 0 = s.tsb.slot ∧
    (s.sorter 0).captures = [] := by decide +kernel
/-- R166: by descending key, equal keys by ascending index, the bad one last (BADRANK 0). -/
theorem test_sorter_ranks : ((after (.sorterCapture 0) (srt 0 { inputs := pairs })).sorter 0).captures.map (fun c => (c.tick, (c.ranks.take 5).map (·.1))) =
    [(124, [FWord.data 9, FWord.data 5, FWord.data 5, FWord.poison 2, FWord.zero])] := by decide +kernel

def cap : Capture := { tick := 100, ranks := [(FWord.data 9, FWord.data 1)] }
theorem hyp_SortersAndBallsEmitOnTime : let s := { srt 0 { captures := [cap] } with merge := { captures := [cap] } }
    formOk s = true ∧ s.planeRuns = true ∧ s.secIn 0 = true ∧ (s.sorter 0).captures.find? (fun c => c.tick == s.tsb.tick) = some cap ∧
    s.rbit Reg.mrgCfg 13 = true ∧ s.fld Reg.mrgCfg 6 0 = s.tsb.slot ∧ (∀ c ∈ s.merge.captures, c.tick ≠ s.tsb.tick + 12) ∧
    maskList (s.reg Reg.mrgCfg >>> 16) 16 = [0, 1] ∧ s.secIn 1 = false ∧ (Tbl.get (0, 0) ({ s with tsb := { s.tsb with cx := 9 } } : State).leaves 257).1 ≠ 9 ∧
    (let u : State := { s.setReg (Reg.glbSecState 1) (2 ^ 26) with leaves := [(257, (0, 7))] }
     formOk u = true ∧ u.fld (Reg.glbSecState 1) 29 26 ≠ 0 ∧ (Tbl.get (0, 0) u.leaves 257).1 = u.tsb.cx) ∧
    s.merge.captures.find? (fun c => c.tick == s.tsb.tick) = some cap := by decide +kernel
theorem hyp_merge_lists : (2 : Nat) ≤ 2 := le_refl _

/-- A word presented 4 slots ago to DEC 3, or a departure. -/
def ball (w : Option FWord) (out : Bool) (cfg : Nat := 0) : State :=
  let s := ts 2 { tick := 104 } [(Reg.decCfg, cfg)]
  { s with dec := [{ bit := 3, tick := 100, word := w }], boot := { s.boot with outDec := out } }
theorem hyp_DecBallFollowsItsWord : ∀ w ∈ [none, some (FWord.data 1), some (FWord.frame 2), some (FWord.poison 2), some (FWord.dark 1)],
    let s := ball w true 8
    formOk s = true ∧ s.boot.outDec = true ∧ (ball w false).boot.outDec = false ∧
    (s.dec.find? (fun p => p.bit == 3 && p.tick + 4 == s.tsb.tick)).map (·.word) = some w ∧ (∀ v, w = some v → v.bad = false) := by decide +kernel
theorem test_dec_word : (after (.decEdge 3) (ball (some (FWord.data 1)) true)).decPins = 8 := by decide +kernel
theorem test_dec_safe_level : let t := after (.decEdge 3) (ball (some (FWord.poison 2)) true 8)
    (t.decPins, t.reg Reg.decBadcnt) = (8, 1) := by decide +kernel

/-! ### Stream queues (chapter 7) -/

/-- Queue 5 of cluster 0, with a configuration; cluster 0 in the plane; tile 0 pops it through port 0 in context 0. -/
def que (cfg : Nat) (u : Queue) (l : List (Nat × Nat) := []) : State :=
  (((ts 2 { tick := 100 } ([(Reg.queCfg 5, cfg), (Reg.glbCl 0, 0)] ++ l)).setLe (tileWin 0 + 0x280) 4 (3 * 2 ^ 28 + 5)).setByte (tileWin 0 + 48) 0x40).setQueue 5 u
def outNet : Nat := 2 ^ 30 + 2 * 2 ^ 28
def inNet : Nat := 2 * 2 ^ 30 + 2 * 2 ^ 28
def outPost : Nat := 2 ^ 30 + 2 ^ 28 + 2 * 2 ^ 23 + 6 * 2 ^ 18 + 2 ^ 17
def words (n : Nat) : List FWord := (List.range n).map (fun i => FWord.data (BitVec.ofNat 16 i))
def x : FWord := FWord.data 0xABCD

theorem hyp_PushLandsOrIsCounted : (∀ u ∈ [({ stages := words 7, offer := some x, resync := false } : Queue), { stages := words 8, offer := some x, resync := false },
      { stages := words 7, offer := some x, resync := false, pend := true, gap := 4094, popTick := some 100 }], let s := que outNet u
      formOk s = true ∧ s.qRuns 5 = true ∧ (s.queue 5).pushTick ≠ some s.tsb.tick ∧ (s.queue 5).offer = some x ∧ s.inResync 5 = false) ∧
    (words 7).length < 8 ∧ (words 8).length = 8 ∧ (que outNet {}).tsb.tick = 100 := by decide +kernel
theorem test_full_queue_drops : let t := after (.queuePush 5) (que outNet { stages := words 8, offer := some x, resync := false })
    ((t.queue 5).gap, (t.queue 5).pend, t.fld (Reg.queCnt0 5) 31 16) = (1, true, 1) := by decide +kernel

theorem hyp_FrameEndsResync : ∀ w ∈ [x, FWord.frame 3], let s := que outNet { stages := words 6, offer := some w, resync := true, disc := 4 }
    formOk s = true ∧ s.qRuns 5 = true ∧ (s.queue 5).pushTick ≠ some s.tsb.tick ∧ (s.queue 5).offer = some w ∧ s.inResync 5 = true ∧
    (s.queue 5).pend = false ∧ (s.queue 5).stages.length ≤ 6 := by decide +kernel
theorem test_frame_ends_resync : ((after (.queuePush 5) (que outNet { offer := some (FWord.frame 3), disc := 4 })).queue 5).stages =
    [FWord.gap 4, FWord.frame 3] := by decide +kernel

theorem hyp_PopDeliversHeadOrLast : ∀ u ∈ [({ stages := [x] } : Queue), { stages := [{ x with bad := true }] }, { last := x }, { stages := [FWord.resync], resyncTick := some 100 }], let s := que inNet u
    formOk s = true ∧ s.qRuns 5 = true ∧ (s.queue 5).popTick ≠ some s.tsb.tick ∧ (s.queue 5).pushTick ≠ some s.tsb.tick ∧ s.qDir 5 = 2 ∧
    s.clIn (5 / 32) = true ∧ s.popsNow 5 = true ∧ (s.queue 5).pend = false ∧
    ((s.queue 5).resyncTick ≠ some s.tsb.tick ∨ (s.queue 5).stages = [FWord.resync]) := by decide +kernel
theorem test_pop : ((after (.queuePop 5) (que inNet { stages := [x, FWord.zero] })).queue 5).last = x := by decide +kernel
/-- R188: a pop in the cycle of RESYNC finds the queue empty and takes no marker. -/
theorem test_pop_at_resync : ((after (.queuePop 5) (que inNet { stages := [FWord.resync], resyncTick := some 100, last := x })).queue 5).stages =
    [FWord.resync] := by decide +kernel
theorem test_pop_of_empty : let t := after (.queuePop 5) (que inNet { last := x })
    ((t.queue 5).last, t.rbit (Reg.queStatus 5) 7) = (x, true) := by decide +kernel

theorem hyp_PostUnit : (∀ u ∈ [({ stages := [FWord.frame 1], posts := 3 } : Queue), { stages := [x], item := some [1, 2] }, { stages := [FWord.poison 2], item := some [1] },
      { refusals := 2, posts := 1 }], let s := que outPost u
      formOk s = true ∧ s.qRuns 5 = true ∧ s.qDir 5 = 1 ∧ s.qFar 5 = 1 ∧ (s.queue 5).popTick ≠ some s.tsb.tick ∧ (s.queue 5).pushTick ≠ some s.tsb.tick ∧
      (s.queue 5).posts < 4 ∧ (s.queue 5).pend = false ∧ (s.queue 5).resyncTick ≠ some s.tsb.tick) ∧
    (que outPost {}).fld (Reg.queCfg 5) 27 23 = 2 ∧ 32 * (5 / 32) + (que outPost {}).fld (Reg.queCfg 5) 22 18 = 6 ∧ (que outPost {}).rbit (Reg.queCfg 5) 17 = true ∧
    ((que outPost {}).queue 6).pushTick = none ∧ ((que outPost {}).queue 6).pend = false ∧ ((que outPost {}).queue 6).stages.length < 8 ∧
    ({ State.reset with dpt := { responses := [(0x8005, 4)] } } : State).dpt.responses.find? (fun r => r.1 == 0x8005) = some (0x8005, 4) := by
  decide +kernel
/-- R194: the flow is the first word of the item. -/
theorem test_item_is_posted : (after (.queuePop 5) (que outPost { stages := [x], item := some [1, 2] })).dpt.posts.map (fun p => (p.src, p.flow, p.words.take 3)) =
    [(0x8005, 1, [2, 0xABCD, 0])] := by decide +kernel

theorem hyp_StreamInterface : (∀ u ∈ [({ stages := [x], credits := 1 } : Queue), { stages := [x], credits := 0 }], let s := que outNet u
      formOk s = true ∧ s.qRuns 5 = true ∧ s.qFar 5 = 2 ∧ s.qDir 5 = 1 ∧ (s.queue 5).popTick ≠ some s.tsb.tick ∧ (s.queue 5).pushTick ≠ some s.tsb.tick ∧
      (s.queue 5).pend = false ∧ (s.queue 5).resyncTick ≠ some s.tsb.tick) ∧
    (∀ u ∈ [({ stages := words 7, buffer := [x], credits := 1, resync := false } : Queue), { buffer := [x], credits := 0 }], let s := que inNet u
      formOk s = true ∧ s.qRuns 5 = true ∧ s.qFar 5 = 2 ∧ s.qDir 5 = 2 ∧ (s.queue 5).offer = none ∧ s.inResync 5 = (s.queue 5).resync ∧ (s.queue 5).popTick ≠ some s.tsb.tick ∧
      (s.queue 5).pushTick ≠ some s.tsb.tick ∧ (s.queue 5).pend = false) := by decide +kernel
theorem hyp_ResyncEmptiesQueues : formOk (due 0x30 0 [(Reg.glbCl 0, 0)]) = true ∧ (due 0x30 0 [(Reg.glbCl 0, 0)]).tsb.due = some (0x30, 0) ∧ bitsOf (0x30 : Byte) 7 4 = 3 ∧ (due 0x30 0 [(Reg.glbCl 0, 0)]).qRuns 5 = true ∧
    (due 0x30 0 [(Reg.glbCl 0, 1)]).qRuns 5 = false := by decide +kernel

/-! ### Engines (chapters 8 and 9) -/

/-- Engine 0 in slot 1, its descriptor word 0, its program words at addresses; pinned with budget 255, or pooled with a watchdog. -/
def es (g : EngSt) (d0 : Nat := 0) (prog : List (Nat × Nat) := []) (run : EngRun := .running) (slot : Nat := 1) : State :=
  let s := prog.foldl (fun s (x : Nat × Nat) => s.setLe (engWin 0 + 4 * x.1) 4 x.2) ({ State.reset with tsb := { slot := slot } } : State)
  ((s.setLe (engWin 0 + 0x6004) 4 (if d0 % 2 = 1 then 2 ^ 16 else 255)).setLe (engWin 0 + 0x6000) 4 d0).setEng 0 { g with run := run }
/-- An instruction in flight, with operands read. -/
def sl (w : Nat) (a : BitVec 11 := 5) : PSlot :=
  { word := BitVec.ofNat 32 w, addr := a, shadow := false, copy := false, a := 0x1234, b := 3, xa := 7, ya := 9, xv := 0xABCD, yv := 0x55 }
def bk : Bank := { d := #v[10, 11, 12, 13, 14, 15, 16, 17], ax := #v[1, 2, 3, 4], lc0 := 5, lc1 := 1, next := 100, z := true }

/-- The hypotheses of Moves, as one evaluation. -/
def mv (s : State) : Bool :=
  decide (s.gang 0 = [0]) && s.cycleDue 0 && !s.inHold 0 && !s.outHold 0 && !s.postHold 0 &&
    decide ((s.eng 0).run = .running ∨ (s.eng 0).run = .handler) && decide ((s.eng 0).irq = none) && s.protIdle && formOk s
theorem moves_of {s : State} (h : mv s = true) : Moves s 0 ∧ s.Inv := by
  simp only [mv, Bool.and_eq_true, Bool.not_eq_true', decide_eq_true_eq] at h
  obtain ⟨⟨⟨⟨⟨⟨⟨⟨h1, h2⟩, h3⟩, h4⟩, h5⟩, h6⟩, h7⟩, h8⟩, h9⟩ := h
  exact ⟨⟨h1, h2, h3, h4, h5, h6, h7, h8⟩, inv_of h9⟩

/-- One word of every operation, written out from the encodings of chapter 9. -/
def opWords : List (Nat × EngOp) := [(0, .nop), (0x10000032, .br), (0x14000032, .call), (0x18000000, .ret), (0x20000003, .rep), (0x28000002 + 120 * 2 ^ 14, .loop),
  (0x30000000, .yield), (0x32000000, .done), (0x34000000, .evt), (0x36000000, .sync), (0x42180000, .inp), (0x4A184000, .out), (0x50005009, .signal),
  (0x54005009, .clrf), (0x58140009, .post), (0xA0000000, .ldx), (0xA4000000, .ldy), (0xA8000000, .stx), (0xAC000000, .sty), (0xB0000000, .mov),
  (0xC0000000, .mac 0), (0x70000000, .illegal)] ++ [0, 1, 4, 5, 6, 0x0C, 0x0D, 0x0E, 0x0F, 0x10, 0x11].map (fun o => (0x80000000 + o * 2 ^ 23, .alu o))
theorem test_op_words : ∀ x ∈ opWords, engOp (BitVec.ofNat 32 x.1) 5 = x.2 := by decide +kernel
theorem hyp_CyclesFetch : ∀ x ∈ opWords, let s := es { fg := bk, fetching := true } 0 [(100, x.1)]
    mv s = true ∧ (s.eng 0).fetching = true ∧ ((s.eng 0).bank (s.eng 0).handler.isSome).again = [] ∧ ((s.eng 0).bank (s.eng 0).handler.isSome).rep = none ∧
    ((s.eng 0).bank (s.eng 0).handler.isSome).loop = none ∧ (progSlot s 0 100 false false).op = x.2 := by decide +kernel
/-- An engine whose pipeline holds one instruction and that fetches no more. -/
def inA (w : Nat) : State := es { fg := bk, stA := some (sl w) }
def inR (w : Nat) : State := es { fg := bk, stR := some (sl w) }
def inM (w : Nat) : State := es { fg := bk, stM := some (sl w) }
def inW (w : Nat) (d0 : Nat := 0) : State := es { fg := bk, stW := some (sl w) } d0
theorem hyp_pipeline : ∀ x ∈ opWords, x.2.transfer = true ∨ x.2 = .loop ∨ x.2 = .illegal ∨
    (mv (inA x.1) = true ∧ ((inA x.1).eng 0).fetching = false ∧ mv (inR x.1) = true ∧ mv (inM x.1) = true ∧
      (x.2 = .post ∨ mv (inW x.1) = true)) := by decide +kernel
/-- A store's source: a register as read, and an accumulator that saturates. -/
theorem hyp_StoreSource : StoreSource ((inW 0xA8000000).eng 0) (sl 0xA8000000) 0 0 0x1234 false ∧
    StoreSource { fg := { bk with ac0 := 0x7FFFFFFFFF } } (sl (0xA8000000 + 0x30 * 2 ^ 19)) 0x30 0 0x7FFF true := by
  unfold StoreSource
  decide +kernel
/-- Table 7 of chapter 9: 0x1234 + 3, and the unsigned shift by 3. -/
theorem test_alu_add : (((after (.aluAdd 0) (inM 0x80100000)).eng 0).fg.D 1) = 0x1237 := by decide +kernel
theorem test_alu_shr : (((after (.aluShr 0) (inM (0x80100000 + 0x0F * 2 ^ 23))).eng 0).fg.D 1) = 0x0246 := by decide +kernel
/-- MAC of D operands: 0x1234 × 3. -/
theorem test_mac : (((after (.engMac 0) (inW 0xC0000000)).eng 0).fg.ac0) = 0x369C := by decide +kernel
theorem test_store : (after (.engStx 0) (inW 0xA8000000)).half (xAddr 0 7) = 0x1234 := by decide +kernel
theorem test_signal : (after (.engSignal 0) (inW 0x50005009)).dpt.msgs.map (fun m => (m.task, m.flag, m.set)) = [(9, 5, true)] := by decide +kernel

/-- IN from a port that holds each tag, with and without TAINT; OUT with a taint word or GOVP; POST offered and answered. -/
def port (w : FWord) (d0 : Nat) : State := es { fg := bk, stR := some (sl 0x42180000), si := #v[FWord.zero, w, FWord.zero, FWord.zero] } d0
theorem hyp_PortInstructions : (∀ w ∈ [x, FWord.poison 2, mark 5], ∀ d0 ∈ [0, 0x10], mv (port w d0) = true ∧ (port w d0).pooled 0 = false ∧
      ((port w d0).eng 0).si.toArray.getD 1 FWord.zero = w ∧ (port w d0).engTaint 0 = decide (d0 = 0x10)) ∧
    (let s := es { fg := { bk with cf0 := true }, stW := some (sl 0x4B804000), govp := true }
     mv s = true ∧ s.pooled 0 = false ∧ (s.eng 0).soPoi.toArray.getD 1 false = false ∧ (sl 0x4B804000).f 24 19 = 0x30 ∧ (sl 0x4B804000).op = .out) ∧
    (let s := inW 0x58140009 1
     formOk s = true ∧ s.gang 0 = [0] ∧ s.cycleDue 0 = true ∧ (s.eng 0).post = .none ∧ (sl 0x58140009).op = .post) ∧
    (let s := es { fg := bk, stW := some (sl 0x58140009), post := .answered 3 } 1 [] .holding
     formOk s = true ∧ s.gang 0 = [0] ∧ s.cycleDue 0 = true ∧ (s.eng 0).irq = none ∧ (s.eng 0).handler = none) := by decide +kernel
theorem test_in : let g := (after (.engIn 0) (port (mark 77) 0x10)).eng 0
    (g.fg.D 3, g.itag, g.taint) = (77, Tag.mark.bits, some (mark 77)) := by decide +kernel

/-- A transfer in stage A under each condition; REP, LOOP, DONE and YIELD in stage D behind a NOP to be fetched. -/
theorem hyp_Control_transfers (w : Nat) (h : w ∈ [0x10000032, 0x14000032]) (c : Nat) (hc : c ∈ List.range 14) :
    let s := es { fg := bk, fetching := true, stA := some (sl (w + c * 2 ^ 22)) }
    mv s = true ∧ (sl (w + c * 2 ^ 22)).op.transfer = true ∧ (progSlot s 0 100 false false).op = .nop := by
  revert c
  revert w
  decide +kernel
theorem hyp_Control_stageD (w : Nat) (h : w ∈ [0x20000000, 0x20000003, 0x28000002 + 120 * 2 ^ 14, 0x28000000 + 120 * 2 ^ 14, 0x32000000]) :
    let s := es { fg := bk, fetching := true, stD := some (sl w 99) }
    mv s = true ∧ s.illegalD 0 = false ∧ (s.eng 0).fg.next = (99 : BitVec 11) + 1 := by
  revert w
  decide +kernel
theorem hyp_Control_yield : let s := es { fg := bk, fetching := true, stD := some (sl 0x30000000 99) } 1
    mv s = true ∧ s.illegalD 0 = false := by decide +kernel
theorem hyp_Control_evt : let s := es { fg := bk, sh := { bk with next := 30 }, handler := some .slot, fetching := true, stD := some { sl 0x34000000 29 with shadow := true } } 0 [] .handler
    mv s = true ∧ s.illegalD 0 = false ∧ (s.eng 0).handler = some .slot := by decide +kernel
theorem hyp_Control_repeats : ∀ b ∈ [(some ((44 : BitVec 11), 2), none), (none, some true), (none, some false)],
    let s := es { fg := { bk with rep := b.1, loop := b.2.map (fun c => ⟨90, 100, c⟩) }, fetching := true }
    mv s = true ∧ (s.eng 0).fetching = true ∧ (progSlot s 0 100 false false).op = .nop := by decide +kernel
theorem hyp_Control_ends : mv (inW 0x30000000 1) = true ∧ (inW 0x30000000 1).pooled 0 = true ∧ ((inW 0x30000000 1).eng 0).handler = none ∧
    mv (inW 0x32000000) = true ∧ (inW 0x32000000).pooled 0 = false := by decide +kernel
theorem test_branch : ((after (.engNop 0) (es { fg := bk, fetching := true, stA := some (sl 0x10000032) })).eng 0).fg.next = 50 := by decide +kernel
theorem test_rep : ((after (.engNop 0) (es { fg := bk, fetching := true, stD := some (sl 0x20000003 99) })).eng 0).fg.rep = some (100, 2) := by decide +kernel

theorem hyp_Interrupt_illegal : let s := es { fg := bk, stD := some (sl 0x70000000) } 1
    mv s = true ∧ s.illegalD 0 = true ∧ (s.eng 0).inFault = false ∧ s.pooled 0 = true := by decide +kernel
/-- R510: under the hold of a POST. -/
theorem hyp_Interrupt_illegal_held : let g : EngSt := { fg := bk, stD := some (sl 0x70000000), stW := some (sl 0x58140009), post := .waiting, ev := 1 }
    let s := es g 1 [] .holding
    formOk s = true ∧ s.gang 0 = [0] ∧ s.cycleDue 0 = true ∧ s.illegalD 0 = true ∧ s.holds 0 = true ∧ (s.eng 0).handles .fault = true ∧ (s.eng 0).irq = none := by
  decide +kernel
theorem hyp_Interrupt_slot : let s := es { fg := bk, stD := some (sl 0 99), irq := some .slot, fetching := true } 1
    formOk s = true ∧ s.gang 0 = [0] ∧ s.cycleDue 0 = true ∧ s.inHold 0 = false ∧ s.outHold 0 = false ∧ s.postHold 0 = false ∧ s.slotFree 0 = true ∧
    s.illegalD 0 = false ∧ s.protIdle = true ∧ (s.eng 0).run = .running ∧ (s.eng 0).handler = none ∧ (s.eng 0).fg.loop = none := by decide +kernel
theorem hyp_Interrupt_fault : ∀ ev ∈ [1, 0], let s := es { fg := bk, stR := some (sl 0 96), irq := some .fault, fetching := true, ev := BitVec.ofNat 16 ev } 0
    formOk s = true ∧ s.gang 0 = [0] ∧ s.engIn 0 = true ∧ (s.eng 0).inRun = true ∧ (s.eng 0).inFault = false ∧ (s.eng 0).ev.getLsbD 0 = decide (ev = 1) ∧
    s.pooled 0 = false := by decide +kernel
theorem hyp_Interrupt_watchdog : let s := es { fg := bk, wd := 64, ev := 4 } 1
    formOk s = true ∧ s.gang 0 = [0] ∧ s.engIn 0 = true ∧ s.pooled 0 = true ∧ (s.eng 0).inRun = true ∧ (s.eng 0).inFault = false ∧ 0 < s.engWdog 0 ∧
    s.engWdog 0 ≤ (s.eng 0).wd ∧ (s.eng 0).ev.getLsbD 2 = true ∧ (s.eng 0).run ≠ .holding ∧ (s.eng 0).wdDone = false ∧ (s.eng 0).irq = none := by decide +kernel
theorem test_slot_handler : ((after (.slotEvent 0) (es { fg := bk, stD := some (sl 0 99), irq := some .slot, fetching := true } 1)).eng 0).sh.next = 0x7E8 := by
  decide +kernel
theorem test_illegal : (after (.illegalInstruction 0) (es { fg := bk, stD := some (sl 0x70000000) } 1)).fld (Reg.engStatus 0) 11 8 = 4 := by decide +kernel

/-- Engine 0's budget of 3 is over in cycle 5; a gang of 4 holds a SLOT off; a held IN and OUT of a pooled engine whose queue 5 moves. -/
def held (w : Nat) (r : Bool) (cfg : Nat) (u : Queue) : State :=
  let k := some (sl w)
  ((es (if r then { fg := bk, stR := k } else { fg := bk, stW := k }) 1 [] .holding).setReg (Reg.queCfg 5) (BitVec.ofNat 32 cfg)).setQueue 5 u
theorem hyp_EngineEvents :
    (let s := (es { fg := bk, stD := some (sl 0 99), fetching := true, ended := false } 0 [] .running 5).setLe (engWin 0 + 0x6004) 4 3
     formOk s = true ∧ s.gang 0 = [0] ∧ s.engIn 0 = true ∧ s.pooled 0 = false ∧ s.engBudget 0 < s.ecycle 0 ∧ (s.eng 0).handler = none ∧ (s.eng 0).irq = none ∧
     (s.eng 0).ended = false ∧ (s.eng 0).run = .running) ∧
    (let s := es { fg := bk, irq := some .slot, slotWait := 9, fetching := true } (1 + 2 * 2 + 8 * 256)
     formOk s = true ∧ s.leader 0 = 0 ∧ s.engIn 0 = true ∧ 4 ≤ s.gangSize 0 ∧ s.pooled 0 = true ∧ (s.eng 0).run = .running ∧ (s.eng 0).handler = none ∧
     s.engHoldoff 0 < (s.eng 0).slotWait) ∧
    (let s := held 0x42180000 true (2 ^ 30 + 4) { stages := [x] }
     formOk s = true ∧ s.gang 0 = [0] ∧ s.cycleDue 0 = true ∧ s.protIdle = true ∧ s.pooled 0 = true ∧ s.engTaint 0 = false ∧ s.engQueue 0 1 true = some 5 ∧
     s.qFar 5 = 0 ∧ (s.eng 0).run = .holding ∧ (s.eng 0).fetching = false ∧ (s.queue 5).resyncTick ≠ some s.tsb.tick ∧ (s.queue 5).popTick ≠ some s.tsb.tick) ∧
    (let s := held 0x4A184000 false (2 * 2 ^ 30 + 4) { resync := false }
     formOk s = true ∧ s.gang 0 = [0] ∧ s.cycleDue 0 = true ∧ s.protIdle = true ∧ s.pooled 0 = true ∧ s.engQueue 0 1 false = some 5 ∧
     (s.queue 5).stages.length < 8 ∧ (s.eng 0).taint = none ∧ s.inResync 5 = false) := by decide +kernel
/-- A certificate of one path with one ENGINE segment: engine 0, SO0, slot 3. -/
def soPath (s : State) : State :=
  let m := [(0, 1), (4, 65536), (16, 64), (32, 1), (36, 1), (64, 28), (68, 256), (80, 0xFFFF0008), (88, 3 * 65536)].foldl
    (fun s (x : Nat × Nat) => s.setLe (0x3001000000 + x.1) 4 x.2) s
  { m with boot := { m.boot with sections := [{ id := 14, deflate := false, slen := 92, ulen := 92, koff := 0x3001000000 }] } }
theorem hyp_EngineEvents_deadline : let s := (soPath (es { fg := bk, stD := some (sl 0 99), fetching := true } 0 [] .running 5)).setReg Reg.tsbGeom 32
    formOk s = true ∧ s.gang 0 = [0] ∧ s.gangSize 0 < 4 ∧ s.engIn 0 = true ∧ s.pooled 0 = false ∧ (s.eng 0).irq = none ∧
    (0, 2) ∈ s.soDeadlines (s.logNo 0) 0 ∧ s.tsb.slot = 5 ∧ (s.eng 0).soDone.toArray.getD 0 false = false ∧ (s.eng 0).soPoi.toArray.getD 0 false = false := by
  decide +kernel
theorem test_in_wake : ((after (.inWake 0) (held 0x42180000 true (2 ^ 30 + 4) { stages := [x] })).eng 0).fg.D 3 = 0xABCD := by decide +kernel

/-! ### The dispatcher (chapter 10) -/

/-- The dispatcher runs; task 7 is configured with 2 items of ring, START 0x123, and stands at `k`; engine 0 is pooled or not. -/
def dp (k : TaskSt) (pool : Nat := 0) (d : EngDpt := {}) (l : List (Nat × Nat) := []) (st : Nat := 2 ^ 30) : State :=
  (((withRegs State.reset ([(Reg.dptStatus, st), (Reg.task 7 0, 2 ^ 31 + 0x123 * 2 ^ 16), (Reg.task 7 1, 1), (Reg.task 7 2, 1), (Reg.task 7 7, 2 * 2 ^ 16)] ++ l)).setTask 7 k).setByte
    (engWin 0 + 0x6000) (BitVec.ofNat 8 pool)).setEngDpt 0 d |>.setEng 0 { run := .idle }
def item (slot : Nat) (serv : Bool) : RingItem := { slot := slot, flow := 5, stamp := 0, src := 3, serv := serv }

theorem withRegs_mem (l : List (Nat × Nat)) (s : State) : (withRegs s l).mem = s.mem := by
  induction l generalizing s with
  | nil => rfl
  | cons x l ih => exact ih _
theorem withRegs_dpt (l : List (Nat × Nat)) (s : State) : (withRegs s l).dpt = s.dpt := by
  induction l generalizing s with
  | nil => rfl
  | cons x l ih => exact ih _
theorem not_prefetched (k : TaskSt) (pool : Nat) (l : List (Nat × Nat)) (st : Nat) : NotPrefetched (dp k pool {} l st) 7 := by
  intro p v h
  have e : (dp k pool {} l st).dpt.eng = Tbl.set EngDpt.dflt (withRegs State.reset ([(Reg.dptStatus, st), (Reg.task 7 0, 2 ^ 31 + 0x123 * 2 ^ 16), (Reg.task 7 1, 1),
    (Reg.task 7 2, 1), (Reg.task 7 7, 2 * 2 ^ 16)] ++ l)).dpt.eng 0 EngDpt.dflt := rfl
  rw [withRegs_dpt] at e
  rw [State.engDpt, e] at h
  exact absurd h (by show ¬none = some v; simp)
theorem hyp_DispatcherCommands : (∀ x ∈ [(false, false), (true, false), (true, true)], let s := dp { parked := x.1, disabled := x.2, ring := [item 0 true, item 1 false] }
      formOk s = true ∧ s.dpt.dirty = [] ∧ s.dptRuns = true ∧ s.tValid 7 = true ∧ (s.task 7).parked = x.1 ∧ (s.task 7).disabled = x.2 ∧ s.tValid 8 = false) ∧
    ((7, 4) ∉ (dp {}).dpt.fresh ∧ (7, 4) ∈ ({ dp {} with dpt := { (dp {}).dpt with fresh := [(7, 4)] } } : State).dpt.fresh) ∧
    (dp {} 1).engCmdOk 0 = true ∧ ((dp {} 1).engDpt 0).prefetch = none ∧ (dp {} 0 {} [] 0).dptRuns = false := by decide +kernel
theorem test_cancel_parks : ((after (.dptCancel 7) (dp {})).task 7).parked = true := by decide +kernel
/-- R9: a set of the present cycle beats a clear. -/
theorem test_set_wins : let s := dp { flags := 16 }
    (((after (.dptClrf 7 4) s).task 7).flags, ((after (.dptClrf 7 4) { s with dpt := { s.dpt with fresh := [(7, 4)] } }).task 7).flags) = (0, 16) := by
  decide +kernel
theorem test_drain : let t := after (.dptDrain 7) (dp { parked := true, disabled := true, ring := [item 0 true, item 1 false] })
    ((t.task 7).ring, t.reg Reg.dptDisc) = ([item 0 true], 1) := by decide +kernel
theorem test_bad_task : (after (.dptCancel 8) (dp {})).reg Reg.dptEvtDisc = 1 := by decide +kernel

/-- Where engine 0's descriptor is the only memory, no other engine requests work. -/
theorem requests_only {k : TaskSt} {pool : Nat} {d : EngDpt} {l : List (Nat × Nat)} {st : Nat} (q : Nat)
    (hq : q ≠ 0 ∨ pool = 0) : (dp k pool d l st).requests q = false := by
  have hb : ∀ a, a ≠ engWin 0 + 0x6000 ∨ pool = 0 → (dp k pool d l st).byte a = 0 := by
    intro a ha
    have e : (dp k pool d l st).mem = Tbl.set 0 (withRegs State.reset ([(Reg.dptStatus, st), (Reg.task 7 0, 2 ^ 31 + 0x123 * 2 ^ 16), (Reg.task 7 1, 1),
      (Reg.task 7 2, 1), (Reg.task 7 7, 2 * 2 ^ 16)] ++ l)).mem (engWin 0 + 0x6000) (BitVec.ofNat 8 pool) := by
      simp only [dp, State.setEngDpt, State.setByte, State.setTask, State.setEng]
    rw [withRegs_mem] at e
    rw [State.byte, e]
    show Tbl.get 0 (Tbl.set 0 [] _ _) a = 0
    rw [Tbl.set]
    split
    · rfl
    · rename_i hne
      rw [Tbl.insert, Tbl.get]
      split
      · rfl
      · split
        · rename_i h1
          rcases ha with ha | ha
          · exact absurd h1 ha
          · exact absurd (by rw [ha]; rfl) hne
        · rfl
  have hd : ((dp k pool d l st).engDesc q 0).getLsbD 0 = false := by
    have h0 : (dp k pool d l st).byte (engWin q + 0x6000) = 0 := hb _ (by
      rcases hq with hq | hq
      · left
        simp only [engWin, Reg.secBase]
        omega
      · right; exact hq)
    simp only [State.engDesc, State.le, Nat.mul_zero, Nat.add_zero, h0]
    generalize (dp k pool d l st).byte _ = b1
    generalize ((dp k pool d l st).byte _).toNat + 256 * _ = b2
    have : (BitVec.toNat (0 : Byte) + 256 * (b1.toNat + 256 * b2)) % 2 = 0 := by
      rw [show BitVec.toNat (0 : Byte) = 0 from rfl]
      omega
    rw [BitVec.getLsbD_ofNat, Nat.testBit_zero, this]
    rfl
  rw [State.requests, State.pooled, hd]
  rfl

/-- A post to task 7: accepted, refused as full, disabled; to task 8, which is not configured. -/
theorem hyp_DispatcherCycle_post : (∀ x ∈ [(7, false, 1), (7, false, 2), (7, true, 0), (8, false, 0)],
      let s := { dp { parked := x.2.1, disabled := x.2.1, ring := (List.range x.2.2).map (fun i => item i false) } with
        dpt := { (dp { parked := x.2.1, disabled := x.2.1, ring := (List.range x.2.2).map (fun i => item i false) }).dpt with posts := [⟨3, x.1, 9, [1, 2, 3], false⟩] } }
      formOk s = true ∧ s.dptRuns = true ∧ s.dpt.dirty = [] ∧ s.protIdle = true ∧ x.1 < 4096 ∧ s.tCap 7 = 2) ∧
    ∀ p, (dp { ring := [item 0 false] }).requests p = false :=
  ⟨by decide +kernel, fun p => requests_only p (Or.inr rfl)⟩
/-- R281: in reset. -/
theorem hyp_DispatcherCycle_reset : formOk (dp {} 0 {} [] 0) = true ∧ (dp {} 0 {} [] 0).dptRuns = false ∧ bitsOf (0x70000000 : W32) 31 28 ≠ 15 := by decide +kernel
theorem hyp_DispatcherCycle_assign : let s := dp { ready := true, ring := [item 4 false] } 1 { lastWin := some true }
    formOk s = true ∧ s.dptRuns = true ∧ s.dpt.dirty = [] ∧ s.requests 0 = true ∧ s.choose 0 = some 7 ∧ s.candidate 7 = some (item 4 false) := by decide +kernel
theorem hyp_DispatcherCycle_one (q : Nat) : (dp { ready := true, ring := [item 4 false] } 1 { lastWin := some true }).requests q = decide (q = 0) := by
  by_cases h : q = 0
  · subst h
    decide +kernel
  · rw [requests_only q (Or.inl h)]
    simp [h]

def svc (copied : Bool) : SvcItem := { task := 7, flow := 5, slot := some 4, stamp := 0, win := true, copied := copied }
theorem hyp_ItemsReachTheirEngine : (∀ t ∈ [7, 8], ∀ b ∈ [true, false],
      let s : State := { dp {} with dpt := { (dp {}).dpt with msgs := [{ src := .sector 3, task := t, flag := 31, set := b }] } }
      formOk s = true ∧ (s.dpt.msgs.find? (fun m => decide (m.src = .sector 3))).isSome = true ∧ s.dpt.dirty = []) ∧
    (let s := dp {} 1 { prefetch := some (svc false) }
     formOk s = true ∧ s.dptRuns = true ∧ (s.engDpt 0).prefetch = some (svc false) ∧ s.gang 0 = [0] ∧ s.protIdle = true) ∧
    (let s := (dp {} 1 { prefetch := some (svc true) }).setEng 0 { run := .idle, yieldAt := some (9, 7) }
     formOk s = true ∧ (s.engDpt 0).prefetch = some (svc true) ∧ s.pooled 0 = true ∧ s.gang 0 = [0] ∧ s.engIn 0 = true ∧ (s.eng 0).run = .idle) := by decide +kernel
/-- R286: TK of the item that starts: its task and its window. -/
theorem test_dispatch : let t := after (.dispatch 0) ((dp {} 1 { prefetch := some (svc true) }).setEng 0 { run := .idle })
    ((t.eng 0).tk, (t.eng 0).fg.next, t.reg Reg.dptDisp) = (0x00078000, 0x123, 1) := by decide +kernel

def slg (n idx cfg : Nat) : State :=
  let s := withRegs State.reset [(Reg.slgCfg, 2 ^ 31 + cfg + 2), (Reg.slgStatus, idx)]
  { s with dpt := { s.dpt with slg := List.replicate n #v[1, 2, 3, 4] } }
theorem hyp_SillageAndDispatcherReset : (∀ x ∈ [(63, 5, 0), (64, 5, 0), (1, 131071, 0), (1, 131071, 2 ^ 30)], let s := slg x.1 x.2.1 x.2.2
      formOk s = true ∧ s.rbit Reg.slgCfg 31 = true ∧ s.rbit Reg.slgCfg SlgType.dispatch.code = true ∧ s.rbit Reg.slgStatus 31 = false ∧ s.dpt.slg.length = x.1 ∧
      s.fld Reg.slgStatus 16 0 = x.2.1 ∧ s.protIdle = true) ∧
    (let s : State := { withRegs State.reset [(Reg.dptStatus, 3 * 2 ^ 30)] with dpt := { reloaded := true } }
     formOk s = true ∧ s.fld Reg.dptStatus 31 30 = 3 ∧ s.tsb.crossing = 0 ∧ s.tsb.slot = 0) := by decide +kernel
theorem test_sillage_wraps : (after .sillageWrite (slg 1 131071 0)).reg Reg.slgStatus = 0x40000000 := by decide +kernel

/-! ### Readout (chapter 11) -/

/-- The readout of sector 0 enabled, its derandomizer 1; sector 0 in the plane or out. -/
def ro (r : Readout) (z : Drz) (inp : Bool := true) (l : List (Nat × Nat) := []) (t : Tsb := { cx := 50 }) : State :=
  ((ts 2 t ([(Reg.glbSecState 0, if inp then 2 ^ 30 else 0), (Reg.roCfg1 0, 2 ^ 31 + 1), (Reg.roCh 0 2, 2 ^ 16)] ++ l)).setRo 0 r).setDrz 1 z
def acc : AccEntry := { orbit := 3, crossing := 2, event := 77, cls := 4, typ := 9, effect := 40 }
theorem hyp_AcceptIsOffered : (∀ n ∈ [0, 15, 16], ∀ b ∈ [true, false], let s := ro { queue := List.replicate n acc } {} b [] { due := some (0x24, 9), orbit := 5 }
    formOk s = true ∧ s.tsb.due = some (0x24, 9) ∧ s.tsb.crossing < s.L ∧ s.rbit (Reg.roCfg1 0) 31 = true ∧ s.rbit (Reg.roCfg1 1) 31 = false ∧ s.secIn 0 = b ∧
    s.drzIn (s.target 0) = b ∧ s.fld Reg.tsbAcceptLat 15 0 ≤ s.tsb.orbit.toNat * s.L + s.tsb.crossing) ∧ bitsOf (0x24 : Byte) 7 4 = 2 := by decide +kernel
theorem test_accept : ((after .accept (ro {} {} true [] { due := some (0x24, 9), orbit := 5 })).ro 0).queue.map (fun e => (e.event, e.cls, e.typ)) = [(0, 4, 9)] := by
  decide +kernel

theorem hyp_packetOpen : (∀ b ∈ [true, false], let s := ro { queue := [acc], carry := 3 } { wptr := 32767, rptr := 2 } true (if b then [] else [(Reg.roCfg1 0, 2 ^ 31 + 4)])
      formOk s = true ∧ s.protIdle = true ∧ (s.ro 0).build = none ∧ s.secIn 0 = true ∧ 128 * (acc.effect + 1) ≤ s.now ∧ (s.ro 0).lastClose ≤ s.now ∧
      s.drzIn (s.target 0) = b ∧ (s.drzOf 1).openBy = none ∧ s.roBehind 0 (s.target 0) (max (128 * (acc.effect + 1)) (s.ro 0).lastClose) = false ∧
      (s.drzOf 1).occ ≤ 32765 ∧ (s.drzOf 1).wptr < 32768) := by decide +kernel
def bld (count : Nat) (out : List W16) (ch : Nat) (trunc : Bool := false) : Build :=
  { entry := acc, drz := 1, start := 100, count := count, miss := 3, written := List.replicate (count - 1) 7, out := out, ch := ch, trunc := trunc,
    chans := (List.range 15).map (fun c => if c = 2 then 0x10000 else 0) }
def rb (b : Build) : State := ro { build := some b } { wptr := 100 + b.count, openBy := some (0, 100) }
theorem hyp_builderWord : (∀ c ∈ List.range 6, formOk (rb (bld c [] 0)) = true) ∧
    (let s := rb (bld 6 [8, 9] 0)
     formOk s = true ∧ s.secIn 0 = true ∧ (s.drzOf 1).occ ≤ 32765 ∧ (s.drzOf 1).wptr < 32768) ∧
    (let s := rb (bld 6 [] 0)
     formOk s = true ∧ s.winN 0 ≤ 16 ∧ s.nextBlock 0 (bld 6 [] 0) = some (0, 2) ∧ 6 + (s.block 0 (bld 6 [] 0) 0 2).words.length + 1 ≤ 4095 ∧
     (s.block 0 (bld 6 [] 0) 0 2).words = [0x2010]) ∧
    (rb (bld 5 [] 0)).nextBlock 0 (bld 5 [] 0) = some (0, 2) ∧ 0 < ((rb (bld 5 [] 0)).setFld (Reg.roCfg0 0) 31 20 8).ringP 0 ∧
    (let b : Build := { bld 6 [] 0 with first := (true, false) }
     (rb b).nextBlock 0 b = some (0, 2) ∧ ((rb b).block 0 b 0 2).words = [0x2010]) ∧
    (let s := rb (bld 4094 [] 0)
     s.nextBlock 0 (bld 4094 [] 0) = some (0, 2) ∧ 4095 < 4094 + (s.block 0 (bld 4094 [] 0) 0 2).words.length + 1) := by decide +kernel
theorem hyp_packetClose : ∀ x ∈ [(7, 3, false), (4094, 0, true)], let s := rb (bld x.1 [] x.2.1 x.2.2)
    formOk s = true ∧ s.protIdle = true ∧ s.secIn 0 = true ∧ (x.2.2 = true ∨ s.nextBlock 0 (bld x.1 [] x.2.1 x.2.2) = none) ∧ (s.drzOf 1).occ ≤ 32766 ∧
    (s.drzOf 1).wptr = (100 + x.1) % 32768 ∧ (bld x.1 [] x.2.1 x.2.2).written.length = x.1 - 1 := by decide +kernel
/-- R304 and Table 2: word 1 is the low half of the event number. -/
theorem test_builder_word : (after (.builderWord 0) (rb (bld 1 [] 0))).half (drzAddr 1 101) = 77 := by decide +kernel
theorem test_packet_length : let t := after (.packetClose 0) (rb (bld 7 [] 3))
    bitsOf (t.half (drzAddr 1 100)) 11 0 = 8 := by decide +kernel
theorem hyp_readerAndRptr : (let s := (ro {} { closed := [(5, 8)], closeTick := 7 }).storeHalf (drzAddr 1 5) 8
     formOk s = true ∧ s.drzIn 1 = true ∧ (s.drzOf 1).sending = none ∧ (s.drzOf 1).closeTick ≠ s.tsb.tick ∧ bitsOf (s.half (drzAddr 1 5)) 11 0 = 8) ∧
    (let s := ro {} { wptr := 10, rptr := 32760, openBy := some (0, 5) } true [(Reg.drzCtrl 1, 0xFF)]
     formOk s = true ∧ s.fld (Reg.drzCtrl 1) 7 0 = 0xFF ∧ ((0 : Nat) + 32768 - 32760) % 32768 ≤ ((5 : Nat) + 32768 - 32760) % 32768) ∧
    (let s := ro {} { wptr := 10, rptr := 0 } true [(Reg.drzCtrl 1, 0xFF)]
     s.fld (Reg.drzCtrl 1) 7 0 = 0xFF ∧ (s.drzOf 1).openBy = none ∧ (10 + 32768 - 0) % 32768 ≤ (s.drzOf 1).occ ∧ (s.drzOf 1).occ < (11 + 32768 - 0) % 32768) ∧
    (ro {} {} true [(Reg.drzCtrl 1, 3)]).fld (Reg.drzCtrl 1) 7 0 ≠ 0xFF := by decide +kernel
theorem hyp_throttlePins : (let s := ro {} {} true [(Reg.bootStatus, 4 * 2 ^ 28)] { slot := 2 }
    formOk s = true ∧ s.inRun = true ∧ s.tsbState ≠ .lost ∧ s.tsb.slot = 2) ∧ (ro {} {}).inRun = false := by decide +kernel
theorem test_pins_before_run : (after .throttlePinEdge (ro {} {} true [] { slot := 2 })).reg Reg.drzPins = 0x1F := by decide +kernel

/-! ### The packet network (chapter 12) -/

/-- A packet at its destination, which is router `r` with exit `ex`; PWR_SEC_STATE 3 for every sector, the dispatcher runs. -/
def pk (dest src cmd addr aux : Nat) (data : List Byte := []) : Packet :=
  { hdr := mkHdr dest src cmd 0x5A ((data.length + 15) / 16) 0 addr aux, data := data }
def net (p : Packet) (r : Nat) (l : List (Nat × Nat) := []) (n : Net := {}) : State :=
  { withRegs State.reset ([(Reg.pwrSecState, 0xFFFFFFFF), (Reg.dptStatus, 2 ^ 30), (Reg.queCfg 5, 2 * 2 ^ 30 + 2 * 2 ^ 28)] ++ l) with
    engines := [(0, { run := .idle })], net := { n with transit := [{ pkt := p, tag := routeTag 0 (rtX r) (rtY r), at_ := r, port := 4 }] } }
/-- The hypotheses of Arrived, as one evaluation. -/
def arr (s : State) (p : Packet) (cmd r : Nat) : Bool :=
  decide ((nextHop r (routeTag 0 (rtX r) (rtY r))) = none) && !pBad p && decide (pCmd p = cmd) && !s.down (pDest p) (pTarget p) && formOk s && s.protIdle
theorem arrived_of {p : Packet} {cmd r : Nat} {l : List (Nat × Nat)} {n : Net} (h : arr (net p r l n) p cmd r = true) :
    Arrived (net p r l n) p cmd ∧ (net p r l n).Inv := by
  simp only [arr, Bool.and_eq_true, Bool.not_eq_true', decide_eq_true_eq] at h
  obtain ⟨⟨⟨⟨⟨h1, h2⟩, h3⟩, h4⟩, h5⟩, h6⟩ := h
  exact ⟨⟨⟨_, rfl, rfl, h1⟩, h2, h3, h4⟩, inv_of h5⟩

def xmem : Nat := engWin 0 + 0x2000
theorem hyp_RequestsAreServed :
    (arr (net (pk 0 0x100 0 xmem 8) 0) (pk 0 0x100 0 xmem 8) 0 0 = true ∧ destOf xmem = some (0, false) ∧ accessOk xmem 8 false = true ∧
      pAddr (pk 0 0x100 0 xmem 8) = xmem ∧ pCount (pk 0 0x100 0 xmem 8) = 8 ∧ pDest (pk 0 0x100 0 xmem 8) = 0) ∧
    (let p := pk 0x33A 0x100 0 Reg.tsbGeom 4
     arr (net p 15) p 0 15 = true ∧ destOf Reg.tsbGeom = some (0x33A, true) ∧ accessOk Reg.tsbGeom 4 true = true ∧ Reg.tsbGeom ≠ Reg.tsbNow) ∧
    (let q := pk 0 0x100 1 xmem 8 (List.replicate 16 7)
     let w := pk 0 0x100 2 xmem 8 (List.replicate 16 7)
     arr (net q 0) q 1 0 = true ∧ arr (net w 0) w 2 0 = true ∧ xmem % 16 + 8 ≤ q.data.length) ∧
    (let p := pk 0x330 0x100 6 0x2000000040 9 (List.replicate 64 1)
     arr (net p 15) p 6 15 = true ∧ destOf 0x2000000040 = some (0x330, true) ∧ (net p 15).dptRuns = true ∧ (net p 15).tValid 1 = false) ∧
    (let p := pk 0 3 8 0 (5 * 2 ^ 16 + 2) (List.replicate 16 1)
     let r := pk 0 3 9 0 (5 * 2 ^ 16)
     arr (net p 0) p 8 0 = true ∧ arr (net r 0) r 9 0 = true ∧ pQueue p = 5 ∧ (net p 0).qDir 5 = 2 ∧ (net p 0).qFar 5 = 2) := by decide +kernel
theorem hyp_bad_header : pBad { hdr := 1 } = true ∧ ({ State.reset with net := {} } : State).net.transit = [] := by decide +kernel
theorem test_read : ((after (.nocRd (pk 0 0x100 0 xmem 2)) ((net (pk 0 0x100 0 xmem 2) 0).storeHalf xmem 0x1234)).net.outbox).map (fun q => (pDest q, pCmd q, q.data.take 2)) =
    [(0x100, 3, [0x34, 0x12])] := by decide +kernel
theorem test_write : (after (.nocWr (pk 0 0x100 1 xmem 2 (List.replicate 16 7))) (net (pk 0 0x100 1 xmem 2 (List.replicate 16 7)) 0)).half xmem = 0x0707 := by
  decide +kernel

theorem hyp_PacketsFollowTheirRoute :
    (let p := pk 0x100 0 4 0 0
     isResponse (pCmd p) = true ∧ pCmd p ≠ 8 ∧ ∃ t ∈ State.reset.resolve (pDest p), State.reset.fenced 3 0 = false ∧ nextHop 3 t ≠ none) ∧
    (let s : State := { State.reset with net := { transit := [{ pkt := pk 0x100 0 4 0 0, tag := routeTag 1 2 0, at_ := 0, port := 4 }] } }
     formOk s = true ∧ nextHop 0 (routeTag 1 2 0) = some (1, 3) ∧ nextHop 1 (routeTag 1 2 0) ≠ none) ∧
    (withRegs State.reset [(Reg.nocFence 4, 2)]).fenced 4 (5 - 4) = true := by decide +kernel
/-- Headers at router 0 with exit by port `q`, one urgent and one a response. -/
def at0 (cls : Nat) (q : Nat) (resp : Bool) : Transit :=
  { pkt := { hdr := mkHdr 0x100 0 (if resp then 4 else 1) 0 0 cls 0 0, data := [] }, tag := routeTag 1 2 0, at_ := 0, port := q, resp := resp }
theorem hyp_PacketsFollow_wins : (∀ x ∈ [at0 2 4 false, at0 1 4 true], ∀ y ∈ [at0 1 5 false], let n : Net := { transit := [x, y] }
      n.wins x = true ∧ n.wins y = false ∧ y.at_ = x.at_ ∧ y.output = x.output ∧ n.competes y = true) ∧
    (nextHop 0 (routeTag 1 2 0) = some (1, 3)) := by decide +kernel
/-- R332: the response first at the same urgency. -/
theorem test_response_first : (({ transit := [at0 1 4 true, at0 1 5 false] } : Net).wins (at0 1 5 false),
    ({ transit := [at0 1 4 true, at0 1 5 false] } : Net).wins (at0 1 4 true)) = (false, true) := by decide +kernel
theorem hyp_PacketsFollow_enters : hasPort 0 0 = true ∧ State.reset.fenced 0 0 = false ∧ State.reset.net.room 0 4 true = true ∧ State.reset.net.room 0 4 false = true ∧
    hasPort 0 3 = false ∧ (∀ t ∈ State.reset.resolve 0x100, nextHop 0 t ≠ none ∨ State.reset.fenced 0 (tagExit t) = false) ∧
    isAsked 4 = false ∧ isResponse 4 = true ∧ isAsked 8 = false ∧ isAsked 2 = false ∧ State.reset.resolve 0x3F0 = none ∧
    hasPort 5 1 = true ∧ (withRegs State.reset [(Reg.nocFence 5, 2)]).fenced 5 1 = true := by decide +kernel
/-- A stream packet of queue 5 to queue 37 of cluster 1, with one word; its credit is the image's to grant. -/
def strmS : State := withRegs (State.reset.setQueue 5 { buffer := [FWord.data 7] }) [(Reg.queCfg 5, 2 ^ 30 + 2 * 2 ^ 28 + 37)]
def strmP : Packet := pk 1 0 8 0 (37 * 2 ^ 16 + 1) ([7, 0, 4] ++ List.replicate 13 0)
theorem hyp_PacketsFollow_stream : (0 < Config.netGrant [] 0 1 → strmS.hasCredit (pSrc strmP) (pDest strmP) = true) ∧
    formOk strmS = true ∧ pCmd strmP = 8 ∧ pSrc strmP < 0x100 ∧ strmS.strmQueue strmP = some 5 ∧ pAux strmP % 16 = 1 ∧
    (List.range (pAux strmP % 16)).map (strmWord strmP) = (strmS.queue 5).buffer.take (pAux strmP % 16) := by
  refine ⟨fun h => ?_, by decide +kernel⟩
  have e1 : (strmS.sectionOf 11).getD [] = [] := by decide +kernel
  have e2 : pSrc strmP = 0 ∧ pDest strmP = 1 ∧ strmS.spent 0 1 = 0 := by decide +kernel
  rw [State.hasCredit, e1, e2.1, e2.2.1, e2.2.2]
  exact decide_eq_true h
theorem hyp_FenceBroadcast : formOk { State.reset with net := { bcast := [{ fences := [(3, 1)], map := [(5, 33)] }] } } = true := by decide +kernel
/-- R14, R324: from router 0 to cluster 0x25 of sector 2: 8 + 1 east and 1 south. -/
theorem test_hops : hops 0 (routeTag 0 (rtX 0x25) (rtY 0x25)) = 10 := by decide +kernel

/-- A POST of management to task 7, which has room; a stream packet that finds the partner's buffer full; a read of scratch whose port a cell uses. -/
theorem hyp_Requests_more :
    (let p := pk 0x331 0x354 6 (0x2000000000 + 64 * 7) 9 (List.replicate 64 1)
     let s := net p 31 [(Reg.task 7 0, 2 ^ 31), (Reg.task 7 7, 2 * 2 ^ 16)]
     arr s p 6 31 = true ∧ destOf (pAddr p) = some (pDest p, true) ∧ pAddr p = 0x2000000000 + 64 * 7 ∧ s.dptRuns = true ∧ s.tValid 7 = true ∧
       (s.task 7).disabled = false ∧ (s.task 7).ring.length < s.tCap 7 ∧ s.dpt.dirty = [] ∧ 0x300 ≤ pSrc p ∧ p.psn = 0) ∧
    (let p := pk 0 3 8 0 (5 * 2 ^ 16 + 2) (List.replicate 16 1)
     let s := (net p 0).setQueue 5 { buffer := words 7 }
     arr s p 8 0 = true ∧ 8 < (s.queue (pQueue p)).buffer.length + min 8 (pAux p % 16)) ∧
    (∀ c ∈ [0, 1, 2], let a := Reg.secBase 0 + 0x200000
     let p := pk 0 0x100 c a 8 (List.replicate 16 7)
     let s : State := { net p 0 with ports := { rd := [0], wr := [0] } }
     arr s p c 0 = true ∧ 0 ∈ scratchTiles (pAddr p) (pCount p) ∧ 0 ∈ s.portsNow.rd ∧ 0 ∈ s.portsNow.wr) ∧
    scratchTiles xmem 8 = [] ∧
    (∀ c ∈ [1, 2], let p := pk 0 0x100 c xmem 8 (List.replicate 16 7)
     let s : State := { net p 0 with prot := { copies := [{ memid := 0x5000, row := 0, spare := 0, bit := 0 }] } }
     arr s p c 0 = true ∧ s.protIdle = true ∧ s.rowCopied (pAddr p) (pCount p) = true ∧ (net p 0).rowCopied (pAddr p) (pCount p) = false) := by
  decide +kernel
/-- R124: the read waits. -/
theorem test_port_busy : let p := pk 0 0x100 0 (Reg.secBase 0 + 0x200000) 8
    (after (.nocRd p) { net p 0 with ports := { rd := [0] } }).net.transit.length = 1 := by decide +kernel

def await : Await := { src := 0x100, tag := 0x5A, dest := 0 }
theorem hyp_ResponsesComplete : (∀ x ∈ [3, 4, 7], let p := pk 0x100 0 x 0 0
      arr (net p 0 [] { awaiting := [await] }) p x 0 = true ∧ await.src = pDest p ∧ await.tag = pTag p ∧ arr (net p 0) p x 0 = true) ∧
    ((net (pk 0x100 0 5 0 3) 0).down 0x100 0 = false ∧ arr (net (pk 0x100 0 5 0 3) 0) (pk 0x100 0 5 0 3) 5 0 = true) ∧
    (let s : State := ({ State.reset with net := { awaiting := [await] } }).setEng 0 { post := .waiting }
     formOk s = true ∧ (s.eng (s.physOf (0x100 - 0x100))).post = .waiting ∧ await.src < 1024 ∧ await.tag = (0x5A : Byte).toNat ∧ await.post = none) := by
  decide +kernel
/-- R334: 15 returns at the moment the first joins; 16. -/
theorem hyp_Cret : let s : State := { withRegs State.reset [(Reg.nocCfg, 20)] with net := { returns := [(1024 * 0 + 3, 15)], returnsAt := [(1024 * 0 + 3, 50)] }, tsb := { tick := 50 } }
    formOk s = true ∧ Config.nclkAt s.tsb.tick - Config.nclkAt (Tbl.get 0 s.net.returnsAt (1024 * 0 + 3)) < s.fld Reg.nocCfg 7 0 ∧
    s.fld Reg.nocCfg 7 0 = 20 ∧ (withRegs State.reset [(Reg.nocCfg, 0)]).fld Reg.nocCfg 7 0 ≤ 0 := by
  refine ⟨by decide +kernel, ?_, by decide +kernel, by decide +kernel⟩
  show Config.nclkAt 50 - Config.nclkAt 50 < _
  rw [Nat.sub_self]
  decide +kernel
theorem test_reply_timeout : (after (.replyTimeout 0x100 0x5A) { State.reset with net := { awaiting := [await] } }).reg (Reg.nocCnt 3) = 0x10001 := by
  decide +kernel

/-! ### Accords, admission, the start (chapters 13 to 15) -/

/-- RUN, or not, with accord `now` in force. -/
def ac (run : Bool) (now : Nat) (a : Acc := {}) (t : Tsb := {}) : State :=
  { ts 2 t [(Reg.bootStatus, if run then 4 * 2 ^ 28 else 0), (Reg.accordStatus, now)] with acc := a }
def flying : Switch := { num := 3, source := 2, orbit := none, stage := 1, since := 7 }
def res (result code : Nat) : AdmResult :=
  { result := result, code := code, object := 0, dropsec := 0, admitted := 0, dropped := [], ends := [], report := [], up := [] }
def held3 : Prepared := { num := 3, snap := State.reset.snapshotNow 0, res := res 1 0, hot := [], cold := [], staged := true }
theorem hyp_AccordRequests : (∀ s ∈ [ac true 5, ac true 0, ac false 5, ac true 5 { inflight := some flying }, ac true 5 { prepared := some held3 }],
      formOk s = true) ∧
    (ac true 5).inRun = true ∧ (ac true 5).accordOf 0 ≠ none ∧ 0 ≠ (ac true 5).accordNow ∧ (ac false 5).inRun = false ∧ (ac true 5).accordOf 9 = none ∧
    0 = (ac true 0).accordNow ∧ (ac true 5 { inflight := some flying }).sameStart flying none = false := by decide +kernel
theorem hyp_Requests_bus : Requests (.glbSwitch 0) (ac true 5) 0 2 none false ∧ Requests (.glbPrepare 0) (ac true 5) 0 2 none true :=
  ⟨Or.inl ⟨rfl, rfl, rfl, rfl⟩, Or.inr (Or.inl ⟨rfl, rfl, rfl, rfl⟩)⟩
/-- R40: orbit 30; extension 0 names orbit 32. -/
theorem hyp_Requests_timing : Requests .accordSwitch (ac true 5 {} { due := some (0x90, 0), orbit := 30 }) 0 0 (some 32) false :=
  Or.inr (Or.inr ⟨rfl, rfl, rfl, 0, 0, rfl, by decide, rfl, by decide⟩)
theorem test_switch_taken : (after (.glbSwitch 0) (ac true 5)).acc.inflight.map (fun w => (w.num, w.stage)) = some (0, 1) := by decide +kernel
theorem test_accord_active : (after (.glbSwitch 0) (ac true 0)).fld Reg.accordStatus 27 24 = 2 := by decide +kernel
theorem test_named_orbit : (after .accordSwitch (ac true 5 {} { due := some (0x93, 0), orbit := 30 })).acc.inflight.map (fun w => w.orbit) = some (some 35) := by
  decide +kernel

def stg (prep : Bool) (o : Option (BitVec 48)) : Switch :=
  { num := 0, source := 2, orbit := o, stage := 2, prep := prep, snap := some (State.reset.snapshotNow 0), res := some (res 1 0) }
theorem hyp_Staging : (∀ w ∈ [stg false none, stg true none, stg false (some 31), stg false (some 30)], let s := ac true 5 { inflight := some w } { orbit := 30 }
      formOk s = true ∧ s.protIdle = true ∧ s.acc.inflight = some w ∧ w.stage = 2 ∧ s.firstStart = 31) ∧ (30 : BitVec 48).toNat < 31 := by decide +kernel

def admState (tr : AdmTrigger) (r : AdmResult) : State :=
  { (ac true 5) with adm := { running := some { trigger := tr, snap := State.reset.snapshotNow 0, res := r } } }
def step_ (op : Nat) (arg : W32) (n : Nat := 1) : State :=
  { withRegs State.reset [(Reg.bootStatus, 2 * 2 ^ 28)] with boot := { steps := List.replicate n { op := op, tmo := 0, arg := arg } } }
theorem hyp_AdmissionRuns : (∀ s ∈ [admState .readmit (res 1 0), admState .readmit (res 3 0x15), { admState .start (res 3 0x15) with regs := (step_ 6 0).regs }],
      formOk s = true ∧ s.adm.running ≠ none ∧ s.pwr.retry = 0) ∧
    (formOk (step_ 6 0) = true ∧ (step_ 6 0).curStep.isSome = true ∧ (step_ 6 0).boot.admitted = false ∧ (step_ 6 0).admitting = false) ∧
    ({ admState .start (res 3 0x15) with regs := (step_ 6 0).regs } : State).phase = 2 ∧
    (let s := { ac true 5 with adm := { waiting := [.readmit, .start] } }
     formOk s = true ∧ s.adm.running = none ∧ s.adm.waiting = [.readmit, .start]) := by decide +kernel
/-- R353: of triggers that arrive in one cycle the re-admission runs before the accord switch, an earlier one before both. -/
theorem test_same_cycle : let s : State := { State.reset with adm := { waiting := [.adopt [3]] } }
    ((s.trigger (.accord 5 false)).trigger .readmit).adm.waiting = [.adopt [3], .readmit, .accord 5 false] := by decide +kernel
theorem test_admit_step : (after .admitStep (step_ 6 0)).adm.waiting = [.start] := by decide +kernel

theorem hyp_StartSteps : (∀ op ∈ [1, 2, 3, 4, 5, 6], ∀ n ∈ [1, 2], formOk (step_ op 0x53 n) = true ∧ (step_ op 0x53 n).curStep = some { op := op, tmo := 0, arg := 0x53 }) ∧
    (withRegs (step_ 1 0) [(Reg.tsbStatus, 2)]).tsbState = .aligned ∧ (step_ 2 0).boot.lqclk = 0 ∧
    (∀ l : LaneNo, (step_ 5 1).rxMode l ≠ 0 → (1 : W32).getLsbD ((step_ 5 1).laneSec l) = true → (step_ 5 1).laneState l = 4 ∨ (step_ 5 1).laneState l = 6) ∧
    (let s := withRegs (step_ 5 1) [(Reg.lanCfg 3, 2 ^ 30)]
     s.rxMode 3 ≠ 0 ∧ (1 : W32).getLsbD (s.laneSec 3) = true ∧ s.laneState 3 ≠ 4 ∧ s.laneState 3 ≠ 6) := by decide +kernel
theorem test_release : let t := after .releaseSetreset (step_ 3 0x1234 2)
    (t.boot.released, t.fld Reg.bootStatus 27 24, t.phase) = (0x1234, 1, 2) := by decide +kernel
theorem test_last_step : (after .enableWrites (step_ 4 5)).phase = 3 := by decide +kernel
theorem test_wait_align_waits : (after (.waitAlign false) (withRegs (step_ 5 1) [(Reg.lanCfg 3, 2 ^ 30)])).phase = 2 := by decide +kernel

def waitsRun : State :=
  { ts 2 {} [(Reg.bootStatus, 3 * 2 ^ 28), (Reg.pwrSecState, 0xAAAAAAAA)] with boot := { released := 7 }, adm := { dropsec := 2 }, pwr := { quads := 1 } }
theorem hyp_RunBegins : formOk waitsRun = true ∧ waitsRun.phase = 3 ∧ waitsRun.planeRuns = true ∧ waitsRun.tsb.crossing = 0 ∧ waitsRun.tsb.slot = 0 ∧
    waitsRun.startsIn 0 = true ∧ waitsRun.startsIn 1 = false ∧ waitsRun.pwr.quads.getLsbD 0 = true ∧ waitsRun.boot.restart = false := by decide +kernel

def env (test rail : Bool) : StartEnv := { fuses := false, rails := [(rail, RailReading.none)], march := [], flash := true, octal := true, cs1 := true, sectors := 0xFFFF, vout := true, straps := 5, testEn := test, resetN := true }
theorem hyp_StartsAndRestarts : (env true true).testEn = true ∧ (env false true).testEn = false ∧ (env false true).fuses = false ∧
    ((env false true).rails[0]?).any (·.1) = true ∧ ((env true true).resetN && State.reset.inExtest) = false ∧
    ({ State.reset with mgt := { ir := 0, held := some 0 } } : State).inExtest = true ∧
    (let s : State := { State.reset with boot := { restart := true } }
     formOk s = true ∧ s.powered = true ∧ s.testMode = false ∧ s.commits = [] ∧ s.prot.owed = []) ∧
    (let s : State := { State.reset with pwr := { globalOn := true }, commits := [{ typ := 1, payload := [] }] }
     formOk s = true ∧ s.pwr.globalOn = true ∧ (∀ r ∈ s.flash.records, r.seq.toNat + s.flash.records.length + 1 < 2 ^ 32) ∧ s.commits ≠ []) := by decide +kernel
theorem hyp_Starts_own_effect : (env false false).testEn = false ∧ ({ State.reset with boot := { restart := true } } : State).powered = true ∧
    ({ State.reset with boot := { restart := true } } : State).testMode = false := by decide +kernel
theorem test_record_commit : (after .recordCommit { State.reset with commits := [{ typ := 0x12, payload := [] }] }).flash.records.map (fun r => (r.typ, r.seq)) = [(0x12, 1)] := by
  decide +kernel

/-! ### Resets, memory protection, power (chapters 16, 17 and 20) -/

/-- RUN at slot 0 of crossing 0 of orbit 30, ALIGNED, the sectors' power states, with other registers and reloads. -/
def rj (rl : Tbl (Option Reload)) (l : List (Nat × Nat) := []) : State :=
  { ts 2 { orbit := 30, cx := 7 } ([(Reg.bootStatus, 4 * 2 ^ 28), (Reg.pwrSecState, 0xFFFFFFFE)] ++ l) with reloads := rl }
def waitsFor (d : Option Nat) : Option Reload := some { accord := 0, doneAt := d }
theorem hyp_RegionsReset : formOk (rj []) = true ∧ (rj []).inRun = true ∧ (ac false 0).inRun = false ∧
    (withRegs (rj []) [(Reg.lanCfg 3, 2 ^ 30)]).inRun = true ∧ (rj []).mayJoin 5 = false ∧
    (∀ r ∈ [0, 255, 256, 271], let s := rj [(r, waitsFor none)]
      formOk s = true ∧ Tbl.get none s.reloads r = waitsFor none ∧ s.prot.flips = [] ∧ s.adm.dropsec = 0) := by decide +kernel
theorem hyp_RegionRejoin :
    (let s := rj [(5, waitsFor (some 6))] [(Reg.glbSecState 0, 2 ^ 30), (Reg.pwrSecState, 0xFFFFFFFF)]
     formOk s = true ∧ s.mayJoin 5 = true ∧ s.acc.inflight = none ∧ s.physOf 10 = 10 ∧ s.physOf 11 = 11 ∧ (s.eng 10).run = .reset ∧
       (s.eng 11).run = .reset ∧ (s.eng 10).dead = false ∧ (s.eng 11).dead = false) ∧
    (let s := rj [(256, waitsFor (some 6))]
     formOk s = true ∧ s.mayJoin 256 = true ∧ s.secPower 0 = 2 ∧ Tbl.get none s.reloads 3 = none) := by decide +kernel
theorem hyp_RegionRejoin_plane : let s := { rj [(5, waitsFor (some 6))] [(Reg.glbSecState 0, 2 ^ 30), (Reg.pwrSecState, 0xFFFFFFFF)] with
      mem := [(engWin 10 + 0x6000, 0x20), (engWin 11 + 0x6000, 1)] }
    formOk s = true ∧ s.mayJoin 5 = true ∧ s.pooled 11 = true ∧ s.pooled 10 = false ∧ s.gang 10 = [10] ∧ s.gang 11 = [11] ∧ s.leads 10 = true ∧
      (∀ x ∈ s.gang 10 ++ s.gang 11, s.pooled x = true ∨ s.gang x = [x]) := by decide +kernel
theorem test_rejoin : ((after (.regionRejoin 0x100) (rj [(256, waitsFor (some 6))])).reg (Reg.glbSecJoin 0)) = 30 := by decide +kernel
theorem test_sector_reset : (after (.glbResetSector 3) (rj [] [(Reg.glbSecState 1, 2 ^ 30)])).sectorResets = [(1, 3)] := by decide +kernel

theorem hyp_Spare : formOk State.reset = true ∧ State.reset.inRun = false ∧ (State.reset.eng 5).dead = false ∧ State.reset.logOf 5 = some 5 ∧
    State.reset.freeSpare (5 / 34) = some 32 := by decide +kernel
theorem hyp_Spare_none : let s := (State.reset.setEng 32 { dead := true }).setEng 33 { dead := true }
    formOk s = true ∧ s.logOf 5 = some 5 ∧ s.freeSpare (5 / 34) = none := by decide +kernel
theorem hyp_SpareCopy : let s := State.reset.setEng 32 { run := .loading, copyFrom := some 5 }
    formOk s = true ∧ (s.eng 32).copyFrom = some 5 ∧ (s.eng 32).run = .loading ∧ (s.eng 32).rejoinAt = none ∧ s.protIdle = true := by
  decide +kernel
theorem test_spare : (after (.declareDead 5) State.reset).physOf 5 = 32 := by decide +kernel

/-- Engine 5 in its plane with a word on SO0, in slot 3. -/
def soS : State :=
  let s := State.reset.setEng 5 { run := .idle, so := Vector.replicate 4 (FWord.data 0x4321) }
  { s with tsb := { s.tsb with slot := 3, tick := 99, cx := 3 } }
/-- R149 and R150: the word driven before the departure, POISON to the end of the crossing, then MARK DARK. -/
theorem test_engso_of_dead_engine : let t := after (.declareDead 5) soS
    t.engSo 5 0 = FWord.data 0x4321 ∧
    State.engSo { t with tsb := { t.tsb with slot := 4, tick := 100 } } 5 0 = FWord.poison 6 ∧
    State.engSo { t with tsb := { t.tsb with slot := 0, tick := 128, cx := 4 } } 5 0 = FWord.dark 0x205 := by decide +kernel

/-- The scrubber of the dispatcher's memory at its row 4, with stored bits in error there. -/
def scr (b : BitVec 72) : State :=
  { withRegs State.reset [(Reg.memScrubCfg, 0x1111F)] with
    pwr := { globalOn := true }
    prot := { scrub := [(8192, 4)], flips := Tbl.set 0 [] (rowKey 0x8000 4) b } }
theorem hyp_ScrubRead : ∀ b ∈ [0, 2, 6], let s := scr (BitVec.ofNat 72 b)
    formOk s = true ∧ s.fld Reg.memScrubCfg (scrubField .dpt + 3) (scrubField .dpt) ≠ 0 ∧ s.scrubOn .dpt = true ∧
      walkRow (scrubMems .dpt) (Tbl.get 0 s.prot.scrub (scrubKey .dpt)) = some (rowKey 0x8000 4) ∧ s.flips (rowKey 0x8000 4) = BitVec.ofNat 72 b ∧
      s.prot.copies = [] ∧ s.rptFind (rowKey 0x8000 4) = none ∧ s.rbit (Reg.memRptRow 0) 31 = false ∧
      cellHolds (rowKey 0x8000 4) s.portsNow.rd = false ∧ s.portsNow.cor = [] := by decide +kernel
/-- A cell uses both scratch ports of tile 0 in this slot; the walk of its scrubber stands at its first scratch row, the rewrite of which
is due. -/
def scrBusy : State :=
  { scr 0 with pwr := {}, ports := { rd := [0], wr := [0] }, regs := (withRegs State.reset [(Reg.memScrubCfg, 0x1111F), (Reg.pwrSecState, 2)]).regs,
               prot := { scrub := [(0, 86)], rewrite := [rowKey 0x2000 0] } }
theorem hyp_Scrub_waits : formOk scrBusy = true ∧ scrBusy.scrubOn (.fab 0) = true ∧
    scrBusy.fld Reg.memScrubCfg (scrubField (.fab 0) + 3) (scrubField (.fab 0)) ≠ 0 ∧
    walkRow (scrubMems (.fab 0)) (Tbl.get 0 scrBusy.prot.scrub (scrubKey (.fab 0))) = some (rowKey 0x2000 0) ∧
    cellHolds (rowKey 0x2000 0) scrBusy.portsNow.rd = true ∧ cellHolds (rowKey 0x2000 0) scrBusy.portsNow.wr = true ∧
    scrBusy.prot.rewrite.find? (fun j => decide (keyMem j ∈ scrubMems (.fab 0))) = some (rowKey 0x2000 0) := by decide +kernel
/-- R422: a row that its scrubber and a reader correct in one slot counts once; one that is corrected and written counts as written first. -/
theorem test_one_correction : let k := rowKey 0x8000 4
    let s := ((scr 2).readRow k .scrubber).1
    ((s.readRow k .readPath).1.fld Reg.memCnt0 31 16, (s.readRow k .scrubber).1.fld Reg.memCnt0 31 16,
      (s.rowWritten k).prot.written, ((scr 2).corrected k).prot.written) = (1, 2, [], []) := by decide +kernel
theorem test_scrub_ce : (after (.scrubRead .dpt) (scr 2)).reg (Reg.memRptRow 0) = BitVec.ofNat 32 (2 ^ 31 + 2 ^ 22 + 4) := by decide +kernel
theorem test_scrub_ue : (after (.scrubRead .dpt) (scr 6)).prot.owed = [16] := by decide +kernel

def repairing (m row : Nat) (c : Option Nat) (sp : Tbl (Option Nat) := []) (b : BitVec 72 := 0) : State :=
  { State.reset with prot := { hard := if c = none then [(m, row)] else [], copies := match c with
                                 | some x => [{ memid := m, row := row, spare := x, bit := 0 }]
                                 | none => []
                               spares := sp, flips := if b = 0 then [] else [(rowKey m row, b)] } }
theorem hyp_Repair : (∀ sp ∈ [[], [(rowKey 0x3000 7, some 0)]], let s := repairing 0x3000 9 none sp
      formOk s = true ∧ s.prot.copies = [] ∧ s.prot.hard = [((0x3000 : BitVec 16).toNat, 9)] ∧
        s.freeSpareRow 0x3000 = (if sp.isEmpty then some 0 else none)) ∧
    (let s := repairing 0x3000 9 (some 0) [] 2
     formOk s = true ∧ popCount (s.flips (rowKey 0x3000 9)) ≤ 1 ∧ s.prot.copies.length = 1) ∧
    (let s : State := { State.reset with prot := { rewrite := [rowKey 0x8000 4] }, pwr := { globalOn := true } }
     formOk s = true ∧ s.prot.rewrite.find? (fun j => decide (keyMem j ∈ scrubMems .dpt)) = some (rowKey 0x8000 4) ∧ s.scrubOn .dpt = true ∧
       Tbl.get 0 s.prot.stuck (rowKey 0x8000 4) = 0 ∧ s.prot.inject = none ∧ cellHolds (rowKey 0x8000 4) s.portsNow.wr = false ∧
       s.copyHolds (rowKey 0x8000 4) = false) ∧
    (let w : W32 := BitVec.ofNat 32 (2 ^ 31 + 2 ^ 30 + 70 * 2 ^ 22 + 9)
     w.getLsbD 31 = true ∧ State.reset.locked = false ∧ bitsOf w 28 22 ≤ (if w.getLsbD 30 then 70 else 71)) := by decide +kernel
theorem test_injection : (after (.injectionArm (BitVec.ofNat 32 (2 ^ 31 + 2 ^ 30 + 70 * 2 ^ 22 + 9))) State.reset).prot.inject =
    some { memid := 0, row := 9, bits := BitVec.ofNat 72 (3 * 2 ^ 70) } := by decide +kernel

/-- Sector 3 in a power state, with marks of the power manager. -/
def pw (code : Nat) (p : Pwr) (l : List (Nat × Nat) := []) : State :=
  { withRegs State.reset ([(Reg.pwrSecState, code * 64)] ++ l) with pwr := p }
theorem hyp_SectorPower :
    (∀ ph ∈ [1, 2, 4, 5], let s := pw 1 { up := 8 } [(Reg.bootStatus, ph * 2 ^ 28)]
      formOk s = true ∧ s.pwr.up.getLsbD 3 = true ∧ s.secPower 3 ≠ 0 ∧ s.phase = ph) ∧
    (let s := pw 3 {} [(Reg.glbSecState 3, 2 ^ 30)]
     formOk s = true ∧ s.secPower 3 = 3 ∧ s.secIn 3 = true) ∧
    (formOk (pw 1 { emergency := 8 }) = true ∧ (pw 1 { emergency := 8 }).pwr.emergency.getLsbD 3 = true) ∧
    (formOk (pw 1 { orderly := 8 }) = true ∧ (pw 1 { orderly := 8 }).pwr.orderly.getLsbD 3 = true ∧ (pw 1 { orderly := 8 }).net.awaiting = []) ∧
    (let s := pw 0 {} [(Reg.pwrOc, 8)]
     formOk s = true ∧ s.adm.running = none ∧ s.pwr.emergency = 0 ∧ s.rbit Reg.pwrOc 3 = true ∧ s.secPower 3 = 0) ∧
    ((admState .readmit (res 1 0)).adm.running ≠ none) := by decide +kernel
theorem test_emergency_down : (after (.emergencyDownComplete 3) (pw 1 { emergency := 8 })).reg Reg.pwrSecState = 0 := by decide +kernel
theorem test_retry : (after (.pwrRetry 8) (pw 0 {} [(Reg.pwrOc, 8)])).pwr.up = 8 := by decide +kernel

def rail (vout : Nat) (failed : Bool := false) : RailReading := { failed := failed, iout := 0, vout := BitVec.ofNat 16 vout, status := 0, temp := 0 }
def railed : State := { withRegs State.reset [(Reg.pwrStatus, 2 ^ 30), (Reg.pwrRailCfg 1, 1000), (Reg.pwrTelCfg, 3 * 256 + 50)] with
  pwr := { rails := 7, globalOn := true, bad := #v[0, 2, 0] } }
theorem hyp_RailPoll : formOk railed = true ∧ railed.fld Reg.pwrStatus 31 30 = 1 ∧ railed.pwr.rails = 7 ∧ railed.pwr.bad.toList = [0, 2, 0] ∧
    railed.fld Reg.pwrTelCfg 15 8 = 3 ∧ (rail 1000 true).failed = true ∧
    (¬ railed.fld Reg.pwrTelCfg 7 0 * railed.fld (Reg.pwrRailCfg 1) 15 0 < (((rail 1050).vout.toNat : Int) - railed.fld (Reg.pwrRailCfg 1) 15 0).natAbs * 1000 ∧
      (rail 1050).status &&& 0xE874 = 0 ∧ linear11Above (rail 1050).iout (railLimit 1) = false) ∧
    (railed.fld Reg.pwrTelCfg 7 0 * railed.fld (Reg.pwrRailCfg 1) 15 0 < (((rail 1051).vout.toNat : Int) - railed.fld (Reg.pwrRailCfg 1) 15 0).natAbs * 1000) := by
  decide +kernel
theorem hyp_rails_out : ∀ i : SectorNo, railed.secIn i = true → railed.secPower i ≠ 0 := by decide +kernel
theorem test_rail_window : let b (v : Nat) := (after (.railPoll 1 (rail v)) { railed with pwr := { rails := 7 } }).pwr.bad.toList
    (b 1050, b 1051) = ([0, 0, 0], [0, 1, 0]) := by decide +kernel

/-- The hottest sensor at `tmax` in eighths of a degree, throttle level `lv`, sensors that have failed; threshold 95, hysteresis 5. -/
def hot (tmax lv fails : Nat) : State :=
  withRegs State.reset [(Reg.pwrStatus, 2 ^ 30 + lv * 2 ^ 19 + tmax), (Reg.pwrCfg, 110 * 2 ^ 24 + 95 * 2 ^ 16 + 5 * 2 ^ 12), (Reg.pwrSensFail, fails)]
theorem hyp_Throttle : (∀ x ∈ [(759, 0), (760, 0), (760, 7), (720, 3), (721, 3)], let s := hot x.1 x.2 0
      formOk s = true ∧ s.fld Reg.pwrStatus 31 30 < 2 ∧ s.goodSensors ≠ [] ∧ 8 * s.fld Reg.pwrCfg 23 16 = 760 ∧ 8 * s.fld Reg.pwrCfg 15 12 = 40 ∧
        (∀ k, k < 16 → s.secPowered k = false)) ∧
    (hot 0 0 0xFFFFFFFF).goodSensors = [] ∧ (∀ v ∈ [(-441 : Int), -440, 1200, 1201], (BitVec.ofInt 16 v).toInt = v) := by decide +kernel
theorem test_throttle : (after .throttleUpdate (hot 760 0 0)).fld Reg.pwrStatus 21 19 = 1 ∧ (after .throttleUpdate (hot 720 3 0)).fld Reg.pwrStatus 21 19 = 2 ∧
    (after .throttleUpdate (hot 721 3 0)).fld Reg.pwrStatus 21 19 = 3 := by decide +kernel
theorem test_sensor_fails : (after (.sensorSample 3 (BitVec.ofInt 16 (-441))) (hot 0 0 0)).reg Reg.pwrSensFail = 8 := by decide +kernel

/-! ### Hallmark (chapter 18) -/

/-- Hallmark open, or not; an operation that runs; its seeds. -/
def hk (on : Bool) (o : Option HlmOp := none) (seeds : Option (List Byte) := none) (l : List (Nat × Nat) := []) : State :=
  { withRegs State.reset l with
    hlm := { running := o }
    boot := { enable := if on then 1 else 0 }
    fuses := { seeds := seeds } }
def hop (op : Nat) (target : Nat := 0) (result : Option Nat := none) (body : List Byte := []) : HlmOp :=
  { op := op, target := target, result := result, body := body }
def chalOk : Nat × Nat := (Reg.hlmStatus, 2 ^ 19)
theorem hyp_HallmarkTakes : (∀ s ∈ [hk true, hk true none (some [1]), hk true none none [chalOk], hk true (some (hop 1)), hk false],
      formOk s = true ∧ s.powered = true ∧ s.testMode = false ∧ s.phase ≠ 5) ∧
    (hk true).boot.enable.getLsbD 0 = true ∧ (hk true).hlm.running = none ∧ (hk true (some (hop 1))).hlm.running ≠ none ∧
    (hk false).boot.enable.getLsbD 0 = false ∧ (hk true).fuses.seeds = none ∧ (hk true none (some [1])).fuses.seeds ≠ none ∧
    (hk true).rbit Reg.hlmStatus 19 = false ∧ (hk true none none [chalOk]).rbit Reg.hlmStatus 19 = true ∧
    (∀ op ∈ [6, 7], (hk true none none [chalOk]).authPasses op = false) ∧ (hk true none none [chalOk]).customers = [] := by decide +kernel
theorem hyp_cert : (hk true).certOk ((hk true).mailbox 0 7984) (some ((hk true).mailbox 7984 32)) = false := by decide +kernel
theorem hyp_HallmarkEnds : (∀ o ∈ [hop 1, hop 2 0 none (List.replicate 256 1), hop 3, hop 4, hop 5 3, hop 6 5, hop 7, hop 8, hop 9, hop 6 0 (some 4)],
      formOk (hk true (some o)) = true ∧ (hk true (some o)).hlm.running = some o ∧ (hk true (some o)).fuses.seeds = none ∧ (hk true (some o)).commits = []) ∧
    ((hk true).slot 3).code = 0 ∧ (hop 2 0 none (List.replicate 256 1)).body.length = 256 := by decide +kernel
theorem hyp_CertRead : let r (i : Byte) : Record := { typ := 0x40, seq := 1, time := 0, payload := [i, 2, 0, 0, 0, 0, 0, 0, 7] }
    ({ log := [(0, [r 0, r 1])] } : Flash).cert = some [7, 7] := by decide +kernel
theorem test_challenge_busy : (after (.challenge) (hk true)).fld Reg.hlmStatus 27 23 = 2 * 1 + 1 := by decide +kernel
theorem test_nochal : ((after (.keyRevoke true) (hk true)).hlm.running).map (·.result) = some (some 4) := by decide +kernel
theorem test_key_burns : (((after (.hallmarkOpComplete true) (hk true (some (hop 5 3 none [9])))).slot 3).hash) = [9] := by decide +kernel

/-! ### Management, I2C, the TAP, registers (chapters 19 and 21) -/

/-- The management port in RUN with one request waiting, or none: ENABLE_WRITES mask, address 10.0.0.x allowed. -/
def rq (op : Nat) (arg : Nat) (data : List Byte := []) : MgtReq :=
  { mac := List.replicate 6 2, ip := 0x0A000005, port := 9, op := BitVec.ofNat 8 op, status := 0, seq := 3, arg := BitVec.ofNat 64 arg, data := data }
def mg (q : List MgtReq) (enable : Nat) (l : List (Nat × Nat) := []) (allow : Nat := 2 ^ 31 + 24) : State :=
  { withRegs State.reset ([(Reg.pwrStatus, 2 ^ 30), (Reg.bootStatus, 4 * 2 ^ 28), (Reg.mgtAllowCtl 0, allow), (Reg.mgtAllowAddr 0, 0x0A000000),
      (Reg.pwrSecState, 0xFFFFFFFF), (Reg.glbCl 0, 0), (Reg.glbSecState 0, 2 ^ 30), (Reg.mgtIp, 0x0A000001), (Reg.mgtCfg, 4660 * 2 ^ 16), (Reg.mgtMacLo, 0x55667788), (Reg.mgtMacHi, 0x0233)] ++ l) with
    engines := [(0, { run := .idle })]
    pwr := { globalOn := true }
    mgt := { queue := q }
    boot := { enable := BitVec.ofNat 3 enable } }
/-- The hypotheses of Waits, as one evaluation. -/
def wt (s : State) (r : MgtReq) : Bool :=
  s.portOn && decide (s.mgt.queue = [r]) && decide (s.mgt.kept = []) && !r.bad && !s.tooEarly && decide (s.phase ≠ 5) && decide (r.mac.length = 6) && formOk s
theorem waits_of {s : State} {r : MgtReq} (h : wt s r = true) : Waits s r ∧ s.Inv := by
  simp only [wt, Bool.and_eq_true, Bool.not_eq_true', decide_eq_true_eq] at h
  obtain ⟨⟨⟨⟨⟨⟨⟨h1, h2⟩, h3⟩, h4⟩, h5⟩, h6⟩, h7⟩, h8⟩ := h
  exact ⟨⟨h1, h2, h3, h4, h5, h6, h7⟩, inv_of h8⟩
def atX (n : Nat) : Nat := xmem + n * 2 ^ 40
theorem hyp_mgmtRead : (∀ x ∈ [rq 1 (atX 8), rq 4 (atX 8)], wt (mg [x] 0) x = true) ∧ (mg [] 0).prot.flips = [] ∧ xmem % 256 + 8 ≤ 256 ∧
    (mg [] 0).blocked xmem 8 = none ∧ isRegister xmem = false ∧ bitsOf (rq 1 (atX 8)).arg 39 0 = xmem ∧ bitsOf (rq 1 (atX 8)).arg 51 40 = 8 ∧
    (let r := rq 1 (Reg.tsbGeom + 4 * 2 ^ 40)
     wt (mg [r] 0) r = true ∧ (mg [] 0).blocked Reg.tsbGeom 4 = none ∧ isRegister Reg.tsbGeom = true ∧ Reg.tsbGeom ≠ Reg.tsbNow) ∧
    (let r := rq 1 (2 ^ 40 - 16 + 4 * 2 ^ 40)
     wt (mg [r] 0) r = true ∧ ((mg [] 0).blocked (2 ^ 40 - 16) 4).map (·.2) = some 2) := by decide +kernel
theorem hyp_mgmtWrite : let r := rq 2 xmem (List.replicate 8 7)
    wt (mg [r] 1) r = true ∧ (mg [r] 1).boot.enable.getLsbD 0 = true ∧ (mg [r] 1).allowed r.ip = true ∧ (mg [r] 1).protIdle = true ∧
      xmem % 256 + 8 ≤ 256 ∧ engWin 0 + 0x2000 ≤ xmem ∧ xmem + 8 ≤ engWin 0 + 0x6000 ∧ (mg [] 1).blocked xmem 8 = none := by decide +kernel
theorem hyp_commands : (∀ x ∈ [(0, 0), (1, 0x1000001 * 2 ^ 32), (2, 5 * 2 ^ 32)], let r := rq 3 (x.1 + x.2)
      wt (mg [r] 1) r = true ∧ isCommand x.1 r = true ∧ (mg [r] 1).boot.enable.getLsbD 0 = true ∧ (mg [r] 1).allowed r.ip = true ∧
        wt (mg [r] 0) r = true ∧ (mg [r] 0).boot.enable.getLsbD 0 = false ∧ wt (mg [r] 1 [] 24) r = true ∧ (mg [r] 1 [] 24).allowed r.ip = false) ∧
    (mg [] 1).blocked Reg.accordCmd 4 = none ∧ bitsOf (rq 3 (2 + 5 * 2 ^ 32)).arg 63 32 = 5 := by decide +kernel
/-- R460: the answer to a READ carries the bytes read. -/
theorem test_mgmt_read : ((after .mgmtRead ((mg [rq 1 (atX 4)] 0).setLe xmem 4 0xA1B2C3D4)).mgt.sent).map (fun f => f.drop 58) = [[0xD4, 0xC3, 0xB2, 0xA1]] := by
  decide +kernel
theorem test_mgmt_write : (after .mgmtWrite (mg [rq 2 xmem [1, 2, 3, 4]] 1)).half xmem = 0x0201 := by decide +kernel
theorem test_denied : (after .ping (mg [rq 3 0] 1 [] 24)).fld Reg.mgtCnt0 15 0 = 1 := by decide +kernel

/-- A UDP frame to the device with a request, its checksums written by hand: none for UDP. -/
def frame (body : List Byte) : List Byte :=
  [0x02, 0x33, 0x55, 0x66, 0x77, 0x88] ++ List.replicate 6 2 ++ [8, 0] ++ [0x45, 0, 0, 44, 0, 0, 0, 0, 64, 17, 0x66, 0xBC, 10, 0, 0, 5, 10, 0, 0, 1] ++
    [0, 9, 0x12, 0x34, 0, 24, 0, 0] ++ body
def ping : List Byte := [0x47, 0x4D, 3, 0, 3, 0, 0, 0] ++ List.replicate 8 0
theorem hyp_frames : (let s := mg [] 1
      let f := frame ping
      let p := f.drop 14
      let d := p.drop 20
      formOk s = true ∧ s.portOn = true ∧ f.take 6 = s.macBytes ∧ beAt f 12 2 = 0x0800 ∧ beAt p 0 1 = 0x45 ∧ beAt p 16 4 = s.ipNow ∧ beAt p 6 2 % 0x4000 = 0 ∧
        inetSum (p.take 20) = 0 ∧ beAt p 2 2 = p.length ∧ beAt p 9 1 = 17 ∧ beAt d 2 2 = s.portNow ∧ beAt d 4 2 = d.length ∧ beAt d 6 2 = 0 ∧
        parseRequest ((f.drop 6).take 6) (beAt p 12 4) (beAt d 0 2) (d.drop 8) = some (rq 3 0) ∧ s.keptFor (rq 3 0) = none ∧ (rq 3 0).bad = false ∧
        s.netOn = true) ∧
    (let f : List Byte := List.replicate 6 0xFF ++ List.replicate 6 2 ++ [8, 6] ++ [0, 1, 8, 0, 6, 4, 0, 1] ++ List.replicate 6 2 ++ [10, 0, 0, 5] ++
        List.replicate 6 0 ++ [10, 0, 0, 1]
     beAt f 12 2 = 0x0806 ∧ (f.drop 14).length = 28 ∧ (f.drop 14).take 8 = [0, 1, 8, 0, 6, 4, 0, 1] ∧ beAt (f.drop 14) 24 4 = (mg [] 1).ipNow) := by
  decide +kernel
/-- The sum of RFC 1071 over 0x0001, 0xF203, 0xF4F5, 0xF6F7 is 0xDDF2. -/
theorem test_internet_sum : inetSum [0x00, 0x01, 0xF2, 0x03, 0xF4, 0xF5, 0xF6, 0xF7] = 65535 - 0xDDF2 := by decide +kernel

def dir (active : Byte) : Record := { typ := 1, seq := 5, time := 0, payload := active :: List.replicate 15 0 }
def im (r : MgtReq) (active : Byte) (mark : Nat) (dirty : Nat) : State :=
  { mg [r] 4 [(Reg.bootStatus, 4 * 2 ^ 28 + 2 ^ 11)] with
    flash := { dir0 := [dir active] }
    mgt := { queue := [r], markA := mark, dirty := BitVec.ofNat 2 dirty } }
theorem hyp_ImageWrite : (∀ x ∈ [(8, 8, 1), (0, 0, 0), (12, 8, 1), (0, 8, 0)], let r := rq 5 x.1 [1, 2, 3, 4]
      wt (im r 1 x.2.1 x.2.2) r = true ∧ (im r 1 x.2.1 x.2.2).slotOpen 0 = true ∧ bitsOf r.arg 32 32 = 0 ∧ bitsOf r.arg 31 0 = x.1 ∧
        (im r 1 x.2.1 x.2.2).mark 0 = x.2.1 ∧ (im r 1 x.2.1 x.2.2).boot.enable.getLsbD 2 = true ∧ (im r 1 x.2.1 x.2.2).allowed r.ip = true ∧
        (im r 1 x.2.1 x.2.2).commits = []) ∧
    (let r := rq 5 0 [1, 2, 3, 4]
     wt (im r 0 0 0) r = true ∧ (im r 0 0 0).activeSlot = some 0) := by decide +kernel
theorem hyp_ImageCommit : (let r := rq 6 0
      wt (im r 1 0 1) r = true ∧ (im r 1 0 1).hlm.running = none ∧ (im r 1 0 1).slotOpen 0 = true ∧ 0 ≤ (im r 1 0 1).mark 0 ∧
        ((im r 1 0 1).checkImage 0 0).toOption = none ∧ wt (im r 0 0 1) r = true ∧ (im r 0 0 1).activeSlot = some 0) := by decide +kernel
theorem test_image_write : (after (.imageWrite true) (im (rq 5 8 [1, 2, 3, 4]) 1 8 1)).mark 0 = 12 := by decide +kernel

theorem hyp_I2c : formOk State.reset = true ∧ State.reset.powered = true ∧
    (let s := mg [] 7
     formOk s = true ∧ s.phase = 4 ∧ s.thermalOff = false ∧ s.inRailOff = false ∧ s.boot.enable.getLsbD 1 = true ∧ s.commits = []) ∧
    (let s := withRegs State.reset [(Reg.pwrStatus, 2 * 2 ^ 30), (Reg.pwrTemp 0, 800)]
     s.thermalOff = true ∧ s.rearmed = false ∧ s.boot.enable.getLsbD 1 = false) ∧
    (withRegs State.reset [(Reg.pwrStatus, 3 * 2 ^ 30)]).inRailOff = true := by decide +kernel
/-- CRC-8 of SMBus, polynomial 0x07: its check word over "123456789" is 0xF4. -/
theorem test_pec : pecOf [0x31, 0x32, 0x33, 0x34, 0x35, 0x36, 0x37, 0x38, 0x39] = 0xF4 := by decide +kernel
theorem test_i2c_last : let t := after (.i2cClearFails 0x7E 0) (mg [] 7)
    t.mgt.i2cLast = 0x81000001 := by decide +kernel
theorem hyp_Tap : let s := mg [] 7 [(Reg.hlmStatus, 2 ^ 22)]
    let u : State := { s with mgt := { s.mgt with ir := 0x10, held := none, highz := false } }
    formOk s = true ∧ s.powered = true ∧ s.pwr.globalOn = true ∧ s.rbit Reg.hlmStatus 22 = true ∧ u.blocked Reg.tsbGeom 4 = none ∧
      isRegister Reg.tsbGeom = true ∧ s.prot.flips = [] ∧ s.protIdle = true ∧ u.blocked xmem 4 = none ∧ engWin 0 + 0x2000 ≤ xmem ∧
      xmem + 4 ≤ engWin 0 + 0x6000 ∧ (mg [] 7).rbit Reg.hlmStatus 22 = false := by decide +kernel
theorem test_tap_write : (after (.jtagAccessWrite (BitVec.ofNat 40 xmem) 0x11223344) (mg [] 7 [(Reg.hlmStatus, 2 ^ 22)])).half xmem = 0x3344 := by decide +kernel

/-- Hypotheses of RegisterWriteFollowsClasses: one register of each class, one that takes commands, and an address with none. -/
theorem hyp_RegisterWrite : ∀ s ∈ [mg [] 0, mg [] 0 [(Reg.bootStatus, 3 * 2 ^ 28)]], formOk s = true ∧ s.netOn = true ∧
    (∀ a ∈ [Reg.drzBmaskLo, Reg.glbFault, Reg.accordCmd, Reg.tsbGeom], isRegister a = true ∧ s.blocked a 4 = none ∧ (glbOff a).isSome = true ∧
      (regSpec a).isSome = true ∧ schedEntry a = none) := by decide +kernel
theorem hyp_classes : ∀ a ∈ [Reg.glbFault, Reg.tsbGeom], ∀ r ∈ regSpec a, r.wo = 0 ∧ r.rw &&& r.rw1c = 0 ∧ r.rwl &&& (r.rw ||| r.rw1c) = 0 := by decide +kernel
theorem hyp_write_only : ∀ r ∈ regSpec Reg.accordCmd, r.wo ≠ 0 := by decide +kernel
theorem test_rw1c : (after (.registerWrite (BitVec.ofNat 40 Reg.glbFault) 5) (mg [] 0 [(Reg.glbFault, 7)])).reg Reg.glbFault = 2 := by decide +kernel
/-- R9: a bit that the hardware has set in the same slot stands against the write that clears it. -/
theorem test_rw1c_set_wins : (after (.registerWrite (BitVec.ofNat 40 Reg.glbFault) 5)
    ({ mg [] 0 [(Reg.tsbStatus, 2), (Reg.tsbGeom, 32), (Reg.glbFault, 7)] with regs0 := [(Reg.glbFault, 3)] } : State)).reg Reg.glbFault = 6 := by decide +kernel

/-! ### Pins (chapter 22) -/

/-- R493: the totals of Table 2. -/
theorem test_ball_counts : let n (b : Ball) := (allBalls.filter (· == b)).length
    (allBalls.filter (fun b => !b.isSupply)).length = 1068 ∧
      [n .vinCore, n .vlane, n .vlaneH, n .vio18, n .vaon, n .vfuse, n .nc, n .vss] = [870, 120, 40, 24, 8, 2, 33, 2060] := by decide +kernel
/-- R495, R496: lane 97 and the reference of its quadrant, `DEC[3]`. -/
theorem test_ball_names : (ballName 19 60, ballName 20 59, ballName 31 64, ballName 65 7) = ("Y60", "AA59", "AM64", "CH7") ∧
    [ballAt 19 60, ballAt 20 59, ballAt 31 64, ballAt 65 7] = [.lane 97 false false, .lane 97 true true, .lqref 1 false, .dec 3 false] := by
  decide +kernel
/-- R470, R506: `DEC[2]` at 1 and released is captured in cells 4 and 5; under HIGHZ its balls are high-impedance. -/
theorem test_boundary : let s : State := { State.reset with decPins := 4, boot := { outDec := true } }
    (bitsOf (s.ballsCaptured 0) 5 0, s.ballLevel (.dec 2 false), ({ s with mgt := { highz := true } } : State).ballLevel (.dec 2 false)) =
      (0b111010, some true, none) := by decide +kernel

/-! ### Ill-formed terms that WellFormed refuses -/

def long : Packet := { hdr := mkHdr 0 0 0 0 17 0 0 0, data := List.replicate 272 0 }
def short : Packet := { hdr := mkHdr 0 0 0 0 2 0 0 0, data := List.replicate 16 0 }
theorem smoke_packet_too_long : Packet.wf long = false := by decide +kernel
theorem smoke_packet_data : Packet.wf short = false := by decide +kernel
theorem smoke_packet_commands : ∀ c ∈ [Instr.nocRd short, .nocWr short, .nocWrp short, .nocRdr short, .nocWra short, .nocCret short, .nocPost short,
    .nocPrsp short, .nocStrm short, .nocRstn short, .routerHeader 0 0 short, .ageIncrement 0 0 short], Instr.WellFormed c = false := by decide +kernel
theorem smoke_start_rails : Instr.WellFormed (.powerOnReset (env false true)) = false ∧ Instr.WellFormed (.warmRestart (env false true)) = false := by
  decide +kernel
theorem smoke_frame_short : Instr.WellFormed (.mgmtFrame (List.replicate 13 0)) = false := by decide +kernel
theorem smoke_frame_long : Instr.WellFormed (.mgmtFrame (List.replicate 1515 0)) = false := by decide +kernel
theorem smoke_raw_crossing : unitsWf 256 = false ∧ RawCrossing.wf (.r64 (List.replicate 256 default)) = false ∧
    RawCrossing.wf (.r8 (List.replicate 256 default)) = false := by decide +kernel
theorem smoke_mirpel_frame : Instr.WellFormed (.mirpelFrame 0 (List.replicate 256 default) 0) = false := by decide +kernel
theorem test_packet_well_formed : Packet.wf (pk 0 0 1 0 0 (List.replicate 16 0)) = true := by decide +kernel

end Sys2Proof.Tests
end

/-! ## Touchstone, chapter 2: what leaves the count standing -/
section
namespace Sys2Proof
open Sys2Proof.Machine

theorem CountKept.of_still {s t : State} (h : Still s t) : CountKept s t := ⟨h.orbit, h.crossing, h.slot, h.cx, h.tick⟩

theorem CountKept.of_tsb {s t : State} (h : t.tsb = s.tsb) : CountKept s t := by constructor <;> rw [h]

/-- Every command but those that `movesCount` names leaves the count standing: command by command, what the Keeps files say. -/
theorem exec_still (c : Instr) (h : movesCount c = false) (s : State) : StillO s (exec c s) :=
  match c with
  | .slotAdvance => nomatch h
  | .crossingAdvance => nomatch h
  | .orbitAdvance _ => nomatch h
  | .tsbNowRead => execTsbNowRead_still s
  | .timingWord lane word => execTimingWord_still lane word s
  | .nop => execNop_still s
  | .orbit => nomatch h
  | .orbitPinMarker => nomatch h
  | .accept => execAccept_still s
  | .resync => execResync_still s
  | .testpulse => execTestpulse_still s
  | .calstrobe => execCalstrobe_still s
  | .calPinFall pin => execCalPinFall_still pin s
  | .counterReset => execCounterReset_still s
  | .quietStart => execQuietStart_still s
  | .quietEnd => execQuietEnd_still s
  | .accordSwitch => execAccordSwitch_still s
  | .reservedCommand => execReservedCommand_still s
  | .timingLaneFailure lane lossOfLock => execTimingLaneFailure_still lane lossOfLock s
  | .failover => execFailover_still s
  | .timingLaneQualify lane steps => execTimingLaneQualify_still lane steps s
  | .tsbSwap => execTsbSwap_still s
  | .tsbRealign => execTsbRealign_still s
  | .tsbSnap mask => execTsbSnap_still mask s
  | .fclkLock => nomatch h
  | .lockTimeout noEdge => execLockTimeout_still noEdge s
  | .clockLoss => execClockLoss_still s
  | .clockReturn steps => execClockReturn_still steps s
  | .holdoverExpiry => execHoldoverExpiry_still s
  | .returnQualified => execReturnQualified_still s
  | .laneAcquireLock l => execLaneAcquireLock_still l s
  | .mirpelFrame l blocks ago => execMirpelFrame_still l blocks ago s
  | .rawCrossing l raw ago => execRawCrossing_still l raw ago s
  | .frameDelivery l => execFrameDelivery_still l s
  | .laneLoss l => execLaneLoss_still l s
  | .laneJoin l => execLaneJoin_still l s
  | .laneRealign l => execLaneRealign_still l s
  | .laneAdopt l => execLaneAdopt_still l s
  | .rxEnWrite l on => execRxEnWrite_still l on s
  | .txEnWrite l on => execTxEnWrite_still l on s
  | .pdWrite l on => execPdWrite_still l on s
  | .mirpelTxFrame l => execMirpelTxFrame_still l s
  | .systemTxFrame l => execSystemTxFrame_still l s
  | .readoutTxFrame l => execReadoutTxFrame_still l s
  | .cellNop c => execCellNop_still c s
  | .cellPass c => execCellPass_still c s
  | .cellConst c => execCellConst_still c s
  | .cellAdd c => execCellAdd_still c s
  | .cellSub c => execCellSub_still c s
  | .cellAdds c => execCellAdds_still c s
  | .cellMin c => execCellMin_still c s
  | .cellMax c => execCellMax_still c s
  | .cellAbs c => execCellAbs_still c s
  | .cellCmp c => execCellCmp_still c s
  | .cellThr c => execCellThr_still c s
  | .cellAnd c => execCellAnd_still c s
  | .cellOr c => execCellOr_still c s
  | .cellXor c => execCellXor_still c s
  | .cellNot c => execCellNot_still c s
  | .cellShl c => execCellShl_still c s
  | .cellShr c => execCellShr_still c s
  | .cellAsr c => execCellAsr_still c s
  | .cellMul8 c => execCellMul8_still c s
  | .cellSel c => execCellSel_still c s
  | .cellLut4 c => execCellLut4_still c s
  | .cellCnt c => execCellCnt_still c s
  | .cellAcc c => execCellAcc_still c s
  | .cellDelay c => execCellDelay_still c s
  | .cellSrd c => execCellSrd_still c s
  | .cellSwr c => execCellSwr_still c s
  | .decEdge b => execDecEdge_still b s
  | .sorterCapture k => execSorterCapture_still k s
  | .sorterEmit k => execSorterEmit_still k s
  | .mergeCapture => execMergeCapture_still s
  | .mergeEmit => execMergeEmit_still s
  | .queuePush q => execQueuePush_still q s
  | .queuePop q => execQueuePop_still q s
  | .markGapLand q => execMarkGapLand_still q s
  | .postResponse q => execPostResponse_still q s
  | .markRefusedLand q => execMarkRefusedLand_still q s
  | .streamSend q => execStreamSend_still q s
  | .budgetOverrun p => execBudgetOverrun_still p s
  | .slotEvent p => execSlotEvent_still p s
  | .engFault p => execEngFault_still p s
  | .watchdog p => execWatchdog_still p s
  | .holdoff p => execHoldoff_still p s
  | .inWake p => execInWake_still p s
  | .outWake p => execOutWake_still p s
  | .declareDead p => execDeclareDead_still p s
  | .spareCopyComplete p => execSpareCopyComplete_still p s
  | .engNop p => execEngNop_still p s
  | .illegalInstruction p => execIllegalInstruction_still p s
  | .engBr p => execEngBr_still p s
  | .engCall p => execEngCall_still p s
  | .engRet p => execEngRet_still p s
  | .engRep p => execEngRep_still p s
  | .engLoop p => execEngLoop_still p s
  | .engYield p => execEngYield_still p s
  | .engDone p => execEngDone_still p s
  | .engEvt p => execEngEvt_still p s
  | .engSync p => execEngSync_still p s
  | .engIn p => execEngIn_still p s
  | .engOut p => execEngOut_still p s
  | .engSignal p => execEngSignal_still p s
  | .engClrf p => execEngClrf_still p s
  | .engPost p => execEngPost_still p s
  | .aluAdd p => execAluAdd_still p s
  | .aluSub p => execAluSub_still p s
  | .aluAdds p => execAluAdds_still p s
  | .aluSubs p => execAluSubs_still p s
  | .aluAnd p => execAluAnd_still p s
  | .aluOr p => execAluOr_still p s
  | .aluXor p => execAluXor_still p s
  | .aluNot p => execAluNot_still p s
  | .aluNeg p => execAluNeg_still p s
  | .aluAbs p => execAluAbs_still p s
  | .aluMin p => execAluMin_still p s
  | .aluMax p => execAluMax_still p s
  | .aluCmp p => execAluCmp_still p s
  | .aluTst p => execAluTst_still p s
  | .aluShl p => execAluShl_still p s
  | .aluShr p => execAluShr_still p s
  | .aluAsr p => execAluAsr_still p s
  | .aluCnt p => execAluCnt_still p s
  | .aluLdi p => execAluLdi_still p s
  | .engLdx p => execEngLdx_still p s
  | .engLdy p => execEngLdy_still p s
  | .engStx p => execEngStx_still p s
  | .engSty p => execEngSty_still p s
  | .engMov p => execEngMov_still p s
  | .engMac p => execEngMac_still p s
  | .engMsu p => execEngMsu_still p s
  | .engMpy p => execEngMpy_still p s
  | .engClrmac p => execEngClrmac_still p s
  | .dispatcherCycle cmds posts flags => execDispatcherCycle_still cmds posts flags s
  | .flagSetArrival src => execFlagSetArrival_still src s
  | .itemCopyComplete p => execItemCopyComplete_still p s
  | .dispatch p => execDispatch_still p s
  | .dptCancel t => execDptCancel_still t s
  | .dptResume t => execDptResume_still t s
  | .dptDisable t => execDptDisable_still t s
  | .dptEnable t => execDptEnable_still t s
  | .dptDrain t => execDptDrain_still t s
  | .dptSignal t f => execDptSignal_still t f s
  | .dptClrf t f => execDptClrf_still t f s
  | .engDisable p => execEngDisable_still p s
  | .engEnable p => execEngEnable_still p s
  | .dispatcherReset => execDispatcherReset_still s
  | .dispatcherResume => execDispatcherResume_still s
  | .sillageWrite => execSillageWrite_still s
  | .sillageRestart => execSillageRestart_still s
  | .packetOpen k => execPacketOpen_still k s
  | .builderWord k => execBuilderWord_still k s
  | .packetClose k => execPacketClose_still k s
  | .readerTakePacket d => execReaderTakePacket_still d s
  | .rptrWrite d v => execRptrWrite_still d v s
  | .throttlePinEdge => execThrottlePinEdge_still s
  | .routerHeader r port p => execRouterHeader_still r port p s
  | .ageIncrement r port p => execAgeIncrement_still r port p s
  | .nocRd p => execNocRd_still p s
  | .nocWr p => execNocWr_still p s
  | .nocWrp p => execNocWrp_still p s
  | .nocRdr p => execNocRdr_still p s
  | .nocWra p => execNocWra_still p s
  | .nocCret p => execNocCret_still p s
  | .nocPost p => execNocPost_still p s
  | .nocPrsp p => execNocPrsp_still p s
  | .nocStrm p => execNocStrm_still p s
  | .nocRstn p => execNocRstn_still p s
  | .cretSend pool req => execCretSend_still pool req s
  | .replyTimeout src tag => execReplyTimeout_still src tag s
  | .fenceBroadcast => execFenceBroadcast_still s
  | .admissionRun period => execAdmissionRun_still period s
  | .admissionComplete => execAdmissionComplete_still s
  | .powerOnReset _ => nomatch h
  | .warmRestart _ => nomatch h
  | .waitLock => execWaitLock_still s
  | .releaseOutputs => execReleaseOutputs_still s
  | .releaseSetreset => execReleaseSetreset_still s
  | .enableWrites => execEnableWrites_still s
  | .waitAlign timeout => execWaitAlign_still timeout s
  | .admitStep => execAdmitStep_still s
  | .runStart => execRunStart_still s
  | .recordCommit => execRecordCommit_still s
  | .bootRestart => execBootRestart_still s
  | .bootClearFails => execBootClearFails_still s
  | .reloadComplete k => execReloadComplete_still k s
  | .regionRejoin k => execRegionRejoin_still k s
  | .accordStagingComplete => execAccordStagingComplete_still s
  | .glbSwitch n => execGlbSwitch_still n s
  | .glbPrepare n => execGlbPrepare_still n s
  | .glbUnprepare n => execGlbUnprepare_still n s
  | .scrubRead x => execScrubRead_still x s
  | .scrubRewrite x => execScrubRewrite_still x s
  | .repairCopyStart m => execRepairCopyStart_still m s
  | .repairCopyComplete m => execRepairCopyComplete_still m s
  | .injectionArm w => execInjectionArm_still w s
  | .railPoll _ _ => nomatch h
  | .sectorPowerGood k => execSectorPowerGood_still k s
  | .sectorPowerTimeout k => execSectorPowerTimeout_still k s
  | .orderlyDownComplete k => execOrderlyDownComplete_still k s
  | .sectorOvercurrent k => execSectorOvercurrent_still k s
  | .sensorSample vi v => execSensorSample_still vi v s
  | .throttleUpdate => execThrottleUpdate_still s
  | .thermalTrip _ => nomatch h
  | .pwrRetry mask => execPwrRetry_still mask s
  | .pwrClear => execPwrClear_still s
  | .challenge => execChallenge_still s
  | .attest => execAttest_still s
  | .certRead => execCertRead_still s
  | .certStore => execCertStore_still s
  | .keySet vfuse => execKeySet_still vfuse s
  | .keyRevoke vfuse => execKeyRevoke_still vfuse s
  | .debugUnlock => execDebugUnlock_still s
  | .debugLock => execDebugLock_still s
  | .genkey vfuse => execGenkey_still vfuse s
  | .hallmarkOpComplete readBack => execHallmarkOpComplete_still readBack s
  | .mgmtFrame f => execMgmtFrame_still f s
  | .mgmtRead => execMgmtRead_still s
  | .mgmtWrite => execMgmtWrite_still s
  | .streamRead => execStreamRead_still s
  | .imageWrite flashOk => execImageWrite_still flashOk s
  | .imageCommit flashOk => execImageCommit_still flashOk s
  | .ping => execPing_still s
  | .accord => execAccord_still s
  | .engineDead => execEngineDead_still s
  | .i2cRead ptr => execI2cRead_still ptr s
  | .i2cRestart confirm pec => execI2cRestart_still confirm pec s
  | .i2cClearFails confirm pec => execI2cClearFails_still confirm pec s
  | .i2cPwrClear confirm pec => execI2cPwrClear_still confirm pec s
  | .i2cSectorRetry mask confirm pec => execI2cSectorRetry_still mask confirm pec s
  | .extest => execExtest_still s
  | .samplePreload pins load => execSamplePreload_still pins load s
  | .idcode => execIdcode_still s
  | .clamp => execClamp_still s
  | .highz => execHighz_still s
  | .bypass => execBypass_still s
  | .jtagAccessRead a => execJtagAccessRead_still a s
  | .jtagAccessWrite a v => execJtagAccessWrite_still a v s
  | .glbResetSector mask => execGlbResetSector_still mask s
  | .glbResetQuad mask => execGlbResetQuad_still mask s
  | .registerWrite a v => execRegisterWrite_still a v s
  | .powerRemoval => nomatch h
  | .vfuseFall => execVfuseFall_still s
  | .sensorNotUpdated vi => execSensorNotUpdated_still vi s
  | .lqclkLock q => execLqclkLock_still q s
  | .mgtLinkChange up => execMgtLinkChange_still up s
  | .emergencyDownComplete k => execEmergencyDownComplete_still k s

/-- Settles O6: each command that may not move the count is one whose meaning keeps it. -/
theorem onlyClockMovesTheCount : Obligations.OnlyClockMovesTheCount := by
  intro c s t hc he
  exact .of_still ((exec_still c hc s).out t he)

/-! ### The FCLK edge (R35) -/

namespace Machine.State

theorem countOn_tick (s : State) (m l : Nat) : (s.countOn m l).tsb.tick = s.tsb.tick + 1 := by
  unfold countOn
  dsimp only
  split
  · rfl
  · split <;> rfl

theorem countOn_within (s : State) {m : Nat} (l : Nat) (h : s.tsb.slot + 1 < m) :
    (s.countOn m l).tsb = { s.tsb with tick := s.tsb.tick + 1, slot := s.tsb.slot + 1 } := by
  simp only [countOn, if_pos h]

theorem countOn_crossing (s : State) {m l : Nat} (h : ¬s.tsb.slot + 1 < m) (hl : s.tsb.crossing + 1 < l) :
    (s.countOn m l).tsb = { s.tsb with tick := s.tsb.tick + 1, slot := 0, cx := s.tsb.cx + 1, crossing := s.tsb.crossing + 1 } := by
  simp only [countOn, if_neg h, if_pos hl]

theorem countOn_orbit (s : State) {m l : Nat} (h : ¬s.tsb.slot + 1 < m) (hl : ¬s.tsb.crossing + 1 < l) :
    (s.countOn m l).tsb = { s.tsb with tick := s.tsb.tick + 1, slot := 0, cx := s.tsb.cx + 1, crossing := 0, orbit := s.tsb.orbit + 1 } := by
  simp only [countOn, if_neg h, if_neg hl]

/-- The count after an edge is that of `countOn`, from the count before the edge: the ends of slots and their beginnings leave it. -/
theorem advance_count (s : State) : ∃ u : State, CountKept s u ∧ CountKept (u.countOn s.M s.L) s.advance :=
  ⟨s.endSlot, .of_still (endSlot_still (.refl s)), .of_still (enterSlot_still (.refl _))⟩

theorem advance_within {s : State} (h : s.tsb.slot + 1 < s.M) :
    s.advance.tsb.slot = s.tsb.slot + 1 ∧ s.advance.tsb.crossing = s.tsb.crossing ∧ s.advance.tsb.orbit = s.tsb.orbit := by
  obtain ⟨u, hu, ht⟩ := s.advance_count
  rw [← hu.slot] at h
  rw [ht.slot, ht.crossing, ht.orbit, countOn_within u _ h, ← hu.slot, ← hu.crossing, ← hu.orbit]
  exact ⟨rfl, rfl, rfl⟩

theorem advance_crossing {s : State} (h : ¬s.tsb.slot + 1 < s.M) (hl : s.tsb.crossing + 1 < s.L) :
    s.advance.tsb.slot = 0 ∧ s.advance.tsb.crossing = s.tsb.crossing + 1 ∧ s.advance.tsb.orbit = s.tsb.orbit := by
  obtain ⟨u, hu, ht⟩ := s.advance_count
  rw [← hu.slot] at h
  rw [← hu.crossing] at hl
  rw [ht.slot, ht.crossing, ht.orbit, countOn_crossing u h hl, ← hu.crossing, ← hu.orbit]
  exact ⟨rfl, rfl, rfl⟩

theorem advance_orbit {s : State} (h : ¬s.tsb.slot + 1 < s.M) (hl : ¬s.tsb.crossing + 1 < s.L) :
    s.advance.tsb.slot = 0 ∧ s.advance.tsb.crossing = 0 ∧ s.advance.tsb.orbit = s.tsb.orbit + 1 := by
  obtain ⟨u, hu, ht⟩ := s.advance_count
  rw [← hu.slot] at h
  rw [← hu.crossing] at hl
  rw [ht.slot, ht.crossing, ht.orbit, countOn_orbit u h hl, ← hu.orbit]
  exact ⟨rfl, rfl, rfl⟩

theorem advance_tick (s : State) : s.advance.tsb.tick = s.tsb.tick + 1 := by
  obtain ⟨u, hu, ht⟩ := s.advance_count
  rw [ht.tick, countOn_tick, hu.tick]

end Machine.State

theorem counting_of {s : State} (h : s.tsbState ≠ .unlocked) (hm : 1 ≤ s.M) : s.counting = true := by
  simp [State.counting, h, hm]

theorem exec_slotAdvance {s : State} (h : s.counting = true) : exec .slotAdvance s = .next s.advance := by
  show execSlotAdvance s = _
  rw [execSlotAdvance, if_pos h]; rfl

theorem exec_crossingAdvance {s : State} (h : s.counting = true) (hs : s.tsb.slot + 1 = s.M) :
    exec .crossingAdvance s = .next s.advance := by
  show execCrossingAdvance s = _
  rw [execCrossingAdvance, if_pos (by simp [h, hs])]; rfl

theorem exec_orbitAdvance {s : State} (q : BitVec 4) (h : s.counting = true) (hs : s.tsb.slot + 1 = s.M)
    (hl : s.tsb.crossing + 1 = s.L) : exec (.orbitAdvance q) s = .next ((s.advance.qrefCheck q).qrefFails q) := by
  show execOrbitAdvance q s = _
  rw [execOrbitAdvance, if_pos (by simp [h, hs, hl])]; rfl

/-- Settles O7: an edge ends a slot, moves the count and begins a slot, and only the middle part touches the count. -/
theorem fclkEdgeAdvancesCount : Obligations.FclkEdgeAdvancesCount := by
  intro s m l hst hm hl h1
  have hM : s.M = m := hm.symm
  have hL : s.L = l := hl.symm
  have hc : s.counting = true := counting_of hst (by omega)
  subst hM hL
  refine ⟨⟨_, exec_slotAdvance hc, s.advance_tick, State.advance_within, fun h => ⟨?_, fun hl => ?_, fun hl => ?_⟩, fun h => ?_, fun h => ?_⟩,
    fun hs => ⟨⟨_, exec_crossingAdvance hc hs, ?_, ?_⟩, fun hl q => ?_⟩⟩
  · by_cases hl : s.tsb.crossing + 1 < s.L
    · exact (State.advance_crossing h hl).1
    · exact (State.advance_orbit h hl).1
  · exact (State.advance_crossing h hl).2
  · exact (State.advance_orbit h hl).2
  · by_cases hs : s.tsb.slot + 1 < s.M
    · rw [(State.advance_within hs).1]; exact hs
    · by_cases hl : s.tsb.crossing + 1 < s.L
      · rw [(State.advance_crossing hs hl).1]; exact h1
      · rw [(State.advance_orbit hs hl).1]; exact h1
  · by_cases hs : s.tsb.slot + 1 < s.M
    · rw [(State.advance_within hs).2.1]; exact h
    · by_cases hl : s.tsb.crossing + 1 < s.L
      · rw [(State.advance_crossing hs hl).2.1]; exact hl
      · rw [(State.advance_orbit hs hl).2.1]; omega
  · by_cases hl : s.tsb.crossing + 1 < s.L
    · exact (State.advance_crossing (by omega) hl).1
    · exact (State.advance_orbit (by omega) hl).1
  · split
    · exact (State.advance_crossing (by omega) ‹_›).2.1
    · exact (State.advance_orbit (by omega) ‹_›).2.1
  · have hk : CountKept s.advance ((s.advance.qrefCheck q).qrefFails q) :=
      .of_still (State.qrefFails_still (State.qrefCheck_still (.refl _) q) q)
    refine ⟨_, exec_orbitAdvance q hc hs hl, ?_⟩
    dsimp only
    rw [hk.slot, hk.crossing, hk.orbit]
    exact State.advance_orbit (by omega) (by omega)

end Sys2Proof
end

/-! ## Registers that an operation may write -/
section
namespace Sys2Proof
open Sys2Proof.Machine

theorem Completes.intro {c : Instr} {s t : State} {P : State → Prop} (h : exec c s = .next t) (p : P t) : Completes c s P := ⟨t, h, p⟩

theorem BytesKept.of_mem {s t : State} (h : t.mem = s.mem) : BytesKept s t := fun a => by simp only [State.byte, h]

namespace Machine

/-- From `s` to `t` no register but those of `p` changes, and `t` is in form. -/
structure WritesOnly (p : Nat → Prop) (s t : State) : Prop where
  inv : t.Inv
  kept : ∀ a, ¬p a → t.reg a = s.reg a

namespace WritesOnly
variable {p : Nat → Prop} {s t u : State}

theorem refl (h : s.Inv) : WritesOnly p s s := ⟨h, fun _ _ => rfl⟩

theorem setReg (h : WritesOnly p s t) {a : Nat} (w : W32) (ha : p a) : WritesOnly p s (t.setReg a w) :=
  ⟨State.inv_setReg h.inv _ _, fun b hb => by
    rw [State.reg_setReg_of_ne h.inv w (fun e : b = a => hb (e ▸ ha)), h.kept b hb]⟩
theorem setFld (h : WritesOnly p s t) {a : Nat} (hi lo v : Nat) (ha : p a) : WritesOnly p s (t.setFld a hi lo v) := h.setReg _ ha
theorem setBit (h : WritesOnly p s t) {a : Nat} (i : Nat) (b : Bool) (ha : p a) : WritesOnly p s (t.setBit a i b) := h.setReg _ ha
theorem count (h : WritesOnly p s t) {a : Nat} (hi lo k : Nat) (ha : p a) : WritesOnly p s (t.count a hi lo k) := h.setReg _ ha

/-- What keeps the form and the table of the registers writes none. -/
theorem same (h : WritesOnly p s t) (hi : t.Inv → u.Inv) (e : u.regs = t.regs) : WritesOnly p s u :=
  ⟨hi h.inv, fun a ha => by rw [← h.kept a ha]; simp only [State.reg, e]⟩

theorem trans (h : WritesOnly p s t) (k : WritesOnly p t u) : WritesOnly p s u :=
  ⟨k.inv, fun a ha => (k.kept a ha).trans (h.kept a ha)⟩

theorem mono {q : Nat → Prop} (h : WritesOnly p s t) (hpq : ∀ a, p a → q a) : WritesOnly q s t :=
  ⟨h.inv, fun a ha => h.kept a (fun k => ha (hpq a k))⟩

/-- What writes registers of a list writes registers of a longer one. -/
theorem also {l : List Nat} (h : WritesOnly (· ∈ l) s t) (m : List Nat) : WritesOnly (· ∈ l ++ m) s t :=
  h.mono fun _ ha => List.mem_append_left m ha

theorem trans_append {l m : List Nat} (h : WritesOnly (· ∈ l) s t) (k : WritesOnly (· ∈ m) t u) : WritesOnly (· ∈ l ++ m) s u :=
  (h.also m).trans (k.mono fun _ ha => List.mem_append_right l ha)

theorem ite {c : Prop} [Decidable c] (ht : WritesOnly p s t) (hu : WritesOnly p s u) : WritesOnly p s (if c then t else u) := by
  split <;> assumption

theorem foldl {α : Type} {f : State → α → State} {l : List α} (h : WritesOnly p s t)
    (hf : ∀ u x, x ∈ l → WritesOnly p s u → WritesOnly p s (f u x)) : WritesOnly p s (l.foldl f t) := by
  induction l generalizing t with
  | nil => exact h
  | cons x l ih => exact ih (hf t x (List.mem_cons_self ..) h) (fun u y hy => hf u y (List.mem_cons_of_mem _ hy))

theorem fld (h : WritesOnly p s t) {a : Nat} (hi lo : Nat) (ha : ¬p a) : t.fld a hi lo = s.fld a hi lo := by
  simp only [State.fld, h.kept a ha]
theorem rbit (h : WritesOnly p s t) {a : Nat} (i : Nat) (ha : ¬p a) : t.rbit a i = s.rbit a i := by
  simp only [State.rbit, h.kept a ha]
theorem tsbState (h : WritesOnly p s t) (ha : ¬p Reg.tsbStatus) : t.tsbState = s.tsbState := by
  simp only [State.tsbState, h.fld _ _ ha]
theorem L (h : WritesOnly p s t) (ha : ¬p Reg.tsbGeom) : t.L = s.L := h.fld _ _ ha

theorem regsKept {but : List Nat} (h : WritesOnly (· ∈ but) s t) : RegsKept but s t := h.kept

end WritesOnly

namespace State

/-- The state with Touchstone's own state replaced. -/
def setTsb (s : State) (x : Tsb) : State := { s with tsb := x }

section
variable {s : State} (x : Tsb)
@[simp] theorem setTsb_tsb : (s.setTsb x).tsb = x := rfl
@[simp] theorem setTsb_mem : (s.setTsb x).mem = s.mem := rfl
@[simp] theorem reg_setTsb (a : Nat) : (s.setTsb x).reg a = s.reg a := rfl
@[simp] theorem inv_setTsb (h : s.Inv) : (s.setTsb x).Inv := h.of_eq ⟨rfl, rfl, rfl, rfl, rfl, rfl, rfl, rfl, rfl, rfl, rfl, rfl, rfl⟩
end

end State

theorem WritesOnly.setTsb {p : Nat → Prop} {s t : State} (h : WritesOnly p s t) (x : Tsb) : WritesOnly p s (t.setTsb x) :=
  h.same (State.inv_setTsb x) rfl

namespace State
variable {s : State}

/-! ### Touchstone's state, beside the other fields of its status register -/

theorem inv_setTsbState (h : s.Inv) (x : TsbState) : (s.setTsbState x).Inv := inv_setFld h _ _ _ _
theorem inv_fault (h : s.Inv) (i : Nat) : (s.fault i).Inv := inv_setBit h _ _ _

theorem tsbState_setTsbState (h : s.Inv) (x : TsbState) : (s.setTsbState x).tsbState = x := by
  simp only [tsbState, setTsbState, fld_setFld_self h _ _ (show (2 : Nat) < 32 by decide)]
  cases x <;> rfl

theorem tsbState_setBit (h : s.Inv) (a : Nat) {i : Nat} (b : Bool) (hi : a ≠ Reg.tsbStatus ∨ 2 < i) :
    (s.setBit a i b).tsbState = s.tsbState := by
  by_cases e : Reg.tsbStatus = a
  · subst e
    simp only [tsbState, fld_setBit_of_disjoint h _ b (Or.inl (hi.resolve_left (fun n => n rfl))) (show (2 : Nat) < 32 by decide)]
  · simp only [tsbState, fld_setBit_of_ne h _ _ _ _ e]

theorem tsbState_fault (h : s.Inv) (i : Nat) : (s.fault i).tsbState = s.tsbState := tsbState_setBit h _ _ (.inl (by decide))

theorem rbit_fault_of_ne (h : s.Inv) {a : Nat} (i j : Nat) (ha : a ≠ Reg.glbFault) : (s.fault i).rbit a j = s.rbit a j :=
  rbit_setBit_of_ne h _ _ _ ha

theorem rbit_setTsbState (h : s.Inv) (x : TsbState) {i : Nat} (hi : 2 < i) : (s.setTsbState x).rbit Reg.tsbStatus i = s.rbit Reg.tsbStatus i :=
  rbit_setFld_of_disjoint h _ _ (Or.inr hi)

/-! ### Many registers written one after another -/

theorem inv_foldl_setReg (h : s.Inv) (f : Nat → W32) (l : List Nat) : (l.foldl (fun t a => t.setReg a (f a)) s).Inv := by
  induction l generalizing s with
  | nil => exact h
  | cons b l ih => exact ih (inv_setReg h _ _)

/-- Each register of a list is written with its own word. -/
theorem reg_foldl_setReg (h : s.Inv) (f : Nat → W32) (l : List Nat) (a : Nat) :
    (l.foldl (fun t a => t.setReg a (f a)) s).reg a = if a ∈ l then f a else s.reg a := by
  induction l generalizing s with
  | nil => simp
  | cons b l ih =>
    rw [List.foldl_cons, ih (inv_setReg h _ _), reg_setReg h]
    by_cases hb : a = b
    · simp [hb]
    · simp [hb]

/-- Writing registers changes nothing else. -/
theorem foldl_setReg_rest (f : Nat → W32) (l : List Nat) (s : State) :
    l.foldl (fun t a => t.setReg a (f a)) s = { s with regs := (l.foldl (fun t a => t.setReg a (f a)) s).regs } := by
  induction l generalizing s with
  | nil => rfl
  | cons b l ih => rw [List.foldl_cons, ih (s.setReg b (f b))]; rfl

end State
end Machine

/-- A field of a word made from a number. -/
theorem bitsOf_ofNat {w hi : Nat} (n lo : Nat) (h : hi < w) : bitsOf (BitVec.ofNat w n) hi lo = n / 2 ^ lo % 2 ^ (hi + 1 - lo) := by
  apply Nat.eq_of_testBit_eq
  intro i
  rw [bitsOf_testBit, Nat.testBit_mod_two_pow, Nat.testBit_div_two_pow, BitVec.getLsbD_ofNat, Nat.add_comm i lo]
  by_cases hi : i < hi + 1 - lo
  · simp [hi, show lo + i < w by omega]
  · simp [hi]

end Sys2Proof
end

/-! ## Snapshots and the time (R36, R66) -/
section
namespace Sys2Proof
open Sys2Proof.Machine

/-- How far above its counter a snapshot copy stands. -/
def snapGap (a : Nat) : Nat :=
  if 0xF00000A000 ≤ a then 0x10
  else if 0xF000000000 ≤ a then 0x20
  else if 0x3000000000 ≤ a then 4
  else if 0xF80000 ≤ (a - 0x1000000000) % 0x1000000 then 8
  else 4

/-- No two counters share a copy, a copy's address gives its counter's; and the time of the snapshot stands beside them all. -/
theorem snapPairs_gap {g : Nat} {p : Nat × Nat} (h : p ∈ snapPairs g) :
    p.1 = p.2 - snapGap p.2 ∧ p.2 ≠ Reg.tsbSnapTimeLo ∧ p.2 ≠ Reg.tsbSnapTimeHi := by
  unfold snapPairs at h
  unfold snapGap Reg.tsbSnapTimeLo Reg.tsbSnapTimeHi Reg.glb
  split at h
  all_goals
    simp only [List.mem_append, List.mem_map, List.mem_flatMap, List.mem_range, List.mem_cons, List.not_mem_nil, or_false] at h
  · obtain ⟨i, hi, rfl⟩ | ⟨i, hi, rfl⟩ := h
    · unfold Reg.tsbCnt Reg.tsbCntSnap Reg.glb; split_ifs <;> omega
    · unfold Reg.tlnErrcnt Reg.tlnErrcntSnap; split_ifs <;> omega
  · obtain ⟨l, hl, rfl | rfl⟩ := h
    · unfold Reg.lanErrcnt Reg.lanErrcntSnap Reg.lan; split_ifs <;> omega
    · unfold Reg.lanEvtcnt Reg.lanEvtcntSnap Reg.lan; split_ifs <;> omega
  · obtain ⟨q, hq, rfl | rfl⟩ := h
    · unfold Reg.queCnt0 Reg.queCnt0Snap Reg.que Reg.secBase; split_ifs <;> omega
    · unfold Reg.queCnt1 Reg.queCnt1Snap Reg.que Reg.secBase; split_ifs <;> omega
  · obtain ⟨k, hk, rfl⟩ := h
    unfold Reg.secEngCnt Reg.secEngCntSnap Reg.sec Reg.secBase; split_ifs <;> omega
  · obtain ⟨i, hi, rfl⟩ | ⟨k, hk, rfl⟩ := h
    · unfold Reg.dptCnt Reg.dptCntSnap Reg.glb; split_ifs <;> omega
    · unfold Reg.secEvtCnt Reg.secEvtCntSnap Reg.sec Reg.secBase; split_ifs <;> omega
  · obtain ⟨d, hd, rfl⟩ | ⟨k, hk, rfl⟩ := h
    · unfold Reg.drzCnt Reg.drzCntSnap Reg.drz Reg.sec Reg.secBase; split_ifs <;> omega
    · unfold Reg.roCnt Reg.roCntSnap Reg.sec Reg.secBase; split_ifs <;> omega
  · obtain ⟨i, hi, rfl⟩ := h
    unfold Reg.nocCnt Reg.nocCntSnap Reg.glb; split_ifs <;> omega

/-- The counters of the groups of a mask, each with its copy. -/
def snapSelected (mask : Nat) : List (Nat × Nat) := ((List.range 7).filter (fun g => (mask / 2 ^ g) % 2 == 1)).flatMap snapPairs

theorem mem_snapSelected {mask : Nat} {p : Nat × Nat} : p ∈ snapSelected mask ↔ ∃ g, g < 7 ∧ mask.testBit g = true ∧ p ∈ snapPairs g := by
  simp only [snapSelected, List.mem_flatMap, List.mem_filter, List.mem_range, Nat.testBit_eq_decide_div_mod_eq, decide_eq_true_eq,
    beq_iff_eq, and_assoc]

namespace Machine.State
variable {s : State}

/-- The copies that a snapshot writes, before it records its time. -/
def copied (s : State) (mask : Nat) : State :=
  ((snapSelected mask).map (·.2)).foldl (fun t a => t.setReg a (s.reg0 (a - snapGap a))) s

theorem snapshot_eq (s : State) (mask : Nat) : s.snapshot mask =
    ((s.copied mask).setReg Reg.tsbSnapTimeLo (BitVec.ofNat 32 s.tsb.orbit.toNat)).setReg Reg.tsbSnapTimeHi
      (BitVec.ofNat 32 (s.tsb.crossing * 65536 + s.tsb.slot % 128 * 256 + s.tsb.orbit.toNat / 2 ^ 32 % 256)) := by
  have hc : (snapSelected mask).foldl (fun t p => t.setReg p.2 (s.reg0 p.1)) s = s.copied mask := by
    rw [copied, List.foldl_map]
    refine List.foldl_ext _ _ _ (fun t p hp => ?_)
    obtain ⟨g, -, -, hg⟩ := mem_snapSelected.1 hp
    rw [(snapPairs_gap hg).1]
  rw [← hc]; rfl

theorem inv_copied (h : s.Inv) (mask : Nat) : (s.copied mask).Inv := inv_foldl_setReg h _ _

theorem reg_snapshot (h : s.Inv) (mask : Nat) {a : Nat} (hl : a ≠ Reg.tsbSnapTimeLo) (hh : a ≠ Reg.tsbSnapTimeHi) :
    (s.snapshot mask).reg a = if a ∈ (snapSelected mask).map (·.2) then s.reg0 (a - snapGap a) else s.reg a := by
  rw [snapshot_eq, reg_setReg_of_ne (inv_setReg (inv_copied h mask) _ _) _ hh, reg_setReg_of_ne (inv_copied h mask) _ hl, copied,
    reg_foldl_setReg h]

/-- A copy of a selected group holds what its counter held as the slot began. -/
theorem reg_snapshot_copy (h : s.Inv) {mask g : Nat} (hg : g < 7) (hm : mask.testBit g = true) {c a : Nat} (hp : (c, a) ∈ snapPairs g) :
    (s.snapshot mask).reg a = s.reg0 c := by
  obtain ⟨hc, hl, hh⟩ := snapPairs_gap hp
  rw [reg_snapshot h mask hl hh, if_pos (List.mem_map.2 ⟨(c, a), mem_snapSelected.2 ⟨g, hg, hm, hp⟩, rfl⟩), ← hc]

theorem reg_snapshot_other (h : s.Inv) {mask a : Nat} (ha : ∀ g, g < 7 → mask.testBit g = true → a ∉ (snapPairs g).map (·.2))
    (hl : a ≠ Reg.tsbSnapTimeLo) (hh : a ≠ Reg.tsbSnapTimeHi) : (s.snapshot mask).reg a = s.reg a := by
  rw [reg_snapshot h mask hl hh, if_neg]
  intro hm
  obtain ⟨p, hp, rfl⟩ := List.mem_map.1 hm
  obtain ⟨g, hg, hb, hp⟩ := mem_snapSelected.1 hp
  exact ha g hg hb (List.mem_map_of_mem hp)

theorem reg_snapshot_timeLo (h : s.Inv) (mask : Nat) : (s.snapshot mask).reg Reg.tsbSnapTimeLo = BitVec.ofNat 32 s.tsb.orbit.toNat := by
  rw [snapshot_eq, reg_setReg_of_ne (inv_setReg (inv_copied h mask) _ _) _ (by decide), reg_setReg_self (inv_copied h mask)]

theorem reg_snapshot_timeHi (h : s.Inv) (mask : Nat) : (s.snapshot mask).reg Reg.tsbSnapTimeHi =
    BitVec.ofNat 32 (s.tsb.crossing * 65536 + s.tsb.slot % 128 * 256 + s.tsb.orbit.toNat / 2 ^ 32 % 256) := by
  rw [snapshot_eq, reg_setReg_self (inv_setReg (inv_copied h mask) _ _)]

theorem snapshot_rest (s : State) (mask : Nat) : s.snapshot mask = { s with regs := (s.snapshot mask).regs } := by
  rw [snapshot_eq, copied, foldl_setReg_rest]; rfl

/-! ### A read of TSB_NOW -/

theorem reg_nowRead (h : s.Inv) (a : Nat) : s.nowRead.1.reg a =
    if a = Reg.tsbOrbitHi then BitVec.ofNat 32 (s.tsb.orbit.toNat / 2 ^ 32)
    else if a = Reg.tsbOrbitLo then BitVec.ofNat 32 s.tsb.orbit.toNat
    else if a = Reg.tsbNow then s.nowRead.2 else s.reg a := by
  rw [nowRead, reg_setReg (inv_setReg (inv_setReg h _ _) _ _), reg_setReg (inv_setReg h _ _), reg_setReg h]

end Machine.State

theorem exec_tsbSnap (s : State) {mask : BitVec 7} (hm : mask ≠ 0) :
    exec (.tsbSnap mask) s = .next (s.snapshot mask.toNat) := by
  show execTsbSnap mask s = _
  rw [execTsbSnap, if_neg hm]; rfl

theorem reg_withRegs (s : State) (r : Tbl W32) (m : Mgt) (a : Nat) : State.reg { s with regs := r, mgt := m } a = Tbl.get (regReset a) r a := rfl

theorem nowRead_word (s : State) : s.nowRead.2 = BitVec.ofNat 32 (s.tsb.crossing * 65536 + s.tsb.slot) := rfl

theorem setReg_three_rest (s : State) (a b c : Nat) (x y z : W32) : ((s.setReg a x).setReg b y).setReg c z =
    { s with regs := (((s.setReg a x).setReg b y).setReg c z).regs } := rfl

theorem nowRead_rest (s : State) : s.nowRead.1 = { s with regs := s.nowRead.1.regs } := setReg_three_rest ..

theorem exec_tsbNowRead (s : State) :
    exec .tsbNowRead s = .next { s with regs := s.nowRead.1.regs, mgt := { s.mgt with read := s.nowRead.2 } } := by
  show execTsbNowRead s = _
  rw [execTsbNowRead, nowRead_rest]; rfl

/-- A read of TSB_NOW (R36). -/
theorem tsbNowRead_returns {s : State} (h : s.Inv) (hc : s.tsb.crossing < 65536) (hs : s.tsb.slot < 128) :
    Completes .tsbNowRead s (fun t =>
      bitsOf t.mgt.read 31 16 = s.tsb.crossing ∧ bitsOf t.mgt.read 6 0 = s.tsb.slot ∧
      (t.reg Reg.tsbOrbitLo).toNat + 2 ^ 32 * (t.reg Reg.tsbOrbitHi).toNat = s.tsb.orbit.toNat ∧
      CountKept s t ∧ BytesKept s t ∧ RegsKept [Reg.tsbNow, Reg.tsbOrbitLo, Reg.tsbOrbitHi] s t ∧
      t = { s with regs := t.regs, mgt := { s.mgt with read := t.mgt.read } }) := by
  have hr : ∀ a, State.reg { s with regs := s.nowRead.1.regs, mgt := { s.mgt with read := s.nowRead.2 } } a = _ := fun a =>
    (reg_withRegs ..).trans (State.reg_nowRead h a)
  refine .intro (exec_tsbNowRead s) ⟨?_, ?_, ?_, .of_tsb rfl, .of_mem rfl, fun a ha => ?_, rfl⟩
  · rw [nowRead_word, bitsOf_ofNat _ _ (by decide)]; omega
  · rw [nowRead_word, bitsOf_ofNat _ _ (by decide)]; omega
  · rw [hr, hr, if_neg (by decide), if_pos rfl, if_pos rfl, BitVec.toNat_ofNat, BitVec.toNat_ofNat]
    have := s.tsb.orbit.isLt
    omega
  · simp only [List.mem_cons, List.not_mem_nil, or_false, not_or] at ha
    rw [hr, if_neg ha.2.2, if_neg ha.2.1, if_neg ha.1]

/-- Settles O12: the copies are written from the words as the slot began, and no two counters share a copy. -/
theorem snapshotAndNowRead : Obligations.SnapshotAndNowRead := by
  refine ⟨fun s mask h => ⟨fun hm => .intro (exec_tsbSnap s hm) ?_, rfl⟩, fun s h hc hs => tsbNowRead_returns h hc hs⟩
  refine ⟨fun hb => ⟨fun i => ?_, fun i => ?_⟩, fun hb l => ⟨?_, ?_⟩, fun hb q => ⟨?_, ?_⟩, fun hb k => ?_, fun hb => ⟨fun i => ?_, fun k => ?_⟩,
    fun hb => ⟨fun d => ?_, fun k => ?_⟩, fun hb i => ?_, State.reg_snapshot_timeLo h _, ?_, ?_, ?_, fun a ha hl hh => ?_, s.snapshot_rest _⟩
  · exact State.reg_snapshot_copy h (g := 0) (by decide) hb (List.mem_append_left _ (List.mem_map.2 ⟨i, List.mem_range.2 i.2, rfl⟩))
  · refine State.reg_snapshot_copy h (g := 0) (by decide) hb (List.mem_append_right _ (List.mem_map.2 ⟨i, ?_, rfl⟩))
    revert i; decide
  · exact State.reg_snapshot_copy h (g := 1) (by decide) hb (List.mem_flatMap.2 ⟨l, List.mem_range.2 l.2, List.mem_cons_self ..⟩)
  · exact State.reg_snapshot_copy h (g := 1) (by decide) hb (List.mem_flatMap.2 ⟨l, List.mem_range.2 l.2, List.mem_cons_of_mem _ (List.mem_cons_self ..)⟩)
  · exact State.reg_snapshot_copy h (g := 2) (by decide) hb (List.mem_flatMap.2 ⟨q, List.mem_range.2 q.2, List.mem_cons_self ..⟩)
  · exact State.reg_snapshot_copy h (g := 2) (by decide) hb (List.mem_flatMap.2 ⟨q, List.mem_range.2 q.2, List.mem_cons_of_mem _ (List.mem_cons_self ..)⟩)
  · exact State.reg_snapshot_copy h (g := 3) (by decide) hb (List.mem_map.2 ⟨k, List.mem_range.2 k.2, rfl⟩)
  · exact State.reg_snapshot_copy h (g := 4) (by decide) hb (List.mem_append_left _ (List.mem_map.2 ⟨i, List.mem_range.2 i.2, rfl⟩))
  · exact State.reg_snapshot_copy h (g := 4) (by decide) hb (List.mem_append_right _ (List.mem_map.2 ⟨k, List.mem_range.2 k.2, rfl⟩))
  · exact State.reg_snapshot_copy h (g := 5) (by decide) hb (List.mem_append_left _ (List.mem_map.2 ⟨d, List.mem_range.2 d.2, rfl⟩))
  · exact State.reg_snapshot_copy h (g := 5) (by decide) hb (List.mem_append_right _ (List.mem_map.2 ⟨k, List.mem_range.2 k.2, rfl⟩))
  · exact State.reg_snapshot_copy h (g := 6) (by decide) hb (List.mem_map.2 ⟨i, List.mem_range.2 i.2, rfl⟩)
  · rw [State.fld, State.reg_snapshot_timeHi h, bitsOf_ofNat _ _ (by decide)]; omega
  · rw [State.fld, State.reg_snapshot_timeHi h, bitsOf_ofNat _ _ (by decide)]; omega
  · rw [State.fld, State.reg_snapshot_timeHi h, bitsOf_ofNat _ _ (by decide)]; omega
  · exact State.reg_snapshot_other h (fun g hg hb => ha ⟨g, hg⟩ hb) hl hh

end Sys2Proof
end

/-! ## The crossing clock: lock, holdover, LOST and the return (R49 to R60) -/
section
namespace Sys2Proof
open Sys2Proof.Machine

namespace Machine

/-! ### What a departure of a sector writes (R487) -/

/-- The registers that the departure of sector `k` writes beside `GLB_SEC_STATE`: when it left, its clusters, its missed accepts and its
power state. -/
def leaveRegs (k a : Nat) : Prop :=
  a = Reg.glbSecLeave k ∨ (∃ n ∈ sectorClusters k, a = Reg.glbCl n) ∨ a = Reg.drzAccq k ∨ a = Reg.pwrSecState

/-- The registers that the departure of all sectors writes. -/
def lostRegs (a : Nat) : Prop := ∃ k, k < 16 ∧ (a = Reg.glbSecState k ∨ leaveRegs k a)

theorem mem_sectorClusters {k n : Nat} : n ∈ sectorClusters k ↔ n / 16 = k := by
  simp only [sectorClusters, List.mem_map, List.mem_range]
  constructor
  · rintro ⟨j, hj, rfl⟩; omega
  · rintro rfl; exact ⟨n % 16, by omega, by omega⟩

theorem glb_inj {x y : Nat} : Reg.glb x = Reg.glb y ↔ x = y := Nat.add_left_cancel_iff

theorem not_leaveRegs_secState {j k : Nat} (hj : j < 16) : ¬leaveRegs k (Reg.glbSecState j) := by
  rintro (h | ⟨n, -, h⟩ | h | h)
  · have := glb_inj.1 h; omega
  · have := glb_inj.1 h; omega
  · have := glb_inj.1 h; omega
  · have := glb_inj.1 h; omega

/-- Touchstone's registers, the fault register and the pins of the readout are none of them. -/
theorem not_lostRegs {o : Nat} (h : o < 0x100 ∨ (0x1000 ≤ o ∧ o < 0x5000) ∨ (0x5010 ≤ o ∧ o < 0x8080)) : ¬lostRegs (Reg.glb o) := by
  rintro ⟨k, hk, e | e | ⟨n, hn, e⟩ | e | e⟩
  · have := glb_inj.1 e; omega
  · have := glb_inj.1 e; omega
  · have := glb_inj.1 e; have := mem_sectorClusters.1 hn; omega
  · have := glb_inj.1 e; omega
  · have := glb_inj.1 e; omega

namespace State
variable {s t : State} {p : Nat → Prop}

theorem clusterOut_writes (h : WritesOnly p s t) (n : Nat) (hn : p (Reg.glbCl n)) : WritesOnly p s (t.clusterOut n) := by
  unfold clusterOut
  exact .ite ((h.setBit 0 true hn).same (fun i => i.of_eq ⟨rfl, rfl, rfl, rfl, rfl, rfl, rfl, rfl, rfl, rfl, rfl, rfl, rfl⟩) rfl) h

theorem carryOn_writes (h : WritesOnly p s t) (k n : Nat) : WritesOnly p s (t.carryOn k n) := by
  unfold carryOn
  exact .ite h (h.same (setRo_still (.refl _) _ _).inv rfl)

theorem queueMissed_writes (h : WritesOnly p s t) (k : Nat) (hk : p (Reg.drzAccq k)) : WritesOnly p s (t.queueMissed k) :=
  (carryOn_writes (h.same (setRo_still (.refl _) _ _).inv rfl) k _).count 15 0 _ hk

theorem leaves_writes (h : WritesOnly p s t) (x : Tbl (Nat × Nat)) : WritesOnly p s { t with leaves := x } :=
  h.same (fun i => i.of_eq ⟨rfl, rfl, rfl, rfl, rfl, rfl, rfl, rfl, rfl, rfl, rfl, rfl, rfl⟩) rfl

/-- After the word of `GLB_SEC_STATE` a departure writes only the other registers of a departure. -/
theorem sectorOut_writes (h : s.Inv) (k plane cause : Nat) :
    WritesOnly (leaveRegs k) (s.setReg (Reg.glbSecState k) (BitVec.ofNat 32 (plane * 2 ^ 30 + cause * 2 ^ 26 + s.tsb.slot % 128)))
      (s.sectorOut k plane cause) := by
  have h1 := (WritesOnly.refl (p := leaveRegs k) (inv_setReg h (Reg.glbSecState k)
      (BitVec.ofNat 32 (plane * 2 ^ 30 + cause * 2 ^ 26 + s.tsb.slot % 128)))).setReg
    (a := Reg.glbSecLeave k) (BitVec.ofNat 32 (s.tsb.crossing * 2 ^ 16 + s.tsb.orbit.toNat % 2 ^ 16)) (.inl rfl)
  unfold sectorOut
  refine .ite (.setFld ?_ _ _ _ (.inr (.inr (.inr rfl)))) ?_
  all_goals
    exact queueMissed_writes (.foldl (.same (.ite h1 (leaves_writes h1 _)) (setSorter_still (.refl _) _ _).inv rfl)
      (fun u n hn hu => clusterOut_writes hu n (.inr (.inl ⟨n, hn, rfl⟩)))) k (.inr (.inr (.inl rfl)))

theorem sectorOut_writesLost (h : s.Inv) {k : Nat} (hk : k < 16) (plane cause : Nat) : WritesOnly lostRegs s (s.sectorOut k plane cause) :=
  ((WritesOnly.refl h).setReg _ ⟨k, hk, .inl rfl⟩).trans
    ((sectorOut_writes h k plane cause).mono (fun _ ha => ⟨k, hk, .inr ha⟩))

/-- A departure in VIRTUAL takes exactly its own sector out of the fixed plane. -/
theorem secIn_sectorOut (h : s.Inv) {j k : Nat} (hj : j < 16) (hk : k < 16) :
    (s.sectorOut k 3 7).secIn j = (s.secIn j && decide (j ≠ k)) := by
  rw [secIn, (sectorOut_writes h k 3 7).fld _ _ (not_leaveRegs_secState hj), fld, reg_setReg h]
  by_cases e : j = k
  · subst e
    have hw : (3 * 2 ^ 30 + 7 * 2 ^ 26 + s.tsb.slot % 128) / 2 ^ 30 % 2 ^ (31 + 1 - 30) ≠ 1 := by omega
    rw [if_pos rfl, bitsOf_ofNat _ _ (by decide), decide_eq_false hw]
    simp
  · have hn : Reg.glbSecState j ≠ Reg.glbSecState k := fun he => e (by have := glb_inj.1 he; omega)
    rw [if_neg hn, decide_eq_true e, Bool.and_true]
    rfl

theorem sectorsOut_writesLost (h : s.Inv) {l : List Nat} (hl : ∀ k ∈ l, k < 16) :
    WritesOnly lostRegs s (l.foldl (fun s k => s.sectorOut k 3 7) s) :=
  (WritesOnly.refl h).foldl (fun _ k hk hu => hu.trans (sectorOut_writesLost hu.inv (hl k hk) 3 7))

theorem secIn_sectorsOut (h : s.Inv) {l : List Nat} (hl : ∀ k ∈ l, k < 16) {j : Nat} (hj : j < 16) :
    (l.foldl (fun s k => s.sectorOut k 3 7) s).secIn j = (s.secIn j && decide (j ∉ l)) := by
  induction l generalizing s with
  | nil => simp
  | cons k l ih =>
    have hk := hl k (List.mem_cons_self ..)
    rw [List.foldl_cons, ih (sectorOut_writesLost h hk 3 7).inv (fun i hi => hl i (List.mem_cons_of_mem _ hi)), secIn_sectorOut h hj hk]
    simp [Bool.and_assoc]

theorem secsIn_lt {k : Nat} (h : k ∈ s.secsIn) : k < 16 := List.mem_range.1 (List.mem_filter.1 h).1

theorem sectorsLost_writes (h : s.Inv) : WritesOnly lostRegs s s.sectorsLost := sectorsOut_writesLost h (fun _ => secsIn_lt)

/-- No sector is in the fixed plane once they have all left it (R57). -/
theorem secIn_sectorsLost (h : s.Inv) {j : Nat} (hj : j < 16) : s.sectorsLost.secIn j = false := by
  rw [sectorsLost, secIn_sectorsOut h (fun _ => secsIn_lt) hj]
  cases hs : s.secIn j
  · rfl
  · have : j ∈ s.secsIn := List.mem_filter.2 ⟨List.mem_range.2 hj, hs⟩
    simp [this]

/-! ### A switch that is cancelled (R407) -/

/-- The registers that the end of a switch writes. -/
def switchRegs (a : Nat) : Prop := a = Reg.accordStatus ∨ a = Reg.admStatus

theorem unstage_writes (h : WritesOnly p s t) (w : Switch) : WritesOnly p s (t.unstage w) := by
  unfold unstage
  exact .ite h (h.same (fun i => i.of_eq ⟨rfl, rfl, rfl, rfl, rfl, rfl, rfl, rfl, rfl, rfl, rfl, rfl, rfl⟩) rfl)

theorem setInflight_writes (h : WritesOnly p s t) (w : Option Switch) : WritesOnly p s (t.setInflight w) :=
  h.same (fun i => i.of_eq ⟨rfl, rfl, rfl, rfl, rfl, rfl, rfl, rfl, rfl, rfl, rfl, rfl, rfl⟩) rfl

theorem dropAccordTriggers_writes (h : WritesOnly switchRegs s t) : WritesOnly switchRegs s t.dropAccordTriggers :=
  (h.setFld 26 24 _ (.inr rfl)).same (fun i => i.of_eq ⟨rfl, rfl, rfl, rfl, rfl, rfl, rfl, rfl, rfl, rfl, rfl, rfl, rfl⟩) rfl

theorem endSwitch_writes (h : s.Inv) (w : Switch) (result : Nat) : WritesOnly switchRegs s (s.endSwitch w result) :=
  (((dropAccordTriggers_writes (setInflight_writes (unstage_writes (.refl h) w) none)).setFld 31 29 0 (.inl rfl)).setFld 27 24 result
    (.inl rfl)).setFld 15 8 _ (.inl rfl)

theorem cancelSwitch_writes (h : s.Inv) : WritesOnly switchRegs s s.cancelSwitch := by
  unfold cancelSwitch
  split
  · exact .ite (endSwitch_writes h _ 7) (.refl h)
  · exact .refl h

/-! ### LOST (R57) -/

/-- The state in which Touchstone enters LOST, as the sectors begin to leave. -/
def lostBegins (s : State) : State := (((s.setTsbState .lost).setBit Reg.tsbStatus 14 true).setBit Reg.tsbStatus 8 true).fault 2

theorem inv_lostBegins (h : s.Inv) : s.lostBegins.Inv := inv_fault (inv_setBit (inv_setBit (inv_setTsbState h _) _ _ _) _ _ _) _

/-- What entering LOST writes after its first words: registers of departures, of the accord switch and the readout's pins. -/
theorem enterLost_writes (h : s.Inv) : WritesOnly (fun a => lostRegs a ∨ switchRegs a ∨ a = Reg.drzPins) s.lostBegins s.enterLost := by
  have h1 := sectorsLost_writes (inv_lostBegins h)
  exact (((h1.mono (fun _ => .inl)).trans ((cancelSwitch_writes h1.inv).mono (fun _ ha => .inr (.inl ha)))).setFld 4 0 0x1F
    (.inr (.inr rfl))).setTsb _

theorem not_lost_tsbStatus : ¬(lostRegs Reg.tsbStatus ∨ switchRegs Reg.tsbStatus ∨ Reg.tsbStatus = Reg.drzPins) := by
  rintro (h | (h | h) | h)
  · exact not_lostRegs (by decide) h
  all_goals exact absurd h (by decide)

theorem tsbState_enterLost (h : s.Inv) : s.enterLost.tsbState = .lost := by
  have h1 := inv_setTsbState h .lost
  have h2 := inv_setBit h1 Reg.tsbStatus 14 true
  rw [(enterLost_writes h).tsbState not_lost_tsbStatus, lostBegins, tsbState_fault (inv_setBit h2 _ _ _),
    tsbState_setBit h2 _ _ (by decide), tsbState_setBit h1 _ _ (by decide), tsbState_setTsbState h]

/-- `CLK_LOST` (14) and `VIRTUAL` (8) stand in LOST. -/
theorem rbit_enterLost (h : s.Inv) {i : Nat} (hi : i = 14 ∨ i = 8) : s.enterLost.rbit Reg.tsbStatus i = true := by
  have h1 := inv_setTsbState h .lost
  have h2 := inv_setBit h1 Reg.tsbStatus 14 true
  rw [(enterLost_writes h).rbit i not_lost_tsbStatus, lostBegins, rbit_fault_of_ne (inv_setBit h2 _ _ _) _ _ (by decide)]
  obtain rfl | rfl := hi
  · rw [rbit_setBit_of_ne_bit h2 _ _ (by decide), rbit_setBit_self h1 _ _ (by decide)]
  · rw [rbit_setBit_self h2 _ _ (by decide)]

theorem secIn_enterLost (h : s.Inv) (k : SectorNo) : s.enterLost.secIn k = false := by
  have h1 := inv_lostBegins h
  have h2 := sectorsLost_writes h1
  have hk : ¬switchRegs (Reg.glbSecState k) := by
    rintro (e | e)
    · have := glb_inj.1 e; have := k.isLt; omega
    · have := glb_inj.1 e; have := k.isLt; omega
  have hd : Reg.glbSecState k ≠ Reg.drzPins := fun e => by have := glb_inj.1 e; have := k.isLt; omega
  have hr : s.enterLost.reg (Reg.glbSecState k) = s.lostBegins.sectorsLost.reg (Reg.glbSecState k) :=
    (reg_setFld_of_ne (cancelSwitch_writes h2.inv).inv 4 0 0x1F hd).trans ((cancelSwitch_writes h2.inv).kept _ hk)
  rw [secIn, fld, hr]
  exact secIn_sectorsLost h1 k.isLt

theorem drzPins_enterLost (h : s.Inv) : s.enterLost.fld Reg.drzPins 4 0 = 31 :=
  fld_setFld_self (cancelSwitch_writes (sectorsLost_writes (inv_lostBegins h)).inv).inv Reg.drzPins 0x1F (by decide)

end State

/-! ### The commands of the crossing clock -/

section
variable {s : State}

theorem exec_fclkLock_unlocked (h : s.tsbState = .unlocked) (hl : 1 ≤ s.L) (hm : 8 ≤ s.M) (hp : s.phase ≠ 5) :
    exec .fclkLock s = .next ((s.setTsbState .locking).slotBegins.setTsb
      { s.tsb with fclk := true, est := none, wrong := [], crossing := 0, slot := 0, orbit := (s.setTsbState .locking).orbitInit }) := by
  show execFclkLock s = _
  rw [execFclkLock, if_pos ⟨h, hl, hm, hp⟩]; rfl

theorem exec_fclkLock_returning (h : s.tsbState = .returning) (hr : s.tsb.ret = .locking) :
    exec .fclkLock s = .next { s with tsb := { s.tsb with fclk := true, ret := .marker, est := none, wrong := [] } } := by
  show execFclkLock s = _
  rw [execFclkLock, if_neg (by simp [h]), if_pos ⟨h, hr⟩]; rfl

theorem exec_lockTimeout_pins (b : Bool) (h : s.tsbState = .unlocked) (hc : s.cxTiming = false) :
    exec (.lockTimeout b) s = .next (s.startFails (if b then 0x50 else 0x52) 0) := by
  show execLockTimeout b s = _
  simp only [execLockTimeout, h, hc]; rfl

theorem exec_lockTimeout_timing (b : Bool) (h : s.tsbState = .unlocked) (hc : s.cxTiming = true) :
    exec (.lockTimeout b) s = .next (s.startFails (if s.qualified 0 ∨ s.qualified 1 then 0x52 else 0x54) 0) := by
  show execLockTimeout b s = _
  simp only [execLockTimeout, h, hc, Bool.or_eq_true]; rfl

theorem exec_lockTimeout_locking (b : Bool) (h : s.tsbState = .locking) : exec (.lockTimeout b) s = .next (s.startFails 0x53 0) := by
  show execLockTimeout b s = _
  simp only [execLockTimeout, h]; rfl

/-- HOLDOVER begins in this crossing (R55). -/
def State.holdoverBegins (s : State) : State :=
  (((s.setTsbState .holdover).setBit Reg.tsbStatus 13 true).fault 2).setTsb { s.tsb with holdAt := s.tsb.cx }

theorem exec_clockLoss_aligned (h : s.tsbState = .aligned) (hs : s.tsb.swapDue = none) (hc : s.cxTiming = false) :
    exec .clockLoss s = .next (if s.fld Reg.tsbHoldover 11 0 = 0 then s.enterLost else s.holdoverBegins) := by
  show execClockLoss s = _
  simp only [execClockLoss, hs, hc, h, Option.isSome_none, Bool.false_and, Bool.false_eq_true, if_false]
  split <;> rfl

theorem exec_clockLoss_covered (h : s.tsb.swapDue ≠ none ∨
      s.cxTiming = true ∧ ((s.tlane s.activeLane).failed = false ∨ s.qualified (1 - s.activeLane) = true)) :
    exec .clockLoss s = .next s := by
  show execClockLoss s = _
  rw [execClockLoss]
  by_cases hs : s.tsb.swapDue = none
  · obtain ⟨hc, hq⟩ := h.resolve_left (fun hn => hn hs)
    have : (s.cxTiming && (!(s.tlane s.activeLane).failed || s.qualified (1 - s.activeLane))) = true := by
      simpa [hc] using hq
    rw [if_neg (by simp [hs]), if_pos this]; rfl
  · rw [if_pos (Option.isSome_iff_ne_none.2 hs)]; rfl

theorem exec_clockReturn_holdover {n : Int} (h : s.tsbState = .holdover) (hc : s.cxTiming = false) (hn : n.natAbs ≤ 2)
    (ht : s.tsb.cx ≤ s.tsb.holdAt + s.fld Reg.tsbHoldover 11 0) : exec (.clockReturn n) s = .next (s.setTsbState .aligned) := by
  show execClockReturn n s = _
  simp only [execClockReturn, h, hc, Bool.false_and, Bool.false_eq_true, if_false, hn, ht, and_self, if_true]; rfl

theorem exec_clockReturn_lost (n : Int) (h : s.tsbState = .lost) (hc : s.cxTiming = false) : exec (.clockReturn n) s =
    .next ((s.setTsbState .returning).setTsb { s.tsb with ret := .qualifying, goodAt := some s.tsb.cx }) := by
  show execClockReturn n s = _
  simp only [execClockReturn, h, hc, Bool.false_and, Bool.false_eq_true, if_false]; rfl

theorem exec_holdoverExpiry (h : s.tsbState = .holdover) (hs : s.tsb.slot = 0)
    (ht : s.tsb.holdAt + s.fld Reg.tsbHoldover 11 0 < s.tsb.cx) : exec .holdoverExpiry s = .next s.enterLost := by
  show execHoldoverExpiry s = _
  rw [execHoldoverExpiry, if_pos ⟨h, hs, ht⟩]; rfl

theorem exec_returnQualified {g : Nat} (hg : s.tsb.goodAt = some g) (h : s.tsbState = .returning) (hr : s.tsb.ret = .qualifying)
    (ht : g + s.fld Reg.tsbReturnQual 15 0 ≤ s.tsb.cx) :
    exec .returnQualified s = .next { s with tsb := { s.tsb with ret := .locking } } := by
  show execReturnQualified s = _
  simp only [execReturnQualified, hg, h, hr, ht, and_self, if_true]; rfl

end
end Machine

/-! ### The statements of O13 -/

section
variable {s : State}

/-- FCLK_LOCK at the start (R49, R51). -/
theorem fclkLock_starts (h : s.Inv) (hu : s.tsbState = .unlocked) (hl : 1 ≤ s.L) (hm : 8 ≤ s.M) (hp : s.phase ≠ 5) :
    Completes .fclkLock s (fun t =>
      t.tsbState = .locking ∧ t.tsb.fclk = true ∧ t.tsb.est = none ∧ t.tsb.crossing = 0 ∧ t.tsb.slot = 0 ∧
      t.tsb.orbit = BitVec.ofNat 48 (s.reg Reg.tsbOrbitInit).toNat ∧ BytesKept s t ∧ RegsKept [Reg.tsbStatus] s t) := by
  refine .intro (exec_fclkLock_unlocked hu hl hm hp) ⟨State.tsbState_setTsbState h .locking, rfl, rfl, rfl, rfl, ?_, .of_mem rfl, ?_⟩
  · show BitVec.ofNat 48 ((s.setTsbState .locking).reg Reg.tsbOrbitInit).toNat = _
    rw [State.setTsbState, State.reg_setFld_of_ne h _ _ _ (by decide)]
  · exact ((WritesOnly.refl h).setFld 2 0 _ (List.mem_cons_self ..)).kept

/-- CLOCK_LOSS with a holdover time (R55). -/
theorem clockLoss_holds (h : s.Inv) (ha : s.tsbState = .aligned) (hs : s.tsb.swapDue = none) (hc : s.cxTiming = false)
    (hh : s.fld Reg.tsbHoldover 11 0 ≠ 0) : Completes .clockLoss s (fun t =>
      t.tsbState = .holdover ∧ t.rbit Reg.tsbStatus 13 = true ∧ t.tsb.holdAt = s.tsb.cx ∧ CountKept s t ∧
      RegsKept [Reg.tsbStatus, Reg.glbFault] s t ∧ t = { s with regs := t.regs, tsb := { s.tsb with holdAt := s.tsb.cx } }) := by
  have he := exec_clockLoss_aligned ha hs hc
  rw [if_neg hh] at he
  have h1 := State.inv_setTsbState h .holdover
  have h2 := State.inv_setBit h1 Reg.tsbStatus 13 true
  refine .intro he ⟨?_, ?_, rfl, ⟨rfl, rfl, rfl, rfl, rfl⟩, ?_, rfl⟩
  · exact (State.tsbState_fault h2 2).trans ((State.tsbState_setBit h1 _ _ (by decide)).trans (State.tsbState_setTsbState h _))
  · exact (State.rbit_fault_of_ne h2 2 13 (by decide)).trans (State.rbit_setBit_self h1 _ _ (by decide))
  · exact ((((WritesOnly.refl h).setFld 2 0 _ (by simp)).setBit 13 true (by simp)).setBit 2 true (by simp)).regsKept

/-- CLOCK_RETURN within the holdover (R56). -/
theorem clockReturn_resumes (h : s.Inv) {n : Int} (hs : s.tsbState = .holdover) (hc : s.cxTiming = false) (hn : n.natAbs ≤ 2)
    (ht : s.tsb.cx ≤ s.tsb.holdAt + s.fld Reg.tsbHoldover 11 0) : Completes (.clockReturn n) s (fun t =>
      t.tsbState = .aligned ∧ CountKept s t ∧ (∀ i, 3 ≤ i → t.rbit Reg.tsbStatus i = s.rbit Reg.tsbStatus i) ∧
      RegsKept [Reg.tsbStatus] s t ∧ t = { s with regs := t.regs }) :=
  .intro (exec_clockReturn_holdover hs hc hn ht) ⟨State.tsbState_setTsbState h _, .of_tsb rfl, fun _ hi => State.rbit_setTsbState h _ hi,
    ((WritesOnly.refl h).setFld 2 0 _ (List.mem_cons_self ..)).regsKept, rfl⟩

/-- LOST, once entered (R57). -/
theorem countKept_enterLost (s : State) : CountKept s s.enterLost := .of_still (State.enterLost_still (.refl s))

/-- HOLDOVER_EXPIRY (R57). -/
theorem holdoverExpiry_loses (h : s.Inv) (hs : s.tsbState = .holdover) (h0 : s.tsb.slot = 0)
    (ht : s.tsb.holdAt + s.fld Reg.tsbHoldover 11 0 < s.tsb.cx) : Completes .holdoverExpiry s (fun t =>
      t.tsbState = .lost ∧ t.rbit Reg.tsbStatus 14 = true ∧ t.rbit Reg.tsbStatus 8 = true ∧
      (∀ k : SectorNo, t.secIn k = false) ∧ t.tsb.calPins = 0 ∧ t.fld Reg.drzPins 4 0 = 31 ∧ CountKept s t) :=
  .intro (exec_holdoverExpiry hs h0 ht) ⟨State.tsbState_enterLost h, State.rbit_enterLost h (.inl rfl), State.rbit_enterLost h (.inr rfl),
    State.secIn_enterLost h, rfl, State.drzPins_enterLost h, countKept_enterLost s⟩

/-- CLOCK_LOSS without a holdover time (R57). -/
theorem clockLoss_loses (h : s.Inv) (ha : s.tsbState = .aligned) (hs : s.tsb.swapDue = none) (hc : s.cxTiming = false)
    (hh : s.fld Reg.tsbHoldover 11 0 = 0) :
    Completes .clockLoss s (fun t => t.tsbState = .lost ∧ (∀ k : SectorNo, t.secIn k = false) ∧ CountKept s t) := by
  have he := exec_clockLoss_aligned ha hs hc
  rw [if_pos hh] at he
  exact .intro he ⟨State.tsbState_enterLost h, State.secIn_enterLost h, countKept_enterLost s⟩

/-- CLOCK_RETURN in LOST (R58). -/
theorem clockReturn_qualifies (h : s.Inv) (n : Int) (hs : s.tsbState = .lost) (hc : s.cxTiming = false) :
    Completes (.clockReturn n) s (fun t => t.tsbState = .returning ∧ t.tsb.ret = .qualifying ∧ t.tsb.goodAt = some s.tsb.cx ∧
      CountKept s t ∧ RegsKept [Reg.tsbStatus] s t ∧ BytesKept s t) :=
  .intro (exec_clockReturn_lost n hs hc) ⟨State.tsbState_setTsbState h _, rfl, rfl, ⟨rfl, rfl, rfl, rfl, rfl⟩,
    ((WritesOnly.refl h).setFld 2 0 _ (List.mem_cons_self ..)).regsKept, .of_mem rfl⟩

end

/-- Settles O13: each command of the crossing clock in the states that answer to it; LOST is entered by the departure of every sector. -/
theorem lockHoldoverAndLost : Obligations.LockHoldoverAndLost :=
  ⟨fun _ h => ⟨fclkLock_starts h, exec_fclkLock_returning, exec_lockTimeout_pins, exec_lockTimeout_timing, exec_lockTimeout_locking⟩,
   fun _ h => ⟨clockLoss_holds h, fun _ => clockReturn_resumes h, exec_clockLoss_covered⟩,
   fun _ h => ⟨holdoverExpiry_loses h, clockLoss_loses h, clockReturn_qualifies h, fun _ => exec_returnQualified⟩⟩

end Sys2Proof
end

/-! ## Timing lanes (R38, R39, R44 to R48) -/
section
namespace Sys2Proof
open Sys2Proof.Machine

theorem CountKept.of_exec {c : Instr} {s t : State} (hc : movesCount c = false) (he : exec c s = .next t) : CountKept s t :=
  .of_still ((exec_still c hc s).out t he)

namespace Machine

/-! ### The lanes' registers -/

theorem tlnStatus_ne_tsbStatus (i : Nat) : Reg.tlnStatus i ≠ Reg.tsbStatus := by
  unfold Reg.tlnStatus Reg.tsbStatus Reg.glb; omega
theorem tlnStatus_ne_tsbCtrl {i : Nat} (h : i < 2) : Reg.tlnStatus i ≠ Reg.tsbCtrl := by
  unfold Reg.tlnStatus Reg.tsbCtrl Reg.glb; omega
theorem tlnErrcnt_ne_tsbStatus {i : Nat} (h : i < 2) : Reg.tlnErrcnt i ≠ Reg.tsbStatus := by
  unfold Reg.tlnErrcnt Reg.tsbStatus Reg.glb; omega
theorem tlnErrcnt_ne_tsbCtrl {i : Nat} (h : i < 2) : Reg.tlnErrcnt i ≠ Reg.tsbCtrl := by
  unfold Reg.tlnErrcnt Reg.tsbCtrl Reg.glb; omega
theorem tlnErrcnt_ne_tlnStatus (i j : Nat) : Reg.tlnErrcnt i ≠ Reg.tlnStatus j := by
  unfold Reg.tlnErrcnt Reg.tlnStatus; omega
theorem tsbCnt_ne_tlnStatus {i : Nat} (h : i < 2) (j : Nat) : Reg.tsbCnt j ≠ Reg.tlnStatus i := by
  unfold Reg.tlnStatus Reg.tsbCnt Reg.glb; omega
theorem tsbCnt_ne_tlnErrcnt {i : Nat} (h : i < 2) (j : Nat) : Reg.tsbCnt j ≠ Reg.tlnErrcnt i := by
  unfold Reg.tlnErrcnt Reg.tsbCnt Reg.glb; omega
theorem tsbCnt_ne_tsbStatus (j : Nat) : Reg.tsbCnt j ≠ Reg.tsbStatus := by
  unfold Reg.tsbCnt Reg.tsbStatus Reg.glb; omega
theorem tlnStatus_inj {i j : Nat} : Reg.tlnStatus i = Reg.tlnStatus j ↔ i = j := by
  unfold Reg.tlnStatus; omega

namespace WritesOnly
variable {p : Nat → Prop} {s t : State}

theorem activeLane (h : WritesOnly p s t) (ha : ¬p Reg.tsbStatus) : t.activeLane = s.activeLane := h.fld _ _ ha
theorem qualified (h : WritesOnly p s t) (ha : ¬p Reg.tsbStatus) (i : Nat) : t.qualified i = s.qualified i := h.rbit _ ha
theorem cxTiming (h : WritesOnly p s t) (ha : ¬p Reg.tsbCtrl) : t.cxTiming = s.cxTiming := by
  simp only [State.cxTiming, h.fld _ _ ha]

end WritesOnly

namespace State
variable {s t : State} {p : Nat → Prop}

theorem activeLane_lt (s : State) : s.activeLane < 2 := Nat.mod_lt _ (by decide)

/-! ### What a lane keeps -/

@[simp] theorem reg_setTlane (i : Nat) (k : TLane) (a : Nat) : (s.setTlane i k).reg a = s.reg a := by unfold setTlane; split <;> rfl
@[simp] theorem activeLane_setTlane (i : Nat) (k : TLane) : (s.setTlane i k).activeLane = s.activeLane := by simp only [activeLane, fld, reg_setTlane]
@[simp] theorem qualified_setTlane (i : Nat) (k : TLane) (j : Nat) : (s.setTlane i k).qualified j = s.qualified j := by
  simp only [qualified, rbit, reg_setTlane]
@[simp] theorem setTlane_mem (i : Nat) (k : TLane) : (s.setTlane i k).mem = s.mem := by unfold setTlane; split <;> rfl
theorem swapDue_setTlane (i : Nat) (k : TLane) : (s.setTlane i k).tsb.swapDue = s.tsb.swapDue := by unfold setTlane; split <;> rfl
theorem inv_setTlane (h : s.Inv) (i : Nat) (k : TLane) : (s.setTlane i k).Inv := (setTlane_still (.refl s) i k).inv h

@[simp] theorem tlane_setTlane_self (i : Nat) (k : TLane) : (s.setTlane i k).tlane i = k := by
  unfold setTlane tlane; split <;> rfl

theorem tlane_setTlane_of_ne {i j : Nat} (k : TLane) (hi : i < 2) (hj : j < 2) (h : j ≠ i) : (s.setTlane i k).tlane j = s.tlane j := by
  unfold setTlane tlane
  by_cases e : i = 0
  · rw [if_pos e, if_neg (by omega), if_neg (by omega)]
  · rw [if_neg e, if_pos (by omega), if_pos (by omega)]

theorem setTlane_writes (h : WritesOnly p s t) (i : Nat) (k : TLane) : WritesOnly p s (t.setTlane i k) :=
  ⟨inv_setTlane h.inv i k, fun a ha => (reg_setTlane ..).trans (h.kept a ha)⟩

/-! ### Whether a lane is qualified -/

theorem setQualified_writes (h : WritesOnly p s t) (i : Nat) (b : Bool) (hs : p Reg.tsbStatus) (hi : p (Reg.tlnStatus i)) :
    WritesOnly p s (t.setQualified i b) := (h.setBit _ _ hs).setBit _ _ hi

theorem inv_setQualified (h : s.Inv) (i : Nat) (b : Bool) : (s.setQualified i b).Inv := inv_setBit (inv_setBit h _ _ _) _ _ _

theorem qualified_setQualified_self (h : s.Inv) {i : Nat} (b : Bool) (hi : i < 2) : (s.setQualified i b).qualified i = b := by
  rw [setQualified, qualified, rbit_setBit_of_ne (inv_setBit h _ _ _) _ _ _ (tlnStatus_ne_tsbStatus i).symm, rbit_setBit_self h _ _ (by omega)]

theorem qualified_setQualified_of_ne (h : s.Inv) {i j : Nat} (b : Bool) (hj : j ≠ i) : (s.setQualified i b).qualified j = s.qualified j := by
  rw [setQualified, qualified, rbit_setBit_of_ne (inv_setBit h _ _ _) _ _ _ (tlnStatus_ne_tsbStatus i).symm,
    rbit_setBit_of_ne_bit h _ _ (by omega)]; rfl

theorem activeLane_setQualified (h : s.Inv) (i : Nat) (b : Bool) : (s.setQualified i b).activeLane = s.activeLane := by
  rw [setQualified, activeLane, fld_setBit_of_ne (inv_setBit h _ _ _) _ _ _ _ (tlnStatus_ne_tsbStatus i).symm,
    fld_setBit_of_disjoint h _ _ (by omega) (by decide)]; rfl

/-! ### A change-over that is called for -/

@[simp] theorem reg_callSwap (a : Nat) : s.callSwap.reg a = s.reg a := by unfold callSwap; split <;> rfl
@[simp] theorem callSwap_mem : s.callSwap.mem = s.mem := by unfold callSwap; split <;> rfl
@[simp] theorem tlane_callSwap (i : Nat) : s.callSwap.tlane i = s.tlane i := by unfold callSwap; split <;> rfl
theorem inv_callSwap (h : s.Inv) : s.callSwap.Inv := (callSwap_still (.refl s)).inv h

theorem swapDue_callSwap : s.callSwap.tsb.swapDue ≠ none := by
  unfold callSwap
  split
  · exact Option.isSome_iff_ne_none.1 ‹_›
  · exact Option.some_ne_none _

theorem callSwap_rest : s.callSwap = { s with tsb := { s.tsb with swapDue := s.callSwap.tsb.swapDue } } := by
  unfold callSwap; split <;> rfl

/-- A change-over is called for where a condition holds. -/
def swapIf (s : State) (b : Bool) : State := if b then s.callSwap else s

@[simp] theorem reg_swapIf (b : Bool) (a : Nat) : (s.swapIf b).reg a = s.reg a := by cases b <;> simp [swapIf]
@[simp] theorem swapIf_mem (b : Bool) : (s.swapIf b).mem = s.mem := by cases b <;> simp [swapIf]
@[simp] theorem tlane_swapIf (b : Bool) (i : Nat) : (s.swapIf b).tlane i = s.tlane i := by cases b <;> simp [swapIf]
@[simp] theorem activeLane_swapIf (b : Bool) : (s.swapIf b).activeLane = s.activeLane := by simp only [activeLane, fld, reg_swapIf]
@[simp] theorem qualified_swapIf (b : Bool) (j : Nat) : (s.swapIf b).qualified j = s.qualified j := by simp only [qualified, rbit, reg_swapIf]
theorem swapDue_swapIf : (s.swapIf true).tsb.swapDue ≠ none := swapDue_callSwap

/-! ### The offset of the standby lane -/

theorem measureOffset_writes (h : WritesOnly p s t) (ha : p Reg.tsbAbOffset) : WritesOnly p s t.measureOffset := by
  unfold measureOffset
  split
  · exact h
  · split
    · exact (h.setFld _ _ _ ha).setBit _ _ ha
    · exact h

@[simp] theorem measureOffset_tsb : s.measureOffset.tsb = s.tsb := by
  unfold measureOffset
  split
  · rfl
  · split <;> rfl
@[simp] theorem measureOffset_mem : s.measureOffset.mem = s.mem := by
  unfold measureOffset
  split
  · rfl
  · split <;> rfl

/-! ### TIMING_LANE_FAILURE -/

/-- The lane has failed and is not qualified; a loss of lock clears its lock and counts. -/
def laneFails (s : State) (i : Nat) (lol : Bool) : State :=
  let s1 := (s.setTlane i { s.tlane i with failed := true, clean := if lol then 0 else (s.tlane i).clean }).setQualified i false
  if lol then (s1.setBit (Reg.tlnStatus i) 7 false).count (Reg.tlnErrcnt i) 15 0 else s1

theorem laneFails_writes (h : s.Inv) (i : Nat) (lol : Bool) :
    WritesOnly (· ∈ [Reg.tlnStatus i, Reg.tlnErrcnt i])
      ((s.setTlane i { s.tlane i with failed := true, clean := if lol then 0 else (s.tlane i).clean }).setQualified i false)
      (s.laneFails i lol) :=
  have h1 := WritesOnly.refl (inv_setQualified (inv_setTlane h i _) i false)
  .ite ((h1.setBit 7 false (by simp)).count 15 0 1 (by simp)) h1

theorem laneFails_kept (h : s.Inv) (i : Nat) (lol : Bool) : RegsKept [Reg.tsbStatus, Reg.tlnStatus i, Reg.tlnErrcnt i] s (s.laneFails i lol) :=
  ((setQualified_writes (setTlane_writes (.refl h) i _) i false (by simp) (by simp)).trans
    ((laneFails_writes h i lol).mono (fun a ha => List.mem_cons_of_mem _ ha))).regsKept

@[simp] theorem laneFails_mem (i : Nat) (lol : Bool) : (s.laneFails i lol).mem = s.mem := by
  cases lol <;> simp [laneFails, setQualified]

theorem tlane_laneFails (i : Nat) (lol : Bool) (j : Nat) : (s.laneFails i lol).tlane j =
    (s.setTlane i { s.tlane i with failed := true, clean := if lol then 0 else (s.tlane i).clean }).tlane j := by
  cases lol <;> rfl

theorem not_mem_laneRegs {i : Nat} (hi : i < 2) : Reg.tsbStatus ∉ [Reg.tlnStatus i, Reg.tlnErrcnt i] := by
  simp [(tlnStatus_ne_tsbStatus i).symm, (tlnErrcnt_ne_tsbStatus hi).symm]

theorem activeLane_laneFails (h : s.Inv) {i : Nat} (hi : i < 2) (lol : Bool) : (s.laneFails i lol).activeLane = s.activeLane := by
  rw [(laneFails_writes h i lol).activeLane (not_mem_laneRegs hi), activeLane_setQualified (inv_setTlane h i _), activeLane_setTlane]

theorem qualified_laneFails_self (h : s.Inv) {i : Nat} (hi : i < 2) (lol : Bool) : (s.laneFails i lol).qualified i = false := by
  rw [(laneFails_writes h i lol).qualified (not_mem_laneRegs hi), qualified_setQualified_self (inv_setTlane h i _) _ hi]

theorem qualified_laneFails_of_ne (h : s.Inv) {i j : Nat} (hi : i < 2) (hj : j ≠ i) (lol : Bool) :
    (s.laneFails i lol).qualified j = s.qualified j := by
  rw [(laneFails_writes h i lol).qualified (not_mem_laneRegs hi), qualified_setQualified_of_ne (inv_setTlane h i _) _ hj, qualified_setTlane]

/-! ### TIMING_LANE_QUALIFY -/

/-- The lane has no longer failed and is qualified. -/
def laneQualifies (s : State) (i : Nat) : State := (s.setTlane i { s.tlane i with failed := false }).setQualified i true

theorem laneQualifies_writes (h : s.Inv) (i : Nat) : WritesOnly (· ∈ [Reg.tsbStatus, Reg.tlnStatus i]) s (s.laneQualifies i) :=
  setQualified_writes (setTlane_writes (.refl h) i _) i true (by simp) (by simp)

theorem activeLane_laneQualifies (h : s.Inv) (i : Nat) : (s.laneQualifies i).activeLane = s.activeLane := by
  rw [laneQualifies, activeLane_setQualified (inv_setTlane h i _), activeLane_setTlane]

theorem qualified_laneQualifies (h : s.Inv) {i : Nat} (hi : i < 2) : (s.laneQualifies i).qualified i = true :=
  qualified_setQualified_self (inv_setTlane h i _) true hi

theorem tlane_laneQualifies_self (i : Nat) : ((s.laneQualifies i).tlane i).failed = false :=
  congrArg TLane.failed (tlane_setTlane_self (s := s) i { s.tlane i with failed := false })

theorem tlane_laneQualifies_of_ne {i j : Nat} (hi : i < 2) (hj : j < 2) (h : j ≠ i) : (s.laneQualifies i).tlane j = s.tlane j :=
  tlane_setTlane_of_ne _ hi hj h

/-- A standby lane that qualifies is to take over: the active one has failed, or the lane is TIMING_A and `AUTO_REVERT` is set (R46, R48). -/
def takesOver (s : State) (i : Nat) : Bool := (s.tlane s.activeLane).failed || (decide (i = 0) && s.rbit Reg.tsbCtrl 8)

/-- The state after a standby lane qualified, but for the change-over. -/
def standbyQualifies (s : State) (i : Nat) : State := (s.laneQualifies i).measureOffset

theorem standbyQualifies_writes (h : s.Inv) (i : Nat) :
    WritesOnly (· ∈ [Reg.tsbStatus, Reg.tlnStatus i, Reg.tsbAbOffset]) s (s.standbyQualifies i) :=
  measureOffset_writes ((laneQualifies_writes h i).also [Reg.tsbAbOffset]) (by simp)

theorem standbyQualifies_measured (h : s.Inv) (i : Nat) : WritesOnly (· ∈ [Reg.tsbAbOffset]) (s.laneQualifies i) (s.standbyQualifies i) :=
  measureOffset_writes (.refl (laneQualifies_writes h i).inv) (by simp)

theorem tlane_standbyQualifies (i j : Nat) : (s.standbyQualifies i).tlane j = (s.laneQualifies i).tlane j := by
  simp only [tlane, standbyQualifies, measureOffset_tsb]

/-! ### FAILOVER -/

/-- The lanes change over, but for the offsets. -/
def changeOver (s : State) : State :=
  (((s.setTsb { s.tsb with swapDue := none }).setFld Reg.tsbStatus 4 4 (1 - s.activeLane)).setBit Reg.tsbStatus 12 true).fault 0

/-- The lanes change over: the new active lane keeps its offset, and the other lane's offset from it is the opposite (R45, R46). -/
def failsOver (s : State) : State :=
  let ab := toSigned 16 (s.fld Reg.tsbAbOffset 15 0)
  let v := s.rbit Reg.tsbAbOffset 31
  let s3 := if v then s.changeOver.setFld Reg.tsbAbOffset 15 0 (BitVec.ofInt 16 (-ab)).toNat else s.changeOver
  s3.setTsb { s3.tsb with offset := if v then s3.tsb.offset + ab else s3.tsb.offset }

theorem changeOver_writes (h : s.Inv) : WritesOnly (· ∈ [Reg.tsbStatus, Reg.glbFault]) s s.changeOver :=
  ((((WritesOnly.refl h).setTsb _).setFld 4 4 _ (by simp)).setBit 12 true (by simp)).setBit 0 true (by simp)

theorem failsOver_writes (h : s.Inv) : WritesOnly (· ∈ [Reg.tsbAbOffset]) s.changeOver s.failsOver :=
  have h1 := WritesOnly.refl (changeOver_writes h).inv
  (WritesOnly.ite (h1.setFld _ _ _ (by simp)) h1).setTsb _

theorem activeLane_changeOver (h : s.Inv) : s.changeOver.activeLane = 1 - s.activeLane := by
  have h1 := inv_setTsb { s.tsb with swapDue := none } h
  have h2 := inv_setFld h1 Reg.tsbStatus 4 4 (1 - s.activeLane)
  have h3 := inv_setBit h2 Reg.tsbStatus 12 true
  rw [changeOver, activeLane, fault, fld_setBit_of_ne h3 _ _ _ _ (by decide), fld_setBit_of_disjoint h2 _ _ (by decide) (by decide),
    fld_setFld_self h1 _ _ (by decide)]
  have := s.activeLane_lt
  omega

theorem rbit_changeOver (h : s.Inv) : s.changeOver.rbit Reg.tsbStatus 12 = true := by
  have h2 := inv_setFld (inv_setTsb { s.tsb with swapDue := none } h) Reg.tsbStatus 4 4 (1 - s.activeLane)
  rw [changeOver, rbit_fault_of_ne (inv_setBit h2 _ _ _) _ _ (by decide), rbit_setBit_self h2 _ _ (by decide)]

theorem failsOver_swapDue (s : State) : s.failsOver.tsb.swapDue = none := by unfold failsOver; dsimp only; split <;> rfl
theorem failsOver_mem (s : State) : s.failsOver.mem = s.mem := by unfold failsOver; dsimp only; split <;> rfl

end State

/-! ### The commands of the timing lanes -/

section
variable {s : State}

theorem exec_timingLaneFailure (i : Fin 2) (lol : Bool) (h : s.Inv) (hc : lol = true ∨
      (1 ≤ s.fld Reg.tsbFail 3 0 ∧ s.fld Reg.tsbFail 3 0 ≤ (s.tlane i).noComma) ∨
      (1 ≤ s.fld Reg.tsbFail 8 4 ∧ s.fld Reg.tsbFail 8 4 ≤ ((s.tlane i).hist.filter id).length)) :
    exec (.timingLaneFailure i lol) s =
      .next ((s.laneFails i lol).swapIf (decide (i.val = s.activeLane) && s.qualified (1 - i.val))) := by
  have hq : (s.laneFails i lol).qualified (1 - i.val) = s.qualified (1 - i.val) :=
    State.qualified_laneFails_of_ne h i.isLt (by omega) lol
  rw [← hq, ← State.activeLane_laneFails h i.isLt lol]
  show execTimingLaneFailure i lol s = _
  rw [execTimingLaneFailure, if_pos]
  · rfl
  · simp only [Bool.or_eq_true, decide_eq_true_eq]
    tauto

theorem exec_failover {c : Nat} (hc : s.tsb.swapDue = some c) (h : c < s.tsb.cx) (h0 : s.tsb.slot = 0) : exec .failover s = .next s.failsOver := by
  show execFailover s = _
  simp only [execFailover, hc]
  rw [if_neg (by omega)]
  rfl

theorem exec_timingLaneQualify_not {i : Fin 2} {n : Int} (h : s.rbit (Reg.tlnStatus i) 7 = false ∨ (s.tlane i).clean < 256 ∨
      1 < ((s.tlane i).hist.filter id).length ∨ 2 < n.natAbs) :
    exec (.timingLaneQualify i n) s = .next (s.setQualified i false) := by
  show execTimingLaneQualify i n s = _
  rw [execTimingLaneQualify, if_pos]
  · rfl
  · simp only [Bool.or_eq_true, Bool.not_eq_true', decide_eq_true_eq]
    tauto

/-- The conditions of R45. -/
structure MeetsR45 (s : State) (i : Nat) (n : Int) : Prop where
  locked : s.rbit (Reg.tlnStatus i) 7 = true
  clean : 256 ≤ (s.tlane i).clean
  hist : ((s.tlane i).hist.filter id).length ≤ 1
  edge : n.natAbs ≤ 2

theorem MeetsR45.cond {i : Nat} {n : Int} (h : MeetsR45 s i n) : ¬((!s.rbit (Reg.tlnStatus i) 7 || decide ((s.tlane i).clean < 256) ||
    decide (1 < ((s.tlane i).hist.filter id).length) || decide (2 < n.natAbs)) = true) := by
  obtain ⟨h1, h2, h3, h4⟩ := h
  simp only [h1, Bool.not_true, Bool.false_or, Bool.or_eq_true, decide_eq_true_eq]
  omega

theorem exec_timingLaneQualify_active {i : Fin 2} {n : Int} (hi : s.Inv) (h : MeetsR45 s i n) (ha : i.val = s.activeLane) :
    exec (.timingLaneQualify i n) s = .next (s.laneQualifies i) := by
  show execTimingLaneQualify i n s = _
  rw [execTimingLaneQualify, if_neg h.cond]
  exact if_pos (ha.trans (State.activeLane_laneQualifies hi i).symm)

theorem exec_timingLaneQualify_standby {i : Fin 2} {n : Int} (hi : s.Inv) (h : MeetsR45 s i n) (ha : i.val ≠ s.activeLane) :
    exec (.timingLaneQualify i n) s = .next ((s.standbyQualifies i).swapIf ((s.standbyQualifies i).takesOver i)) := by
  show execTimingLaneQualify i n s = _
  rw [execTimingLaneQualify, if_neg h.cond]
  exact if_neg (fun e => ha (e.trans (State.activeLane_laneQualifies hi i)))

end
end Machine

/-! ### The statements of O11 -/

section
variable {s : State}

/-- TIMING_LANE_FAILURE (R44, R46). -/
theorem timingLaneFailure_fails (h : s.Inv) (i : Fin 2) (lol : Bool) (hc : lol = true ∨
      (1 ≤ s.fld Reg.tsbFail 3 0 ∧ s.fld Reg.tsbFail 3 0 ≤ (s.tlane i).noComma) ∨
      (1 ≤ s.fld Reg.tsbFail 8 4 ∧ s.fld Reg.tsbFail 8 4 ≤ ((s.tlane i).hist.filter id).length)) :
    Completes (.timingLaneFailure i lol) s (fun t =>
      t.qualified i = false ∧ (t.tlane i).failed = true ∧ t.tlane (1 - i) = s.tlane (1 - i) ∧
      (i.val = s.activeLane → s.qualified (1 - i) = true → t.tsb.swapDue ≠ none) ∧ t.activeLane = s.activeLane ∧
      CountKept s t ∧ BytesKept s t ∧ RegsKept [Reg.tsbStatus, Reg.tlnStatus i, Reg.tlnErrcnt i] s t) := by
  have he := exec_timingLaneFailure i lol h hc
  refine .intro he ⟨?_, ?_, ?_, fun ha hq => ?_, ?_, .of_exec rfl he, .of_mem (by simp), fun a ha => ?_⟩
  · rw [State.qualified_swapIf, State.qualified_laneFails_self h i.isLt]
  · rw [State.tlane_swapIf, State.tlane_laneFails, State.tlane_setTlane_self]
  · rw [State.tlane_swapIf, State.tlane_laneFails, State.tlane_setTlane_of_ne _ i.isLt (by omega) (by omega)]
  · rw [decide_eq_true ha, hq]
    exact State.swapDue_swapIf
  · rw [State.activeLane_swapIf, State.activeLane_laneFails h i.isLt]
  · rw [State.reg_swapIf]
    exact State.laneFails_kept h i lol a ha

/-- FAILOVER at the crossing boundary (R46). -/
theorem failover_changes (h : s.Inv) (c : Nat) (hc : s.tsb.swapDue = some c) (hx : c < s.tsb.cx) (h0 : s.tsb.slot = 0) :
    Completes .failover s (fun t => t.activeLane = 1 - s.activeLane ∧ t.rbit Reg.tsbStatus 12 = true ∧ t.tsb.swapDue = none ∧
      CountKept s t ∧ BytesKept s t ∧ RegsKept [Reg.tsbStatus, Reg.glbFault, Reg.tsbAbOffset] s t) := by
  have he := exec_failover hc hx h0
  have hw := State.failsOver_writes h
  refine .intro he ⟨?_, ?_, s.failsOver_swapDue, .of_exec rfl he, .of_mem s.failsOver_mem, ?_⟩
  · rw [hw.activeLane (by decide), State.activeLane_changeOver h]
  · rw [hw.rbit 12 (by decide), State.rbit_changeOver h]
  · exact ((State.changeOver_writes h).trans_append hw).regsKept

/-- A swap called for while the standby lane is not qualified (R48). -/
theorem tsbSwap_refused (h : s.Inv) (hq : s.qualified (1 - s.activeLane) = false) :
    Completes .tsbSwap s (fun t => t.rbit Reg.tsbStatus 18 = true ∧
      (∀ i, i ≠ 18 → t.rbit Reg.tsbStatus i = s.rbit Reg.tsbStatus i) ∧ RegsKept [Reg.tsbStatus] s t ∧ t = { s with regs := t.regs }) := by
  have he : exec .tsbSwap s = .next (s.setBit Reg.tsbStatus 18 true) := by
    show (s.tsbSwap).go = _
    rw [State.tsbSwap, hq]; rfl
  exact .intro he ⟨State.rbit_setBit_self h _ _ (by decide), fun _ hi => State.rbit_setBit_of_ne_bit h _ _ hi,
    ((WritesOnly.refl h).setBit 18 true (List.mem_cons_self ..)).regsKept, rfl⟩

/-- A swap called for while the standby lane is qualified (R48). -/
theorem tsbSwap_called (hq : s.qualified (1 - s.activeLane) = true) :
    Completes .tsbSwap s (fun t => t.tsb.swapDue ≠ none ∧ t = { s with tsb := { s.tsb with swapDue := t.tsb.swapDue } }) := by
  have he : exec .tsbSwap s = .next s.callSwap := by
    show (s.tsbSwap).go = _
    rw [State.tsbSwap, hq]; rfl
  exact .intro he ⟨State.swapDue_callSwap, State.callSwap_rest⟩

/-- TIMING_LANE_QUALIFY of a lane that meets the conditions of R45. -/
theorem timingLaneQualify_qualifies (h : s.Inv) (i : Fin 2) (n : Int) (hq : MeetsR45 s i n) :
    Completes (.timingLaneQualify i n) s (fun t =>
      t.qualified i = true ∧ (t.tlane i).failed = false ∧ t.activeLane = s.activeLane ∧
      (i.val ≠ s.activeLane → (s.tlane s.activeLane).failed = false → (i.val = 1 ∨ s.rbit Reg.tsbCtrl 8 = false) →
        t.tsb.swapDue = s.tsb.swapDue) ∧
      (i.val ≠ s.activeLane → ((s.tlane s.activeLane).failed = true ∨ (i.val = 0 ∧ s.rbit Reg.tsbCtrl 8 = true)) → t.tsb.swapDue ≠ none) ∧
      CountKept s t ∧ BytesKept s t ∧ RegsKept [Reg.tsbStatus, Reg.tlnStatus i, Reg.tsbAbOffset] s t) := by
  have hw := State.laneQualifies_writes h i
  by_cases ha : i.val = s.activeLane
  · have he := exec_timingLaneQualify_active h hq ha
    exact .intro he ⟨State.qualified_laneQualifies h i.isLt, State.tlane_laneQualifies_self i.val, State.activeLane_laneQualifies h i,
      fun hn => absurd ha hn, fun hn => absurd ha hn, .of_exec rfl he, .of_mem (by simp [State.laneQualifies, State.setQualified]),
      (hw.also [Reg.tsbAbOffset]).regsKept⟩
  · have he := exec_timingLaneQualify_standby h hq ha
    have hm := State.standbyQualifies_measured h i
    have hs := State.standbyQualifies_writes h i
    have hal : (s.standbyQualifies i).activeLane = s.activeLane :=
      (hm.activeLane (by decide)).trans (State.activeLane_laneQualifies h i)
    have hto : (s.standbyQualifies i).takesOver i = ((s.tlane s.activeLane).failed || (decide (i.val = 0) && s.rbit Reg.tsbCtrl 8)) := by
      rw [State.takesOver, hal, State.tlane_standbyQualifies, State.tlane_laneQualifies_of_ne i.isLt s.activeLane_lt (Ne.symm ha),
        hs.rbit 8 (by simp [(tlnStatus_ne_tsbCtrl i.isLt).symm, show Reg.tsbCtrl ≠ Reg.tsbStatus by decide, show Reg.tsbCtrl ≠ Reg.tsbAbOffset by decide])]
    refine .intro he ⟨?_, ?_, ?_, fun _ hf hr => ?_, fun _ hf => ?_, .of_exec rfl he, .of_mem ?_, fun a hn => ?_⟩
    · rw [State.qualified_swapIf, hm.qualified (by decide), State.qualified_laneQualifies h i.isLt]
    · rw [State.tlane_swapIf, State.tlane_standbyQualifies, State.tlane_laneQualifies_self]
    · rw [State.activeLane_swapIf, hal]
    · have : (s.standbyQualifies i).takesOver i = false := by
        rw [hto, hf, Bool.false_or]
        obtain h1 | h1 := hr
        · simp [h1]
        · simp [h1]
      rw [this]
      show (s.standbyQualifies i).tsb.swapDue = _
      rw [State.standbyQualifies, State.measureOffset_tsb]
      exact State.swapDue_setTlane ..
    · have : (s.standbyQualifies i).takesOver i = true := by simpa [hto] using hf
      rw [this]
      exact State.swapDue_swapIf
    · simp [State.standbyQualifies, State.laneQualifies, State.setQualified]
    · rw [State.reg_swapIf, hs.kept a hn]

/-- TIMING_LANE_QUALIFY of a lane that misses one of the conditions of R45. -/
theorem timingLaneQualify_disqualifies (h : s.Inv) (i : Fin 2) (n : Int) (hq : s.rbit (Reg.tlnStatus i) 7 = false ∨ (s.tlane i).clean < 256 ∨
      1 < ((s.tlane i).hist.filter id).length ∨ 2 < n.natAbs) :
    Completes (.timingLaneQualify i n) s (fun t =>
      t.qualified i = false ∧ RegsKept [Reg.tsbStatus, Reg.tlnStatus i] s t ∧ t = { s with regs := t.regs }) :=
  .intro (exec_timingLaneQualify_not hq) ⟨State.qualified_setQualified_self h _ i.isLt,
    (State.setQualified_writes (.refl h) i false (by simp) (by simp)).regsKept, rfl⟩

end

/-- Settles O11: what each command does to the lane, to its qualification and to the change-over that is called for. -/
theorem timingLanesFailOverAndQualify : Obligations.TimingLanesFailOverAndQualify :=
  ⟨fun _ i lol h => timingLaneFailure_fails h i lol,
   fun _ h => ⟨failover_changes h, tsbSwap_called, tsbSwap_refused h⟩,
   fun _ i n h => ⟨fun h1 h2 h3 h4 => timingLaneQualify_qualifies h i n ⟨h1, h2, h3, h4⟩, timingLaneQualify_disqualifies h i n, rfl⟩⟩

end Sys2Proof
end

/-! ## Timing words and the commands without effect (R38 to R40, R47) -/
section
namespace Sys2Proof
open Sys2Proof.Machine

theorem satAdd_zero {max n : Nat} (h : n ≤ max) : satAdd max n 0 = n := if_pos h

namespace Machine.State
variable {s : State}

theorem fld_le (s : State) (a hi lo : Nat) : s.fld a hi lo ≤ 2 ^ (hi + 1 - lo) - 1 :=
  Nat.le_sub_one_of_lt (Nat.mod_lt _ (Nat.two_pow_pos _))

/-! ### What a word leaves on its lane -/

/-- The words of the active lane are counted while the count stands still (R45). -/
def wordBase (s : State) (i : Nat) : State :=
  if s.tsbState = .unlocked ∧ i = s.activeLane then { s with tsb := { s.tsb with pre := s.tsb.pre + 1 } } else s

/-- What the lane keeps of its words after one for crossing `k` (R44, R45, R47). -/
def laneAfter (s : State) (i k : Nat) (word : TimingChars) : TLane :=
  let t := s.tlane i
  let w := goodWord word
  { t with
    hist := (w.isNone :: t.hist).take 16
    noComma := if word.comma then 0 else min 15 (t.noComma + 1)
    clean := if word.comma then min 256 (t.clean + 1) else 0
    words := ((k, w) :: t.words).take 8
    orbitAt := match w with | some (c, _) => if bitsOf c 7 4 = 1 then some (s.wordBase i).laneTime else t.orbitAt | none => t.orbitAt }

/-- How many of the lane's last 16 words are bad, this one among them. -/
def badAfter (s : State) (i k : Nat) (word : TimingChars) : Nat := ((s.laneAfter i k word).hist.filter id).length

/-- The lane's status shows the word. -/
def wordShown (s : State) (i k : Nat) (word : TimingChars) : State :=
  ((((s.wordBase i).setTlane i (s.laneAfter i k word)).setBit (Reg.tlnStatus i) 7 true).setBit (Reg.tlnStatus i) 6 word.comma).setFld
    (Reg.tlnStatus i) 4 0 (s.badAfter i k word)

/-- A bad word counts. -/
def wordCounted (s : State) (i k : Nat) (word : TimingChars) : State :=
  if (goodWord word).isNone then (s.wordShown i k word).count (Reg.tlnErrcnt i) 31 16 else s.wordShown i k word

/-- A lane that misses a condition of R45 is no longer qualified. -/
def wordNoted (s : State) (i k : Nat) (word : TimingChars) : State :=
  if (s.wordCounted i k word).qualified i && (!word.comma || decide (1 < s.badAfter i k word)) then
    (s.wordCounted i k word).setQualified i false
  else s.wordCounted i k word

theorem wordBase_same (p : Nat → Prop) (h : s.Inv) (i : Nat) : WritesOnly p s (s.wordBase i) :=
  .ite ((WritesOnly.refl h).setTsb _) (.refl h)

theorem wordShown_writes (h : s.Inv) (i k : Nat) (word : TimingChars) : WritesOnly (· ∈ [Reg.tlnStatus i]) s (s.wordShown i k word) :=
  (((setTlane_writes (wordBase_same _ h i) i _).setBit 7 true (by simp)).setBit 6 _ (by simp)).setFld 4 0 _ (by simp)

theorem wordCounted_writes (h : s.Inv) (i k : Nat) (word : TimingChars) :
    WritesOnly (· ∈ [Reg.tlnStatus i, Reg.tlnErrcnt i]) s (s.wordCounted i k word) :=
  have h1 := (wordShown_writes h i k word).also [Reg.tlnErrcnt i]
  .ite (h1.count 31 16 1 (by simp)) h1

theorem wordNoted_writes (h : s.Inv) (i k : Nat) (word : TimingChars) :
    WritesOnly (· ∈ [Reg.tlnStatus i, Reg.tlnErrcnt i, Reg.tsbStatus]) s (s.wordNoted i k word) :=
  have h1 := (wordCounted_writes h i k word).also [Reg.tsbStatus]
  .ite (setQualified_writes h1 i false (by simp) (by simp)) h1

/-- A bad word, and no other, counts on its lane (R44). -/
theorem errcnt_wordNoted (h : s.Inv) {i : Nat} (hi : i < 2) (k : Nat) (word : TimingChars) : (s.wordNoted i k word).fld (Reg.tlnErrcnt i) 31 16 =
    satAdd 65535 (s.fld (Reg.tlnErrcnt i) 31 16) (if goodWord word = none then 1 else 0) := by
  have hs := wordShown_writes h i k word
  have hc := wordCounted_writes h i k word
  have hq : WritesOnly (· ∈ [Reg.tlnStatus i, Reg.tsbStatus]) (s.wordCounted i k word) (s.wordNoted i k word) :=
    .ite (setQualified_writes (.refl hc.inv) i false (by simp) (by simp)) (.refl hc.inv)
  rw [hq.fld _ _ (by simp [tlnErrcnt_ne_tlnStatus, tlnErrcnt_ne_tsbStatus hi]), ← hs.fld 31 16 (by simp [tlnErrcnt_ne_tlnStatus])]
  cases hw : goodWord word
  · simp only [wordCounted, hw, Option.isNone_none, if_true]
    exact fld_count_self hs.inv _ _ (by decide)
  · simp only [wordCounted, hw, Option.isNone_some, reduceCtorEq, if_false, Bool.false_eq_true]
    exact (satAdd_zero (fld_le ..)).symm

/-- Of Touchstone's own state a word changes its lane and the time base of the offset only. -/
theorem wordNoted_tsb (s : State) (i k : Nat) (word : TimingChars) :
    (s.wordNoted i k word).tsb = ((s.wordBase i).setTlane i (s.laneAfter i k word)).tsb := by
  unfold wordNoted wordCounted
  split <;> split <;> rfl

theorem wordNoted_mem (s : State) (i k : Nat) (word : TimingChars) : (s.wordNoted i k word).mem = s.mem := by
  have hb : (s.wordBase i).mem = s.mem := by unfold wordBase; split <;> rfl
  rw [← hb, ← setTlane_mem (s := s.wordBase i) i (s.laneAfter i k word)]
  unfold wordNoted wordCounted
  split <;> split <;> rfl

theorem wordNoted_lists (s : State) (i k : Nat) (word : TimingChars) : (s.wordNoted i k word).tsb.decided = s.tsb.decided ∧
    (s.wordNoted i k word).tsb.awaiting = s.tsb.awaiting ∧ (s.wordNoted i k word).tsb.orbitDue = s.tsb.orbitDue := by
  rw [wordNoted_tsb]
  unfold wordBase setTlane
  split <;> split <;> exact ⟨rfl, rfl, rfl⟩

theorem tlane_wordBase (s : State) (i j : Nat) : (s.wordBase i).tlane j = s.tlane j := by unfold wordBase; split <;> rfl

theorem tlane_wordNoted_of_ne {i j : Nat} (hi : i < 2) (hj : j < 2) (h : j ≠ i) (k : Nat) (word : TimingChars) :
    (s.wordNoted i k word).tlane j = s.tlane j := by
  rw [← tlane_wordBase s i j, ← tlane_setTlane_of_ne (s := s.wordBase i) (s.laneAfter i k word) hi hj h]
  simp only [tlane, wordNoted_tsb]

theorem failed_wordNoted {i j : Nat} (hi : i < 2) (hj : j < 2) (k : Nat) (word : TimingChars) :
    ((s.wordNoted i k word).tlane j).failed = (s.tlane j).failed := by
  by_cases h : j = i
  · subst h
    have : (s.wordNoted j k word).tlane j = s.laneAfter j k word := by
      rw [← tlane_setTlane_self (s := s.wordBase j) j (s.laneAfter j k word)]
      simp only [tlane, wordNoted_tsb]
    rw [this]; rfl
  · rw [tlane_wordNoted_of_ne hi hj h]

theorem activeLane_wordNoted (h : s.Inv) {i : Nat} (hi : i < 2) (k : Nat) (word : TimingChars) :
    (s.wordNoted i k word).activeLane = s.activeLane := by
  have hc := wordCounted_writes h i k word
  rw [← hc.activeLane (not_mem_laneRegs hi), wordNoted]
  split
  · exact activeLane_setQualified hc.inv i false
  · rfl

theorem qualified_wordNoted_of_ne (h : s.Inv) {i j : Nat} (hi : i < 2) (hj : j ≠ i) (k : Nat) (word : TimingChars) :
    (s.wordNoted i k word).qualified j = s.qualified j := by
  have hc := wordCounted_writes h i k word
  rw [← hc.qualified (not_mem_laneRegs hi), wordNoted]
  split
  · exact qualified_setQualified_of_ne hc.inv false hj
  · rfl

theorem activeUsed_wordNoted (h : s.Inv) {i : Nat} (hi : i < 2) (k : Nat) (word : TimingChars) :
    (s.wordNoted i k word).activeUsed = s.activeUsed := by
  have hw := wordNoted_writes h i k word
  have hn : Reg.tsbCtrl ∉ [Reg.tlnStatus i, Reg.tlnErrcnt i, Reg.tsbStatus] := by
    simp [(tlnStatus_ne_tsbCtrl hi).symm, (tlnErrcnt_ne_tsbCtrl hi).symm, show Reg.tsbCtrl ≠ Reg.tsbStatus by decide]
  rw [activeUsed, hw.cxTiming hn, activeLane_wordNoted h hi, failed_wordNoted hi s.activeLane_lt, activeUsed]

/-- After a good word a lane with at most one bad word in 15 before it stays as qualified as it was, and only its status is written. -/
theorem wordNoted_good (h : s.Inv) {i k : Nat} {word : TimingChars} {v : Byte × Byte} (hg : goodWord word = some v)
    (hh : (((s.tlane i).hist.take 15).filter id).length ≤ 1) :
    WritesOnly (· ∈ [Reg.tlnStatus i]) s (s.wordNoted i k word) ∧ (s.wordNoted i k word).qualified i = s.qualified i := by
  have hc : word.comma = true := by
    cases hw : word.comma
    · simp [goodWord, hw] at hg
    · rfl
  have hb : s.badAfter i k word ≤ 1 := by
    simpa [badAfter, laneAfter, hg] using hh
  have hq : s.wordNoted i k word = s.wordShown i k word := by
    have : (decide (1 < s.badAfter i k word)) = false := decide_eq_false (by omega)
    simp [wordNoted, wordCounted, hg, hc, this]
  have hs := wordShown_writes h i k word
  rw [hq]
  exact ⟨hs, hs.qualified (by simp [(tlnStatus_ne_tsbStatus i).symm]) i⟩

/-! ### The word decided for a crossing -/

/-- Touchstone's own state once the word of crossing `k` is decided (R39). -/
def decidedTsb (x : Tsb) (k : Nat) (w : Byte × Byte) : Tsb :=
  { x with decided := x.decided ++ [(k, w)], awaiting := x.awaiting.filter (· != k),
           orbitDue := if bitsOf w.1 7 4 = 1 then some (k, w.2) else x.orbitDue }

theorem decide_eq_setTsb {k : Nat} (w : Byte × Byte) (h : ∀ d ∈ s.tsb.decided, d.1 ≠ k) : s.decide_ k w = s.setTsb (decidedTsb s.tsb k w) := by
  have : ¬(s.tsb.decided.any (fun d => d.1 == k)) = true := by
    simp only [List.any_eq_true, beq_iff_eq, not_exists, not_and]
    exact h
  rw [decide_, if_neg this]; rfl

theorem decide_writes {p : Nat → Prop} {t : State} (h : WritesOnly p s t) (k : Nat) (w : Byte × Byte) : WritesOnly p s (t.decide_ k w) :=
  .ite h (h.setTsb _)

@[simp] theorem decide_mem (k : Nat) (w : Byte × Byte) : (s.decide_ k w).mem = s.mem := by unfold decide_; split <;> rfl
@[simp] theorem reg_decide (k : Nat) (w : Byte × Byte) (a : Nat) : (s.decide_ k w).reg a = s.reg a := by unfold decide_; split <;> rfl

end Machine.State

/-! ### TIMING_WORD -/

/-- What follows the book-keeping `u` of a word on the active lane: `x` is its good word where that is used, `y` the standby lane's where that
is qualified (R47). -/
def activeDecides (u : State) (k : Nat) (o : TLane) (x y : Option (Byte × Byte)) : State :=
  match x, y with
  | some v, _ => (if (o.wordFor k).any (fun z => z != v) then u.count Reg.tsbAbMismatch 31 0 else u).decide_ k v
  | none, some v => (u.count Reg.tsbSubstCnt 31 0).decide_ k v
  | none, none => u.setTsb { u.tsb with awaiting := u.tsb.awaiting ++ [k] }

section
variable {s : State} {i : Fin 2} {k : Nat}

theorem exec_timingWord_active (word : TimingChars) (h : s.Inv) (ha : i.val = s.activeLane) (hk : k = ((s.tsb.cx : Int) + s.laneOffset i).toNat) :
    exec (.timingWord i word) s = .next (activeDecides (s.wordNoted i k word) k (s.tlane (1 - i.val))
      (if s.activeUsed then goodWord word else none) (if s.qualified (1 - i.val) then (s.tlane (1 - i.val)).wordFor k else none)) := by
  subst hk
  rw [← State.activeUsed_wordNoted h i.isLt _ word, ← State.tlane_wordNoted_of_ne i.isLt (by omega) (by omega) _ word,
    ← State.qualified_wordNoted_of_ne h i.isLt (by omega) _ word]
  show execTimingWord i word s = _
  refine (if_pos (ha.trans (State.activeLane_wordNoted h i.isLt _ word).symm)).trans ?_
  dsimp only
  split
  next v hx => 
    have hx : (if (s.wordNoted i _ word).activeUsed then goodWord word else none) = some v := hx
    rw [hx]; rfl
  next hx =>
    have hx : (if (s.wordNoted i _ word).activeUsed then goodWord word else none) = none := hx
    rw [hx]
    split
    next v hy =>
      have hy : (if (s.wordNoted i _ word).qualified (1 - i.val) then ((s.wordNoted i _ word).tlane (1 - i.val)).wordFor _ else none) = some v := hy
      rw [hy]; rfl
    next hy =>
      have hy : (if (s.wordNoted i _ word).qualified (1 - i.val) then ((s.wordNoted i _ word).tlane (1 - i.val)).wordFor _ else none) = none := hy
      rw [hy]; rfl

theorem exec_timingWord_standby {word : TimingChars} {v : Byte × Byte} (h : s.Inv) (ha : i.val = 1 - s.activeLane)
    (hk : k = ((s.tsb.cx : Int) + s.laneOffset i).toNat) (hd : ∀ d ∈ s.tsb.decided, d.1 ≠ k) (hg : goodWord word = some v)
    (hq : s.qualified i = true) (hh : (((s.tlane i).hist.take 15).filter id).length ≤ 1)
    (hw : k ∈ s.tsb.awaiting ∨ s.rbit (Reg.tlnStatus s.activeLane) 7 = false) :
    exec (.timingWord i word) s = .next (((s.wordNoted i k word).count Reg.tsbSubstCnt 31 0).decide_ k v) := by
  have hal := s.activeLane_lt
  obtain ⟨hu, huq⟩ := State.wordNoted_good (k := k) h hg hh
  obtain ⟨hud, hua, -⟩ := State.wordNoted_lists s i k word
  have hr : (s.wordNoted i k word).rbit (Reg.tlnStatus (s.wordNoted i k word).activeLane) 7 = s.rbit (Reg.tlnStatus s.activeLane) 7 := by
    rw [State.activeLane_wordNoted h i.isLt, hu.rbit 7 (by rw [List.mem_singleton, tlnStatus_inj]; omega)]
  have hc : ((s.wordNoted i k word).qualified i && (decide (k ∈ (s.wordNoted i k word).tsb.awaiting) ||
      (!(s.wordNoted i k word).rbit (Reg.tlnStatus (s.wordNoted i k word).activeLane) 7 &&
        !(s.wordNoted i k word).tsb.decided.any (fun d => d.1 == k)))) = true := by
    have hn : s.tsb.decided.any (fun d => d.1 == k) = false := by simpa using hd
    rw [huq, hq, hr, hud, hua, hn]
    simpa using hw
  subst hk
  show execTimingWord i word s = _
  refine (if_neg (fun e => ?_)).trans ?_
  · have := e.trans (State.activeLane_wordNoted h i.isLt _ word)
    omega
  · dsimp only
    split
    next v' hv' =>
      obtain rfl : v = v' := Option.some.inj (hg.symm.trans hv')
      exact if_pos hc
    next hn => exact absurd (hg.symm.trans hn) (Option.some_ne_none v)

/-! ### What the decision leaves -/

variable {u : State}

theorem activeDecides_writes (h : u.Inv) (o : TLane) (x y : Option (Byte × Byte)) :
    WritesOnly (· ∈ [Reg.tsbSubstCnt, Reg.tsbAbMismatch]) u (activeDecides u k o x y) := by
  have h0 := WritesOnly.refl (p := (· ∈ [Reg.tsbSubstCnt, Reg.tsbAbMismatch])) h
  unfold activeDecides
  split
  · exact State.decide_writes (.ite (h0.count 31 0 1 (by simp)) h0) k _
  · exact State.decide_writes (h0.count 31 0 1 (by simp)) k _
  · exact h0.setTsb _

theorem activeDecides_mem (o : TLane) (x y : Option (Byte × Byte)) : (activeDecides u k o x y).mem = u.mem := by
  unfold activeDecides
  split
  · rw [State.decide_mem]; split <;> rfl
  · rw [State.decide_mem]; rfl
  · rfl

end

/-- What a decision for crossing `k` leaves of Touchstone's own state. -/
def Decides (s t : State) (k : Nat) (v : Byte × Byte) : Prop :=
  (k, v) ∈ t.tsb.decided ∧ k ∉ t.tsb.awaiting ∧ t.tsb.orbitDue = (if bitsOf v.1 7 4 = 1 then some (k, v.2) else s.tsb.orbitDue)

theorem decides_of_decide {s u : State} {k : Nat} (v : Byte × Byte) (hd : ∀ d ∈ s.tsb.decided, d.1 ≠ k) (h1 : u.tsb.decided = s.tsb.decided)
    (h2 : u.tsb.orbitDue = s.tsb.orbitDue) : Decides s (u.decide_ k v) k v := by
  rw [State.decide_eq_setTsb v (by rw [h1]; exact hd)]
  refine ⟨List.mem_append_right _ (List.mem_singleton.2 rfl), fun hm => ?_, ?_⟩
  · exact absurd (List.mem_filter.1 hm).2 (by simp)
  · show (if _ then _ else u.tsb.orbitDue) = _
    rw [h2]

section
variable {s u : State} {k : Nat}

/-- The active lane's own word is used; the standby lane's that differs is counted (R39). -/
theorem decided_used (h : u.Inv) (hd : ∀ d ∈ s.tsb.decided, d.1 ≠ k) (h1 : u.tsb.decided = s.tsb.decided) (h2 : u.tsb.orbitDue = s.tsb.orbitDue)
    (hr : ∀ j, u.reg (Reg.tsbCnt j) = s.reg (Reg.tsbCnt j)) (o : TLane) (v : Byte × Byte) (y : Option (Byte × Byte)) :
    Decides s (activeDecides u k o (some v) y) k v ∧ (activeDecides u k o (some v) y).reg Reg.tsbSubstCnt = s.reg Reg.tsbSubstCnt ∧
      (activeDecides u k o (some v) y).fld Reg.tsbAbMismatch 31 0 =
        satAdd (2 ^ 32 - 1) (s.fld Reg.tsbAbMismatch 31 0) (if o.wordFor k = none ∨ o.wordFor k = some v then 0 else 1) := by
  have hf : u.fld Reg.tsbAbMismatch 31 0 = s.fld Reg.tsbAbMismatch 31 0 := congrArg (bitsOf · 31 0) (hr 2)
  have hc : u.reg Reg.tsbSubstCnt = s.reg Reg.tsbSubstCnt := hr 0
  have h0 : satAdd (2 ^ 32 - 1) (s.fld Reg.tsbAbMismatch 31 0) 0 = s.fld Reg.tsbAbMismatch 31 0 := satAdd_zero (State.fld_le ..)
  have he : (o.wordFor k).any (fun z => z != v) = true ↔ ¬(o.wordFor k = none ∨ o.wordFor k = some v) := by
    cases o.wordFor k <;> simp
  by_cases hz : (o.wordFor k).any (fun z => z != v) = true
  · have ht : activeDecides u k o (some v) y = (u.count Reg.tsbAbMismatch 31 0).decide_ k v := congrArg (State.decide_ · k v) (if_pos hz)
    rw [ht, if_neg (he.1 hz), ← hf]
    refine ⟨decides_of_decide v hd h1 h2, ?_, ?_⟩
    · rw [State.reg_decide, State.reg_count_of_ne h _ _ _ (by decide), hc]
    · simp only [State.fld, State.reg_decide]
      exact State.fld_count_self h _ _ (by decide)
  · have ht : activeDecides u k o (some v) y = u.decide_ k v := congrArg (State.decide_ · k v) (if_neg hz)
    rw [ht, if_pos (not_not.1 (fun n => hz (he.2 n))), h0, ← hf]
    refine ⟨decides_of_decide v hd h1 h2, ?_, ?_⟩
    · rw [State.reg_decide, hc]
    · simp only [State.fld, State.reg_decide]

/-- A standby lane's word is used, and counted (R47). -/
theorem decided_substituted (h : u.Inv) (hd : ∀ d ∈ s.tsb.decided, d.1 ≠ k) (h1 : u.tsb.decided = s.tsb.decided) (h2 : u.tsb.orbitDue = s.tsb.orbitDue)
    (hr : u.reg Reg.tsbSubstCnt = s.reg Reg.tsbSubstCnt) (v : Byte × Byte) :
    Decides s ((u.count Reg.tsbSubstCnt 31 0).decide_ k v) k v ∧
      ((u.count Reg.tsbSubstCnt 31 0).decide_ k v).fld Reg.tsbSubstCnt 31 0 = satAdd (2 ^ 32 - 1) (s.fld Reg.tsbSubstCnt 31 0) 1 := by
  refine ⟨decides_of_decide v hd h1 h2, ?_⟩
  have hf : u.fld Reg.tsbSubstCnt 31 0 = s.fld Reg.tsbSubstCnt 31 0 := by simp only [State.fld, hr]
  rw [← hf]
  simp only [State.fld, State.reg_decide]
  exact State.fld_count_self h _ _ (by decide)

end

section
variable {s : State} {i : Fin 2} {word : TimingChars} {k : Nat}

theorem tsbCnt_not_mem (i : Fin 2) (j : Nat) : Reg.tsbCnt j ∉ [Reg.tlnStatus i, Reg.tlnErrcnt i, Reg.tsbStatus] := by
  simp [tsbCnt_ne_tlnStatus i.isLt, tsbCnt_ne_tlnErrcnt i.isLt, tsbCnt_ne_tsbStatus]

theorem timingWord_active (h : s.Inv) (ha : i.val = s.activeLane) (hk : k = ((s.tsb.cx : Int) + s.laneOffset i).toNat)
    (hd : ∀ d ∈ s.tsb.decided, d.1 ≠ k) : Completes (.timingWord i word) s (fun t =>
      CountKept s t ∧ BytesKept s t ∧
      RegsKept [Reg.tlnStatus i, Reg.tlnErrcnt i, Reg.tsbStatus, Reg.tsbSubstCnt, Reg.tsbAbMismatch] s t ∧
      t.fld (Reg.tlnErrcnt i) 31 16 = satAdd 65535 (s.fld (Reg.tlnErrcnt i) 31 16) (if goodWord word = none then 1 else 0) ∧
      match (if s.activeUsed then goodWord word else none), (s.tlane (1 - i)).wordFor k, s.qualified (1 - i) with
      | some v, o, _ => (k, v) ∈ t.tsb.decided ∧ t.tsb.orbitDue = (if bitsOf v.1 7 4 = 1 then some (k, v.2) else s.tsb.orbitDue) ∧
          (t.reg Reg.tsbSubstCnt = s.reg Reg.tsbSubstCnt) ∧
          t.fld Reg.tsbAbMismatch 31 0 = satAdd (2 ^ 32 - 1) (s.fld Reg.tsbAbMismatch 31 0) (if o = none ∨ o = some v then 0 else 1)
      | none, some v, true => (k, v) ∈ t.tsb.decided ∧
          t.tsb.orbitDue = (if bitsOf v.1 7 4 = 1 then some (k, v.2) else s.tsb.orbitDue) ∧
          t.fld Reg.tsbSubstCnt 31 0 = satAdd (2 ^ 32 - 1) (s.fld Reg.tsbSubstCnt 31 0) 1
      | none, _, _ => t.tsb.decided = s.tsb.decided ∧ k ∈ t.tsb.awaiting) := by
  have he := exec_timingWord_active (i := i) word h ha hk
  have hw := State.wordNoted_writes h i k word
  have hx := activeDecides_writes (k := k) hw.inv (s.tlane (1 - i.val)) (if s.activeUsed then goodWord word else none)
    (if s.qualified (1 - i.val) then (s.tlane (1 - i.val)).wordFor k else none)
  obtain ⟨h1, -, h2⟩ := State.wordNoted_lists s i k word
  have hr : ∀ j, (s.wordNoted i k word).reg (Reg.tsbCnt j) = s.reg (Reg.tsbCnt j) := fun j => hw.kept _ (tsbCnt_not_mem i j)
  have hn : Reg.tlnErrcnt i ∉ [Reg.tsbSubstCnt, Reg.tsbAbMismatch] := by
    unfold Reg.tsbSubstCnt Reg.tsbAbMismatch
    simp [(tsbCnt_ne_tlnErrcnt i.isLt _).symm]
  refine .intro he ⟨.of_exec rfl he, .of_mem ((activeDecides_mem ..).trans (State.wordNoted_mem ..)), ?_, ?_, ?_⟩
  · exact (hw.trans_append hx).regsKept
  · rw [hx.fld _ _ hn, State.errcnt_wordNoted h i.isLt]
  · cases (if s.activeUsed then goodWord word else none) with
    | some v =>
      obtain ⟨⟨m1, -, m2⟩, m3, m4⟩ := decided_used hw.inv hd h1 h2 hr (s.tlane (1 - i.val)) v
        (if s.qualified (1 - i.val) then (s.tlane (1 - i.val)).wordFor k else none)
      exact ⟨m1, m2, m3, m4⟩
    | none =>
      have waits : k ∈ ((s.wordNoted i k word).tsb.awaiting ++ [k]) := List.mem_append_right _ (List.mem_singleton.2 rfl)
      cases (s.tlane (1 - i.val)).wordFor k with
      | none => cases s.qualified (1 - i.val) <;> exact ⟨h1, waits⟩
      | some v =>
        cases s.qualified (1 - i.val) with
        | false => exact ⟨h1, waits⟩
        | true =>
          obtain ⟨⟨m1, -, m2⟩, m3⟩ := decided_substituted hw.inv hd h1 h2 (hr 0) v
          exact ⟨m1, m2, m3⟩

theorem timingWord_standby {v : Byte × Byte} (h : s.Inv) (ha : i.val = 1 - s.activeLane) (hk : k = ((s.tsb.cx : Int) + s.laneOffset i).toNat)
    (hd : ∀ d ∈ s.tsb.decided, d.1 ≠ k) (hg : goodWord word = some v) (hq : s.qualified i = true)
    (hh : (((s.tlane i).hist.take 15).filter id).length ≤ 1) (hwt : k ∈ s.tsb.awaiting ∨ s.rbit (Reg.tlnStatus s.activeLane) 7 = false) :
    Completes (.timingWord i word) s (fun t =>
      CountKept s t ∧ BytesKept s t ∧ RegsKept [Reg.tlnStatus i, Reg.tsbSubstCnt] s t ∧ Decides s t k v ∧
      t.fld Reg.tsbSubstCnt 31 0 = satAdd (2 ^ 32 - 1) (s.fld Reg.tsbSubstCnt 31 0) 1) := by
  have he := exec_timingWord_standby h ha hk hd hg hq hh hwt
  have hw := (State.wordNoted_good (k := k) h hg hh).1
  obtain ⟨h1, -, h2⟩ := State.wordNoted_lists s i k word
  refine .intro he ⟨.of_exec rfl he, .of_mem ((State.decide_mem ..).trans (State.wordNoted_mem ..)), ?_,
    decided_substituted hw.inv hd h1 h2 (hw.kept _ (List.mem_singleton.not.2 (tsbCnt_ne_tlnStatus i.isLt 0))) v⟩
  have hw' : WritesOnly (· ∈ [Reg.tlnStatus i, Reg.tsbSubstCnt]) s (s.wordNoted i k word) := hw.also [Reg.tsbSubstCnt]
  exact (State.decide_writes (hw'.count 31 0 1 (by simp)) k v).regsKept

end

/-! ### NOP, TESTPULSE and the reserved codes (R40) -/

section
variable {s : State} {c p : Byte}

theorem exec_nop (hd : s.tsb.due = some (c, p)) (hc : bitsOf c 7 4 = 0) : exec .nop s = .next s.doneCmd := by
  show s.onCmd 0 (fun _ _ s => s) = _
  rw [State.onCmd, hd]; exact if_pos hc

theorem exec_testpulse (hd : s.tsb.due = some (c, p)) (hc : bitsOf c 7 4 = 4) : exec .testpulse s = .next s.doneCmd := by
  show s.onCmd 4 (fun _ _ s => s) = _
  rw [State.onCmd, hd]; exact if_pos hc

theorem exec_reservedCommand (hd : s.tsb.due = some (c, p)) (hc : 10 ≤ bitsOf c 7 4) :
    exec .reservedCommand s = .next (s.doneCmd.count Reg.tsbCmdUnknown 31 0) := by
  show execReservedCommand s = _
  rw [execReservedCommand, hd]; exact if_pos hc

theorem Machine.State.inv_doneCmd (h : s.Inv) : s.doneCmd.Inv := State.inv_setTsb _ h

theorem reservedCommand_counts (h : s.Inv) (hd : s.tsb.due = some (c, p)) (hc : 10 ≤ bitsOf c 7 4) :
    Completes .reservedCommand s (fun t =>
      t.fld Reg.tsbCmdUnknown 31 0 = satAdd (2 ^ 32 - 1) (s.fld Reg.tsbCmdUnknown 31 0) 1 ∧ RegsKept [Reg.tsbCmdUnknown] s t ∧
      t = { s with regs := t.regs, tsb := { s.tsb with due := none } }) :=
  .intro (exec_reservedCommand hd hc) ⟨State.fld_count_self (State.inv_doneCmd h) _ _ (by decide),
    (((WritesOnly.refl h).setTsb { s.tsb with due := none }).count 31 0 1 (List.mem_singleton.2 rfl)).regsKept, rfl⟩

end

/-- Settles O8: what the word leaves on its lane, then what is decided for its crossing; the idle commands by their code. -/
theorem timingWordsAndIdleCommands : Obligations.TimingWordsAndIdleCommands :=
  ⟨⟨fun _ _ _ _ h ha hk hd => timingWord_active h ha hk hd, fun _ _ _ _ _ h ha hk hd hg hq hh hw => by
      obtain ⟨t, he, hc, hb, hr, ⟨m1, m2, m3⟩, hf⟩ := timingWord_standby h ha hk hd hg hq hh hw
      exact ⟨t, he, hc, hb, hr, m1, m2, m3, hf⟩⟩,
    fun _ _ _ hd => ⟨exec_nop hd, exec_testpulse hd, fun hc h => reservedCommand_counts h hd hc⟩⟩

end Sys2Proof
end

/-! ## Orbit markers (R51 to R54) -/
section
namespace Sys2Proof
open Sys2Proof.Machine

namespace Machine.State
variable {s : State}

/-! ### The count at a marked crossing -/

theorem countFrom_eq (hl : 1 ≤ s.L) (k : Int) (o : BitVec 48) : s.countFrom k o = s.setTsb { s.tsb with
    crossing := (((s.tsb.cx : Int) - k) % s.L).toNat, orbit := o + BitVec.ofInt 48 (((s.tsb.cx : Int) - k) / s.L) } := by
  unfold countFrom
  rw [if_neg (show s.L ≠ 0 by omega)]; rfl

/-- The crossing that a marker sets is crossing 0 of the orbit number set with it. -/
theorem crossingPlus_countFrom (hl : 1 ≤ s.L) (k : Int) (o : BitVec 48) : (s.countFrom k o).crossingPlus (k - s.tsb.cx) = (o, 0) := by
  have hz : (s.L : Int) ≠ 0 := by omega
  have hx : ((((s.tsb.cx : Int) - k) % s.L).toNat : Int) + (k - s.tsb.cx) = (-(((s.tsb.cx : Int) - k) / s.L)) * s.L := by
    have h1 := Int.emod_add_mul_ediv ((s.tsb.cx : Int) - k) s.L
    rw [Int.toNat_of_nonneg (Int.emod_nonneg _ hz), Int.neg_mul, Int.mul_comm]
    omega
  have hL : ∀ y, (s.setTsb y).L = s.L := fun _ => rfl
  rw [countFrom_eq hl]
  simp only [crossingPlus, timePlus, hL, setTsb_tsb, if_neg (show s.L ≠ 0 by omega), hx, Int.mul_fdiv_cancel _ hz, Int.mul_fmod_left,
    BitVec.ofInt_neg, BitVec.add_assoc, BitVec.add_right_neg, BitVec.add_zero, Int.toNat_zero]

theorem crossingPlus_congr {t : State} (ho : t.tsb.orbit = s.tsb.orbit) (hc : t.tsb.crossing = s.tsb.crossing) (hL : t.L = s.L) (n : Int) :
    t.crossingPlus n = s.crossingPlus n := by
  simp only [crossingPlus, timePlus, ho, hc, hL]

/-! ### A marker sets the count -/

theorem countSet_start (h : s.tsbState = .locking) (k : Int) (p : Option Byte) :
    s.countSet k p = s.setTsb { (s.countFrom k s.orbitInit).tsb with est := some k.toNat, moveArmed := false } := by
  simp only [countSet, h, reduceCtorEq, decide_false, Bool.false_eq_true, if_false, Bool.false_and]
  rfl

/-! ### A marker in place -/

/-- Touchstone's own state after a marker in place: a COUNTER_RESET of the orbit number that waits takes effect (R67). -/
def inPlaceTsb (s : State) (k : Int) : Tsb :=
  { (if s.tsb.orbitReset then
      { s.tsb with orbit := s.tsb.orbit + (s.orbitInit - (s.crossingPlus (k - s.tsb.cx)).1), orbitReset := false }
    else s.tsb) with moveArmed := false }

theorem inPlace_eq (k : Int) (p : Option Byte) : s.inPlace k p = match p with
    | some b => if b.toNat ≠ ((s.setTsb (s.inPlaceTsb k)).crossingPlus (k - s.tsb.cx)).1.toNat % 256 then
        (s.setTsb (s.inPlaceTsb k)).count Reg.tsbOrbitNumErr 31 0 else s.setTsb (s.inPlaceTsb k)
    | none => s.setTsb (s.inPlaceTsb k) := by
  unfold inPlace inPlaceTsb
  cases s.tsb.orbitReset <;> rfl

theorem inPlace_tsb (k : Int) (p : Option Byte) : (s.inPlace k p).tsb = s.inPlaceTsb k := by
  rw [inPlace_eq]
  cases p with
  | none => rfl
  | some b => dsimp only; split <;> rfl

theorem inPlace_mem (k : Int) (p : Option Byte) : (s.inPlace k p).mem = s.mem := by
  rw [inPlace_eq]
  cases p with
  | none => rfl
  | some b => dsimp only; split <;> rfl

theorem inPlace_writes (h : s.Inv) (k : Int) (p : Option Byte) : WritesOnly (· ∈ [Reg.tsbOrbitNumErr]) s (s.inPlace k p) := by
  rw [inPlace_eq]
  have h0 := (WritesOnly.refl (p := (· ∈ [Reg.tsbOrbitNumErr])) h).setTsb (s.inPlaceTsb k)
  cases p with
  | none => exact h0
  | some b => exact .ite (h0.count 31 0 1 (List.mem_singleton.2 rfl)) h0

/-- What a marker in place adds to TSB_ORBIT_NUM_ERR: one where its payload is another than the orbit number that begins. -/
theorem numErr_inPlace (h : s.Inv) (k : Int) (p : Option Byte) :
    (s.inPlace k p).fld Reg.tsbOrbitNumErr 31 0 = satAdd (2 ^ 32 - 1) (s.fld Reg.tsbOrbitNumErr 31 0)
      (match p with | some b => if b.toNat = ((s.inPlace k p).crossingPlus (k - s.tsb.cx)).1.toNat % 256 then 0 else 1 | none => 0) := by
  have hL : (s.inPlace k p).L = s.L := (inPlace_writes h k p).L (List.mem_singleton.not.2 (by decide))
  have hq : (s.inPlace k p).crossingPlus (k - s.tsb.cx) = (s.setTsb (s.inPlaceTsb k)).crossingPlus (k - s.tsb.cx) :=
    crossingPlus_congr (s := s.setTsb (s.inPlaceTsb k)) (by rw [inPlace_tsb]; rfl) (by rw [inPlace_tsb]; rfl) hL _
  have h0 : satAdd (2 ^ 32 - 1) (s.fld Reg.tsbOrbitNumErr 31 0) 0 = s.fld Reg.tsbOrbitNumErr 31 0 := satAdd_zero (fld_le ..)
  rw [hq, inPlace_eq]
  cases p with
  | none => exact h0.symm
  | some b =>
    dsimp only
    by_cases hb : b.toNat = ((s.setTsb (s.inPlaceTsb k)).crossingPlus (k - s.tsb.cx)).1.toNat % 256
    · rw [if_neg (not_not.2 hb), if_pos hb]; exact h0.symm
    · rw [if_pos hb, if_neg hb]
      exact fld_count_self (inv_setTsb _ h) _ _ (by decide)

/-- Without a COUNTER_RESET that waits the count stands. -/
theorem inPlace_count (hr : s.tsb.orbitReset = false) (k : Int) (p : Option Byte) : CountKept s (s.inPlace k p) := by
  have : s.inPlaceTsb k = { s.tsb with moveArmed := false } := by simp [inPlaceTsb, hr]
  constructor <;> rw [inPlace_tsb, this]

/-- A COUNTER_RESET that waits makes the orbit that begins TSB_ORBIT_INIT (R67). -/
theorem crossingPlus_inPlace (h : s.Inv) (hr : s.tsb.orbitReset = true) (k : Int) (p : Option Byte) :
    (s.inPlace k p).crossingPlus (k - s.tsb.cx) = (s.orbitInit, (s.crossingPlus (k - s.tsb.cx)).2) := by
  have hL : (s.inPlace k p).L = s.L := (inPlace_writes h k p).L (List.mem_singleton.not.2 (by decide))
  simp only [crossingPlus, timePlus, inPlace_tsb, inPlaceTsb, hr, if_true, hL]
  refine Prod.ext ?_ rfl
  dsimp only
  generalize BitVec.ofInt 48 _ = x
  generalize s.orbitInit = y
  generalize s.tsb.orbit = z
  bv_omega

theorem orbitReset_inPlace (k : Int) (p : Option Byte) : (s.inPlace k p).tsb.orbitReset = false := by
  rw [inPlace_tsb, inPlaceTsb]
  cases h : s.tsb.orbitReset
  · exact h
  · rfl

/-! ### A misplaced marker -/

/-- A misplaced marker counted, with its time and the orbits in which it has come at its crossing (R52). -/
def misplacedNoted (s : State) (c : Nat) (o : BitVec 48) : State :=
  ((s.count Reg.tsbOrbitErrCnt 31 0).setReg Reg.tsbOrbitErrTime (BitVec.ofNat 32 (c * 65536 + o.toNat % 65536))).setTsb
    { s.tsb with slips := (c, o, slipLen s.tsb c o) :: s.tsb.slips.filter (fun e => e.1 != c && (e.2.1 == o || e.2.1 + 1 == o)) }

variable {c : Nat} {o : BitVec 48}

theorem misplacedNoted_writes (h : s.Inv) : WritesOnly (· ∈ [Reg.tsbOrbitErrCnt, Reg.tsbOrbitErrTime]) s (s.misplacedNoted c o) :=
  (((WritesOnly.refl h).count 31 0 1 (by simp)).setReg _ (by simp)).setTsb _

theorem reg_misplacedNoted (a : Nat) : (s.misplacedNoted c o).reg a =
    ((s.count Reg.tsbOrbitErrCnt 31 0).setReg Reg.tsbOrbitErrTime (BitVec.ofNat 32 (c * 65536 + o.toNat % 65536))).reg a := reg_setTsb _ _

theorem misplacedNoted_mem : (s.misplacedNoted c o).mem = s.mem := by
  rw [misplacedNoted, setTsb_mem, setReg_mem, count_mem]

theorem misplaced_eq (h : s.Inv) : s.misplaced c o = if 1 ≤ s.fld Reg.tsbFail 14 12 ∧ s.fld Reg.tsbFail 14 12 ≤ slipLen s.tsb c o then
    ((s.misplacedNoted c o).setBit Reg.tsbStatus 10 true).fault 1 else s.misplacedNoted c o := by
  have hf : (s.misplacedNoted c o).fld Reg.tsbFail 14 12 = s.fld Reg.tsbFail 14 12 := (misplacedNoted_writes h).fld _ _ (by decide)
  rw [← hf]; rfl

theorem misplaced_slip (h : s.Inv) : WritesOnly (· ∈ [Reg.tsbStatus, Reg.glbFault]) (s.misplacedNoted c o) (s.misplaced c o) := by
  have h0 := WritesOnly.refl (p := (· ∈ [Reg.tsbStatus, Reg.glbFault])) (misplacedNoted_writes (c := c) (o := o) h).inv
  rw [misplaced_eq h]
  exact .ite ((h0.setBit 10 true (by simp)).setBit 1 true (by simp)) h0

theorem misplaced_writes (h : s.Inv) :
    WritesOnly (· ∈ [Reg.tsbOrbitErrCnt, Reg.tsbOrbitErrTime, Reg.tsbStatus, Reg.glbFault]) s (s.misplaced c o) :=
  (misplacedNoted_writes h).trans_append (misplaced_slip h)

theorem errCnt_misplaced (h : s.Inv) :
    (s.misplaced c o).fld Reg.tsbOrbitErrCnt 31 0 = satAdd (2 ^ 32 - 1) (s.fld Reg.tsbOrbitErrCnt 31 0) 1 := by
  have hc : (s.count Reg.tsbOrbitErrCnt 31 0).Inv := inv_setReg h _ _
  rw [(misplaced_slip h).fld _ _ (by decide), fld, reg_misplacedNoted, reg_setReg_of_ne hc _ (by decide)]
  exact fld_count_self h _ _ (by decide)

theorem errTime_misplaced (h : s.Inv) : (s.misplaced c o).reg Reg.tsbOrbitErrTime = BitVec.ofNat 32 (c * 65536 + o.toNat % 65536) := by
  have hc : (s.count Reg.tsbOrbitErrCnt 31 0).Inv := inv_setReg h _ _
  rw [(misplaced_slip h).kept _ (by decide), reg_misplacedNoted, reg_setReg_self hc]

theorem slip_misplaced (h : s.Inv) (h1 : 1 ≤ s.fld Reg.tsbFail 14 12) (h2 : s.fld Reg.tsbFail 14 12 ≤ slipLen s.tsb c o) :
    (s.misplaced c o).rbit Reg.tsbStatus 10 = true ∧ (s.misplaced c o).rbit Reg.glbFault 1 = true := by
  have hn := (misplacedNoted_writes (c := c) (o := o) h).inv
  rw [misplaced_eq h, if_pos ⟨h1, h2⟩]
  exact ⟨(rbit_fault_of_ne (inv_setBit hn _ _ _) _ _ (by decide)).trans (rbit_setBit_self hn _ _ (by decide)),
    rbit_setBit_self (inv_setBit hn _ _ _) _ _ (by decide)⟩

theorem misplaced_tsb (h : s.Inv) : (s.misplaced c o).tsb = (s.misplacedNoted c o).tsb := by
  rw [misplaced_eq h]; split <;> rfl

theorem misplaced_mem (h : s.Inv) : (s.misplaced c o).mem = s.mem := by
  rw [misplaced_eq h]
  split
  · rw [fault, setBit_mem, setBit_mem, misplacedNoted_mem]
  · exact misplacedNoted_mem

/-! ### Establishing the count -/

/-- The second marker, L crossings after the first: the count is confirmed. -/
def confirmed (s : State) (k : Int) (p : Option Byte) : State :=
  let s1 := ((s.inPlace k p).setTsbState .aligned).setBit Reg.tsbStatus 8 false
  s1.setTsb { s1.tsb with est := none, wrong := [] }

/-- A marker at another distance `d` counts, and is the first again. -/
def reestablished (s : State) (k : Int) (p : Option Byte) (d : Nat) : State :=
  let s1 := (s.count Reg.tsbOrbitErrCnt 31 0).countSet k p
  s1.setTsb { s1.tsb with wrong := (d :: s.tsb.wrong).take 3 }

theorem marker_first (h : s.tsbState = .locking) (he : s.tsb.est = none) (k : Int) (p : Option Byte) : s.marker k p = s.countSet k p := by
  simp only [marker, h, establish, he]

theorem marker_confirms (h : s.tsbState = .locking) {e : Nat} (he : s.tsb.est = some e) {k : Int} (hk : k = (e : Int) + s.L) (p : Option Byte) :
    s.marker k p = s.confirmed k p := by
  have hd : (k - (e : Int)).toNat = s.L := by omega
  simp only [marker, h, establish, he, hd, if_true, reduceCtorEq, decide_false, Bool.false_eq_true, if_false]
  rfl

theorem marker_wrong (h : s.tsbState = .locking) {e d : Nat} (he : s.tsb.est = some e) {k : Int} (hk : k = (e : Int) + d) (hd : d ≠ s.L)
    (p : Option Byte) : s.marker k p =
      if s.tsb.wrong.take 2 = [d, d] then (s.reestablished k p d).startFails 0x11 0 else s.reestablished k p d := by
  obtain rfl : (k - (e : Int)).toNat = d := by omega
  have hw : ((k - (e : Int)).toNat :: s.tsb.wrong).take 3 = [(k - (e : Int)).toNat, (k - (e : Int)).toNat, (k - (e : Int)).toNat] ↔
      s.tsb.wrong.take 2 = [(k - (e : Int)).toNat, (k - (e : Int)).toNat] := by simp
  simp only [marker, h, establish, he, if_neg hd, hw]
  rfl

theorem startFails_restart (h : s.phase = 2) (code object : Nat) : (s.startFails code object).boot.restart = true := by
  unfold startFails
  cases hb : s.boot.restart <;> simp [h, hb, attemptFails]

/-- Outside the establishing a marker is in place or, where none may move the count, misplaced. -/
theorem marker_established (h : s.tsbState = .aligned ∨ s.tsbState = .holdover) (hm : s.tsb.moveArmed = false) (k : Int) (p : Option Byte) :
    s.marker k p = if (s.crossingPlus (k - s.tsb.cx)).2 = 0 then s.inPlace k p
      else s.misplaced (s.crossingPlus (k - s.tsb.cx)).2 (s.crossingPlus (k - s.tsb.cx)).1 := by
  rcases h with h | h <;> simp [marker, h, hm]

end Machine.State

/-! ### ORBIT and ORBIT_PIN_MARKER -/

/-- The state with another marker, or none, that waits. -/
def Machine.State.setOrbitDue (s : State) (x : Option (Nat × Byte)) : State := s.setTsb { s.tsb with orbitDue := x }

/-- What a marker does to the state, whatever marker then waits, the command that brings it does. -/
theorem completes_marker {c : Instr} {s : State} {k : Int} {p : Option Byte} {P : State → Prop} (h : MarkerOf c s k p)
    (hP : ∀ x, P ((s.setOrbitDue x).marker k p)) : Completes c s P := by
  obtain ⟨rfl, hx, j, b, hd, rfl, rfl⟩ | ⟨rfl, hx, rfl, rfl⟩ := h
  · refine .intro ?_ (hP none)
    show execOrbit s = _
    have hc : (s.setOrbitDue none).cxTiming = true := decide_eq_true hx
    rw [execOrbit, hd]
    exact congrArg Host.Outcome.next (if_pos hc)
  · refine .intro ?_ (hP s.tsb.orbitDue)
    show execOrbitPinMarker s = _
    rw [execOrbitPinMarker, if_neg (not_not.2 hx)]
    rfl

section
variable {s : State} {k : Int} {p : Option Byte}

theorem marker_first_sets (h : s.tsbState = .locking) (he : s.tsb.est = none) (hl : 1 ≤ s.L) :
    (s.marker k p).crossingPlus (k - s.tsb.cx) = (BitVec.ofNat 48 (s.reg Reg.tsbOrbitInit).toNat, 0) ∧ (s.marker k p).tsb.est = some k.toNat ∧
      (s.marker k p).regs = s.regs ∧ (s.marker k p).mem = s.mem := by
  rw [State.marker_first h he, State.countSet_start h]
  exact ⟨State.crossingPlus_countFrom hl k s.orbitInit, rfl, rfl, rfl⟩

theorem confirmed_writes (h : s.Inv) :
    WritesOnly (· ∈ [Reg.tsbStatus]) (s.inPlace k p) (s.confirmed k p) :=
  (((WritesOnly.refl (State.inPlace_writes h k p).inv).setFld 2 0 _ (by simp)).setBit 8 false (by simp)).setTsb _

theorem confirmed_aligns (h : s.Inv) : (s.confirmed k p).tsbState = .aligned :=
  have hi := (State.inPlace_writes h k p).inv
  (State.tsbState_setBit (State.inv_setTsbState hi _) _ _ (.inr (by decide))).trans (State.tsbState_setTsbState hi _)

theorem confirmed_tsb : (s.confirmed k p).tsb = { (s.inPlace k p).tsb with est := none, wrong := [] } := rfl

theorem crossingPlus_confirmed (h : s.Inv) (n : Int) : (s.confirmed k p).crossingPlus n = (s.inPlace k p).crossingPlus n :=
  State.crossingPlus_congr (by rw [confirmed_tsb]) (by rw [confirmed_tsb]) ((confirmed_writes h).L (by decide)) n

theorem marker_second_confirms (h : s.Inv) (hs : s.tsbState = .locking) {e : Nat} (he : s.tsb.est = some e) (hk : k = (e : Int) + s.L) :
    (s.marker k p).tsbState = .aligned ∧ (s.marker k p).tsb.est = none ∧ BytesKept s (s.marker k p) ∧
      RegsKept [Reg.tsbStatus, Reg.tsbOrbitNumErr] s (s.marker k p) ∧
      (s.marker k p).tsb.orbitReset = false ∧ (s.tsb.orbitReset = false → CountKept s (s.marker k p)) ∧
      (s.tsb.orbitReset = true → ((s.marker k p).crossingPlus (k - s.tsb.cx)).1 = BitVec.ofNat 48 (s.reg Reg.tsbOrbitInit).toNat) ∧
      (s.marker k p).fld Reg.tsbOrbitNumErr 31 0 = satAdd (2 ^ 32 - 1) (s.fld Reg.tsbOrbitNumErr 31 0)
        (match p with
          | some b => if b.toNat = ((s.marker k p).crossingPlus (k - s.tsb.cx)).1.toNat % 256 then 0 else 1
          | none => 0) := by
  have hw := confirmed_writes (k := k) (p := p) h
  rw [State.marker_confirms hs he hk, crossingPlus_confirmed h]
  refine ⟨confirmed_aligns h, rfl, .of_mem (State.inPlace_mem k p), ?_, State.orbitReset_inPlace k p, fun hr => ?_, fun hr => ?_, ?_⟩
  · exact (((State.inPlace_writes h k p).trans_append hw).mono fun _ m => List.mem_append.2 (List.mem_append.1 m).symm).regsKept
  · obtain ⟨h1, h2, h3, h4, h5⟩ := State.inPlace_count hr k p
    exact ⟨h1, h2, h3, h4, h5⟩
  · rw [State.crossingPlus_inPlace h hr]; rfl
  · rw [hw.fld _ _ (by decide)]
    exact State.numErr_inPlace h k p

theorem marker_wrong_reestablishes (h : s.Inv) (hs : s.tsbState = .locking) {e d : Nat} (he : s.tsb.est = some e) (hk : k = (e : Int) + d)
    (hd : d ≠ s.L) (hw : s.tsb.wrong.take 2 ≠ [d, d]) (hl : 1 ≤ s.L) :
    (s.marker k p).crossingPlus (k - s.tsb.cx) = (BitVec.ofNat 48 (s.reg Reg.tsbOrbitInit).toNat, 0) ∧ (s.marker k p).tsb.est = some k.toNat ∧
      (s.marker k p).fld Reg.tsbOrbitErrCnt 31 0 = satAdd (2 ^ 32 - 1) (s.fld Reg.tsbOrbitErrCnt 31 0) 1 ∧
      RegsKept [Reg.tsbOrbitErrCnt] s (s.marker k p) ∧ (s.marker k p).mem = s.mem := by
  have hc : WritesOnly (· ∈ [Reg.tsbOrbitErrCnt]) s (s.count Reg.tsbOrbitErrCnt 31 0) := (WritesOnly.refl h).count 31 0 1 (List.mem_singleton.2 rfl)
  have hL : (s.count Reg.tsbOrbitErrCnt 31 0).L = s.L := hc.L (by decide)
  have hi : (s.count Reg.tsbOrbitErrCnt 31 0).orbitInit = BitVec.ofNat 48 (s.reg Reg.tsbOrbitInit).toNat :=
    congrArg (fun w : W32 => BitVec.ofNat 48 w.toNat) (hc.kept _ (by decide))
  rw [State.marker_wrong hs he hk hd, if_neg hw, State.reestablished, State.countSet_start ((hc.tsbState (by decide)).trans hs)]
  refine ⟨?_, rfl, State.fld_count_self h _ _ (by decide), (hc.setTsb _).regsKept, rfl⟩
  rw [← hi]
  exact State.crossingPlus_countFrom (s := s.count Reg.tsbOrbitErrCnt 31 0) (by omega) k _

theorem marker_wrong_fails (h : s.Inv) (hs : s.tsbState = .locking) {e d : Nat} (he : s.tsb.est = some e) (hk : k = (e : Int) + d)
    (hd : d ≠ s.L) (hw : s.tsb.wrong.take 2 = [d, d]) (hp : s.phase = 2) : (s.marker k p).boot.restart = true := by
  have hc : WritesOnly (· ∈ [Reg.tsbOrbitErrCnt]) s (s.count Reg.tsbOrbitErrCnt 31 0) := (WritesOnly.refl h).count 31 0 1 (List.mem_singleton.2 rfl)
  rw [State.marker_wrong hs he hk hd, if_pos hw, State.reestablished, State.countSet_start ((hc.tsbState (by decide)).trans hs)]
  exact State.startFails_restart (((hc.setTsb _).fld 31 28 (by decide)).trans hp) _ _

theorem marker_established_stands (h : s.Inv) (hs : s.tsbState = .aligned ∨ s.tsbState = .holdover) (hm : s.tsb.moveArmed = false)
    (hr : s.tsb.orbitReset = false) :
    CountKept s (s.marker k p) ∧ BytesKept s (s.marker k p) ∧
      if (s.crossingPlus (k - s.tsb.cx)).2 = 0 then
        RegsKept [Reg.tsbOrbitNumErr] s (s.marker k p) ∧
        (s.marker k p).fld Reg.tsbOrbitNumErr 31 0 = satAdd (2 ^ 32 - 1) (s.fld Reg.tsbOrbitNumErr 31 0)
          (match p with | some b => if b.toNat = (s.crossingPlus (k - s.tsb.cx)).1.toNat % 256 then 0 else 1 | none => 0)
      else
        RegsKept [Reg.tsbOrbitErrCnt, Reg.tsbOrbitErrTime, Reg.tsbStatus, Reg.glbFault] s (s.marker k p) ∧
        (s.marker k p).fld Reg.tsbOrbitErrCnt 31 0 = satAdd (2 ^ 32 - 1) (s.fld Reg.tsbOrbitErrCnt 31 0) 1 ∧
        (s.marker k p).reg Reg.tsbOrbitErrTime = BitVec.ofNat 32
          ((s.crossingPlus (k - s.tsb.cx)).2 * 65536 + (s.crossingPlus (k - s.tsb.cx)).1.toNat % 65536) ∧
        (1 ≤ s.fld Reg.tsbFail 14 12 →
          s.fld Reg.tsbFail 14 12 ≤ slipLen s.tsb (s.crossingPlus (k - s.tsb.cx)).2 (s.crossingPlus (k - s.tsb.cx)).1 →
          (s.marker k p).rbit Reg.tsbStatus 10 = true ∧ (s.marker k p).rbit Reg.glbFault 1 = true) ∧
        ((s.crossingPlus (k - s.tsb.cx)).2, (s.crossingPlus (k - s.tsb.cx)).1,
          slipLen s.tsb (s.crossingPlus (k - s.tsb.cx)).2 (s.crossingPlus (k - s.tsb.cx)).1) ∈ (s.marker k p).tsb.slips := by
  rw [State.marker_established hs hm]
  by_cases hq : (s.crossingPlus (k - s.tsb.cx)).2 = 0
  · have hc := State.inPlace_count hr k p
    have hw := State.inPlace_writes h k p
    simp only [if_pos hq]
    refine ⟨hc, .of_mem (State.inPlace_mem k p), hw.regsKept, ?_⟩
    rw [State.numErr_inPlace h, State.crossingPlus_congr hc.orbit hc.crossing (hw.L (by decide))]
  · simp only [if_neg hq]
    refine ⟨?_, .of_mem (State.misplaced_mem h), (State.misplaced_writes h).regsKept, State.errCnt_misplaced h, State.errTime_misplaced h,
      State.slip_misplaced h, ?_⟩
    · constructor <;> rw [State.misplaced_tsb h, State.misplacedNoted, State.setTsb_tsb]
    · rw [State.misplaced_tsb h, State.misplacedNoted, State.setTsb_tsb]
      exact List.mem_cons_self ..

end

/-- Settles O9: what a marker does before the count is established, and then what it does to the count that stands. -/
theorem markersEstablishAndKeepTheCount : Obligations.MarkersEstablishAndKeepTheCount := by
  refine ⟨fun c s k p h hs hm hl _ => ?_, fun c s k p h hs hm ha hr => ?_⟩
  · have hu : ∀ x, (s.setOrbitDue x).Inv := fun _ => State.inv_setTsb _ h
    refine ⟨fun he => completes_marker hm fun x => ?_, fun e he hk => completes_marker hm fun x => ?_,
      fun e d he hk hd hw => completes_marker hm fun x => ?_, fun e d he hk hd hw hp => completes_marker hm fun x => ?_⟩
    · exact marker_first_sets (s := s.setOrbitDue x) hs he hl
    · obtain ⟨h1, h2, h3, h4, h5, h6, h7, h8⟩ := marker_second_confirms (p := p) (hu x) hs he hk
      refine ⟨h1, h2, h3, h4, h5, fun hr => ?_, h7, h8⟩
      obtain ⟨c1, c2, c3, c4, c5⟩ := h6 hr
      exact ⟨c1, c2, c3, c4, c5⟩
    · exact marker_wrong_reestablishes (hu x) hs he hk hd hw hl
    · exact marker_wrong_fails (hu x) hs he hk hd hw hp
  · refine completes_marker hm fun x => ?_
    obtain ⟨⟨c1, c2, c3, c4, c5⟩, hb, hq⟩ := marker_established_stands (s := s.setOrbitDue x) (k := k) (p := p) (State.inv_setTsb _ h) hs ha hr
    exact ⟨⟨c1, c2, c3, c4, c5⟩, hb, hq⟩

end Sys2Proof
end

/-! ## QUIET, CAL and COUNTER_RESET (R40 to R42, R63, R64, R67) -/
section
namespace Sys2Proof
open Sys2Proof.Machine

/-- A command whose code is that of the crossing's effect acts on the state in which the command is done. -/
theorem onCmd_acts {s : State} {c p : Byte} {code : Nat} (f : Nat → Byte → State → State) (hd : s.tsb.due = some (c, p))
    (hc : bitsOf c 7 4 = code) : s.onCmd code f = .next (f (bitsOf c 3 0) p s.doneCmd) := by
  rw [State.onCmd, hd]; exact if_pos hc

/-! ### QUIET_START and QUIET_END -/

section
variable {s : State} {c p : Byte}

theorem exec_quiet (hd : s.tsb.due = some (c, p)) {b : Bool} (hc : bitsOf c 7 4 = if b then 7 else 8) :
    exec (if b then .quietStart else .quietEnd) s = .next (s.doneCmd.setBit Reg.tsbStatus 7 b) := by
  cases b
  · exact onCmd_acts (fun _ _ s => s.setBit Reg.tsbStatus 7 false) hd hc
  · exact onCmd_acts (fun _ _ s => s.setBit Reg.tsbStatus 7 true) hd hc

theorem quiet_sets (h : s.Inv) (hd : s.tsb.due = some (c, p)) (b : Bool) (hc : bitsOf c 7 4 = if b then 7 else 8) :
    Completes (if b then .quietStart else .quietEnd) s (fun t =>
      t.rbit Reg.tsbStatus 7 = b ∧ (∀ i, i ≠ 7 → t.rbit Reg.tsbStatus i = s.rbit Reg.tsbStatus i) ∧
      RegsKept [Reg.tsbStatus] s t ∧ t = { s with regs := t.regs, tsb := { s.tsb with due := none } }) := by
  have hi := State.inv_doneCmd h
  refine .intro (exec_quiet hd hc) ⟨State.rbit_setBit_self hi _ _ (by decide), fun i ne => State.rbit_setBit_of_ne_bit hi _ _ ne, ?_, rfl⟩
  exact (((WritesOnly.refl h).setTsb { s.tsb with due := none }).setBit 7 b (List.mem_singleton.2 rfl)).regsKept

end

/-! ### The maps follow a quiet command -/

theorem secMapsel_inj {j k : Nat} : Reg.secMapsel j = Reg.secMapsel k ↔ j = k := by
  unfold Reg.secMapsel Reg.sec Reg.secBase; omega

theorem secMapsel_ne_glb (k : Nat) {o : Nat} (hk : k < 16) : Reg.glb o ≠ Reg.secMapsel k := by
  unfold Reg.secMapsel Reg.sec Reg.secBase Reg.glb; omega

namespace Machine.State
variable {s : State}

/-- A CONTEXT_SET to every sector (R42, R63). -/
def contextSetAll (s : State) (n v : Nat) : State := (List.range n).foldl (fun s k => s.contextSet k v) s

theorem contextSetAll_succ (n v : Nat) : s.contextSetAll (n + 1) v = (s.contextSetAll n v).contextSet n v := by
  rw [contextSetAll, List.range_succ, List.foldl_append]; rfl

/-- The map registers of the sectors. -/
def mapRegs (a : Nat) : Prop := ∃ k, k < 16 ∧ a = Reg.secMapsel k

theorem not_mapRegs_glb (o : Nat) : ¬mapRegs (Reg.glb o) := fun ⟨k, hk, e⟩ => secMapsel_ne_glb k hk e

theorem contextSetAll_writes (h : s.Inv) {n : Nat} (hn : n ≤ 16) (v : Nat) : WritesOnly mapRegs s (s.contextSetAll n v) :=
  (WritesOnly.refl h).foldl fun _ k hk hw => hw.setBit 1 _ ⟨k, Nat.lt_of_lt_of_le (List.mem_range.1 hk) hn, rfl⟩

theorem contextSetAll_tsb (n v : Nat) : (s.contextSetAll n v).tsb = s.tsb := by
  induction n with
  | zero => rfl
  | succ n ih => rw [contextSetAll_succ, contextSet, setBit_tsb, ih]

/-- In each sector a change of map waits exactly where it runs another map. -/
theorem rbit_contextSetAll (h : s.Inv) {n k : Nat} (hn : n ≤ 16) (hk : k < n) (v : Nat) :
    (s.contextSetAll n v).rbit (Reg.secMapsel k) 1 = decide ((s.contextSetAll n v).fld (Reg.secMapsel k) 0 0 ≠ v) := by
  induction n with
  | zero => exact absurd hk (Nat.not_lt_zero k)
  | succ n ih =>
    have hi := (contextSetAll_writes h (Nat.le_of_succ_le hn) v).inv
    rw [contextSetAll_succ, contextSet]
    by_cases e : k = n
    · subst e
      rw [rbit_setBit_self hi _ _ (by decide), fld_setBit_of_disjoint hi _ _ (.inl (by decide)) (by decide)]
    · have ne := mt secMapsel_inj.1 e
      rw [rbit_setBit_of_ne hi _ _ _ ne, fld_setBit_of_ne hi _ _ _ _ ne, ih (Nat.le_of_succ_le hn) (by omega)]

/-- With what a slot begins before the maps follow a quiet command. -/
def slotWork (s : State) : State :=
  let s1 := (s.slotBegins.levelGroup.sortLand.cellsAdvance).payDispatcher.paySectors
  let s2 := if s1.tsb.slot = 0 then s1.crossingStart else s1
  let s3 := if s2.tsb.slot = 1 ∧ s2.tsb.crossing + 1 = s2.L then s2.accordDeadline else s2
  let s4 := if s3.tsb.slot + 1 = s3.M ∧ s3.tsb.crossing + 1 = s3.L then s3.hotSwap else s3
  (s4.fireAll.calRise.readContexts).slotEvents

theorem enterSlot_eq (s : State) : s.enterSlot = s.slotWork.quietFollow := rfl

theorem slotWork_still {s₀ : State} (h : Still s₀ s) : Still s₀ s.slotWork := by
  unfold slotWork
  extract_lets s1 s2 s3 s4
  have h1 : Still s₀ s1 :=
    paySectors_still (payDispatcher_still (cellsAdvance_still (sortLand_still (levelGroup_still (slotBegins_still h)))))
  have h2 : Still s₀ s2 := .ite (crossingStart_still h1) h1
  have h3 : Still s₀ s3 := .ite (accordDeadline_still h2) h2
  have h4 : Still s₀ s4 := .ite (hotSwap_still h3) h3
  exact slotEvents_still (readContexts_still (calRise_still (fireAll_still h4)))

/-- An edge ends with the maps following a quiet command, in a state in form. -/
theorem advance_quietFollow (h : s.Inv) : ∃ u : State, u.Inv ∧ s.advance = u.quietFollow :=
  have he : (s.endSlot.countOn s.M s.L).Inv := (countOn_keeps (endSlot_still (.refl s)).toKeeps s.M s.L).inv h
  ⟨(s.endSlot.countOn s.M s.L).slotWork, (slotWork_still (.refl _)).inv he, enterSlot_eq _⟩

/-- The word used for a crossing is read beside the maps. -/
theorem wordUsed_maps {t : State} (h : WritesOnly mapRegs s t) (ht : t.tsb = s.tsb) (k : Nat) : t.wordUsed k = s.wordUsed k := by
  have ha : t.activeLane = s.activeLane := h.activeLane (not_mapRegs_glb _)
  have hl : ∀ i, t.tlane i = s.tlane i := fun i => by rw [tlane, ht, tlane]
  have hu : t.activeUsed = s.activeUsed := by rw [activeUsed, h.cxTiming (not_mapRegs_glb _), ha, hl, activeUsed]
  rw [wordUsed, ht, hu, ha, hl, hl, h.qualified (not_mapRegs_glb _), wordUsed]

theorem quietFollow_writes (h : s.Inv) : WritesOnly mapRegs s s.quietFollow := by
  have h0 := WritesOnly.refl (p := mapRegs) h
  refine .ite h0 ?_
  split
  · exact .ite (contextSetAll_writes h (Nat.le_refl 16) 1) (.ite (contextSetAll_writes h (Nat.le_refl 16) 0) h0)
  · exact h0

theorem quietFollow_tsb : s.quietFollow.tsb = s.tsb := by
  unfold quietFollow
  split
  · rfl
  · split
    · split
      · exact contextSetAll_tsb 16 1
      · split
        · exact contextSetAll_tsb 16 0
        · rfl
    · rfl

theorem quietFollow_quiet (hs : s.tsb.slot + 1 = s.M) (hf : s.rbit Reg.tsbCtrl 7 = true) (hc : s.tsb.cx ≠ 0) (hu : s.tsbState ≠ .unlocked)
    (hl : s.tsbState ≠ .locking) {c p : Byte} {x b : Bool} (hw : s.wordUsed (s.tsb.cx - 1) = some ((c, p), x))
    (hb : bitsOf c 7 4 = if b then 7 else 8) : s.quietFollow = s.contextSetAll 16 (if b then 1 else 0) := by
  rw [quietFollow, if_neg (by simp [hs, hf, hc, hu, hl]), hw]
  cases b
  · exact (if_neg (by rw [hb]; decide)).trans (if_pos hb)
  · exact if_pos hb

end Machine.State

theorem slotAdvance_maps {s : State} (h : s.Inv) (hc : s.counting = true) : Completes .slotAdvance s (fun t =>
    t.tsb.slot + 1 = t.M → t.rbit Reg.tsbCtrl 7 = true → t.tsb.cx ≠ 0 → t.tsbState ≠ .unlocked → t.tsbState ≠ .locking →
    ∀ (c p : Byte) (x b : Bool), t.wordUsed (t.tsb.cx - 1) = some ((c, p), x) → bitsOf c 7 4 = (if b then 7 else 8) →
      ∀ k : SectorNo, t.rbit (Reg.secMapsel k) 1 = decide (t.fld (Reg.secMapsel k) 0 0 ≠ if b then 1 else 0)) := by
  obtain ⟨u, hu, ha⟩ := State.advance_quietFollow h
  have hw := State.quietFollow_writes hu
  have ht : u.quietFollow.tsb = u.tsb := State.quietFollow_tsb
  have hctrl : ¬State.mapRegs Reg.tsbCtrl := State.not_mapRegs_glb _
  have hstatus : ¬State.mapRegs Reg.tsbStatus := State.not_mapRegs_glb _
  have hM : u.quietFollow.M = u.M := hw.fld _ _ (State.not_mapRegs_glb _)
  refine .intro (exec_slotAdvance hc) ?_
  rw [ha, State.wordUsed_maps hw ht, ht, hw.rbit 7 hctrl, hw.tsbState hstatus, hM]
  intro h1 h2 h3 h4 h5 c p x b h6 h7 k
  rw [State.quietFollow_quiet h1 h2 h3 h4 h5 h6 h7]
  exact State.rbit_contextSetAll hu (Nat.le_refl 16) k.isLt _

/-! ### CAL pins -/

namespace Machine.State
variable {s : State}

theorem getLsbD_foldl_mask (l : List CalPulse) (m : BitVec 4) (i : Nat) :
    (l.foldl (fun m c => m ||| c.mask) m).getLsbD i = (m.getLsbD i || l.any (fun c => c.mask.getLsbD i)) := by
  induction l generalizing m with
  | nil => simp
  | cons c l ih => simp [ih, Bool.or_assoc]

/-- The pins of the pulses that begin now. -/
def risingPins (s : State) : BitVec 4 := (s.tsb.cal.filter (fun c => decide (c.rise = s.tsb.tick))).foldl (fun m c => m ||| c.mask) 0

theorem calRise_def (s : State) : s.calRise = if s.risingPins = 0 ∨ !s.boot.outCal ∨ !s.planeRuns then s
    else s.setTsb { s.tsb with calPins := s.tsb.calPins ||| s.risingPins } := rfl

theorem calRise_eq (s : State) : s.calRise = s.setTsb { s.tsb with calPins := s.calRise.tsb.calPins } := by
  rw [calRise_def]; split <;> rfl

theorem calRise_low (h : s.boot.outCal = false ∨ s.planeRuns = false) : s.calRise = s := by
  rw [calRise_def, if_pos]
  rcases h with h | h <;> simp [h]

/-- A pulse that begins now raises its pins. -/
theorem calRise_high {c : CalPulse} {i : Nat} (hc : c ∈ s.tsb.cal) (hr : c.rise = s.tsb.tick) (hi : c.mask.getLsbD i = true)
    (ho : s.boot.outCal = true) (hp : s.planeRuns = true) : s.calRise.tsb.calPins.getLsbD i = true := by
  have hm : s.risingPins.getLsbD i = true := by
    rw [risingPins, getLsbD_foldl_mask, Bool.or_eq_true, List.any_eq_true]
    exact .inr ⟨c, List.mem_filter.2 ⟨hc, decide_eq_true hr⟩, hi⟩
  have hz : s.risingPins ≠ 0 := fun e => by simp [e] at hm
  rw [calRise_def, ho, hp, if_neg (by simpa using hz), setTsb_tsb]
  simp [hm]

end Machine.State

section
variable {s : State} {c p : Byte}

/-- The state with a pulse on CAL pins taken up, before any rises. -/
def Machine.State.calTaken (s : State) (q : CalPulse) : State := s.setTsb { s.tsb with due := none, cal := s.tsb.cal ++ [q] }

theorem exec_calstrobe (hd : s.tsb.due = some (c, p)) (hc : bitsOf c 7 4 = 5) {u : Nat} (hu : u = if bitsOf p 6 0 < s.M then bitsOf p 6 0 else 0) :
    exec .calstrobe s = .next (s.calTaken ⟨BitVec.ofNat 4 (bitsOf c 3 0), s.tsb.tick + u - s.tsb.slot, s.tsb.tick + u - s.tsb.slot + s.M⟩).calRise := by
  subst hu
  exact onCmd_acts (fun e p s => s.calPulse e (s.tsb.tick + (if bitsOf p 6 0 < s.M then bitsOf p 6 0 else 0) - s.tsb.slot) s.M) hd hc

theorem calstrobe_pulses (hd : s.tsb.due = some (c, p)) (hc : bitsOf c 7 4 = 5) {u : Nat}
    (hu : u = if bitsOf p 6 0 < s.M then bitsOf p 6 0 else 0) : Completes .calstrobe s (fun t =>
      t.tsb.cal = s.tsb.cal ++ [{ mask := BitVec.ofNat 4 (bitsOf c 3 0), rise := s.tsb.tick + u - s.tsb.slot,
                                  fall := s.tsb.tick + u - s.tsb.slot + s.M }] ∧
      (s.tsb.slot = u → s.boot.outCal = true → s.planeRuns = true →
        ∀ i : Fin 4, (BitVec.ofNat 4 (bitsOf c 3 0)).getLsbD i = true → t.tsb.calPins.getLsbD i = true) ∧
      (s.boot.outCal = false ∨ s.planeRuns = false → t.tsb.calPins = s.tsb.calPins) ∧
      t = { s with tsb := { s.tsb with due := none, cal := t.tsb.cal, calPins := t.tsb.calPins } }) := by
  refine .intro (exec_calstrobe hd hc hu) ?_
  generalize hq : (CalPulse.mk (BitVec.ofNat 4 (bitsOf c 3 0)) (s.tsb.tick + u - s.tsb.slot) (s.tsb.tick + u - s.tsb.slot + s.M)) = q
  have he := State.calRise_eq (s.calTaken q)
  refine ⟨by rw [he]; rfl, fun hs ho hp i hi => ?_, fun h => ?_, by rw [he]; rfl⟩
  · refine State.calRise_high (c := q) (List.mem_append_right _ (List.mem_singleton.2 rfl)) ?_ (by rw [← hq]; exact hi) ho hp
    show q.rise = s.tsb.tick
    rw [← hq]
    exact hs ▸ Nat.add_sub_cancel ..
  · rw [State.calRise_low (s := s.calTaken q) h]; rfl

/-! A pin whose pulses are over falls. -/

/-- The pulses that stand once those of a pin that are over have left it. -/
def calLeft (l : List CalPulse) (tick : Nat) (pin : Fin 4) : List CalPulse :=
  (l.map (fun c => if c.mask.getLsbD pin && decide (c.fall ≤ tick) then { c with mask := c.mask &&& ~~~(BitVec.ofNat 4 (2 ^ pin.val)) } else c)).filter
    (fun c => c.mask != 0)

theorem getLsbD_pin (pin i : Fin 4) : (BitVec.ofNat 4 (2 ^ pin.val)).getLsbD i = decide (i = pin) := by
  revert pin i; decide

theorem getLsbD_clearPin (m : BitVec 4) (pin i : Fin 4) :
    (m &&& ~~~(BitVec.ofNat 4 (2 ^ pin.val))).getLsbD i = (m.getLsbD i && !decide (i = pin)) := by
  rw [BitVec.getLsbD_and, BitVec.getLsbD_not, getLsbD_pin, decide_eq_true i.isLt, Bool.true_and]

/-- Of the pin's pulses those stand that are not over. -/
theorem mem_calLeft {l : List CalPulse} {tick : Nat} {pin : Fin 4} {c : CalPulse} (hc : c.mask.getLsbD pin = true) :
    c ∈ calLeft l tick pin ↔ c ∈ l ∧ tick < c.fall := by
  have hz : c.mask ≠ 0 := fun e => by simp [e] at hc
  simp only [calLeft, List.mem_filter, List.mem_map, bne_iff_ne, ne_eq, hz, not_false_eq_true, and_true]
  constructor
  · rintro ⟨d, hd, rfl⟩
    split at hc
    · next ho => simp only [getLsbD_clearPin, decide_true, Bool.not_true, Bool.and_false, Bool.false_eq_true] at hc
    · next ho =>
      rw [if_neg ho]
      refine ⟨hd, ?_⟩
      simpa [hc] using ho
  · rintro ⟨hl, hf⟩
    exact ⟨c, hl, if_neg (by simp; omega)⟩

theorem exec_calPinFall {pin : Fin 4} (h : ∃ c ∈ s.tsb.cal, c.mask.getLsbD pin = true ∧ c.fall ≤ s.tsb.tick) : exec (.calPinFall pin) s =
    .next (s.setTsb { s.tsb with
      cal := calLeft s.tsb.cal s.tsb.tick pin
      calPins := if (calLeft s.tsb.cal s.tsb.tick pin).any (fun c => c.mask.getLsbD pin && decide (c.rise ≤ s.tsb.tick)) then s.tsb.calPins
        else s.tsb.calPins &&& ~~~(BitVec.ofNat 4 (2 ^ pin.val)) }) := by
  show execCalPinFall pin s = _
  have : s.tsb.cal.any (fun c => c.mask.getLsbD pin && decide (c.fall ≤ s.tsb.tick)) = true := by simpa using h
  rw [execCalPinFall]
  exact if_neg (by rw [this]; decide)

theorem calPinFall_falls {pin : Fin 4} (h : ∃ c ∈ s.tsb.cal, c.mask.getLsbD pin = true ∧ c.fall ≤ s.tsb.tick) :
    Completes (.calPinFall pin) s (fun t =>
      t.tsb.calPins.getLsbD pin = (s.tsb.calPins.getLsbD pin &&
        decide (∃ c ∈ s.tsb.cal, c.mask.getLsbD pin = true ∧ s.tsb.tick < c.fall ∧ c.rise ≤ s.tsb.tick)) ∧
      (∀ i : Fin 4, i ≠ pin → t.tsb.calPins.getLsbD i = s.tsb.calPins.getLsbD i) ∧
      (∀ c ∈ t.tsb.cal, c.mask.getLsbD pin = true → s.tsb.tick < c.fall) ∧
      t = { s with tsb := { s.tsb with cal := t.tsb.cal, calPins := t.tsb.calPins } }) := by
  have ho : (calLeft s.tsb.cal s.tsb.tick pin).any (fun c => c.mask.getLsbD pin && decide (c.rise ≤ s.tsb.tick)) = true ↔
      ∃ c ∈ s.tsb.cal, c.mask.getLsbD pin = true ∧ s.tsb.tick < c.fall ∧ c.rise ≤ s.tsb.tick := by
    simp only [List.any_eq_true, Bool.and_eq_true, decide_eq_true_eq]
    constructor
    · rintro ⟨c, hc, hm, hr⟩
      exact ⟨c, ((mem_calLeft hm).1 hc).1, hm, ((mem_calLeft hm).1 hc).2, hr⟩
    · rintro ⟨c, hc, hm, hf, hr⟩
      exact ⟨c, (mem_calLeft hm).2 ⟨hc, hf⟩, hm, hr⟩
  refine .intro (exec_calPinFall h) ?_
  rw [State.setTsb_tsb]
  dsimp only
  refine ⟨?_, fun i hi => ?_, fun c hc hm => ((mem_calLeft hm).1 hc).2, rfl⟩
  · by_cases hp : ∃ c ∈ s.tsb.cal, c.mask.getLsbD pin = true ∧ s.tsb.tick < c.fall ∧ c.rise ≤ s.tsb.tick
    · rw [if_pos (ho.2 hp), decide_eq_true hp, Bool.and_true]
    · rw [if_neg (mt ho.1 hp), decide_eq_false hp]
      simp only [getLsbD_clearPin, decide_true, Bool.not_true]
  · split
    · rfl
    · simp only [getLsbD_clearPin, hi, decide_false, Bool.not_false, Bool.and_true]

end

/-! ### COUNTER_RESET -/

/-- A key that a table does not list reads as the default. -/
theorem Tbl.get_of_not_mem {α : Type} {d : α} {t : Tbl α} {k : Nat} (h : k ∉ t.map (·.1)) : t.get d k = d := by
  induction t with
  | nil => rfl
  | cons e t ih =>
    obtain ⟨hk, ht⟩ := not_or.1 (mt List.mem_cons.2 h)
    rw [Tbl.get, if_neg hk, ih ht, ite_self]

/-- A counter of a whole word keeps what it has counted since the slot began. -/
theorem toNat_clearedWord (w b : W32) : (clearedWord 0xFFFFFFFF w b).toNat = if b.toNat ≤ w.toNat then w.toNat - b.toNat else w.toNat := by
  have ho : (0xFFFFFFFF : W32) = BitVec.allOnes 32 := by decide
  have hb : (if b.toNat ≤ w.toNat then w.toNat - b.toNat else w.toNat) < 2 ^ 32 := by split <;> omega
  rw [clearedWord, ho, BitVec.and_allOnes, BitVec.and_allOnes, BitVec.not_allOnes, BitVec.and_zero, BitVec.zero_or, BitVec.toNat_ofNat,
    Nat.mod_eq_of_lt hb]

theorem counterBits_tsbCnt (i : Fin 7) : counterBits (Reg.tsbCnt i) = 0xFFFFFFFF := by revert i; decide
theorem counterBits_tsbCntSnap (i : Fin 7) : counterBits (Reg.tsbCntSnap i) = 0 := by revert i; decide
theorem regReset_tsbCnt (i : Fin 7) : regReset (Reg.tsbCnt i) = 0 := by revert i; decide

namespace Machine.State
variable {s : State}

/-- The counters' registers cleared, before those of the tasks. -/
def wordsCleared (s : State) : State :=
  ((s.regs.map (·.1)).filter (fun a => decide (counterBits a ≠ 0))).foldl
    (fun t a => t.setReg a (clearedWord (counterBits a) (s.reg a) (s.reg0 a))) s

theorem clearCounters_eq (s : State) : s.clearCounters =
    (s.wordsCleared.dpt.tasks.map (·.1)).foldl (fun t i => t.setTask i (clearedTask (s.task i) (s.task0 i))) s.wordsCleared := rfl

/-- Writing tasks changes the dispatcher's table alone. -/
theorem foldl_setTask_rest (f : Nat → TaskSt) (l : List Nat) (s : State) :
    l.foldl (fun t i => t.setTask i (f i)) s = { s with dpt := (l.foldl (fun t i => t.setTask i (f i)) s).dpt } := by
  induction l generalizing s with
  | nil => rfl
  | cons i l ih => rw [List.foldl_cons, ih (s.setTask i (f i))]; rfl

theorem clearCounters_rest (s : State) : s.clearCounters = { s with regs := s.clearCounters.regs, dpt := s.clearCounters.dpt } := by
  rw [clearCounters_eq, foldl_setTask_rest, wordsCleared, foldl_setReg_rest]

theorem clearCounters_tsb : s.clearCounters.tsb = s.tsb := by rw [clearCounters_rest]
theorem clearCounters_mem : s.clearCounters.mem = s.mem := by rw [clearCounters_rest]

theorem reg_clearCounters (h : s.Inv) (a : Nat) : s.clearCounters.reg a =
    if a ∈ s.regs.map (·.1) ∧ counterBits a ≠ 0 then clearedWord (counterBits a) (s.reg a) (s.reg0 a) else s.reg a := by
  have hr : s.clearCounters.reg a = s.wordsCleared.reg a := by rw [clearCounters_eq, foldl_setTask_rest]; rfl
  rw [hr, wordsCleared, reg_foldl_setReg h]
  simp only [List.mem_filter, decide_eq_true_eq]

theorem reg_clearCounters_other (h : s.Inv) {a : Nat} (ha : counterBits a = 0) : s.clearCounters.reg a = s.reg a := by
  rw [reg_clearCounters h, if_neg (fun e => e.2 ha)]

theorem reg_clearCounters_tsbCnt (h : s.Inv) (i : Fin 7) : (s.clearCounters.reg (Reg.tsbCnt i)).toNat =
    if (s.reg0 (Reg.tsbCnt i)).toNat ≤ (s.reg (Reg.tsbCnt i)).toNat then (s.reg (Reg.tsbCnt i)).toNat - (s.reg0 (Reg.tsbCnt i)).toNat
    else (s.reg (Reg.tsbCnt i)).toNat := by
  rw [reg_clearCounters h, counterBits_tsbCnt]
  by_cases hm : Reg.tsbCnt i ∈ s.regs.map (·.1)
  · rw [if_pos ⟨hm, by decide⟩, toNat_clearedWord]
  · have hz : s.reg (Reg.tsbCnt i) = 0 := (Tbl.get_of_not_mem hm).trans (regReset_tsbCnt i)
    rw [if_neg (fun e => hm e.1), hz]
    simp

/-! The two steps before the counters clear: the orbit number that waits for its marker, and the event number. -/

def orbitResetDue (s : State) (p : Byte) : State :=
  if p.getLsbD 0 then (s.setTsb { s.tsb with orbitReset := true }).setBit Reg.tsbStatus 9 false else s

def evnReset (s : State) (p : Byte) : State := if p.getLsbD 1 then s.setReg Reg.tsbEvn 0 else s

theorem counterReset_eq (s : State) (p : Byte) : s.counterReset p =
    if p.getLsbD 2 then ((s.orbitResetDue p).evnReset p).clearCounters else (s.orbitResetDue p).evnReset p := rfl

theorem orbitResetDue_writes (h : s.Inv) (p : Byte) : WritesOnly (· ∈ [Reg.tsbStatus]) s (s.orbitResetDue p) :=
  .ite (((WritesOnly.refl h).setTsb _).setBit 9 false (List.mem_singleton.2 rfl)) (.refl h)

theorem evnReset_writes (h : s.Inv) (p : Byte) : WritesOnly (· ∈ [Reg.tsbEvn]) s (s.evnReset p) :=
  .ite ((WritesOnly.refl h).setReg 0 (List.mem_singleton.2 rfl)) (.refl h)

theorem orbitResetDue_tsb (s : State) (p : Byte) : (s.orbitResetDue p).tsb = { s.tsb with orbitReset := p.getLsbD 0 || s.tsb.orbitReset } := by
  unfold orbitResetDue
  cases p.getLsbD 0 <;> rfl

/-- What stands when the counters clear. -/
theorem evnReset_rest (p : Byte) : s.evnReset p = { s with regs := (s.evnReset p).regs } := by
  unfold evnReset; split <;> rfl

theorem orbitResetDue_rest (p : Byte) : s.orbitResetDue p = { s with regs := (s.orbitResetDue p).regs, tsb := (s.orbitResetDue p).tsb } := by
  unfold orbitResetDue; split <;> rfl

theorem counterReset_tsb (s : State) (p : Byte) : (s.counterReset p).tsb = { s.tsb with orbitReset := p.getLsbD 0 || s.tsb.orbitReset } := by
  have hu : ((s.orbitResetDue p).evnReset p).tsb = { s.tsb with orbitReset := p.getLsbD 0 || s.tsb.orbitReset } := by
    rw [evnReset_rest, ← orbitResetDue_tsb]
  rw [counterReset_eq, ← hu]
  split
  · exact clearCounters_tsb
  · rfl

theorem counterReset_mem (s : State) (p : Byte) : (s.counterReset p).mem = s.mem := by
  have hu : ((s.orbitResetDue p).evnReset p).mem = s.mem := by rw [evnReset_rest, orbitResetDue_rest]
  rw [counterReset_eq, ← hu]
  split
  · exact clearCounters_mem
  · rfl

/-- The counters clear last: every other register reads as before that. -/
theorem reg_counterReset_other (h : s.Inv) (p : Byte) {a : Nat} (ha : counterBits a = 0) :
    (s.counterReset p).reg a = ((s.orbitResetDue p).evnReset p).reg a := by
  rw [counterReset_eq]
  split
  · exact reg_clearCounters_other (evnReset_writes (orbitResetDue_writes h p).inv p).inv ha
  · rfl

theorem status_counterReset (h : s.Inv) (p : Byte) : (s.counterReset p).reg Reg.tsbStatus = (s.orbitResetDue p).reg Reg.tsbStatus := by
  rw [reg_counterReset_other h p (by decide), (evnReset_writes (orbitResetDue_writes h p).inv p).kept _ (by decide)]

theorem evn_counterReset (h : s.Inv) (p : Byte) : (s.counterReset p).reg Reg.tsbEvn = if p.getLsbD 1 then 0 else s.reg Reg.tsbEvn := by
  have ho := orbitResetDue_writes h p
  rw [reg_counterReset_other h p (by decide), ← ho.kept Reg.tsbEvn (by decide), evnReset]
  split
  · exact reg_setReg_self ho.inv _ _
  · rfl

theorem resets_writes (h : s.Inv) (p : Byte) : WritesOnly (· ∈ [Reg.tsbStatus, Reg.tsbEvn]) s ((s.orbitResetDue p).evnReset p) :=
  have ho := orbitResetDue_writes h p
  ho.trans_append (evnReset_writes ho.inv p)

/-- What a register held as the slot began stands through what keeps the register and the running of the count. -/
theorem reg0_congr {t : State} {a : Nat} (h0 : t.regs0 = s.regs0) (hs : t.tsbState = s.tsbState) (hM : t.M = s.M) (ha : t.reg a = s.reg a) :
    t.reg0 a = s.reg0 a := by
  have hc : t.counting = s.counting := by rw [counting, hs, hM, counting]
  rw [reg0, hc, h0, ha, reg0]

theorem reg0_resets (h : s.Inv) (p : Byte) {a : Nat} (ha : a ∉ [Reg.tsbStatus, Reg.tsbEvn]) :
    ((s.orbitResetDue p).evnReset p).reg0 a = s.reg0 a := by
  have ho := orbitResetDue_writes h p
  have hw := resets_writes h p
  refine reg0_congr (by rw [evnReset_rest, orbitResetDue_rest]) ?_ (hw.fld _ _ (by decide)) (hw.kept _ ha)
  rw [(evnReset_writes ho.inv p).tsbState (by decide), orbitResetDue]
  split
  · exact tsbState_setBit (inv_setTsb _ h) _ _ (.inr (by decide))
  · rfl

end Machine.State

theorem tsbCnt_not_mem_resets (i : Fin 7) : Reg.tsbCnt i ∉ [Reg.tsbStatus, Reg.tsbEvn] := by revert i; decide
theorem tsbCntSnap_not_mem_resets (i : Fin 7) : Reg.tsbCntSnap i ∉ [Reg.tsbStatus, Reg.tsbEvn] := by revert i; decide

section
variable {s : State} {c p : Byte}

theorem tsbCnt_counterReset (h : s.Inv) (p : Byte) (i : Fin 7) : ((s.counterReset p).reg (Reg.tsbCnt i)).toNat =
    if p.getLsbD 2 ∧ (s.reg0 (Reg.tsbCnt i)).toNat ≤ (s.reg (Reg.tsbCnt i)).toNat then
      (s.reg (Reg.tsbCnt i)).toNat - (s.reg0 (Reg.tsbCnt i)).toNat else (s.reg (Reg.tsbCnt i)).toNat := by
  have hw := State.resets_writes h p
  have hn := tsbCnt_not_mem_resets i
  rw [State.counterReset_eq]
  by_cases h2 : p.getLsbD 2 = true
  · rw [if_pos h2, State.reg_clearCounters_tsbCnt hw.inv, State.reg0_resets h p hn, hw.kept _ hn]
    simp only [h2, true_and]
  · rw [if_neg h2, if_neg (fun e => h2 e.1), hw.kept _ hn]

theorem counterReset_resets (h : s.Inv) (hd : s.tsb.due = some (c, p)) (hc : bitsOf c 7 4 = 6) : Completes .counterReset s (fun t =>
      CountKept s t ∧ BytesKept s t ∧ t.tsb.due = none ∧
      (p.getLsbD 0 = true → t.tsb.orbitReset = true ∧ t.rbit Reg.tsbStatus 9 = false) ∧
      (p.getLsbD 0 = false → t.tsb.orbitReset = s.tsb.orbitReset ∧ t.reg Reg.tsbStatus = s.reg Reg.tsbStatus) ∧
      t.reg Reg.tsbEvn = (if p.getLsbD 1 then 0 else s.reg Reg.tsbEvn) ∧
      (∀ i : Fin 7, (t.reg (Reg.tsbCnt i)).toNat = (if p.getLsbD 2 ∧ (s.reg0 (Reg.tsbCnt i)).toNat ≤ (s.reg (Reg.tsbCnt i)).toNat then
          (s.reg (Reg.tsbCnt i)).toNat - (s.reg0 (Reg.tsbCnt i)).toNat else (s.reg (Reg.tsbCnt i)).toNat) ∧
        t.reg (Reg.tsbCntSnap i) = s.reg (Reg.tsbCntSnap i))) := by
  have he : exec .counterReset s = .next (s.doneCmd.counterReset p) := onCmd_acts (fun _ p s => s.counterReset p) hd hc
  have hi := State.inv_doneCmd h
  have ht := State.counterReset_tsb s.doneCmd p
  have hst := State.status_counterReset hi p
  refine .intro he ⟨.of_exec rfl he, .of_mem (State.counterReset_mem _ p), by rw [ht]; rfl, fun h0 => ?_, fun h0 => ?_,
    State.evn_counterReset hi p, fun i => ⟨tsbCnt_counterReset hi p i, ?_⟩⟩
  · refine ⟨by rw [ht, h0]; rfl, ?_⟩
    rw [State.rbit, hst, State.orbitResetDue, if_pos h0]
    exact State.rbit_setBit_self (State.inv_setTsb _ hi) _ _ (by decide)
  · refine ⟨by rw [ht, h0]; rfl, ?_⟩
    rw [hst, State.orbitResetDue, if_neg (by rw [h0]; decide)]
    rfl
  · rw [State.reg_counterReset_other hi p (counterBits_tsbCntSnap i), (State.resets_writes hi p).kept _ (tsbCntSnap_not_mem_resets i)]
    rfl

theorem marker_takesOrbitInit (h : s.Inv) (hs : s.tsbState = .aligned) (hm : s.tsb.moveArmed = false) (hr : s.tsb.orbitReset = true)
    {k : Int} {o : Instr} {b : Option Byte} (hk : MarkerOf o s k b) (hq : (s.crossingPlus (k - s.tsb.cx)).2 = 0) : Completes o s (fun t =>
      t.crossingPlus (k - s.tsb.cx) = (BitVec.ofNat 48 (s.reg Reg.tsbOrbitInit).toNat, 0) ∧ t.tsb.orbitReset = false) := by
  refine completes_marker hk fun x => ?_
  have hu : (s.setOrbitDue x).Inv := State.inv_setTsb _ h
  have hq' : ((s.setOrbitDue x).crossingPlus (k - (s.setOrbitDue x).tsb.cx)).2 = 0 := hq
  rw [State.marker_established (s := s.setOrbitDue x) (.inl hs) hm, if_pos hq']
  have hc := State.crossingPlus_inPlace hu hr k b
  rw [hq'] at hc
  exact ⟨hc, State.orbitReset_inPlace k b⟩

end

/-- Settles O10: command by command, each with what follows it. -/
theorem quietCalAndCounterResetCommands : Obligations.QuietCalAndCounterResetCommands := by
  refine ⟨⟨fun s c p h hd b hc => quiet_sets h hd b hc, fun s h hc => slotAdvance_maps h hc⟩,
    fun s => ⟨fun c p hd hc u hu => calstrobe_pulses hd hc hu, fun pin hp => calPinFall_falls hp⟩,
    fun s c p h hd hc => ⟨counterReset_resets h hd hc, fun t hs hm hr k o b hk hq he => ?_⟩⟩
  obtain ⟨t', he', hp⟩ := marker_takesOrbitInit h hs hm hr hk hq
  obtain rfl : t = t' := Host.Outcome.next.inj (he.symm.trans he')
  exact hp

end Sys2Proof
end

/-! ## The scrambler and the descrambler (R73) -/
section
namespace Sys2Proof
open Sys2Proof.Machine

namespace Machine

/-- The first `n` bits of a block through the scrambler or the descrambler: the register after them, and the bits that came out. -/
def scrBits (f : BitVec 58 → Bool → BitVec 58 × Bool) (st : BitVec 58) (x : BitVec 64) (n : Nat) : BitVec 58 × BitVec 64 :=
  (List.range n).foldl (fun r i =>
    let q := f r.1 (x.getLsbD i)
    (q.1, if q.2 then r.2 ||| BitVec.ofNat 64 (2 ^ i) else r.2)) (st, 0)

section
variable (f : BitVec 58 → Bool → BitVec 58 × Bool) (st : BitVec 58) (x : BitVec 64)

theorem scr64_eq_scrBits : scr64 f st x = scrBits f st x 64 := rfl

theorem scrBits_succ (n : Nat) : scrBits f st x (n + 1) =
    ((f (scrBits f st x n).1 (x.getLsbD n)).1,
      if (f (scrBits f st x n).1 (x.getLsbD n)).2 then (scrBits f st x n).2 ||| BitVec.ofNat 64 (2 ^ n) else (scrBits f st x n).2) := by
  rw [scrBits, List.range_succ, List.foldl_append]; rfl

theorem getLsbD_or_two_pow {w n : Nat} (hn : n < w) (y : BitVec w) (b : Bool) (i : Nat) :
    (if b then y ||| BitVec.ofNat w (2 ^ n) else y).getLsbD i = (y.getLsbD i || b && decide (i = n)) := by
  cases b with
  | false => simp
  | true =>
    rw [if_pos rfl, BitVec.getLsbD_or, BitVec.getLsbD_ofNat, Nat.testBit_two_pow]
    obtain rfl | h := eq_or_ne i n
    · simp [hn]
    · simp [h, h.symm]

/-- Bit `i` that comes out is what the register made of bit `i` as it went in; later bits leave it. -/
theorem getLsbD_scrBits {n : Nat} (hn : n ≤ 64) (i : Nat) :
    (scrBits f st x n).2.getLsbD i = (decide (i < n) && (f (scrBits f st x i).1 (x.getLsbD i)).2) := by
  induction n with
  | zero => simp [scrBits]
  | succ n ih =>
    rw [scrBits_succ, getLsbD_or_two_pow (by omega), ih (by omega)]
    obtain hi | rfl | hi := Nat.lt_trichotomy i n
    · simp [hi, Nat.lt_succ_of_lt hi, Nat.ne_of_lt hi]
    · simp
    · simp [show ¬i < n by omega, show ¬i < n + 1 by omega, show i ≠ n by omega]

end

theorem descramble1_scramble1 (st : BitVec 58) (b : Bool) : descramble1 st (scramble1 st b).2 = ((scramble1 st b).1, b) := by
  simp [descramble1, scramble1]

/-- Both registers shift in the bits on the wire, so that they agree after any number of bits. -/
theorem scrBits_descramble1_state (st : BitVec 58) (x : BitVec 64) {n : Nat} (hn : n ≤ 64) :
    (scrBits descramble1 st (scr64 scramble1 st x).2 n).1 = (scrBits scramble1 st x n).1 := by
  induction n with
  | zero => rfl
  | succ n ih =>
    rw [scrBits_succ, scrBits_succ, ih (by omega), scr64_eq_scrBits, getLsbD_scrBits _ _ _ (Nat.le_refl 64),
      decide_eq_true (show n < 64 by omega), Bool.true_and, descramble1_scramble1]

theorem scr64_descramble1_scramble1 (st : BitVec 58) (x : BitVec 64) :
    scr64 descramble1 st (scr64 scramble1 st x).2 = ((scr64 scramble1 st x).1, x) := by
  refine Prod.ext (scrBits_descramble1_state st x (Nat.le_refl 64)) (BitVec.eq_of_getLsbD_eq fun i hi => ?_)
  rw [scr64_eq_scrBits, getLsbD_scrBits _ _ _ (Nat.le_refl 64), scrBits_descramble1_state st x (Nat.le_of_lt hi), scr64_eq_scrBits,
    getLsbD_scrBits _ _ _ (Nat.le_refl 64), decide_eq_true hi, Bool.true_and, Bool.true_and, descramble1_scramble1]

theorem descrambleBlocks_scrambleBlocks (st : BitVec 58) (bs : List (BitVec 2 × BitVec 64)) :
    descrambleBlocks st (scrambleBlocks st bs).2 = ((scrambleBlocks st bs).1, bs) := by
  induction bs generalizing st with
  | nil => rfl
  | cons b t ih => simp only [scrambleBlocks, descrambleBlocks, scr64_descramble1_scramble1, ih]

end Machine

/-- Settles O14: block by block, and bit by bit within a block, both registers hold the last 58 bits on the wire. -/
theorem descramblerUndoesScrambler : Obligations.DescramblerUndoesScrambler := descrambleBlocks_scrambleBlocks

end Sys2Proof
end

/-! ## What a lane command changes: its lane and its lane's registers (chapter 3) -/
section
namespace Sys2Proof
open Sys2Proof.Machine

namespace Machine

/-! ### The registers of a lane -/

theorem lan_inj {l x y : Nat} : Reg.lan l x = Reg.lan l y ↔ x = y := Nat.add_left_cancel_iff
theorem lan_ne_lan {l x y : Nat} (h : x ≠ y) : Reg.lan l x ≠ Reg.lan l y := fun e => h (lan_inj.1 e)

theorem lanLat_ne_lanStatus (l : Nat) : Reg.lanLat l ≠ Reg.lanStatus l := lan_ne_lan (by decide)
theorem lanEvtcnt_ne_lanStatus (l : Nat) : Reg.lanEvtcnt l ≠ Reg.lanStatus l := lan_ne_lan (by decide)
theorem lanEvtcnt_ne_lanLat (l : Nat) : Reg.lanEvtcnt l ≠ Reg.lanLat l := lan_ne_lan (by decide)
theorem lanCtrl_ne_lanEvtcnt (l : Nat) : Reg.lanCtrl l ≠ Reg.lanEvtcnt l := lan_ne_lan (by decide)

theorem lan_lt_glb (l : LaneNo) {x : Nat} (hx : x < 0x1000) (y : Nat) : Reg.lan l x < Reg.glb y := by
  unfold Reg.lan Reg.glb; omega

theorem lanStatus_ne_glbFault (l : LaneNo) : Reg.lanStatus l ≠ Reg.glbFault := (lan_lt_glb l (by decide) _).ne
theorem lanLat_ne_glbFault (l : LaneNo) : Reg.lanLat l ≠ Reg.glbFault := (lan_lt_glb l (by decide) _).ne
theorem lanEvtcnt_ne_glbFault (l : LaneNo) : Reg.lanEvtcnt l ≠ Reg.glbFault := (lan_lt_glb l (by decide) _).ne

/-- The registers that a loss of a lane writes. -/
def lossRegs (l : Nat) : List Nat := [Reg.lanStatus l, Reg.lanLat l, Reg.lanEvtcnt l, Reg.glbFault]

@[simp] theorem mem_lossRegs {l a : Nat} :
    a ∈ lossRegs l ↔ a = Reg.lanStatus l ∨ a = Reg.lanLat l ∨ a = Reg.lanEvtcnt l ∨ a = Reg.glbFault := by
  simp [lossRegs]

theorem bootStatus_not_mem_lossRegs (l : LaneNo) : Reg.bootStatus ∉ lossRegs l := by
  simp [Reg.bootStatus, Reg.lanEvtcnt, Reg.lanStatus, Reg.lanLat, Reg.glbFault, (lan_lt_glb l _ _).ne', glb_inj]

/-- From `s` to `t` nothing changes but lane `l` and registers of `p`. -/
structure LaneOnly (l : Nat) (p : Nat → Prop) (s t : State) : Prop where
  writes : WritesOnly p s t
  others : ∀ k, k ≠ l → t.lane k = s.lane k
  rest : t = { s with regs := t.regs, lanes := t.lanes }

namespace State
variable {s : State} (l : Nat) (k : LaneSt)

theorem inv_setLane (h : s.Inv) : (s.setLane l k).Inv := (setLane_still (.refl s) l k).inv h
@[simp] theorem lane_setLaneState (j v : Nat) : (s.setLaneState j v).lane l = s.lane l := rfl

theorem laneState_setLaneState (h : s.Inv) {v : Nat} (hv : v < 8) : (s.setLaneState l v).laneState l = v := by
  rw [laneState, setLaneState, fld_setFld_self h _ _ (by decide)]; exact Nat.mod_eq_of_lt hv

theorem laneState_setBit_status (h : s.Inv) {i : Nat} (hi : 2 < i) (b : Bool) : (s.setBit (Reg.lanStatus l) i b).laneState l = s.laneState l :=
  fld_setBit_of_disjoint h _ b (.inl hi) (by decide)

end State

namespace LaneOnly
variable {l : Nat} {p : Nat → Prop} {s t u : State}

theorem refl (h : s.Inv) : LaneOnly l p s s := ⟨.refl h, fun _ _ => rfl, rfl⟩

theorem setReg (h : LaneOnly l p s t) {a : Nat} (w : W32) (ha : p a) : LaneOnly l p s (t.setReg a w) :=
  ⟨h.writes.setReg w ha, h.others, congrArg (fun x : State => { x with regs := (t.setReg a w).regs }) h.rest⟩
theorem setFld (h : LaneOnly l p s t) {a : Nat} (hi lo v : Nat) (ha : p a) : LaneOnly l p s (t.setFld a hi lo v) := h.setReg _ ha
theorem setBit (h : LaneOnly l p s t) {a : Nat} (i : Nat) (b : Bool) (ha : p a) : LaneOnly l p s (t.setBit a i b) := h.setReg _ ha
theorem count (h : LaneOnly l p s t) {a : Nat} (hi lo n : Nat) (ha : p a) : LaneOnly l p s (t.count a hi lo n) := h.setReg _ ha

theorem setLane (h : LaneOnly l p s t) (k : LaneSt) : LaneOnly l p s (t.setLane l k) :=
  ⟨h.writes.same (State.inv_setLane l k) rfl, fun j hj => (State.lane_setLane_of_ne h.writes.inv k hj).trans (h.others j hj),
   congrArg (fun x : State => { x with lanes := (t.setLane l k).lanes }) h.rest⟩

theorem trans (h : LaneOnly l p s t) (k : LaneOnly l p t u) : LaneOnly l p s u :=
  ⟨h.writes.trans k.writes, fun j hj => (k.others j hj).trans (h.others j hj),
   k.rest.trans (congrArg (fun x : State => { x with regs := u.regs, lanes := u.lanes }) h.rest)⟩

theorem mono {q : Nat → Prop} (h : LaneOnly l p s t) (hpq : ∀ a, p a → q a) : LaneOnly l q s t := ⟨h.writes.mono hpq, h.others, h.rest⟩

theorem ite {c : Prop} [Decidable c] (ht : LaneOnly l p s t) (hu : LaneOnly l p s u) : LaneOnly l p s (if c then t else u) := by
  split <;> assumption

theorem inv (h : LaneOnly l p s t) : t.Inv := h.writes.inv
theorem tsb (h : LaneOnly l p s t) : t.tsb = s.tsb := by rw [h.rest]
theorem regsKept {but : List Nat} (h : LaneOnly l (· ∈ but) s t) : RegsKept but s t := h.writes.kept

theorem inRun (h : LaneOnly l p s t) (hb : ¬p Reg.bootStatus) : t.inRun = s.inRun := by
  rw [State.inRun, State.phase, h.writes.fld _ _ hb]; rfl

end LaneOnly

/-! ### ACQUIRE (R78) -/

/-- A lane as it begins to align again. -/
def LaneSt.acquiring (k : LaneSt) : LaneSt :=
  { k with sync := [], good := 0, locked := false, badHdr := 0, next := none, meas := [], late := false, unlocked := false }

namespace State
variable {s t : State} {p : Nat → Prop} (l : Nat)

theorem laneAcquire_eq : s.laneAcquire l = ((s.setLane l (s.lane l).acquiring).setBit (Reg.lanLat l) 31 false).setLaneState l 1 := rfl

theorem laneAcquire_only {l : Nat} (h : LaneOnly l p s t) (hs : p (Reg.lanStatus l)) (hl : p (Reg.lanLat l)) :
    LaneOnly l p s (t.laneAcquire l) := ((h.setLane _).setBit 31 false hl).setFld _ _ _ hs

theorem lane_laneAcquire (h : s.Inv) : (s.laneAcquire l).lane l = (s.lane l).acquiring := lane_setLane_self h _ _

theorem laneState_laneAcquire (h : s.Inv) : (s.laneAcquire l).laneState l = 1 :=
  laneState_setLaneState l (inv_setBit (inv_setLane l _ h) _ _ _) (by decide)

theorem valid_laneAcquire (h : s.Inv) : (s.laneAcquire l).rbit (Reg.lanLat l) 31 = false := by
  rw [laneAcquire_eq, setLaneState, rbit_setFld_of_ne (inv_setBit (inv_setLane l _ h) _ _ _) _ _ _ _ (lanLat_ne_lanStatus l),
    rbit_setBit_self (inv_setLane l _ h) _ _ (by decide)]

/-! ### A loss (R90, R91) -/

/-- The frames that wait as a loss leaves them. -/
def framesLost (s : State) (l : Nat) : List RxFrame :=
  (s.lane l).frames.map (fun f => if f.tick = s.tsb.tick then { f with lost := true }
    else { f with live := f.live || ((decide (s.laneState l = 5) && (s.lane l).joinTick != some s.tsb.tick) && s.rxOnBefore l f.cx) })

theorem laneLose_eq : s.laneLose l = (s.setLane l { s.lane l with frames := s.framesLost l }).laneAcquire l := rfl

theorem laneLose_only {l : Nat} (h : LaneOnly l p s t) (hs : p (Reg.lanStatus l)) (hl : p (Reg.lanLat l)) : LaneOnly l p s (t.laneLose l) :=
  laneAcquire_only (h.setLane _) hs hl

theorem lane_laneLose (h : s.Inv) : (s.laneLose l).lane l = LaneSt.acquiring { s.lane l with frames := s.framesLost l } := by
  rw [laneLose_eq, lane_laneAcquire l (inv_setLane l _ h), lane_setLane_self h]

/-- A loss counted and shown, before its fault (R91). -/
def lossCounted (s : State) (l : Nat) : State :=
  ((s.setLane l { s.lane l with lossTick := some s.tsb.tick, goneTick := none }).count (Reg.lanEvtcnt l) 15 8).setBit (Reg.lanStatus l) 6 true

theorem lossSeen_eq : s.lossSeen l = if (s.lossCounted l).inRun then (s.lossCounted l).fault 3 else s.lossCounted l := rfl

theorem lossCounted_only {l : Nat} (h : LaneOnly l p s t) (he : p (Reg.lanEvtcnt l)) (hs : p (Reg.lanStatus l)) :
    LaneOnly l p s (t.lossCounted l) := ((h.setLane _).count 15 8 1 he).setBit 6 true hs

theorem inv_lossCounted (h : s.Inv) : (s.lossCounted l).Inv :=
  (lossCounted_only (p := fun _ => True) (.refl h) trivial trivial).inv

theorem lossSeen_only {l : Nat} (h : LaneOnly l p s t) (he : p (Reg.lanEvtcnt l)) (hs : p (Reg.lanStatus l)) (hf : p Reg.glbFault) :
    LaneOnly l p s (t.lossSeen l) := .ite ((lossCounted_only h he hs).setBit 3 true hf) (lossCounted_only h he hs)

theorem lane_lossSeen (h : s.Inv) : (s.lossSeen l).lane l = { s.lane l with lossTick := some s.tsb.tick, goneTick := none } := by
  rw [lossSeen_eq]
  split <;> exact lane_setLane_self h _ _

theorem reg_lossSeen (h : s.Inv) {a : Nat} (ha : a ≠ Reg.glbFault) : (s.lossSeen l).reg a = (s.lossCounted l).reg a := by
  rw [lossSeen_eq]
  split
  · exact reg_setBit_of_ne (inv_lossCounted l h) _ _ ha
  · rfl

theorem laneState_lossSeen (h : s.Inv) (l : LaneNo) : (s.lossSeen l).laneState l = s.laneState l := by
  rw [laneState, fld, reg_lossSeen l h (lanStatus_ne_glbFault l)]
  refine (laneState_setBit_status _ (inv_count (inv_setLane _ _ h) _ _ _ _) (by decide) _).trans ?_
  exact congrArg (bitsOf · 2 0) (reg_count_of_ne (inv_setLane _ _ h) _ _ _ (lanEvtcnt_ne_lanStatus l).symm)

theorem lostEvt_lossSeen (h : s.Inv) (l : LaneNo) : (s.lossSeen l).rbit (Reg.lanStatus l) 6 = true := by
  rw [rbit, reg_lossSeen l h (lanStatus_ne_glbFault l)]
  exact rbit_setBit_self (inv_count (inv_setLane _ _ h) _ _ _ _) _ _ (by decide)

theorem losses_lossSeen (h : s.Inv) (l : LaneNo) :
    (s.lossSeen l).fld (Reg.lanEvtcnt l) 15 8 = satAdd 255 (s.fld (Reg.lanEvtcnt l) 15 8) 1 := by
  rw [fld, reg_lossSeen l h (lanEvtcnt_ne_glbFault l)]
  refine (fld_setBit_of_ne (inv_count (inv_setLane _ _ h) _ _ _ _) _ _ _ _ (lanEvtcnt_ne_lanStatus l)).trans ?_
  exact fld_count_self (inv_setLane _ _ h) _ _ (by decide)

theorem inRun_lossCounted (h : s.Inv) (l : LaneNo) : (s.lossCounted l).inRun = s.inRun :=
  (lossCounted_only (p := (· ∈ lossRegs l)) (.refl h) (by simp) (by simp)).inRun (bootStatus_not_mem_lossRegs l)

theorem fault_lossSeen (h : s.Inv) (l : LaneNo) (hr : s.inRun = true) : (s.lossSeen l).rbit Reg.glbFault 3 = true := by
  rw [lossSeen_eq, if_pos (by rw [inRun_lossCounted h, hr])]
  exact rbit_setBit_self (inv_lossCounted _ h) _ _ (by decide)

/-- A REALIGN written in the cycle of a declared loss counts with it (R97). -/
def realignCounted (s : State) (l : Nat) : State :=
  if (s.lane l).realignAt.isSome ∧ (s.lane l).realignTick = some s.tsb.tick then
    (s.setLane l { s.lane l with realignAt := none }).count (Reg.lanEvtcnt l) 7 0 else s

theorem declareLoss_eq : s.declareLoss l = ((s.realignCounted l).laneLose l).lossSeen l := rfl

theorem realignCounted_only {l : Nat} (h : LaneOnly l p s t) (he : p (Reg.lanEvtcnt l)) : LaneOnly l p s (t.realignCounted l) :=
  .ite ((h.setLane _).count 7 0 1 he) h

theorem inv_realignCounted (h : s.Inv) : (s.realignCounted l).Inv := (realignCounted_only (p := fun _ => True) (.refl h) trivial).inv

theorem losses_realignCounted (h : s.Inv) : (s.realignCounted l).fld (Reg.lanEvtcnt l) 15 8 = s.fld (Reg.lanEvtcnt l) 15 8 := by
  unfold realignCounted
  split
  · exact fld_setFld_of_disjoint (inv_setLane _ _ h) _ _ (.inr (by decide)) (by decide)
  · rfl

theorem lane_realignCounted (h : s.Inv) : ∃ x, (s.realignCounted l).lane l = { s.lane l with realignAt := x } := by
  unfold realignCounted
  split
  · exact ⟨none, lane_setLane_self h _ _⟩
  · exact ⟨(s.lane l).realignAt, rfl⟩

/-- What governs a lost frame's delivery: the lane's state, its frames and joining, and its enable. -/
theorem framesLost_congr {x : Option Nat} {y z : Bool} (hl : t.lane l = { s.lane l with realignAt := x, late := y, unlocked := z })
    (ht : t.tsb = s.tsb) (hs : t.laneState l = s.laneState l) (hc : t.rbit (Reg.lanCtrl l) 0 = s.rbit (Reg.lanCtrl l) 0) :
    t.framesLost l = s.framesLost l := by
  have ho (c : Nat) : t.rxOn l c = s.rxOn l c := by simp only [rxOn, hl, hc]
  have hb (c : Nat) : t.rxOnBefore l c = s.rxOnBefore l c := by simp only [rxOnBefore, hl, ht, ho]
  simp only [framesLost, hl, ht, hs, hb]

/-- The lane is declared lost in this cycle: it aligns from ACQUIRE, the loss counts and shows, its frames are lost (R90, R91). -/
structure Lost (l : Nat) (s t : State) : Prop where
  state : t.laneState l = 1
  valid : t.rbit (Reg.lanLat l) 31 = false
  event : t.rbit (Reg.lanStatus l) 6 = true
  losses : t.fld (Reg.lanEvtcnt l) 15 8 = satAdd 255 (s.fld (Reg.lanEvtcnt l) 15 8) 1
  fault : s.inRun = true → t.rbit Reg.glbFault 3 = true
  frames : (t.lane l).frames = s.framesLost l
  deliver : (t.lane l).deliver = (s.lane l).deliver
  only : LaneOnly l (· ∈ lossRegs l) s t

theorem lost_declareLoss (h : s.Inv) (l : LaneNo) : Lost l s (s.declareLoss l) := by
  have hr := inv_realignCounted l h
  have hl : ((s.realignCounted l).laneLose l).Inv := (laneLose_only (p := fun _ => True) (.refl hr) trivial trivial).inv
  have hw : LaneOnly l (· ∈ [Reg.lanStatus l, Reg.lanLat l]) (s.realignCounted l) ((s.realignCounted l).laneLose l) :=
    laneLose_only (.refl hr) (by simp) (by simp)
  have hk := realignCounted_only (l := l) (p := (· ∈ [Reg.lanEvtcnt l])) (.refl h) (by simp)
  obtain ⟨x, hx⟩ := lane_realignCounted (s := s) l h
  rw [declareLoss_eq]
  refine ⟨?_, ?_, lostEvt_lossSeen hl l, ?_, fun hf => fault_lossSeen hl l ?_, ?_, ?_, ?_⟩
  · rw [laneState_lossSeen hl, laneLose_eq, laneState_laneAcquire _ (inv_setLane _ _ hr)]
  · rw [rbit, reg_lossSeen _ hl (lanLat_ne_glbFault l),
      (lossCounted_only (p := (· ∈ [Reg.lanEvtcnt l, Reg.lanStatus l])) (.refl hl) (by simp) (by simp)).writes.kept _ ?_]
    · exact valid_laneAcquire _ (inv_setLane _ _ hr)
    · simp [lanLat_ne_lanStatus, (lanEvtcnt_ne_lanLat l).symm]
  · rw [losses_lossSeen hl, hw.writes.fld, losses_realignCounted _ h]
    simp [lanEvtcnt_ne_lanStatus, lanEvtcnt_ne_lanLat]
  · exact ((laneLose_only (p := (· ∈ lossRegs l)) (realignCounted_only (.refl h) (by simp)) (by simp)
      (by simp)).inRun (bootStatus_not_mem_lossRegs l)).trans hf
  · rw [lane_lossSeen _ hl, lane_laneLose _ hr]
    exact framesLost_congr _ (x := x) hx hk.tsb (hk.writes.fld _ _ (by simp [(lanEvtcnt_ne_lanStatus l).symm]))
      (hk.writes.rbit _ (by simp [lanCtrl_ne_lanEvtcnt]))
  · rw [lane_lossSeen _ hl, lane_laneLose _ hr, hx]; rfl
  · exact lossSeen_only (laneLose_only (realignCounted_only (.refl h) (by simp)) (by simp) (by simp))
      (by simp) (by simp) (by simp)

end State
end Machine

/-! ## A lane locks, joins, realigns, is adopted and is lost (R72, R78, R90 to R94) -/

section
variable {s : State} {l : LaneNo}

theorem laneAcquireLock_frames (h : s.Inv) (hp : s.rxPowered l = true) (hs : s.laneState l ≤ 1) (hq : s.rbit (Reg.lanStatus l) 5 = false) :
    Completes (.laneAcquireLock l) s (fun t =>
      t.laneState l = 2 ∧ t.rbit (Reg.lanLat l) 31 = false ∧ (∀ k, k ≠ l.val → t.lane k = s.lane k) ∧
      RegsKept [Reg.lanStatus l, Reg.lanLat l] s t ∧ t = { s with regs := t.regs, lanes := t.lanes }) := by
  have he : exec (.laneAcquireLock l) s = .next ((s.laneAcquire l).setLaneState l 2) := by
    show execLaneAcquireLock l s = _
    rw [execLaneAcquireLock, if_pos (by simp [hp, hs, hq])]; rfl
  have ha : LaneOnly l (· ∈ [Reg.lanStatus l, Reg.lanLat l]) s (s.laneAcquire l) := State.laneAcquire_only (.refl h) (by simp) (by simp)
  have ht : LaneOnly l (· ∈ [Reg.lanStatus l, Reg.lanLat l]) s ((s.laneAcquire l).setLaneState l 2) := ha.setFld _ _ _ (by simp)
  refine .intro he ⟨State.laneState_setLaneState _ ha.inv (by decide), ?_, ht.others, ht.regsKept, ht.rest⟩
  rw [State.setLaneState, State.rbit_setFld_of_ne ha.inv _ _ _ _ (lanLat_ne_lanStatus l), State.valid_laneAcquire _ h]

/-- A frame checked in the cycle of the loss is dark; one checked before it is delivered as for a LIVE lane where the lane was one (R91). -/
theorem mem_framesLost {f : RxFrame} (hf : f ∈ s.framesLost l) : (f.tick = s.tsb.tick → f.lost = true) ∧
    (s.laneState l = 5 → (s.lane l).joinTick ≠ some s.tsb.tick → f.tick ≠ s.tsb.tick → s.rxOnBefore l f.cx = true → f.live = true) := by
  obtain ⟨g, -, rfl⟩ := List.mem_map.1 hf
  split
  · exact ⟨fun _ => rfl, fun _ _ hn => absurd ‹_› hn⟩
  · exact ⟨fun hn => absurd hn ‹_›, fun h5 hj _ ho => by simp [h5, hj, ho]⟩

theorem exec_laneLoss (hg : (s.lane l).goneTick ≠ some s.tsb.tick) (h4 : 4 ≤ s.laneState l) (h6 : s.laneState l ≤ 6) (h : s.Inv) :
    exec (.laneLoss l) s = .next ((s.setLane l { s.lane l with unlocked := true }).declareLoss l) := by
  have hh : (s.setLane l { s.lane l with unlocked := true }).lossHolds l = true := by
    simp [State.lossHolds, State.lane_setLane_self h]
  show execLaneLoss l s = _
  rw [execLaneLoss, if_neg hg, if_neg (by omega), State.judgeLoss, if_pos ⟨h4, h6, hh⟩]; rfl

theorem laneLoss_loses (h : s.Inv) (h4 : 4 ≤ s.laneState l) (h6 : s.laneState l ≤ 6) (hg : (s.lane l).goneTick ≠ some s.tsb.tick) :
    Completes (.laneLoss l) s (fun t =>
      t.laneState l = 1 ∧ t.rbit (Reg.lanLat l) 31 = false ∧ t.rbit (Reg.lanStatus l) 6 = true ∧
      t.fld (Reg.lanEvtcnt l) 15 8 = satAdd 255 (s.fld (Reg.lanEvtcnt l) 15 8) 1 ∧
      (s.inRun = true → t.rbit Reg.glbFault 3 = true) ∧
      (∀ f ∈ (t.lane l).frames, f.tick = s.tsb.tick → f.lost = true) ∧
      (s.laneState l = 5 → (s.lane l).joinTick ≠ some s.tsb.tick →
        ∀ f ∈ (t.lane l).frames, f.tick ≠ s.tsb.tick → s.rxOnBefore l f.cx = true → f.live = true) ∧
      (∀ k, k ≠ l.val → t.lane k = s.lane k) ∧
      RegsKept [Reg.lanStatus l, Reg.lanLat l, Reg.lanEvtcnt l, Reg.glbFault] s t ∧ t = { s with regs := t.regs, lanes := t.lanes }) := by
  have hu : LaneOnly l (· ∈ lossRegs l) s (s.setLane l { s.lane l with unlocked := true }) := (LaneOnly.refl h).setLane _
  have d := State.lost_declareLoss hu.inv l
  have ho := hu.trans d.only
  have hf : (((s.setLane l { s.lane l with unlocked := true }).declareLoss l).lane l).frames = s.framesLost l :=
    d.frames.trans (State.framesLost_congr _ (State.lane_setLane_self h _ _) rfl rfl rfl)
  refine .intro (exec_laneLoss hg h4 h6 h) ⟨d.state, d.valid, d.event, d.losses, d.fault, ?_, ?_, ho.others, ho.regsKept, ho.rest⟩
  · rw [hf]; exact fun f hm => (mem_framesLost hm).1
  · rw [hf]; exact fun h5 hj f hm => (mem_framesLost hm).2 h5 hj

/-- The lane was taken by a commanded loss in this same cycle: its loss counts and nothing else changes (R97). -/
theorem laneLoss_counts (h : s.Inv) (hg : (s.lane l).goneTick = some s.tsb.tick) : Completes (.laneLoss l) s (fun t =>
      t.laneState l = s.laneState l ∧ (t.lane l).frames = (s.lane l).frames ∧ t.rbit (Reg.lanStatus l) 6 = true ∧
      t.fld (Reg.lanEvtcnt l) 15 8 = satAdd 255 (s.fld (Reg.lanEvtcnt l) 15 8) 1 ∧ (∀ k, k ≠ l.val → t.lane k = s.lane k) ∧
      RegsKept [Reg.lanStatus l, Reg.lanEvtcnt l, Reg.glbFault] s t ∧ t = { s with regs := t.regs, lanes := t.lanes }) := by
  have he : exec (.laneLoss l) s = .next (s.lossSeen l) := by
    show execLaneLoss l s = _
    rw [execLaneLoss, if_pos hg]; rfl
  have ho : LaneOnly l (· ∈ [Reg.lanStatus l, Reg.lanEvtcnt l, Reg.glbFault]) s (s.lossSeen l) :=
    State.lossSeen_only (.refl h) (by simp) (by simp) (by simp)
  refine .intro he ⟨State.laneState_lossSeen h l, ?_, State.lostEvt_lossSeen h l, State.losses_lossSeen h l, ho.others, ho.regsKept, ho.rest⟩
  rw [State.lane_lossSeen _ h]

theorem laneJoin_joins (h : s.Inv) (hs : s.laneState l = 4) (hp : s.planeRuns = true) (hr : s.tsb.ret = .none) (hc : s.tsb.crossing = 0)
    (h0 : s.tsb.slot = 0) (hw : (s.lane l).joinSince + s.M ≤ s.tsb.tick) : Completes (.laneJoin l) s (fun t =>
      t.laneState l = 5 ∧ (∀ i, 3 ≤ i → t.rbit (Reg.lanStatus l) i = s.rbit (Reg.lanStatus l) i) ∧
      (t.lane l).frames = (s.lane l).frames ∧ (∀ k, k ≠ l.val → t.lane k = s.lane k) ∧
      RegsKept [Reg.lanStatus l] s t ∧ t = { s with regs := t.regs, lanes := t.lanes }) := by
  have he : exec (.laneJoin l) s = .next ((s.setLane l { s.lane l with joinTick := some s.tsb.tick }).setLaneState l 5) := by
    show execLaneJoin l s = _
    rw [execLaneJoin, if_pos ⟨hs, hp, hr, hc, h0, hw⟩]; rfl
  have hl := State.inv_setLane l { s.lane l with joinTick := some s.tsb.tick } h
  have ho : LaneOnly l (· ∈ [Reg.lanStatus l]) s ((s.setLane l { s.lane l with joinTick := some s.tsb.tick }).setLaneState l 5) :=
    ((LaneOnly.refl h).setLane _).setFld _ _ _ (by simp)
  refine .intro he ⟨State.laneState_setLaneState _ hl (by decide), fun i hi => State.rbit_setFld_of_disjoint hl _ _ (.inr hi), ?_,
    ho.others, ho.regsKept, ho.rest⟩
  rw [State.lane_setLaneState, State.lane_setLane_self h]

theorem exec_laneJoin_waits (hw : s.tsb.crossing ≠ 0 ∨ s.tsb.tick < (s.lane l).joinSince + s.M) : exec (.laneJoin l) s = .next s := by
  show execLaneJoin l s = _
  rw [execLaneJoin, if_neg]
  · rfl
  · rintro ⟨-, -, -, hc, -, hm⟩
    exact hw.elim (fun h => h hc) (fun h => by omega)

theorem laneRealign_waits (h : s.Inv) (hl : (s.lane l).lossTick ≠ some s.tsb.tick) : Completes (.laneRealign l) s (fun t =>
      (t.lane l).realignAt = some (s.tsb.cx + 1) ∧ (∀ k, k ≠ l.val → t.lane k = s.lane k) ∧ t = { s with lanes := t.lanes }) := by
  have he : exec (.laneRealign l) s =
      .next (s.setLane l { s.lane l with realignAt := some (s.tsb.cx + 1), realignTick := some s.tsb.tick }) := by
    show (s.laneRealign l).go = _
    rw [State.laneRealign, if_neg hl]; rfl
  refine .intro he ⟨?_, fun k => State.lane_setLane_of_ne h _, rfl⟩
  rw [State.lane_setLane_self h]

theorem laneRealign_counts (h : s.Inv) (hl : (s.lane l).lossTick = some s.tsb.tick) : Completes (.laneRealign l) s (fun t =>
      t.fld (Reg.lanEvtcnt l) 7 0 = satAdd 255 (s.fld (Reg.lanEvtcnt l) 7 0) 1 ∧ RegsKept [Reg.lanEvtcnt l] s t ∧
      t = { s with regs := t.regs }) := by
  have he : exec (.laneRealign l) s = .next (s.count (Reg.lanEvtcnt l) 7 0) := by
    show (s.laneRealign l).go = _
    rw [State.laneRealign, if_pos hl]; rfl
  exact .intro he ⟨State.fld_count_self h _ _ (by decide), ((WritesOnly.refl h).count 7 0 1 (by simp)).regsKept, rfl⟩

/-- The lane joins the ADOPT trigger that waits, or a new one stands for it (R353, R354). -/
theorem trigger_adopt_mem (l : Nat) : ∃ ls, AdmTrigger.adopt ls ∈ (s.trigger (.adopt [l])).adm.waiting ∧ l ∈ ls := by
  unfold State.trigger
  dsimp only
  split
  next hw =>
    obtain ⟨x, hx, ha⟩ := List.any_eq_true.1 hw
    cases x with
    | adopt ls => exact ⟨_, List.mem_map.2 ⟨_, hx, rfl⟩, by by_cases h : l ∈ ls <;> simp [h]⟩
    | _ => simp at ha
  next => exact ⟨[l], by simp [State.placed], by simp⟩

theorem laneAdopt_asks (h : s.Inv) (hs : s.laneState l = 6) : Completes (.laneAdopt l) s (fun t =>
      (∃ ls, .adopt ls ∈ t.adm.waiting ∧ l.val ∈ ls) ∧
      t.fld Reg.admStatus 26 24 = t.adm.waiting.length % 8 ∧ RegsKept [Reg.admStatus] s t ∧
      t = { s with regs := t.regs, adm := { s.adm with waiting := t.adm.waiting, fresh := t.adm.fresh } }) := by
  have he : exec (.laneAdopt l) s = .next (s.trigger (.adopt [l.val])) := by
    show (s.laneAdopt l).go = _
    rw [State.laneAdopt, if_pos hs]; rfl
  exact .intro he ⟨trigger_adopt_mem l, State.fld_setFld_self h _ _ (by decide), ((WritesOnly.refl h).setFld 26 24 _ (by simp)).kept, rfl⟩

theorem exec_laneAdopt_other (hs : s.laneState l ≠ 6) : exec (.laneAdopt l) s = .next s := by
  show (s.laneAdopt l).go = _
  rw [State.laneAdopt, if_neg hs]; rfl

end

/-- Settles O15: command by command. -/
theorem lanesLockJoinAndAreLost : Obligations.LanesLockJoinAndAreLost :=
  ⟨fun _ _ h => ⟨laneAcquireLock_frames h, laneLoss_loses h, laneLoss_counts h⟩,
   fun _ _ h => ⟨laneJoin_joins h, fun _ => exec_laneJoin_waits, laneRealign_waits h, laneRealign_counts h, laneAdopt_asks h,
     exec_laneAdopt_other⟩⟩

end Sys2Proof
end

/-! ## A delivery follows Table 7 (R82, R87, R88, R90, R96) -/
section
namespace Sys2Proof
open Sys2Proof.Machine

namespace Machine

theorem lanErrcnt_ne_lanEvtcnt (l : Nat) : Reg.lanErrcnt l ≠ Reg.lanEvtcnt l := lan_ne_lan (by decide)
theorem lanErrcnt_ne_lanStatus (l : Nat) : Reg.lanErrcnt l ≠ Reg.lanStatus l := lan_ne_lan (by decide)

namespace State
variable {s t : State} {p : Nat → Prop}

/-- The lane starts to deliver these words; frames of this crossing and of those past wait no longer (R82). -/
def delivering (s : State) (l : Nat) (ws : List FWord) (dark sreset : Bool) : LaneSt :=
  { s.lane l with
    frames := (s.lane l).frames.filter (fun f => decide (s.tsb.cx < f.cx))
    deliver := some { start := s.tsb.tick, x := s.absOf (s.crossingPlus (-(s.fld (Reg.lanEq l) 29 24 : Int))), words := ws, dark := dark,
                      sreset := sreset } }

/-- The words of MARK DARK that a lane delivers with its region number, and those that a row of Table 7 delivers. -/
def darkWords (s : State) (l : Nat) : List FWord := List.replicate (s.laneW l) (FWord.dark (0x100 + l))
def rowWords (s : State) (l : Nat) (f : RxFrame) : List FWord :=
  if f.row = 4 then s.darkWords l else if f.row = 7 then f.words else List.replicate (s.laneW l) (FWord.poison 2)

/-- A delivered row counts in its counter (Table 7). -/
def rowCounted (s : State) (l row : Nat) : State :=
  if row = 2 then s.count (Reg.lanEvtcnt l) 31 24
  else if row = 3 then (s.count (Reg.lanEvtcnt l) 23 16).setBit (Reg.lanStatus l) 7 true
  else if row = 6 then s.count (Reg.lanErrcnt l) 31 16 else s

theorem rowCounted_only {l : Nat} (h : LaneOnly l p s t) (row : Nat) (hv : p (Reg.lanEvtcnt l))
    (hr : p (Reg.lanErrcnt l)) (hs : p (Reg.lanStatus l)) :
    LaneOnly l p s (t.rowCounted l row) :=
  .ite (h.count _ _ _ hv) (.ite ((h.count _ _ _ hv).setBit _ _ hs) (.ite (h.count _ _ _ hr) h))

theorem lane_rowCounted (l row j : Nat) : (s.rowCounted l row).lane j = s.lane j := by unfold rowCounted; split_ifs <;> rfl

theorem laneState_rowCounted (h : s.Inv) (l row : Nat) : (s.rowCounted l row).laneState l = s.laneState l := by
  unfold rowCounted laneState
  split_ifs
  · exact fld_setFld_of_ne h _ _ _ _ _ (lanEvtcnt_ne_lanStatus l).symm
  · exact (laneState_setBit_status l (inv_count h _ _ _ _) (by decide) _).trans (fld_setFld_of_ne h _ _ _ _ _ (lanEvtcnt_ne_lanStatus l).symm)
  · exact fld_setFld_of_ne h _ _ _ _ _ (lanErrcnt_ne_lanStatus l).symm
  · rfl

theorem badHeaders_rowCounted (h : s.Inv) (l row : Nat) : (s.rowCounted l row).fld (Reg.lanEvtcnt l) 31 24 =
    satAdd 255 (s.fld (Reg.lanEvtcnt l) 31 24) (if row = 2 then 1 else 0) := by
  have hz := satAdd_zero (s.fld_le (Reg.lanEvtcnt l) 31 24)
  unfold rowCounted
  split_ifs
  · exact fld_count_self h _ _ (by decide)
  · refine (fld_setBit_of_ne (inv_count h _ _ _ _) _ _ _ _ (lanEvtcnt_ne_lanStatus l)).trans (Eq.trans ?_ hz.symm)
    exact fld_setFld_of_disjoint h _ _ (.inr (by decide)) (by decide)
  · exact (fld_setFld_of_ne h _ _ _ _ _ (lanErrcnt_ne_lanEvtcnt l).symm).trans hz.symm
  · exact hz.symm

theorem badCrossings_rowCounted (h : s.Inv) (l row : Nat) : (s.rowCounted l row).fld (Reg.lanEvtcnt l) 23 16 =
    satAdd 255 (s.fld (Reg.lanEvtcnt l) 23 16) (if row = 3 then 1 else 0) := by
  unfold rowCounted
  by_cases h3 : row = 3
  · rw [if_neg (by omega), if_pos h3, if_pos h3, fld_setBit_of_ne (inv_count h _ _ _ _) _ _ _ _ (lanEvtcnt_ne_lanStatus l)]
    exact fld_count_self h _ _ (by decide)
  rw [if_neg h3, if_neg h3]
  refine Eq.trans ?_ (satAdd_zero (s.fld_le (Reg.lanEvtcnt l) 23 16)).symm
  split_ifs
  · exact fld_setFld_of_disjoint h _ _ (.inl (by decide)) (by decide)
  · exact fld_setFld_of_ne h _ _ _ _ _ (lanErrcnt_ne_lanEvtcnt l).symm
  · rfl

theorem badChecks_rowCounted (h : s.Inv) (l row : Nat) : (s.rowCounted l row).fld (Reg.lanErrcnt l) 31 16 =
    satAdd 65535 (s.fld (Reg.lanErrcnt l) 31 16) (if row = 6 then 1 else 0) := by
  unfold rowCounted
  by_cases h6 : row = 6
  · rw [if_neg (by omega), if_neg (by omega), if_pos h6, if_pos h6]
    exact fld_count_self h _ _ (by decide)
  rw [if_neg h6, if_neg h6]
  refine Eq.trans ?_ (satAdd_zero (s.fld_le (Reg.lanErrcnt l) 31 16)).symm
  split_ifs
  · exact fld_setFld_of_ne h _ _ _ _ _ (lanErrcnt_ne_lanEvtcnt l)
  · rw [fld_setBit_of_ne (inv_count h _ _ _ _) _ _ _ _ (lanErrcnt_ne_lanStatus l)]
    exact fld_setFld_of_ne h _ _ _ _ _ (lanErrcnt_ne_lanEvtcnt l)
  · rfl

/-- An aligned lane for which a condition of R90 holds. -/
def losesNow (s : State) (l : Nat) : Prop := 4 ≤ s.laneState l ∧ s.laneState l ≤ 6 ∧ s.lossHolds l = true

theorem judgeLoss_of_losesNow {l : Nat} (h : s.losesNow l) : s.judgeLoss l = s.declareLoss l := if_pos h
theorem judgeLoss_of_not_losesNow {l : Nat} (h : ¬s.losesNow l) : s.judgeLoss l = s := if_neg h

end State
end Machine

section
variable {s : State} {l : LaneNo}

/-- A delivery is due: the plane runs, the lane receives, slot DS begins, and the lane has not begun yet (R82). -/
structure DeliveryDue (s : State) (l : LaneNo) : Prop where
  plane : s.planeRuns = true
  mode : s.rxMode l ≠ 0
  slot : s.fld (Reg.lanEq l) 22 16 = s.tsb.slot
  fresh : (s.lane l).deliver.map (·.start) ≠ some s.tsb.tick

/-- A LIVE lane with RX_EN = 1 delivers a frame as its row says, and so does one that was so when it was lost after the frame was checked. -/
def deliversRow (s : State) (l : LaneNo) (f : RxFrame) : Prop :=
  f.lost = false ∧ ((s.laneState l = 5 ∧ s.rxOn l s.tsb.cx = true) ∨ f.live = true)

theorem deliversRow_iff {f : RxFrame} : (f.lost || !((decide (s.laneState l = 5) && s.rxOn l s.tsb.cx) || f.live)) = false ↔ deliversRow s l f := by
  simp only [deliversRow, Bool.or_eq_false_iff, Bool.not_eq_false', Bool.or_eq_true, Bool.and_eq_true, decide_eq_true_eq]

theorem exec_frameDelivery_row (hd : DeliveryDue s l) {f : RxFrame} (hf : (s.lane l).frames.find? (fun g => g.cx == s.tsb.cx) = some f)
    (ho : deliversRow s l f) : exec (.frameDelivery l) s =
      .next ((s.setLane l (s.delivering l (s.rowWords l f) f.dark f.sreset)).rowCounted l f.row) := by
  show execFrameDelivery l s = _
  rw [execFrameDelivery, if_neg (by simp [hd.plane, hd.mode, hd.slot, hd.fresh])]
  dsimp only
  rw [hf]
  dsimp only
  rw [if_neg (Bool.eq_false_iff.1 (deliversRow_iff.2 ho))]; rfl

theorem exec_frameDelivery_dark (hd : DeliveryDue s l) {f : RxFrame} (hf : (s.lane l).frames.find? (fun g => g.cx == s.tsb.cx) = some f)
    (ho : ¬deliversRow s l f) : exec (.frameDelivery l) s =
      .next (s.setLane l (s.delivering l (s.darkWords l) f.dark f.sreset)) := by
  show execFrameDelivery l s = _
  rw [execFrameDelivery, if_neg (by simp [hd.plane, hd.mode, hd.slot, hd.fresh])]
  dsimp only
  rw [hf]
  dsimp only
  rw [if_pos (by rwa [← Bool.not_eq_false, deliversRow_iff])]; rfl

/-- A LIVE lane that begins a delivery with no frame waiting is late (R90). -/
def lateDelivery (s : State) (l : LaneNo) : State :=
  s.setLane l { s.delivering l (s.darkWords l) false false with late := (s.lane l).late || decide (s.laneState l = 5) }

theorem exec_frameDelivery_none (hd : DeliveryDue s l) (hf : (s.lane l).frames.find? (fun g => g.cx == s.tsb.cx) = none) :
    exec (.frameDelivery l) s = .next ((lateDelivery s l).judgeLoss l) := by
  show execFrameDelivery l s = _
  rw [execFrameDelivery, if_neg (by simp [hd.plane, hd.mode, hd.slot, hd.fresh])]
  dsimp only
  rw [hf]; rfl

theorem frameDelivery_delivers (h : s.Inv) (hd : DeliveryDue s l) {f : RxFrame}
    (hf : (s.lane l).frames.find? (fun g => g.cx == s.tsb.cx) = some f) : Completes (.frameDelivery l) s (fun t =>
        (∃ d, (t.lane l).deliver = some d ∧ d.start = s.tsb.tick ∧ d.dark = f.dark ∧ d.sreset = f.sreset ∧
          (¬deliversRow s l f → d.words = List.replicate (s.laneW l) (FWord.dark (0x100 + l.val))) ∧
          (deliversRow s l f → d.words = (if f.row = 4 then List.replicate (s.laneW l) (FWord.dark (0x100 + l.val))
            else if f.row = 7 then f.words else List.replicate (s.laneW l) (FWord.poison 2)))) ∧
        (deliversRow s l f → t.fld (Reg.lanEvtcnt l) 31 24 = satAdd 255 (s.fld (Reg.lanEvtcnt l) 31 24) (if f.row = 2 then 1 else 0) ∧
          t.fld (Reg.lanEvtcnt l) 23 16 = satAdd 255 (s.fld (Reg.lanEvtcnt l) 23 16) (if f.row = 3 then 1 else 0) ∧
          t.fld (Reg.lanErrcnt l) 31 16 = satAdd 65535 (s.fld (Reg.lanErrcnt l) 31 16) (if f.row = 6 then 1 else 0)) ∧
        (¬deliversRow s l f → t.regs = s.regs) ∧ t.laneState l = s.laneState l ∧
        (∀ k, k ≠ l.val → t.lane k = s.lane k) ∧ RegsKept [Reg.lanEvtcnt l, Reg.lanErrcnt l, Reg.lanStatus l] s t ∧
        t = { s with regs := t.regs, lanes := t.lanes }) := by
  by_cases ho : deliversRow s l f
  · have hs : LaneOnly l (· ∈ [Reg.lanEvtcnt l, Reg.lanErrcnt l, Reg.lanStatus l]) s
        (s.setLane l (s.delivering l (s.rowWords l f) f.dark f.sreset)) := (LaneOnly.refl h).setLane _
    have ht := State.rowCounted_only hs f.row (by simp) (by simp) (by simp)
    refine .intro (exec_frameDelivery_row hd hf ho) ⟨⟨_,
      congrArg LaneSt.deliver ((State.lane_rowCounted ..).trans (State.lane_setLane_self h _ _)), rfl, rfl, rfl,
      fun hn => absurd ho hn, fun _ => rfl⟩,
      fun _ => ⟨State.badHeaders_rowCounted hs.inv _ _, State.badCrossings_rowCounted hs.inv _ _, State.badChecks_rowCounted hs.inv _ _⟩,
      fun hn => absurd ho hn, State.laneState_rowCounted hs.inv _ _, ht.others, ht.regsKept, ht.rest⟩
  · have hs : LaneOnly l (· ∈ [Reg.lanEvtcnt l, Reg.lanErrcnt l, Reg.lanStatus l]) s
        (s.setLane l (s.delivering l (s.darkWords l) f.dark f.sreset)) := (LaneOnly.refl h).setLane _
    refine .intro (exec_frameDelivery_dark hd hf ho) ⟨⟨_, congrArg LaneSt.deliver (State.lane_setLane_self h _ _), rfl, rfl, rfl,
      fun _ => rfl, fun hn => absurd hn ho⟩,
      fun hn => absurd hn ho, fun _ => rfl, rfl, hs.others, hs.regsKept, hs.rest⟩

theorem frameDelivery_missing (h : s.Inv) (hd : DeliveryDue s l) (hf : (s.lane l).frames.find? (fun g => g.cx == s.tsb.cx) = none) :
    Completes (.frameDelivery l) s (fun t =>
      (∃ d, (t.lane l).deliver = some d ∧ d.start = s.tsb.tick ∧ d.words = List.replicate (s.laneW l) (FWord.dark (0x100 + l.val))) ∧
      (s.laneState l = 5 → t.laneState l = 1 ∧ t.rbit (Reg.lanLat l) 31 = false ∧ t.rbit (Reg.lanStatus l) 6 = true ∧
        t.fld (Reg.lanEvtcnt l) 15 8 = satAdd 255 (s.fld (Reg.lanEvtcnt l) 15 8) 1) ∧
      (∀ k, k ≠ l.val → t.lane k = s.lane k) ∧
      RegsKept [Reg.lanEvtcnt l, Reg.lanStatus l, Reg.lanLat l, Reg.glbFault] s t ∧ t = { s with regs := t.regs, lanes := t.lanes }) := by
  have hs : LaneOnly l (· ∈ lossRegs l) s (lateDelivery s l) := (LaneOnly.refl h).setLane _
  have hl : (lateDelivery s l).lane l = _ := State.lane_setLane_self h _ _
  have hp : ∀ a, a ∈ lossRegs l → a ∈ [Reg.lanEvtcnt l, Reg.lanStatus l, Reg.lanLat l, Reg.glbFault] := by
    intro a; simp; tauto
  refine .intro (exec_frameDelivery_none hd hf) ?_
  by_cases hj : (lateDelivery s l).losesNow l
  · have d := State.lost_declareLoss hs.inv l
    have ho := (hs.trans d.only).mono hp
    rw [State.judgeLoss_of_losesNow hj]
    exact ⟨⟨_, d.deliver.trans (congrArg LaneSt.deliver hl), rfl, rfl⟩, fun _ => ⟨d.state, d.valid, d.event, d.losses⟩, ho.others,
      ho.regsKept, ho.rest⟩
  · have ho := hs.mono hp
    have hn : s.laneState l ≠ 5 := fun h5 => hj ⟨h5.symm ▸ by decide, h5.symm ▸ by decide, by
      simp [State.lossHolds, hl, h5, show (lateDelivery s l).laneState l = 5 from h5]⟩
    rw [State.judgeLoss_of_not_losesNow hj]
    exact ⟨⟨_, congrArg LaneSt.deliver hl, rfl, rfl⟩, fun h5 => absurd h5 hn, ho.others, ho.regsKept, ho.rest⟩

end

/-- Settles O17: with a frame by whether the lane delivers its row, and without one by whether the lane is lost. -/
theorem deliveryFollowsTable7 : Obligations.DeliveryFollowsTable7 := fun s l h hp hm hs hf =>
  have hd : DeliveryDue s l := ⟨hp, hm, hs, hf⟩
  ⟨fun _ => frameDelivery_delivers h hd, frameDelivery_missing h hd⟩

end Sys2Proof
end

/-! ## Reading memories and draining a ring leave the lanes as they are (R101, R411 to R414, R420) -/
section
namespace Sys2Proof
open Sys2Proof.Machine

namespace Machine

/-- The address lies in no lane's register window. -/
def offLanes (a : Nat) : Prop := a < 0x3000000000 ∨ 0x30000F0000 ≤ a

theorem offLanes_glb (x : Nat) : offLanes (Reg.glb x) := .inr (by unfold Reg.glb; omega)
theorem offLanes_drzStatus (d : Nat) : offLanes (Reg.drzStatus d) := by
  unfold offLanes Reg.drzStatus Reg.drz Reg.sec Reg.secBase; omega
theorem not_offLanes_lan (l : LaneNo) {x : Nat} (hx : x < 0x1000) : ¬offLanes (Reg.lan l x) := by
  unfold offLanes Reg.lan; omega

/-- From `s` to `t` the lanes and their registers stand. -/
structure LanesKept (s t : State) : Prop where
  writes : WritesOnly offLanes s t
  lanes : t.lanes = s.lanes

namespace LanesKept
variable {s t u : State}

theorem refl (h : s.Inv) : LanesKept s s := ⟨.refl h, rfl⟩
theorem setReg (h : LanesKept s t) {a : Nat} (w : W32) (ha : offLanes a) : LanesKept s (t.setReg a w) := ⟨h.writes.setReg w ha, h.lanes⟩
theorem setFld (h : LanesKept s t) {a : Nat} (hi lo v : Nat) (ha : offLanes a) : LanesKept s (t.setFld a hi lo v) := h.setReg _ ha
theorem setBit (h : LanesKept s t) {a : Nat} (i : Nat) (b : Bool) (ha : offLanes a) : LanesKept s (t.setBit a i b) := h.setReg _ ha
theorem count (h : LanesKept s t) {a : Nat} (hi lo n : Nat) (ha : offLanes a) : LanesKept s (t.count a hi lo n) := h.setReg _ ha
theorem same (h : LanesKept s t) (hi : t.Inv → u.Inv) (hr : u.regs = t.regs) (hl : u.lanes = t.lanes) : LanesKept s u :=
  ⟨h.writes.same hi hr, hl.trans h.lanes⟩
theorem ite {c : Prop} [Decidable c] (ht : LanesKept s t) (hu : LanesKept s u) : LanesKept s (if c then t else u) := by
  split <;> assumption

theorem lane (h : LanesKept s t) (k : Nat) : t.lane k = s.lane k := by rw [State.lane, h.lanes]; rfl
theorem fld (h : LanesKept s t) (l : LaneNo) {x : Nat} (hx : x < 0x1000) (hi lo : Nat) : t.fld (Reg.lan l x) hi lo = s.fld (Reg.lan l x) hi lo :=
  h.writes.fld _ _ (not_offLanes_lan l hx)

/-- Memory protection's own tables, the ports' notes and the start's state are none of the lanes. -/
theorem beside (h : LanesKept s t) {x : Prot} (y : Ports) (z : Boot) (hx : x.flips = t.prot.flips) :
    LanesKept s { t with prot := x, ports := y, boot := z } :=
  h.same (fun i => i.of_eq ⟨rfl, rfl, rfl, rfl, rfl, rfl, rfl, rfl, rfl, rfl, rfl, rfl, hx⟩) rfl rfl

theorem setDrz (h : LanesKept s t) (d : Nat) (z : Drz) : LanesKept s (t.setDrz d z) :=
  h.same (State.setDrz_still (.refl t) d z).inv rfl rfl

theorem rptPlace (h : LanesKept s t) (i k b : Nat) : LanesKept s (t.rptPlace i k b) := by
  unfold State.rptPlace
  exact ((h.setReg (a := Reg.memRptId i) _ (offLanes_glb _)).setReg (a := Reg.memRptRow i) _ (offLanes_glb _)).beside _ _ rfl

theorem rewriteDue (h : LanesKept s t) (k : Nat) : LanesKept s (t.rewriteDue k) := .ite h (h.beside _ _ rfl)

/-- A row is offered to the repeat table: it takes a free entry or the victim's, or its own entry counts on. -/
theorem rptOffer (h : LanesKept s t) (k b : Nat) : LanesKept s (t.rptOffer k b) := by
  unfold State.rptOffer
  split
  · exact h
  split
  · refine rewriteDue ?_ k
    split
    · exact h.rptPlace _ _ _
    · exact ((h.rptPlace _ _ _).count (a := Reg.memCnt2) _ _ _ (offLanes_glb _)).setBit (a := Reg.memStatus) _ _ (offLanes_glb _)
  next i _ =>
    split
    · have h1 := (h.setFld (a := Reg.memRptRow i) 28 22 b (offLanes_glb _)).rewriteDue k
      generalize (t.setFld (Reg.memRptRow i) 28 22 b).rewriteDue k = u at h1 ⊢
      have hw := h1.beside (x := { u.prot with written := u.prot.written.filter (· != k) }) u.ports u.boot rfl
      have hc := hw.setFld (a := Reg.memRptRow i) 30 29 (t.fld (Reg.memRptRow i) 30 29 + 1) (offLanes_glb _)
      exact .ite hw (.ite (hw.beside _ _ rfl) (.ite (hc.beside _ _ rfl) hc))
    · exact h

theorem corrected (h : LanesKept s t) (k : Nat) : LanesKept s (t.corrected k) := by
  have h1 := h.setBit (a := Reg.memStatus) 0 true (offLanes_glb _)
  exact .ite ((h1.count (a := Reg.memCnt0) 31 16 1 (offLanes_glb _)).rptOffer k _) (h1.count (a := Reg.memCnt0) 15 0 1 (offLanes_glb _))

theorem correctedBy (h : LanesKept s t) (k : Nat) (f : Found) : LanesKept s (t.correctedBy k f) :=
  .ite (h.corrected k) (.ite h ((h.corrected k).beside _ _ rfl))

theorem uncorrectable (h : LanesKept s t) (k : Nat) (f : Found) : LanesKept s (t.uncorrectable k f) := by
  have h1 := h.setBit (a := Reg.memStatus) 1 true (offLanes_glb _)
  have h2 := ((h1.count (a := Reg.memCnt1) 31 16 1 (offLanes_glb _)).setReg (a := Reg.memLastUe0) (BitVec.ofNat 32 (keyMem k * 2 ^ 16))
    (offLanes_glb _)).setReg (a := Reg.memLastUe1) (BitVec.ofNat 32 (f.code * 2 ^ 30 + keyRow k)) (offLanes_glb _)
  have h3 := h2.setBit (a := Reg.glbFault) 7 true (offLanes_glb _)
  exact .ite (.ite h2 (h3.beside _ _ rfl)) (h1.count (a := Reg.memCnt1) 15 0 1 (offLanes_glb _))

theorem readRow (h : LanesKept s t) (k : Nat) (f : Found) : LanesKept s (t.readRow k f).1 := by
  unfold State.readRow
  dsimp only
  split_ifs
  · exact h
  · exact h.correctedBy k f
  · exact h.uncorrectable k f

theorem readRows (l : List Nat) (f : Found) {r : State × Bool} (h : LanesKept s r.1) :
    LanesKept s (l.foldl (fun r k => let q := r.1.readRow k f; (q.1, r.2 || q.2)) r).1 := by
  induction l generalizing r with
  | nil => exact h
  | cons k l ih => exact ih (h.readRow k f)

theorem read (h : LanesKept s t) (a n : Nat) (f : Found) : LanesKept s (t.read a n f).1 := by
  unfold State.read
  split
  · exact h
  · exact readRows _ f h

/-- A read for derandomizer `d`, which shows an uncorrectable row in its status. -/
theorem readShown (h : LanesKept s t) (a d : Nat) :
    LanesKept s (if (t.read a 2).2 then (t.read a 2).1.setBit (Reg.drzStatus d) 27 true else (t.read a 2).1) :=
  .ite ((h.read a 2 _).setBit 27 true (offLanes_drzStatus d)) (h.read a 2 _)

theorem takePacket (h : LanesKept s t) (d : Nat) : LanesKept s (t.takePacket d) := by
  unfold State.takePacket
  dsimp only
  split
  · exact .ite h ((h.readShown _ d).setDrz d _)
  · exact h

theorem drzSend (h : LanesKept s t) (d n : Nat) : LanesKept s (t.drzSend d n).1 := by
  induction n generalizing t with
  | zero => exact h
  | succ n ih =>
    unfold State.drzSend
    dsimp only
    split
    · exact h
    · exact ih ((h.readShown _ d).setDrz d _)

theorem readoutWords (h : LanesKept s t) (d n i : Nat) (f : Option Nat) : LanesKept s (t.readoutWords d n i f).1 := by
  induction n generalizing t i f with
  | zero => exact h
  | succ n ih =>
    unfold State.readoutWords
    dsimp only
    split
    · exact h.takePacket d
    · exact ih ((h.takePacket d).drzSend d 1) _ _

end LanesKept
end Machine
end Sys2Proof
end

/-! ## A sent frame is well formed (R73 to R75, R98 to R103) -/
section
namespace Sys2Proof
open Sys2Proof.Machine

namespace Machine

/-! ### The checks of a frame (R75) -/

theorem crcStep_lt {w poly r : Nat} (hp : poly < 2 ^ w) (b : Bool) : crcStep w poly r b < 2 ^ w := by
  have hr : r * 2 % 2 ^ w < 2 ^ w := Nat.mod_lt _ (Nat.two_pow_pos _)
  unfold crcStep
  dsimp only
  split
  · exact Nat.xor_lt_two_pow hr hp
  · exact hr

theorem crcBits_lt {w poly init : Nat} (hp : poly < 2 ^ w) (hi : init < 2 ^ w) (l : List Bool) : crcBits w poly init l < 2 ^ w := by
  induction l generalizing init with
  | nil => exact hi
  | cons b l ih => exact ih (crcStep_lt hp b)

theorem mirHcrc_lt (h : BitVec 64) : mirHcrc h < 2 ^ 8 := crcBits_lt (by decide) (by decide) _
theorem mirFcrc_lt (l : List (BitVec 64)) : mirFcrc l < 2 ^ 16 := crcBits_lt (by decide) (by decide) _

theorem getLsbD_eq_testBit_mod {w i n : Nat} (x : BitVec w) (h : i < n) : x.getLsbD i = (x.toNat % 2 ^ n).testBit i := by
  rw [Nat.testBit_mod_two_pow, decide_eq_true h, Bool.true_and]; rfl

theorem mirHcrc_congr {x y : BitVec 64} (h : x.toNat % 2 ^ 56 = y.toNat % 2 ^ 56) : mirHcrc x = mirHcrc y := by
  have hb : bitsUp x 56 = bitsUp y 56 := List.map_congr_left fun i hi => by
    rw [getLsbD_eq_testBit_mod x (List.mem_range.1 hi), h, ← getLsbD_eq_testBit_mod y (List.mem_range.1 hi)]
  rw [mirHcrc, hb, mirHcrc]

/-! ### The header as it is sent -/

/-- A header without its checks, over this payload, with the payload's check, and with both. -/
def fcrcHeader (h : Nat) (pay : List (BitVec 64)) : BitVec 64 := BitVec.ofNat 64 (h % 2 ^ 40 + mirFcrc pay * 2 ^ 40)
def txHeader (h : Nat) (pay : List (BitVec 64)) : BitVec 64 :=
  BitVec.ofNat 64 ((fcrcHeader h pay).toNat + mirHcrc (fcrcHeader h pay) * 2 ^ 56)

section
variable (h : Nat) (pay : List (BitVec 64))

theorem fcrcHeader_toNat : (fcrcHeader h pay).toNat = h % 2 ^ 40 + mirFcrc pay * 2 ^ 40 := by
  have := mirFcrc_lt pay
  rw [fcrcHeader, BitVec.toNat_ofNat]; omega

theorem txHeader_toNat : (txHeader h pay).toNat = h % 2 ^ 40 + mirFcrc pay * 2 ^ 40 + mirHcrc (txHeader h pay) * 2 ^ 56 := by
  have hf := mirFcrc_lt pay
  have hh := mirHcrc_lt (fcrcHeader h pay)
  have ht : (txHeader h pay).toNat = h % 2 ^ 40 + mirFcrc pay * 2 ^ 40 + mirHcrc (fcrcHeader h pay) * 2 ^ 56 := by
    rw [txHeader, BitVec.toNat_ofNat, fcrcHeader_toNat]; omega
  have hc : mirHcrc (txHeader h pay) = mirHcrc (fcrcHeader h pay) := mirHcrc_congr (by rw [ht, fcrcHeader_toNat]; omega)
  rw [ht, hc]

theorem bitsOf_txHeader_hcrc : bitsOf (txHeader h pay) 63 56 = mirHcrc (txHeader h pay) := by
  have hf := mirFcrc_lt pay
  have hh := mirHcrc_lt (txHeader h pay)
  have := txHeader_toNat h pay
  unfold bitsOf; omega

theorem bitsOf_txHeader_fcrc : bitsOf (txHeader h pay) 55 40 = mirFcrc pay := by
  have hf := mirFcrc_lt pay
  have := txHeader_toNat h pay
  unfold bitsOf; omega

theorem bitsOf_txHeader_type : bitsOf (txHeader h pay) 7 0 = h % 2 ^ 8 := by
  have := txHeader_toNat h pay
  unfold bitsOf; omega

theorem bitsOf_txHeader_cross : bitsOf (txHeader h pay) 19 8 = h / 2 ^ 8 % 2 ^ 12 := by
  have := txHeader_toNat h pay
  unfold bitsOf; omega

theorem getLsbD_txHeader {i : Nat} (hi : i < 40) : (txHeader h pay).getLsbD i = h.testBit i := by
  have ht : (txHeader h pay).toNat % 2 ^ 40 = h % 2 ^ 40 := by rw [txHeader_toNat]; omega
  rw [getLsbD_eq_testBit_mod _ hi, ht, Nat.testBit_mod_two_pow, decide_eq_true hi, Bool.true_and]

end

/-! ### The payload -/

theorem payloadOf_length (n : Nat) (ws : List W16) : (payloadOf n ws).length = n := by
  induction n generalizing ws with
  | zero => rfl
  | succ n ih => rw [payloadOf, List.length_cons, ih]

theorem foldr_zero_words {ws : List W16} (h : ∀ w ∈ ws, w = 0) : ws.foldr (fun w a => w.toNat + 65536 * a) 0 = 0 := by
  induction ws with
  | nil => rfl
  | cons w ws ih => simp [ih fun x hx => h x (List.mem_cons_of_mem _ hx), h w (List.mem_cons_self ..)]

theorem payloadOf_zero_words {n : Nat} {ws : List W16} (h : ∀ w ∈ ws, w = 0) : ∀ b ∈ payloadOf n ws, b = 0 := by
  induction n generalizing ws with
  | zero => exact fun b hb => nomatch hb
  | succ n ih =>
    intro b hb
    obtain rfl | hb := List.mem_cons.1 hb
    · rw [foldr_zero_words fun w hw => h w (List.mem_of_mem_take hw)]; rfl
    · exact ih (fun w hw => h w (List.mem_of_mem_drop hw)) b hb

/-! ### Sending -/

/-- For the frame that lane `l` sends, `u` is as `s`: its scrambler, its frame length, the time, and every other lane. -/
structure TxBase (l : LaneNo) (s u : State) : Prop where
  inv : u.Inv
  scr : (u.lane l).txScr = (s.lane l).txScr
  others : ∀ k, k ≠ l.val → u.lane k = s.lane k
  blk : u.fld (Reg.lanCfg l) 15 8 = s.fld (Reg.lanCfg l) 15 8
  cx : u.tsb.cx = s.tsb.cx

/-- The blocks of a frame, before the scrambler. -/
def txBlocks (s : State) (l h : Nat) (ws : List W16) : List (BitVec 2 × BitVec 64) :=
  (2, txHeader h (payloadOf (s.fld (Reg.lanCfg l) 15 8 - 1) ws)) :: (payloadOf (s.fld (Reg.lanCfg l) 15 8 - 1) ws).map (fun b => (1, b))

/-- The frame of a header without its checks and these words has been sent. -/
structure Sent (l : LaneNo) (h : Nat) (ws : List W16) (s t : State) : Prop where
  inv : t.Inv
  blocks : descrambleBlocks (s.lane l).txScr (t.lane l).sent = ((t.lane l).txScr, txBlocks s l h ws)
  at_ : (t.lane l).txAt = some s.tsb.cx
  others : ∀ k, k ≠ l.val → t.lane k = s.lane k

theorem State.txFrame_eq (s : State) (l h : Nat) (ws : List W16) : s.txFrame l h ws = s.setLane l { s.lane l with
    txScr := (scrambleBlocks (s.lane l).txScr (txBlocks s l h ws)).1, sent := (scrambleBlocks (s.lane l).txScr (txBlocks s l h ws)).2,
    txAt := some s.tsb.cx } := rfl

theorem sent_txFrame {l : LaneNo} {s u : State} (b : TxBase l s u) (h : Nat) (ws : List W16) : Sent l h ws s (u.txFrame l h ws) := by
  have hl := State.lane_setLane_self b.inv l { u.lane l with
    txScr := (scrambleBlocks (u.lane l).txScr (txBlocks u l h ws)).1, sent := (scrambleBlocks (u.lane l).txScr (txBlocks u l h ws)).2,
    txAt := some u.tsb.cx }
  rw [State.txFrame_eq]
  refine ⟨State.inv_setLane _ _ b.inv, ?_, ?_, fun k hk => (State.lane_setLane_of_ne b.inv _ hk).trans (b.others k hk)⟩
  · have hb : txBlocks s l h ws = txBlocks u l h ws := by rw [txBlocks, ← b.blk]; rfl
    rw [hl, ← b.scr, hb]
    exact descrambleBlocks_scrambleBlocks _ _
  · rw [hl, ← b.cx]

/-- Dropping the words that a frame has carried leaves the frame. -/
theorem Sent.txSpent {l : LaneNo} {s t : State} {h : Nat} {ws : List W16} (d : Sent l h ws s t) : Sent l h ws s (t.txSpent l) := by
  have hl : (t.txSpent l).lane l = _ := State.lane_setLane_self d.inv _ _
  refine ⟨State.inv_setLane _ _ d.inv, ?_, ?_, fun k hk => (State.lane_setLane_of_ne d.inv _ hk).trans (d.others k hk)⟩
  · rw [hl]; exact d.blocks
  · rw [hl]; exact d.at_

/-- What the statement says of a frame: its block type, its crossing stamp and the place of its DARK bit. -/
def WellFormedSent (l : LaneNo) (typ cross dark : Nat) (s t : State) : Prop :=
  ∃ (h : BitVec 64) (pay : List (BitVec 64)),
    descrambleBlocks (s.lane l).txScr (t.lane l).sent = ((t.lane l).txScr, (2, h) :: pay.map (fun b => (1, b))) ∧
    pay.length = s.fld (Reg.lanCfg l) 15 8 - 1 ∧ bitsOf h 7 0 = typ ∧ bitsOf h 19 8 = cross ∧
    bitsOf h 63 56 = mirHcrc h ∧ bitsOf h 55 40 = mirFcrc pay ∧
    (s.rbit (Reg.lanCtrl l) 1 = false → h.getLsbD dark = true ∧ ∀ b ∈ pay, b = 0) ∧
    (t.lane l).txAt = some s.tsb.cx ∧ (∀ k, k ≠ l.val → t.lane k = s.lane k) ∧ CountKept s t

theorem Sent.wellFormed {l : LaneNo} {s t : State} {h : Nat} {ws : List W16} {typ cross dark : Nat} (d : Sent l h ws s t) (hc : CountKept s t)
    (ht : h % 2 ^ 8 = typ) (hx : h / 2 ^ 8 % 2 ^ 12 = cross) (hd : dark < 40)
    (ho : s.rbit (Reg.lanCtrl l) 1 = false → h.testBit dark = true ∧ ∀ w ∈ ws, w = 0) : WellFormedSent l typ cross dark s t :=
  ⟨_, _, d.blocks, payloadOf_length _ _, (bitsOf_txHeader_type ..).trans ht, (bitsOf_txHeader_cross ..).trans hx, bitsOf_txHeader_hcrc ..,
    bitsOf_txHeader_fcrc .., fun hn => ⟨(getLsbD_txHeader _ _ hd).trans (ho hn).1, payloadOf_zero_words (ho hn).2⟩, d.at_, d.others, hc⟩

theorem flagAt_eq (b : Bool) (i : Nat) : flagAt b i = b.toNat * 2 ^ i := by cases b <;> simp [flagAt]

theorem testBit_of_div {n i : Nat} (h : n / 2 ^ i % 2 = 1) : n.testBit i = true := by rw [Nat.testBit_eq_decide_div_mod_eq, h]; rfl

/-- A header without its checks: the block type, the crossing stamp, a field from bit 20 on, three flags, and what stands above them. -/
def rawHeader (typ cross mid : Nat) (a b c : Bool) (up : Nat) : Nat :=
  typ + cross * 2 ^ 8 + mid * 2 ^ 20 + flagAt a 28 + flagAt b 29 + flagAt c 30 + up * 2 ^ 32

section
variable {typ cross mid : Nat} (a b c : Bool) (up : Nat)

theorem rawHeader_type (ht : typ < 256) : rawHeader typ cross mid a b c up % 2 ^ 8 = typ := by
  rw [rawHeader, flagAt_eq, flagAt_eq, flagAt_eq]; omega

theorem rawHeader_cross (ht : typ < 256) (hc : cross < 4096) : rawHeader typ cross mid a b c up / 2 ^ 8 % 2 ^ 12 = cross := by
  rw [rawHeader, flagAt_eq, flagAt_eq, flagAt_eq]; omega

theorem rawHeader_dark (ht : typ < 256) (hc : cross < 4096) (hm : mid < 256) : (rawHeader typ cross mid true b c up).testBit 28 = true := by
  refine testBit_of_div ?_
  rw [rawHeader, flagAt_eq, flagAt_eq, flagAt_eq, Bool.toNat_true]; omega

theorem rawHeader_readoutDark (ht : typ < 256) (hc : cross < 4096) (hm : mid < 512) :
    (rawHeader typ cross mid false true c up).testBit 29 = true := by
  refine testBit_of_div ?_
  rw [rawHeader, flagAt_eq, flagAt_eq, flagAt_eq, Bool.toNat_true, Bool.toNat_false]; omega

end

/-! ### A readout frame (R101, R315) -/

/-- The frame was assembled as its sector left, and is sent as assembled. -/
def State.sentWhole (s : State) (l : Nat) : Bool := match (s.lane l).asm with
  | some a => s.rbit (Reg.lanCtrl l) 1 && decide (a.cx = s.tsb.cx)
  | none => false

/-- The sector by which a readout lane is dark, and whether it is. -/
def State.readoutSec (s : State) (l : Nat) : Nat := match s.laneDrz l with
  | some d => d / 4
  | none => s.laneSec l
def State.readoutDark (s : State) (l : Nat) : Bool := !s.sentWhole l && (!s.rbit (Reg.lanCtrl l) 1 || !s.secIn (s.readoutSec l))

/-- The payload of a readout frame, the state once its words are taken, and the index of its first length word. -/
def State.readoutPayload (s : State) (l : Nat) : State × List W16 × Option Nat :=
  match (if s.sentWhole l then (s.lane l).asm else none), s.laneDrz l with
  | some a, _ => (s, a.words, a.first)
  | none, some d => if s.readoutDark l then (s, List.replicate (s.laneTxW l) 0, none) else s.readoutWords d (s.laneTxW l) 0 none
  | none, none => (s, List.replicate (s.laneTxW l) 0, none)

section
variable {s : State} (l : Nat)

theorem readoutPayload_lanesKept (h : s.Inv) : LanesKept s (s.readoutPayload l).1 := by
  have hs := LanesKept.refl h
  unfold State.readoutPayload
  split
  · exact hs
  · split
    · exact hs
    · exact hs.readoutWords _ _ _ _
  · exact hs

theorem readoutPayload_still : Still s (s.readoutPayload l).1 := by
  unfold State.readoutPayload
  split
  · exact .refl s
  · split
    · exact .refl s
    · exact State.readoutWords_still (.refl s) _ _ _ _
  · exact .refl s

theorem sentWhole_off (h : s.rbit (Reg.lanCtrl l) 1 = false) : s.sentWhole l = false := by
  unfold State.sentWhole
  split
  · rw [h]; rfl
  · rfl

theorem readoutDark_off (h : s.rbit (Reg.lanCtrl l) 1 = false) : s.readoutDark l = true := by
  rw [State.readoutDark, sentWhole_off l h, h]; rfl

theorem readoutPayload_off (h : s.rbit (Reg.lanCtrl l) 1 = false) : ∀ w ∈ (s.readoutPayload l).2.1, w = 0 := by
  rw [State.readoutPayload, sentWhole_off l h, readoutDark_off l h, if_neg Bool.false_ne_true]
  cases s.laneDrz l with
  | none => exact fun w => List.eq_of_mem_replicate
  | some d => exact fun w => List.eq_of_mem_replicate

end
end Machine

section
variable {s : State} {l : LaneNo}

theorem txContent_off (h : s.rbit (Reg.lanCtrl l) 1 = false) :
    (s.txContent l).2.1 = true ∧ ∀ w ∈ (s.txContent l).1.map (·.d), w = 0 := by
  rw [State.txContent, if_pos (by simp [h])]
  refine ⟨rfl, fun w hw => ?_⟩
  obtain ⟨x, hx, rfl⟩ := List.mem_map.1 hw
  rw [List.eq_of_mem_replicate hx]; rfl

/-- The header of the frame from the output lane port, without its checks (R98, R100). -/
def portHeader (s : State) (l : LaneNo) (typ cross up : Nat) : Nat :=
  rawHeader typ cross (s.txPhase l) (s.txContent l).2.1 (s.txContent l).2.2.1 (s.txContent l).2.2.2 up

theorem portFrame_wellFormed {u : State} {typ cross : Nat} (up : Nat) (hb : TxBase l s u) (ht : typ < 256) (hx : cross < 4096)
    (hc : CountKept s ((u.txFrame l (portHeader s l typ cross up) ((s.txContent l).1.map (·.d))).txSpent l)) :
    WellFormedSent l typ cross 28 s ((u.txFrame l (portHeader s l typ cross up) ((s.txContent l).1.map (·.d))).txSpent l) := by
  refine (sent_txFrame hb _ _).txSpent.wellFormed hc (rawHeader_type _ _ _ _ ht) (rawHeader_cross _ _ _ _ ht hx) (by decide) fun hn => ?_
  obtain ⟨hd, hw⟩ := txContent_off hn
  rw [portHeader, hd]
  exact ⟨rawHeader_dark _ _ _ ht hx (Nat.mod_lt _ (by decide)), hw⟩

theorem mirpelTxFrame_wellFormed (h : s.Inv) (hd : s.txDue l 1 = true) : Completes (.mirpelTxFrame l) s
    (WellFormedSent l 0xD2 (s.numberAt ((s.tsb.cx : Int) - (s.fld (Reg.lanCtrl l) 13 8 : Int)) % 4096) 28 s) := by
  have hb : TxBase l s s.draw.2 :=
    ⟨h.of_eq ⟨rfl, rfl, rfl, rfl, rfl, rfl, rfl, rfl, rfl, rfl, rfl, rfl, rfl⟩, rfl, fun _ _ => rfl, rfl, rfl⟩
  have he : exec (.mirpelTxFrame l) s = .next ((s.draw.2.txFrame l (portHeader s l 0xD2
      (s.numberAt ((s.tsb.cx : Int) - (s.fld (Reg.lanCtrl l) 13 8 : Int)) % 4096) (s.draw.1.toNat % 16))
      ((s.txContent l).1.map (·.d))).txSpent l) := by
    show execMirpelTxFrame l s = _
    rw [execMirpelTxFrame, if_neg (by simp [hd])]; rfl
  exact .intro he (portFrame_wellFormed _ hb (by decide) (Nat.mod_lt _ (by decide)) (.of_exec rfl he))

theorem systemTxFrame_wellFormed (h : s.Inv) (hd : s.txDue l 2 = true) : Completes (.systemTxFrame l) s
    (WellFormedSent l 0xE1 (s.tsb.crossing % 4096) 28 s) := by
  have he : exec (.systemTxFrame l) s = .next ((s.txFrame l (portHeader s l 0xE1 (s.tsb.crossing % 4096)
      (leAt (s.reportOf l) (s.tsb.crossing % 4096 % 16) 1)) ((s.txContent l).1.map (·.d))).txSpent l) := by
    show execSystemTxFrame l s = _
    rw [execSystemTxFrame, if_neg (by simp [hd])]; rfl
  exact .intro he (portFrame_wellFormed _ ⟨h, rfl, fun _ _ => rfl, rfl, rfl⟩ (by decide) (Nat.mod_lt _ (by decide)) (.of_exec rfl he))

/-- The header of a readout frame, without its checks (R101). -/
def readoutHeader (s : State) (l : LaneNo) : Nat :=
  0xB4 + (s.tsb.crossing % 4096) * 2 ^ 8 + ((s.readoutPayload l).2.2.getD 0x1FF % 512) * 2 ^ 20 + flagAt (s.readoutDark l) 29 +
    flagAt (!s.sentWhole l && !s.secIn (s.readoutSec l) && s.txReset (s.readoutSec l)) 30

theorem readoutHeader_eq (s : State) (l : LaneNo) : readoutHeader s l =
    rawHeader 0xB4 (s.tsb.crossing % 4096) ((s.readoutPayload l).2.2.getD 0x1FF % 512) false (s.readoutDark l)
      (!s.sentWhole l && !s.secIn (s.readoutSec l) && s.txReset (s.readoutSec l)) 0 := by
  rw [readoutHeader, rawHeader, flagAt_eq false, Bool.toNat_false, Nat.zero_mul, Nat.zero_mul, Nat.add_zero, Nat.add_zero]

theorem readoutTxFrame_wellFormed (h : s.Inv) (hd : s.txDue l 3 = true) : Completes (.readoutTxFrame l) s
    (WellFormedSent l 0xB4 (s.tsb.crossing % 4096) 29 s) := by
  have hk := readoutPayload_lanesKept l h
  have hl := State.lane_setLane_self hk.writes.inv l { (s.readoutPayload l).1.lane l with asm := none }
  have hb : TxBase l s ((s.readoutPayload l).1.setLane l { (s.readoutPayload l).1.lane l with asm := none }) :=
    ⟨State.inv_setLane _ _ hk.writes.inv, by rw [hl, hk.lane], fun k hn => (State.lane_setLane_of_ne hk.writes.inv _ hn).trans (hk.lane k),
     hk.fld l (by decide) _ _, (readoutPayload_still l).cx⟩
  have he : exec (.readoutTxFrame l) s = .next
      (((s.readoutPayload l).1.setLane l { (s.readoutPayload l).1.lane l with asm := none }).txFrame l (readoutHeader s l)
        (s.readoutPayload l).2.1) := by
    show execReadoutTxFrame l s = _
    rw [execReadoutTxFrame, if_neg (by simp [hd])]; rfl
  have ht : readoutHeader s l % 2 ^ 8 = 0xB4 := by rw [readoutHeader_eq, rawHeader_type _ _ _ _ (by decide)]
  have hx : readoutHeader s l / 2 ^ 8 % 2 ^ 12 = s.tsb.crossing % 4096 := by
    rw [readoutHeader_eq, rawHeader_cross _ _ _ _ (by decide) (Nat.mod_lt _ (by decide))]
  refine .intro he ((sent_txFrame hb _ _).wellFormed (.of_exec rfl he) ht hx (by decide) fun hn => ⟨?_, readoutPayload_off l hn⟩)
  rw [readoutHeader_eq, readoutDark_off _ hn]
  exact rawHeader_readoutDark _ _ (by decide) (Nat.mod_lt _ (by decide)) (Nat.mod_lt _ (by decide))

end

/-- Settles O18: mode by mode. -/
theorem sentFrameIsWellFormed : Obligations.SentFrameIsWellFormed := by
  intro s l m h hm hd
  match m with
  | 1 => exact mirpelTxFrame_wellFormed h hd
  | 2 => exact systemTxFrame_wellFormed h hd
  | 3 => exact readoutTxFrame_wellFormed h hd

end Sys2Proof
end

/-! ## A raw 8b/10b lane and the flags of its sync headers (R90, R105) -/
section
namespace Sys2Proof
open Sys2Proof.Machine

/-- A LIVE lane in raw 8b/10b mode, frames of 9 characters, that has kept 80 flags of sync headers: the 64 latest good, the 16 before them
invalid. A raw 8b/10b crossing brings no sync header, so that the list is not cut to 64 by it. -/
def longSync : State :=
  ((State.reset.setReg (Reg.lanCfg 3) 0xC0000900).setReg (Reg.lanStatus 3) 5).setLane 3
    { next := some 38, sync := List.replicate 64 false ++ List.replicate 16 true }

/-- A crossing of that lane with its marker: K28.5 and eight data characters. -/
def goodChars : RawCrossing := .r8 (some (true, 0xBC) :: List.replicate 8 (some (false, 0)))

theorem longSync_inv : longSync.Inv := State.inv_setLane _ _ (State.inv_setReg (State.inv_setReg State.reset_inv _ _) _ _)

theorem longSync_staysAligned : StaysAligned longSync 3 [] 7 := by
  unfold StaysAligned
  decide

theorem longSync_isLost : ∃ t, exec (.rawCrossing 3 goodChars 0) longSync = .next t ∧ t.laneState 3 = 1 :=
  ⟨_, rfl, by decide⟩

/-- Refutes O16: 16 of the last 64 sync headers are the flags that StaysAligned counts, but the model counts all that the lane has kept,
and a state in form may have kept more, which a raw 8b/10b crossing leaves: it loses a lane that StaysAligned keeps. -/
theorem not_laneEnablesAndArrivals : ¬Obligations.LaneEnablesAndArrivals := by
  intro ho
  obtain ⟨u, hu, hl⟩ := longSync_isLost
  obtain ⟨-, hraw⟩ := ho.2 longSync 3 0 longSync_inv (by decide) (by decide +kernel)
  obtain ⟨hstays, -⟩ := hraw goodChars true (FWord.frame 0 :: List.replicate 3 (FWord.data 0)) 38 (by decide) (by decide +kernel)
  obtain ⟨t, ht, -, hs, -⟩ := hstays longSync_staysAligned
  obtain rfl : u = t := Host.Outcome.next.inj (hu.symm.trans ht)
  have h5 : longSync.laneState 3 = 5 := by decide
  exact absurd (hl.symm.trans (hs.trans h5)) (by decide)

end Sys2Proof
end

/-! ## The arithmetic of the cells, as numbers (R118, R119) -/
section
namespace Sys2Proof
open Sys2Proof.Machine

theorem toInt_w16 {i : Int} (hl : -32768 ≤ i) (hh : i ≤ 32767) : (w16 i).toInt = i :=
  BitVec.toInt_ofInt_eq_self (by decide) hl (by omega)

theorem w16_natCast (n : Nat) : w16 n = BitVec.ofNat 16 n := BitVec.ofInt_natCast 16 n

theorem clampInt_eq {lo hi : Int} (h : lo ≤ hi) (i : Int) : clampInt lo hi i = max lo (min hi i) := by
  unfold clampInt
  split_ifs <;> omega

theorem cellAdds_unsigned {sg : Bool} (h : sg = false) (a b : W16) : cellAdds sg a b =
    (BitVec.ofNat 16 (min 65535 (a.toNat + b.toNat)), decide (65535 < a.toNat + b.toNat)) := by
  subst h
  have hc : clampInt 0 65535 ((a.toNat : Int) + b.toNat) = (min 65535 (a.toNat + b.toNat) : Nat) := by
    rw [clampInt_eq (by decide)]; omega
  refine Prod.ext ((congrArg w16 hc).trans (w16_natCast _)) (decide_eq_decide.2 ?_)
  show clampInt 0 65535 ((a.toNat : Int) + b.toNat) ≠ (a.toNat : Int) + b.toNat ↔ _
  rw [hc]; omega

theorem toInt_w16_clampInt (i : Int) : (w16 (clampInt (-32768) 32767 i)).toInt = max (-32768) (min 32767 i) := by
  rw [clampInt_eq (by decide), toInt_w16] <;> omega

theorem cellAdds_signed {sg : Bool} (h : sg = true) (a b : W16) :
    (cellAdds sg a b).1.toInt = max (-32768) (min 32767 (a.toInt + b.toInt)) ∧
      (cellAdds sg a b).2 = decide ((cellAdds sg a b).1.toInt ≠ a.toInt + b.toInt) := by
  subst h
  have hr : (cellAdds true a b).1.toInt = max (-32768) (min 32767 (a.toInt + b.toInt)) := toInt_w16_clampInt _
  exact ⟨hr, by rw [hr, ← clampInt_eq (by decide)]; rfl⟩

theorem cellMin_eq (sg : Bool) (a b : W16) : cellMin sg a b = (if ltBy sg b a then b else a, ltBy sg b a) := by
  unfold cellMin
  cases ltBy sg b a <;> rfl

theorem cellMax_eq (sg : Bool) (a b : W16) : cellMax sg a b = (if ltBy sg a b then b else a, ltBy sg a b) := by
  unfold cellMax
  cases ltBy sg a b <;> rfl

theorem cellAbs_toNat (a : W16) : (cellAbs a).1.toNat = min 32767 a.toInt.natAbs := by
  have hi : a.toInt = if 2 * a.toNat < 65536 then (a.toNat : Int) else a.toNat - 65536 := a.toInt_eq_toNat_cond
  unfold cellAbs
  dsimp only
  split_ifs with hm hn
  · rw [hm]; rfl
  · have : a.toNat ≠ 0x8000 := fun e => hm (BitVec.eq_of_toNat_eq e)
    rw [BitVec.toNat_neg]; omega
  · omega

/-- The condition of CMP for each MOD (Table 8). -/
theorem cellCond_iff (md : BitVec 3) (a b : W16) : cellCond md a b = true ↔ match md.toNat with
    | 0 => a = b | 1 => a ≠ b | 2 => a.toNat < b.toNat | 3 => b.toNat ≤ a.toNat
    | 4 => a.toInt < b.toInt | 5 => b.toInt ≤ a.toInt | 6 => b.toInt < a.toInt | _ => a.toInt ≤ b.toInt := by
  obtain ⟨⟨n, hn⟩⟩ := md
  match n, hn with
  | 0, _ | 1, _ | 2, _ | 3, _ | 4, _ | 5, _ | 6, _ | 7, _ => exact decide_eq_true_iff

theorem cellCmp_eq {md : BitVec 3} {a b : W16} {x : Bool} (h : cellCond md a b = x) : cellCmp md a b = (if x then 1 else 0, x) := by
  rw [cellCmp, h]

/-! THR: IMMB below the threshold, else A or A - IMM as MOD[1] says. -/

section
variable {md : BitVec 3} {imm a : W16} (immb : W16)

theorem cellThr_below (h : ltBy (md.getLsbD 0) a imm = true) : (cellThr md imm immb a).1 = immb := by
  rw [cellThr, h]; rfl

theorem cellThr_keeps (h : ltBy (md.getLsbD 0) a imm = false) (h1 : md.getLsbD 1 = false) : (cellThr md imm immb a).1 = a := by
  rw [cellThr, h, h1]; rfl

theorem cellThr_differs_unsigned (h : ltBy (md.getLsbD 0) a imm = false) (h1 : md.getLsbD 1 = true) (h0 : md.getLsbD 0 = false) :
    (cellThr md imm immb a).1.toNat = a.toNat - imm.toNat := by
  have hr : (cellThr md imm immb a).1 = a - imm := by rw [cellThr, h, h1, h0]; rfl
  rw [h0] at h
  rw [hr, BitVec.toNat_sub_of_le (Nat.not_lt.1 (of_decide_eq_false h))]

theorem cellThr_differs_signed (h : ltBy (md.getLsbD 0) a imm = false) (h1 : md.getLsbD 1 = true) (h0 : md.getLsbD 0 = true) :
    (cellThr md imm immb a).1.toInt = min 32767 (a.toInt - imm.toInt) := by
  have hr : (cellThr md imm immb a).1 = w16 (clampInt (-32768) 32767 (a.toInt - imm.toInt)) := by rw [cellThr, h, h1, h0]; rfl
  rw [h0] at h
  have hle : imm.toInt ≤ a.toInt := Int.not_lt.1 (of_decide_eq_false h)
  rw [hr, toInt_w16_clampInt]; omega
end

theorem cellMul8_unsigned {sg : Bool} (h : sg = false) (a b : W16) :
    (cellMul8 sg a b).toNat = (a.toNat % 256) * (b.toNat % 256) := by
  subst h
  have hr : cellMul8 false a b = BitVec.ofNat 16 ((a.setWidth 8).toNat * (b.setWidth 8).toNat) := w16_natCast _
  have hlt : (a.toNat % 256) * (b.toNat % 256) < 256 * 256 :=
    Nat.mul_lt_mul'' (Nat.mod_lt _ (by decide)) (Nat.mod_lt _ (by decide))
  rw [hr, BitVec.toNat_ofNat, BitVec.toNat_setWidth, BitVec.toNat_setWidth]
  exact Nat.mod_eq_of_lt hlt

theorem cellMul8_signed {sg : Bool} (h : sg = true) (a b : W16) :
    (cellMul8 sg a b).toInt = (a.setWidth 8).toInt * (b.setWidth 8).toInt := by
  subst h
  have hx : ∀ x : BitVec 8, |x.toInt| ≤ 128 := fun x => abs_le.2 ⟨x.le_toInt, Int.le_of_lt x.toInt_lt⟩
  have hp : |(a.setWidth 8).toInt * (b.setWidth 8).toInt| ≤ 128 * 128 := by
    rw [abs_mul]; exact mul_le_mul (hx _) (hx _) (abs_nonneg _) (by decide)
  obtain ⟨hl, hh⟩ := abs_le.1 hp
  exact toInt_w16 (by omega) (by omega)

theorem foldl_count {α : Type} (p : α → Bool) (l : List α) (n : Nat) :
    l.foldl (fun n i => if p i then n + 1 else n) n = n + (l.filter p).length := by
  induction l generalizing n with
  | nil => rfl
  | cons i l ih =>
    rw [List.foldl_cons, ih, List.filter_cons]
    split
    · rw [List.length_cons]; omega
    · rfl

theorem popCount_eq {w : Nat} (x : BitVec w) : popCount x = ((List.range w).filter x.getLsbD).length := by
  rw [popCount, foldl_count, Nat.zero_add]

theorem popCount_le {w : Nat} (x : BitVec w) : popCount x ≤ w := by
  rw [popCount_eq]
  exact (List.length_filter_le ..).trans_eq List.length_range

theorem cellCnt_toNat (imm a : W16) : (cellCnt imm a).1.toNat = popCount (a &&& imm) :=
  Nat.mod_eq_of_lt (Nat.lt_of_le_of_lt (popCount_le _) (by decide))

theorem popCount_and (a imm : W16) :
    popCount (a &&& imm) = ((List.range 16).filter (fun i => a.getLsbD i && imm.getLsbD i)).length := by
  rw [popCount_eq, List.filter_congr fun i _ => BitVec.getLsbD_and]

theorem cellCnt_flag (imm a : W16) : (cellCnt imm a).2 = decide ((cellCnt imm a).1 ≠ 0) := by
  have h : (cellCnt imm a).1 = 0 ↔ popCount (a &&& imm) = 0 := by
    rw [← cellCnt_toNat, ← BitVec.toNat_inj]; rfl
  exact decide_eq_decide.2 (not_congr h.symm)

/-! The shifts. -/

theorem cellShl_toNat (a b : W16) : (cellShl a b).1.toNat = a.toNat * 2 ^ (b.toNat % 16) % 65536 := by
  rw [cellShl, BitVec.toNat_shiftLeft, Nat.shiftLeft_eq]

theorem cellShr_toNat (a b : W16) : (cellShr a b).1.toNat = a.toNat / 2 ^ (b.toNat % 16) := by
  rw [cellShr, BitVec.toNat_ushiftRight, Nat.shiftRight_eq_div_pow]

theorem cellAsr_toInt (a b : W16) : (cellAsr a b).1.toInt = a.toInt / 2 ^ (b.toNat % 16) := by
  rw [cellAsr, BitVec.toInt_sshiftRight, Int.shiftRight_eq_div_pow]; norm_cast

end Sys2Proof
end

/-! ## What issuing an operation changes (R111, R115, R120, R121) -/
section
namespace Sys2Proof
open Sys2Proof.Machine

namespace Machine

/-! ### Operands, by their class -/

/-- DATA operands with good parity: the operation makes DATA (R120). -/
theorem cell2_data (f : BitVec 64) (a b : W16) (op : W16 → W16 → W16 × Bool) : cell2 f (FWord.data a) (FWord.data b) op =
    { res := FWord.data (op a b).1, flag := some (op a b).2, seen := [FWord.data a, FWord.data b] } := by
  unfold cell2
  cases cfFp f <;> rfl

theorem cell1_data (f : BitVec 64) (a : W16) (op : W16 → W16 × Bool) : cell1 f (FWord.data a) op =
    { res := FWord.data (op a).1, flag := some (op a).2, seen := [FWord.data a] } := by
  unfold cell1
  cases cfFp f <;> rfl

/-- A good word is handed on as it is, but a MARK as DATA 0 under MKZ (R121). -/
theorem verbatim_of_good {w : FWord} (h : w.bad = false) (z : Bool) :
    verbatim z w = if z = true ∧ w.tag = .mark then FWord.data 0 else w := by
  simp only [verbatim, h, Bool.and_eq_true, decide_eq_true_eq]; rfl

/-! ### Parity failures -/

/-- The parity failures among the words that a cell examined, each counted (R111, R140). -/
def State.perrs (s : State) (c : Nat) (ws : List FWord) : State := (ws.filter (·.bad)).foldl (fun s _ => s.perr c) s

namespace State
variable {s : State}

theorem perrs_of_good {ws : List FWord} (h : ∀ w ∈ ws, w.bad = false) (c : Nat) : s.perrs c ws = s := by
  rw [perrs, List.filter_eq_nil_iff.2 fun w hw => by simp [h w hw]]; rfl

theorem perr_writes (h : s.Inv) (c : Nat) :
    WritesOnly (· ∈ [Reg.secPerrCnt (c / 4 / 256), Reg.secPerrLast (c / 4 / 256)]) s (s.perr c) :=
  ((WritesOnly.refl h).count 31 0 1 (by simp)).setReg _ (by simp)

/-! ### The record of an operation -/

/-- The record of an operation that makes `r` in cell `c` in the current slot. -/
def issueOf (s : State) (c : CellNo) (r : CellRes) : Issue :=
  { field := fieldNow s c, res := r.res, flag := r.flag, scr := r.scr,
    evTask := s.ctxBits (c.val / 4) (s.curCtx (c.val / 4)) 394 12, evFlag := s.ctxBits (c.val / 4) (s.curCtx (c.val / 4)) 406 5 }

/-- The cell with its new record. -/
def issued (s : State) (c : CellNo) (r : CellRes) : State :=
  (s.perrs c r.seen).setCell c { (s.perrs c r.seen).cell c with issued := some (s.issueOf c r) }

theorem issue_due {c : CellNo} {n : Nat} (g : State → BitVec 64 → CellRes) (hd : s.cellDue c n = true) :
    s.issue c n g = .next (s.issued c (g s (fieldNow s c))) := by
  rw [issue, hd]; rfl

end State
end Machine

/-- An operation whose examined words are good changes its cell alone. -/
theorem Issues.intro {i : Instr} {c : CellNo} {n : Nat} {s : State} {g : State → BitVec 64 → CellRes} {r : CellRes} {P : Issue → Prop}
    (h : s.Inv) (he : exec i s = s.issue c n g) (hd : s.cellDue c n = true) (hr : g s (fieldNow s c) = r)
    (hs : ∀ w ∈ r.seen, w.bad = false) (hp : P (s.issueOf c r)) : Issues i c s P := by
  have hn := he.trans (State.issue_due g hd)
  rw [hr, State.issued, State.perrs_of_good hs] at hn
  exact Completes.intro hn ⟨⟨_, State.cell_setCell_self h _ _, rfl, hp⟩, fun k hk => State.cell_setCell_of_ne h _ hk, rfl⟩

/-! ### Operations on DATA operands -/

section
variable {i : Instr} {c : CellNo} {n : Nat} {s : State} {a b : W16} {r : W16 × Bool} {P : Issue → Prop}
  (h : s.Inv) (ha : s.opA c (fieldNow s c) = FWord.data a) (hb : s.opB c (fieldNow s c) = FWord.data b)
include h ha

theorem issues_cell1 (op : BitVec 64 → W16 → W16 × Bool) (he : exec i s = s.issue c n (fun s f => cell1 f (s.opA c f) (op f)))
    (hd : s.cellDue c n = true) (hr : op (fieldNow s c) a = r)
    (hp : P (s.issueOf c { res := FWord.data r.1, flag := some r.2 })) : Issues i c s P := by
  subst hr
  exact .intro h he hd ((congrArg (cell1 _ · _) ha).trans (cell1_data ..)) (by simp [FWord.data]) hp

include hb

theorem issues_cell2 (op : BitVec 64 → W16 → W16 → W16 × Bool)
    (he : exec i s = s.issue c n (fun s f => cell2 f (s.opA c f) (s.opB c f) (op f))) (hd : s.cellDue c n = true)
    (hr : op (fieldNow s c) a b = r) (hp : P (s.issueOf c { res := FWord.data r.1, flag := some r.2 })) : Issues i c s P := by
  subst hr
  exact .intro h he hd ((congrArg₂ (cell2 _ · · _) ha hb).trans (cell2_data ..)) (by simp [FWord.data]) hp

/-- The flag is left as it is. -/
theorem issues_cell2_noFlag (op : BitVec 64 → W16 → W16 → W16 × Bool)
    (he : exec i s = s.issue c n (fun s f => { cell2 f (s.opA c f) (s.opB c f) (op f) with flag := none })) (hd : s.cellDue c n = true)
    (hp : P (s.issueOf c { res := FWord.data (op (fieldNow s c) a b).1 })) : Issues i c s P :=
  .intro (r := { res := FWord.data (op (fieldNow s c) a b).1, seen := [FWord.data a, FWord.data b] }) h he hd
    (by rw [ha, hb, cell2_data]) (by simp [FWord.data]) hp
end

end Sys2Proof
end

/-! ## The arithmetic cell operations (R118, R119) -/
section
namespace Sys2Proof
open Sys2Proof.Machine

/-- Settles O19: on DATA operands each operation makes what its function of Machine/Flags.lean makes of their data. -/
theorem cellArithmetic : Obligations.CellArithmetic := by
  rintro s c _ a b h rfl ha hb
  intro sg less
  refine ⟨fun hd => issues_cell2 h ha hb (fun _ => cellAdd) rfl hd rfl ⟨rfl, rfl, rfl⟩,
    fun hd => issues_cell2 h ha hb (fun _ => cellSub) rfl hd rfl ⟨rfl, rfl, rfl⟩,
    fun hd hs => issues_cell2 h ha hb (fun f => cellAdds ((cfMod f).getLsbD 0)) rfl hd (cellAdds_unsigned hs a b) ⟨rfl, rfl, rfl⟩,
    fun hd hs => issues_cell2 h ha hb (fun f => cellAdds ((cfMod f).getLsbD 0)) rfl hd rfl ?adds,
    fun hd => issues_cell2 h ha hb (fun f => cellMin ((cfMod f).getLsbD 0)) rfl hd (cellMin_eq sg a b) ⟨rfl, rfl, rfl⟩,
    fun hd => issues_cell2 h ha hb (fun f => cellMax ((cfMod f).getLsbD 0)) rfl hd (cellMax_eq sg a b) ⟨rfl, rfl, rfl⟩,
    fun hd => issues_cell1 h ha (fun _ => cellAbs) rfl hd rfl ⟨rfl, cellAbs_toNat a, rfl, rfl⟩,
    fun hd p hp => ?cmp,
    fun hd => issues_cell1 h ha (fun f => cellThr (cfMod f) (cfImm f) (cfImmb f)) rfl hd rfl
      ⟨rfl, rfl, rfl, cellThr_below _, cellThr_keeps _, cellThr_differs_unsigned _, cellThr_differs_signed _⟩,
    fun hd => issues_cell2_noFlag h ha hb (fun f a b => (cellMul8 ((cfMod f).getLsbD 0) a b, false)) rfl hd
      ⟨rfl, rfl, rfl, fun hs => cellMul8_unsigned hs a b, fun hs => cellMul8_signed hs a b⟩,
    fun hd => issues_cell1 h ha (fun f => cellCnt (cfImm f)) rfl hd rfl
      ⟨rfl, rfl, (cellCnt_toNat _ a).trans (popCount_and a _), congrArg some (cellCnt_flag _ a)⟩⟩
  case adds =>
    obtain ⟨hr, hf⟩ := cellAdds_signed hs a b
    exact ⟨rfl, hr, congrArg some hf, rfl⟩
  case cmp =>
    have hc : p ↔ cellCond (cfMod (fieldNow s c)) a b = true := hp.trans (cellCond_iff _ a b).symm
    by_cases k : p
    · exact issues_cell2 h ha hb (fun f => cellCmp (cfMod f)) rfl hd (cellCmp_eq (hc.1 k))
        ⟨fun _ => ⟨rfl, rfl⟩, fun n => absurd k n, rfl⟩
    · exact issues_cell2 h ha hb (fun f => cellCmp (cfMod f)) rfl hd (cellCmp_eq (Bool.eq_false_iff.2 (mt hc.2 k)))
        ⟨fun n => absurd n k, fun _ => ⟨rfl, rfl⟩, rfl⟩

end Sys2Proof
end

/-! ## The logic, shift and selection cell operations (R118, R119, R121) -/
section
namespace Sys2Proof
open Sys2Proof.Machine

theorem xor_ne_zero (a b : W16) : decide (a ^^^ b ≠ 0) = decide (a ≠ b) :=
  decide_eq_decide.2 (not_congr BitVec.xor_eq_zero_iff)

theorem not_ne_zero (a : W16) : decide (~~~a ≠ 0) = decide (a ≠ 0xFFFF) :=
  decide_eq_decide.2 (not_congr ⟨fun h => BitVec.not_inj.1 h, fun h => by rw [h]; rfl⟩)

/-- An operation that hands the word `w` on (R121). -/
theorem issues_verbatim {i : Instr} {c : CellNo} {n : Nat} {s : State} {P : Issue → Prop} (h : s.Inv) (w : State → BitVec 64 → FWord)
    (he : exec i s = s.issue c n (fun s f => { res := verbatim (cfMkz f) (w s f), seen := [w s f] })) (hd : s.cellDue c n = true)
    (hw : (w s (fieldNow s c)).bad = false)
    (hp : P (s.issueOf c { res := if cfMkz (fieldNow s c) = true ∧ (w s (fieldNow s c)).tag = .mark then FWord.data 0 else w s (fieldNow s c) })) :
    Issues i c s P := by
  rw [← verbatim_of_good hw] at hp
  exact .intro h he hd rfl (by simpa using hw) hp

/-- An operation that examines no operand. -/
theorem issues_unexamined {i : Instr} {c : CellNo} {n : Nat} {s : State} {P : Issue → Prop} (h : s.Inv) (d : State → BitVec 64 → W16)
    (fl : State → BitVec 64 → Option Bool) (he : exec i s = s.issue c n (fun s f => { res := FWord.data (d s f), flag := fl s f }))
    (hd : s.cellDue c n = true)
    (hp : P (s.issueOf c { res := FWord.data (d s (fieldNow s c)), flag := fl s (fieldNow s c) })) : Issues i c s P :=
  .intro h he hd rfl (fun _ hw => absurd hw List.not_mem_nil) hp

/-- Settles O20: on good words each operation makes what its function of Machine/Flags.lean makes of their data, or hands its word on. -/
theorem cellLogic : Obligations.CellLogic := by
  rintro s c _ h rfl
  refine ⟨fun a b ha hb => ?onData,
    fun hd hw => issues_verbatim h (fun s f => s.opA c f) rfl hd hw ⟨rfl, rfl, rfl⟩,
    fun hd => issues_unexamined h (fun _ f => cfImm f) (fun _ _ => none) rfl hd ⟨rfl, rfl, rfl⟩,
    fun hd w hw hb => ?sel,
    fun hd => issues_unexamined h (fun s f => if cellLut4 (cfImm f) (s.flagsSeen c) then 1 else 0)
      (fun s f => some (cellLut4 (cfImm f) (s.flagsSeen c))) rfl hd ⟨rfl, rfl, rfl⟩,
    rfl⟩
  case onData =>
    exact ⟨fun hd => issues_cell2 h ha hb (fun _ a b => Machine.cellLogic (a &&& b)) rfl hd rfl ⟨rfl, rfl, rfl⟩,
      fun hd => issues_cell2 h ha hb (fun _ a b => Machine.cellLogic (a ||| b)) rfl hd rfl ⟨rfl, rfl, rfl⟩,
      fun hd => issues_cell2 h ha hb (fun _ a b => Machine.cellLogic (a ^^^ b)) rfl hd rfl ⟨rfl, congrArg some (xor_ne_zero a b), rfl⟩,
      fun hd => issues_cell1 h ha (fun _ a => Machine.cellLogic (~~~a)) rfl hd rfl ⟨rfl, congrArg some (not_ne_zero a), rfl⟩,
      fun hd => issues_cell2 h ha hb (fun _ => cellShl) rfl hd rfl ⟨rfl, cellShl_toNat a b, rfl, rfl⟩,
      fun hd => issues_cell2 h ha hb (fun _ => cellShr) rfl hd rfl ⟨rfl, cellShr_toNat a b, rfl, rfl⟩,
      fun hd => issues_cell2 h ha hb (fun _ => cellAsr) rfl hd rfl ⟨rfl, cellAsr_toInt a b, rfl, rfl⟩⟩
  case sel =>
    subst hw
    exact issues_verbatim h (fun s f => if (s.flagsSeen c).getLsbD (bitsOf (cfMod f) 1 0) then s.opA c f else s.opB c f) rfl hd hb
      ⟨rfl, rfl, rfl⟩

end Sys2Proof
end

/-! ## Tags and parity of the two-operand operations (R111, R120, R140) -/
section
namespace Sys2Proof
open Sys2Proof.Machine

theorem satAdd_satAdd (max n j k : Nat) : satAdd max (satAdd max n j) k = satAdd max n (j + k) := by
  unfold satAdd
  split_ifs <;> omega

namespace Machine

/-! ### The tag of a result over two operands -/

section
variable {a b : FWord} {z fp : Bool} (d : W16)

theorem eq_of_good {w : FWord} {t : Tag} (h : w.bad = false) (ht : w.tag = t) : w = { tag := t, d := w.d } := by
  rw [← h, ← ht]

theorem classify_of_bad (h : a.bad = true) : classify z a = .poison 1 := by
  rw [classify, h]; rfl

theorem tagged_of_bad (h : a.bad = true) : tagged fp [classify z a, classify z b] d = FWord.poison 1 := by
  rw [classify_of_bad h]; rfl

variable (ha : a.bad = false) (hb : b.bad = false)
include ha

theorem tagged_of_poison (h : a.tag = .poison) : tagged fp [classify z a, classify z b] d = a := by
  rw [eq_of_good ha h]; rfl

include hb

theorem tagged_of_second_poison (h : a.tag ≠ .poison) (hp : b.tag = .poison) : tagged fp [classify z a, classify z b] d = b := by
  rw [eq_of_good hb hp]
  cases ht : a.tag with
  | poison => exact absurd ht h
  | data | frame => rw [eq_of_good ha ht]; rfl
  | mark => rw [eq_of_good ha ht]; cases z <;> rfl

theorem tagged_of_mark (h : a.tag = .mark) (hp : b.tag ≠ .poison) : tagged fp [classify false a, classify false b] d = a := by
  rw [eq_of_good ha h]
  cases ht : b.tag with
  | poison => exact absurd ht hp
  | data | frame | mark => rw [eq_of_good hb ht]; rfl

theorem tagged_of_second_mark (h : a.tag = .data ∨ a.tag = .frame) (hm : b.tag = .mark) :
    tagged fp [classify false a, classify false b] d = b := by
  rw [eq_of_good hb hm]
  obtain h | h := h <;> (rw [eq_of_good ha h]; rfl)

theorem tagged_of_values (h : a.tag = .data ∨ a.tag = .frame) (hv : b.tag = .data ∨ b.tag = .frame) :
    tagged fp [classify z a, classify z b] d =
      { tag := if fp = true ∧ (a.tag = .frame ∨ b.tag = .frame) then .frame else .data, d := d } := by
  obtain h | h := h <;> obtain hv | hv := hv <;>
    (rw [eq_of_good ha h, eq_of_good hb hv]; cases fp <;> rfl)
end

/-! ### The failures of two operands -/

namespace State
variable {s : State} {a b : FWord}

theorem perrs_of_first_bad (h : a.bad = true) (c : Nat) : s.perrs c [a, b] = if b.bad then (s.perr c).perr c else s.perr c := by
  cases hb : b.bad <;> simp [perrs, h, hb]

theorem secPerrLast_ne_secPerrCnt (k : Nat) : Reg.secPerrLast k ≠ Reg.secPerrCnt k := by
  unfold Reg.secPerrLast Reg.secPerrCnt Reg.sec; omega

theorem fld_perr (h : s.Inv) (c : Nat) : (s.perr c).fld (Reg.secPerrCnt (c / 4 / 256)) 31 0 =
    satAdd (2 ^ 32 - 1) (s.fld (Reg.secPerrCnt (c / 4 / 256)) 31 0) 1 := by
  have hn := (secPerrLast_ne_secPerrCnt (c / 4 / 256)).symm
  rw [perr, fld, reg_setReg_of_ne (inv_count h _ _ _ _) _ hn]
  exact fld_count_self h _ _ (by decide)

theorem perrs_counts (h : s.Inv) (ha : a.bad = true) (c : Nat) :
    (s.perrs c [a, b]).fld (Reg.secPerrCnt (c / 4 / 256)) 31 0 =
      satAdd (2 ^ 32 - 1) (s.fld (Reg.secPerrCnt (c / 4 / 256)) 31 0) (if b.bad then 2 else 1) := by
  rw [perrs_of_first_bad ha]
  split
  · rw [fld_perr (perr_writes h c).inv, fld_perr h, satAdd_satAdd]
  · exact fld_perr h c

theorem perrs_writes (h : s.Inv) (c : Nat) (ws : List FWord) :
    WritesOnly (· ∈ [Reg.secPerrCnt (c / 4 / 256), Reg.secPerrLast (c / 4 / 256)]) s (s.perrs c ws) :=
  (WritesOnly.refl h).foldl fun _ _ _ hw => hw.trans (perr_writes hw.inv c)

theorem perr_mem (s : State) (c : Nat) : (s.perr c).mem = s.mem := by
  rw [perr, setReg_mem, count_mem]

theorem perrs_mem (s : State) (c : Nat) (ws : List FWord) : (s.perrs c ws).mem = s.mem :=
  List.foldlRecOn (motive := fun t : State => t.mem = s.mem) _ _ rfl fun t e _ _ => (perr_mem t c).trans e

end State
end Machine

/-! ### The operations that examine A and then B -/

/-- The command issues operation `n`, which examines A and then B and tags its result under R120. -/
def ExaminesBoth (i : CellNo → Instr) (n : Nat) : Prop :=
  ∃ g : CellNo → State → BitVec 64 → CellRes, (∀ c s, exec (i c) s = s.issue c n (g c)) ∧
    ∀ c s f, ∃ d, (g c s f).res = tagged (cfFp f) [classify (cfMkz f) (s.opA c f), classify (cfMkz f) (s.opB c f)] d ∧
      (g c s f).seen = [s.opA c f, s.opB c f]

theorem ExaminesBoth.of_cell2 {i : CellNo → Instr} {n : Nat} (op : BitVec 64 → W16 → W16 → W16 × Bool)
    (he : ∀ (c : CellNo) s, exec (i c) s = s.issue c n (fun s f => cell2 f (s.opA c f) (s.opB c f) (op f))) : ExaminesBoth i n :=
  ⟨_, he, fun _ _ _ => ⟨_, rfl, rfl⟩⟩

/-- The two-operand operations, each with its code (Table 7). -/
def twoOperandOps : List ((CellNo → Instr) × Nat) :=
  [(.cellAdd, 0x03), (.cellSub, 0x04), (.cellAdds, 0x05), (.cellMin, 0x06), (.cellMax, 0x07), (.cellCmp, 0x09), (.cellAnd, 0x0B),
    (.cellOr, 0x0C), (.cellXor, 0x0D), (.cellShl, 0x0F), (.cellShr, 0x10), (.cellAsr, 0x11), (.cellMul8, 0x12)]

theorem twoOperandOps_examineBoth : ∀ p ∈ twoOperandOps, ExaminesBoth p.1 p.2 := by
  simp only [twoOperandOps, List.forall_mem_cons]
  exact ⟨.of_cell2 (fun _ => cellAdd) fun _ _ => rfl, .of_cell2 (fun _ => cellSub) fun _ _ => rfl,
    .of_cell2 (fun f => cellAdds ((cfMod f).getLsbD 0)) fun _ _ => rfl, .of_cell2 (fun f => cellMin ((cfMod f).getLsbD 0)) fun _ _ => rfl,
    .of_cell2 (fun f => cellMax ((cfMod f).getLsbD 0)) fun _ _ => rfl, .of_cell2 (fun f => cellCmp (cfMod f)) fun _ _ => rfl,
    .of_cell2 (fun _ a b => Machine.cellLogic (a &&& b)) fun _ _ => rfl, .of_cell2 (fun _ a b => Machine.cellLogic (a ||| b)) fun _ _ => rfl,
    .of_cell2 (fun _ a b => Machine.cellLogic (a ^^^ b)) fun _ _ => rfl, .of_cell2 (fun _ => cellShl) fun _ _ => rfl,
    .of_cell2 (fun _ => cellShr) fun _ _ => rfl, .of_cell2 (fun _ => cellAsr) fun _ _ => rfl,
    ⟨fun c s f => { cell2 f (s.opA c f) (s.opB c f) (fun a b => (cellMul8 ((cfMod f).getLsbD 0) a b, false)) with flag := none },
      fun _ _ => rfl, fun _ _ _ => ⟨_, rfl, rfl⟩⟩,
    fun _ h => absurd h List.not_mem_nil⟩

/-- Settles O22: the classes of the two operands decide the tag, and each operand that fails is counted. -/
theorem cellTags : Obligations.CellTags := by
  rintro s c _ _ _ h rfl rfl rfl p hp hd
  obtain ⟨g, he, hg⟩ := twoOperandOps_examineBoth p hp
  obtain ⟨d, hr, hs⟩ := hg c s (fieldNow s c)
  refine ⟨fun ha hb => ?good, fun ha => ?bad⟩
  case good =>
    refine .intro h (he c s) hd rfl (by simp [hs, ha, hb]) ?_
    have hu : (s.issueOf c (g c s (fieldNow s c))).res = _ := hr
    rw [hu]
    refine ⟨tagged_of_poison d ha, tagged_of_second_poison d ha hb, fun hz => ?_, fun hz => ?_, fun hv hw => ?_⟩
    · rw [hz]; exact tagged_of_mark d ha hb
    · rw [hz]; exact tagged_of_second_mark d ha hb
    · rw [tagged_of_values d ha hb hv hw]; exact ⟨rfl, rfl⟩
  case bad =>
    have hk : c.val / 1024 = c.val / 4 / 256 := by omega
    have hw := State.perrs_writes h c (g c s (fieldNow s c)).seen
    have hi : ((s.issued c (g c s (fieldNow s c))).cell c).issued = some (s.issueOf c (g c s (fieldNow s c))) := by
      rw [State.issued, State.cell_setCell_self hw.inv]
    refine .intro ((he c s).trans (State.issue_due (g c) hd)) ⟨⟨_, hi, hr.trans (tagged_of_bad d ha)⟩, ?_, ?_, ?_⟩
    · rw [hk, ← State.perrs_counts h ha, ← hs]; rfl
    · rw [hk]; exact fun x hx => hw.kept x hx
    · exact .of_mem (State.perrs_mem ..)

end Sys2Proof
end

/-! ## A result takes three stages (R115, R116, R122) -/
section
namespace Sys2Proof
open Sys2Proof.Machine

namespace Machine

/-- The flag after an operation, mode by mode (R122). -/
theorem flagAfter_eq (fm : BitVec 2) (old : Bool) (p : Option Bool) (w : FWord) : flagAfter fm old p w = match fm.toNat with
    | 0 => match p with
      | none => old
      | some b => b && decide (w.tag ≠ .poison) && decide (w.tag ≠ .mark)
    | 1 => old
    | 2 => false
    | _ => true := by
  obtain ⟨⟨n, hn⟩⟩ := fm
  match n, hn with
  | 0, _ =>
    cases p with
    | none => rfl
    | some b =>
      obtain ⟨t, d, x⟩ := w
      cases b <;> cases t <;> rfl
  | 1, _ | 2, _ | 3, _ => rfl

namespace CellSt
variable {k : CellSt} {u : Issue}

theorem loc_setLoc (k : CellSt) (d : Nat) (w : FWord) : (k.setLoc d w).loc d = w := by
  unfold setLoc loc
  split_ifs <;> rfl

/-- The cell after the local register that DST names is written. -/
def withDst (k : CellSt) (f : BitVec 64) (w : FWord) : CellSt :=
  match cfDst f with
  | some d => k.setLoc d w
  | none => k

theorem setLoc_rest (k : CellSt) (d : Nat) (w : FWord) : (k.setLoc d w).out = k.out ∧ (k.setLoc d w).flagVis = k.flagVis := by
  unfold setLoc
  split_ifs <;> exact ⟨rfl, rfl⟩

theorem withDst_rest (k : CellSt) (f : BitVec 64) (w : FWord) : (k.withDst f w).out = k.out ∧ (k.withDst f w).flagVis = k.flagVis := by
  unfold withDst
  split
  · exact setLoc_rest ..
  · exact ⟨rfl, rfl⟩

/-- An operation alone in its cell moves from stage 1 to stage 2. -/
theorem advance_issued (hi : k.issued = some u) (h2 : k.stage2 = none) (h3 : k.stage3 = none) (ho : cfOuth u.field = false) (hb : u.res.bad = false) :
    k.advance = { k.withDst u.field u.res with
      issued := none, flag := flagAfter (cfFm u.field) k.flag u.flag u.res, own := u.res, stage3 := none,
      stage2 := some { out := some u.res, flag := flagAfter (cfFm u.field) k.flag u.flag u.res,
                       event := if cfEvt u.field && flagAfter (cfFm u.field) k.flag u.flag u.res then some (u.evTask, u.evFlag) else none } } := by
  have hr : ({ u.res with bad := false } : FWord) = u.res := by rw [← hb]
  simp only [advance, hi, h3, h2, hr, ho]; rfl

/-- With nothing issued the operation in stage 2 moves to stage 3, and that of stage 3 is written. -/
theorem advance_idle (hi : k.issued = none) (h3 : k.stage3 = none) : k.advance = { k with stage3 := k.stage2, stage2 := none } := by
  simp only [advance, hi, h3]

theorem advance_done {d : Done} {w : FWord} (hi : k.issued = none) (h3 : k.stage3 = some d) (ho : d.out = some w) :
    k.advance = { k with out := w, flagVis := d.flag, stage3 := k.stage2, stage2 := none } := by
  simp only [advance, hi, h3, ho]

/-- What became of an operation that has the cell for itself, slot by slot. -/
theorem advance_stages (hi : k.issued = some u) (h2 : k.stage2 = none) (h3 : k.stage3 = none) (ho : cfOuth u.field = false)
    (hb : u.res.bad = false) :
    k.advance.out = k.out ∧ k.advance.advance.out = k.out ∧ k.advance.advance.advance.out = u.res ∧
      k.advance.own = u.res ∧ k.advance.flagVis = k.flagVis ∧ k.advance.advance.advance.flagVis = k.advance.flag := by
  obtain ⟨hout, hvis⟩ := withDst_rest k u.field u.res
  have h1 := advance_issued hi h2 h3 ho hb
  have hs := advance_idle (k := k.advance) (by rw [h1]) (by rw [h1])
  have hd := advance_done (k := k.advance.advance) (w := u.res) (by rw [hs, h1]) (by rw [hs, h1]) rfl
  refine ⟨?_, ?_, by rw [hd], by rw [h1], ?_, by rw [hd, h1]⟩
  · rw [h1]; exact hout
  · rw [hs, h1]; exact hout
  · rw [h1]; exact hvis

end CellSt
end Machine
end Sys2Proof
end

/-! ## Scratch words with their tags (R123, R126, R409 to R425) -/
section
namespace Sys2Proof
open Sys2Proof.Machine

namespace Machine

/-! ### Tags in their byte -/

theorem getTag_putTag_self (b : Byte) (w : Nat) (t : Tag) : getTag (putTag b w t) w = t := by
  rw [getTag, putTag, bitsOf_putBits_self _ _ (by omega), show 2 * (w % 4) + 1 + 1 - 2 * (w % 4) = 2 by omega]
  cases t <;> rfl

theorem getTag_putTag_of_ne (b : Byte) {w x : Nat} (t : Tag) (h : x % 4 ≠ w % 4) : getTag (putTag b w t) x = getTag b x := by
  rw [getTag, putTag, bitsOf_putBits_of_disjoint _ _ (by omega) (by omega)]; rfl

namespace State
variable {s : State}

/-! ### Stores and reads while memory protection is idle -/

theorem store_idle (h : s.protIdle = true) (a : Nat) (l : List Byte) : s.store a l = s.setBytes a l := if_pos h

theorem flips_of_idle (h : s.protIdle = true) : s.prot.flips = [] := by
  simp only [protIdle, Bool.and_eq_true, List.isEmpty_iff] at h
  obtain ⟨⟨⟨hf, -⟩, -⟩, -⟩ := h
  exact hf

theorem read_clean (h : s.prot.flips = []) (a n : Nat) (f : Found) : s.read a n f = (s, false) := if_pos h

theorem setBytes_rest (s : State) (a : Nat) (l : List Byte) : s.setBytes a l = { s with mem := (s.setBytes a l).mem } := by
  induction l generalizing s a with
  | nil => rfl
  | cons b l ih => rw [setBytes, ih]; rfl

theorem inv_setBytes (h : s.Inv) (a : Nat) (l : List Byte) : (s.setBytes a l).Inv := by
  induction l generalizing s a with
  | nil => exact h
  | cons b l ih => exact ih (inv_setByte h _ _) _

theorem byte_setBytes (h : s.Inv) (a : Nat) {l : List Byte} {i : Nat} (hi : i < l.length) : (s.setBytes a l).byte (a + i) = l[i] := by
  induction l generalizing s a i with
  | nil => exact absurd hi (Nat.not_lt_zero i)
  | cons b l ih =>
    rw [setBytes]
    cases i with
    | zero => rw [byte_setBytes_of_outside (inv_setByte h _ _) _ _ (by omega)]; exact byte_setByte_self h _ _
    | succ i => rw [show a + (i + 1) = a + 1 + i by omega]; exact ih (inv_setByte h _ _) _ (Nat.lt_of_succ_lt_succ hi)

/-- The word of two bytes of a number of 16 bits. -/
theorem half_of_bytes {a : Nat} {v : W16} (h0 : s.byte a = BitVec.ofNat 8 v.toNat) (h1 : s.byte (a + 1) = BitVec.ofNat 8 (v.toNat / 256)) :
    s.half a = v := by
  apply BitVec.eq_of_toNat_eq
  have := v.isLt
  simp only [half, le, h0, h1, BitVec.toNat_ofNat]
  omega

theorem half_congr {t : State} {a : Nat} (h0 : t.byte a = s.byte a) (h1 : t.byte (a + 1) = s.byte (a + 1)) : t.half a = s.half a := by
  simp only [half, le, h0, h1]

/-! ### The scratch of a tile -/

theorem scratchAddr_lt_tag (t w : Nat) {x : Nat} (hx : x < 512) : scratchAddr t x + 1 < scratchTagAddr t w := by
  unfold scratchAddr scratchTagAddr; omega

/-- The notes that a store of a scratch word leaves for the second port of the slot. -/
def scratchNoted (s : State) (t w : Nat) : State := ((s.noteWrite t).noteFixed (scratchAddr t w) 2).noteFixed (scratchTagAddr t w) 1

/-- What a store of a scratch word writes while memory protection is idle: the word, then the byte with its tag. -/
def scratchSet (s : State) (t w : Nat) (v : FWord) : State :=
  (s.setBytes (scratchAddr t w) (bytesLe 2 v.d.toNat)).setBytes (scratchTagAddr t w) [putTag (s.byte (scratchTagAddr t w)) w v.tag]

theorem inv_scratchNoted (h : s.Inv) (t w : Nat) : (s.scratchNoted t w).Inv :=
  h.of_eq ⟨rfl, rfl, rfl, rfl, rfl, rfl, rfl, rfl, rfl, rfl, rfl, rfl, rfl⟩

theorem scratchSet_rest (s : State) (t w : Nat) (v : FWord) : s.scratchSet t w v = { s with mem := (s.scratchSet t w v).mem } := by
  rw [scratchSet, setBytes_rest, setBytes_rest s]

theorem scratchWrite_idle (h : s.protIdle = true) (t w : Nat) (v : FWord) : s.scratchWrite t w v = (s.scratchNoted t w).scratchSet t w v := by
  have hn : (s.scratchNoted t w).protIdle = true := h
  have hw : ((s.scratchNoted t w).setBytes (scratchAddr t w) (bytesLe 2 v.d.toNat)).protIdle = true := by rw [setBytes_rest]; exact h
  rw [scratchSet, ← store_idle hw, ← store_idle hn]; rfl

theorem scratchRead_clean (h : s.prot.flips = []) (t w : Nat) :
    (s.scratchRead t w).2 = { tag := getTag (s.byte (scratchTagAddr t w)) w, d := s.half (scratchAddr t w) } := by
  simp only [scratchRead, read_clean h]; rfl

section
variable (h : s.Inv) (t : Nat) {w : Nat} (v : FWord)
include h

theorem byte_scratchSet_tag : (s.scratchSet t w v).byte (scratchTagAddr t w) = putTag (s.byte (scratchTagAddr t w)) w v.tag :=
  byte_setBytes (l := [_]) (i := 0) (inv_setBytes h _ _) _ Nat.one_pos

theorem byte_scratchSet_of_ne {a : Nat} (ha : a < scratchAddr t w ∨ scratchAddr t w + 2 ≤ a) (hn : a ≠ scratchTagAddr t w) :
    (s.scratchSet t w v).byte a = s.byte a := by
  rw [scratchSet, byte_setBytes_of_outside (inv_setBytes h _ _) _ _ (by rw [List.length_singleton]; omega)]
  exact byte_setBytes_of_outside h _ _ ha

theorem half_scratchSet_self (hw : w < 512) : (s.scratchSet t w v).half (scratchAddr t w) = v.d := by
  have hlt := scratchAddr_lt_tag t w hw
  have hb : ∀ i (hi : i < 2), (s.scratchSet t w v).byte (scratchAddr t w + i) = (bytesLe 2 v.d.toNat)[i] := fun i hi => by
    rw [scratchSet, byte_setBytes_of_outside (inv_setBytes h _ _) _ _ (by omega)]
    exact byte_setBytes h _ hi
  exact half_of_bytes (hb 0 (by decide)) (hb 1 (by decide))

theorem half_scratchSet_of_ne {x : Nat} (hx : x < 512) (hn : x ≠ w) : (s.scratchSet t w v).half (scratchAddr t x) = s.half (scratchAddr t x) := by
  have hlt := scratchAddr_lt_tag t w hx
  have ho : scratchAddr t x + 1 < scratchAddr t w ∨ scratchAddr t w + 2 ≤ scratchAddr t x := by unfold scratchAddr; omega
  exact half_congr (byte_scratchSet_of_ne h t v (by omega) (by omega)) (byte_scratchSet_of_ne h t v (by omega) (by omega))

theorem getTag_scratchSet_of_ne {x : Nat} (hw : w < 512) (hn : x ≠ w) :
    getTag ((s.scratchSet t w v).byte (scratchTagAddr t x)) x = getTag (s.byte (scratchTagAddr t x)) x := by
  by_cases hq : x / 4 = w / 4
  · have ha : scratchTagAddr t x = scratchTagAddr t w := by unfold scratchTagAddr; rw [hq]
    rw [ha, byte_scratchSet_tag h, getTag_putTag_of_ne _ _ (by omega)]
  · have hlt := scratchAddr_lt_tag t x hw
    have ha : scratchTagAddr t x ≠ scratchTagAddr t w := by unfold scratchTagAddr; omega
    rw [byte_scratchSet_of_ne h t v (by omega) ha]
end

/-- A word stored in scratch is read back, tag and all, and no other word changes. -/
theorem scratchRead_scratchWrite (h : s.Inv) (hp : s.protIdle = true) (t : Nat) {w : Nat} (hw : w < 512) {v : FWord} (hv : v.bad = false) :
    ((s.scratchWrite t w v).scratchRead t w).2 = v ∧
      ∀ x, x < 512 → x ≠ w → ((s.scratchWrite t w v).scratchRead t x).2 = (s.scratchRead t x).2 := by
  have hi := inv_scratchNoted h t w
  have hf : (s.scratchNoted t w).prot.flips = [] := flips_of_idle hp
  have hc : ((s.scratchNoted t w).scratchSet t w v).prot.flips = [] := by rw [scratchSet_rest]; exact hf
  rw [scratchWrite_idle hp]
  refine ⟨?_, fun x hx hn => ?_⟩
  · rw [scratchRead_clean hc, byte_scratchSet_tag hi, getTag_putTag_self, half_scratchSet_self hi t v hw, ← hv]
  · rw [scratchRead_clean hc, half_scratchSet_of_ne hi t v hx hn, getTag_scratchSet_of_ne hi t v hw hn]
    exact (scratchRead_clean (flips_of_idle hp) t x).symm

end State
end Machine

/-- Settles O23: an operation alone in its cell goes through three stages; a word of scratch and its tag are bytes of their own. -/
theorem resultStagesAndScratch : Obligations.ResultStagesAndScratch := by
  refine ⟨fun k u hi h2 h3 ho hb => ?stages, fun s tile w v h hp hv => ?scratch⟩
  case stages =>
    obtain ⟨out1, out2, out3, own, vis1, vis3⟩ := CellSt.advance_stages hi h2 h3 ho hb
    refine ⟨out1, out2, out3, own, vis1, vis3, fun d hd => ?_, ?_⟩
    · rw [CellSt.advance_issued hi h2 h3 ho hb, CellSt.withDst, hd]
      exact CellSt.loc_setLoc k d u.res
    · exact (congrArg CellSt.flag (CellSt.advance_issued hi h2 h3 ho hb)).trans (flagAfter_eq ..)
  case scratch =>
    obtain ⟨self, others⟩ := State.scratchRead_scratchWrite h hp tile w.isLt hv
    refine ⟨self, fun x hx => others x x.isLt (Fin.val_ne_of_ne hx), fun a ha hn => ?_, ?_⟩
    · rw [State.scratchWrite_idle hp, State.byte_scratchSet_of_ne (State.inv_scratchNoted h tile w) _ v ha hn]; rfl
    · rw [State.scratchWrite_idle hp, State.scratchSet_rest]; rfl

end Sys2Proof
end

/-! ## Merging ranked lists (R166, R167, R170) -/
section
namespace Sys2Proof
open Sys2Proof.Machine

namespace Machine

/-! ### A stable order by descending weight -/

section
variable {α : Type} (w : α → Nat)

/-- An entry stands at or above another: its weight is no smaller. -/
def outranks (x y : α) : Bool := decide (w y ≤ w x)

/-- The list by descending weight, equal weights in the order given: each entry in turn is merged in below its equals. -/
def rankBy (l : List α) : List α := l.foldl (fun r e => r.merge [e] (outranks w)) []

section
variable {w} {x y : α} (xs ys : List α)

theorem cons_merge_cons_of_le (h : w y ≤ w x) : (x :: xs).merge (y :: ys) (outranks w) = x :: xs.merge (y :: ys) (outranks w) :=
  List.cons_merge_cons_pos _ _ _ (decide_eq_true h)

theorem cons_merge_cons_of_lt (h : w x < w y) : (x :: xs).merge (y :: ys) (outranks w) = y :: (x :: xs).merge ys (outranks w) :=
  List.cons_merge_cons_neg _ _ _ (by simpa [outranks] using h)
end

theorem merge_merge (xs ys zs : List α) :
    (xs.merge ys (outranks w)).merge zs (outranks w) = xs.merge (ys.merge zs (outranks w)) (outranks w) := by
  induction xs generalizing ys zs with
  | nil => simp
  | cons x xs ihx =>
    induction ys generalizing zs with
    | nil => simp
    | cons y ys ihy =>
      induction zs with
      | nil => simp
      | cons z zs ihz =>
        obtain hyx | hxy := le_or_gt (w y) (w x) <;> obtain hzy | hyz := le_or_gt (w z) (w y)
        · rw [cons_merge_cons_of_le _ _ hyx, cons_merge_cons_of_le _ _ hzy, cons_merge_cons_of_le _ _ (hzy.trans hyx),
            cons_merge_cons_of_le _ _ hyx, ihx, cons_merge_cons_of_le _ _ hzy]
        · rw [cons_merge_cons_of_le _ _ hyx, cons_merge_cons_of_lt _ _ hyz]
          obtain hzx | hxz := le_or_gt (w z) (w x)
          · rw [cons_merge_cons_of_le _ _ hzx, cons_merge_cons_of_le _ _ hzx, ihx, cons_merge_cons_of_lt _ _ hyz]
          · rw [cons_merge_cons_of_lt _ _ hxz, cons_merge_cons_of_lt _ _ hxz, ← ihz, cons_merge_cons_of_le _ _ hyx]
        · rw [cons_merge_cons_of_lt _ _ hxy, cons_merge_cons_of_le _ _ hzy, cons_merge_cons_of_le _ _ hzy,
            cons_merge_cons_of_lt _ _ hxy, ihy]
        · rw [cons_merge_cons_of_lt _ _ hxy, cons_merge_cons_of_lt _ _ hyz, cons_merge_cons_of_lt _ _ hyz,
            cons_merge_cons_of_lt _ _ (hxy.trans hyz), ← ihz, cons_merge_cons_of_lt _ _ hxy]

/-- A list whose entries all stand below those of another goes behind it. -/
theorem merge_of_lt {xs ys : List α} (h : ∀ x ∈ xs, ∀ y ∈ ys, w x < w y) : xs.merge ys (outranks w) = ys ++ xs := by
  induction ys with
  | nil => simp
  | cons y ys ih =>
    cases xs with
    | nil => simp
    | cons x xs =>
      rw [cons_merge_cons_of_lt _ _ (h x (List.mem_cons_self ..) y (List.mem_cons_self ..)),
        ih (fun a ha b hb => h a ha b (List.mem_cons_of_mem _ hb)), List.cons_append]

theorem merge_of_le {xs ys : List α} (h : ∀ x ∈ xs, ∀ y ∈ ys, w y ≤ w x) : xs.merge ys (outranks w) = xs ++ ys :=
  List.merge_of_le fun x y hx hy => decide_eq_true (h x hx y hy)

/-- The first entries of a merge are chosen among the first entries of the two lists. -/
theorem take_merge_take {n a b : Nat} (ha : n ≤ a) (hb : n ≤ b) (xs ys : List α) :
    ((xs.take a).merge (ys.take b) (outranks w)).take n = (xs.merge ys (outranks w)).take n := by
  induction n generalizing a b xs ys with
  | zero => rfl
  | succ n ih =>
    obtain ⟨a, rfl⟩ := Nat.exists_eq_succ_of_ne_zero (show a ≠ 0 by omega)
    obtain ⟨b, rfl⟩ := Nat.exists_eq_succ_of_ne_zero (show b ≠ 0 by omega)
    have ha' : n ≤ a := by omega
    have hb' : n ≤ b := by omega
    match xs, ys with
    | [], ys => simp [List.take_take, hb']
    | x :: xs, [] => simp [List.take_take, ha']
    | x :: xs, y :: ys =>
      rw [List.take_succ_cons, List.take_succ_cons]
      obtain h | h := le_or_gt (w y) (w x)
      · rw [cons_merge_cons_of_le _ _ h, cons_merge_cons_of_le _ _ h]
        exact congrArg (x :: ·) (ih (b := b + 1) ha' (by omega) xs (y :: ys))
      · rw [cons_merge_cons_of_lt _ _ h, cons_merge_cons_of_lt _ _ h]
        exact congrArg (y :: ·) (ih (a := a + 1) (by omega) hb' (x :: xs) ys)

@[simp] theorem rankBy_nil : rankBy w [] = [] := rfl

theorem rankBy_concat (l : List α) (e : α) : rankBy w (l ++ [e]) = (rankBy w l).merge [e] (outranks w) := by
  simp [rankBy]

theorem rankBy_append (l m : List α) : rankBy w (l ++ m) = (rankBy w l).merge (rankBy w m) (outranks w) := by
  induction m using List.reverseRecOn with
  | nil => simp
  | append_singleton m e ih => rw [← List.append_assoc, rankBy_concat, rankBy_concat, ih, merge_merge]

theorem mem_rankBy {l : List α} {e : α} : e ∈ rankBy w l ↔ e ∈ l := by
  induction l using List.reverseRecOn with
  | nil => simp
  | append_singleton l a ih => simp [rankBy_concat, List.mem_merge, ih]

theorem rankBy_pairwise (l : List α) : (rankBy w l).Pairwise (fun x y => w y ≤ w x) := by
  induction l using List.reverseRecOn with
  | nil => exact .nil
  | append_singleton l e ih =>
    rw [rankBy_concat]
    have hm := List.pairwise_merge (le := outranks w) (by simp [outranks]; omega) (by simp [outranks]; omega) (rankBy w l) [e]
      (by simpa [outranks] using ih) (List.pairwise_singleton _ e)
    simpa [outranks] using hm

theorem rankBy_of_pairwise {l : List α} (h : l.Pairwise (fun x y => w y ≤ w x)) : rankBy w l = l := by
  induction l using List.reverseRecOn with
  | nil => rfl
  | append_singleton l e ih =>
    obtain ⟨hl, -, he⟩ := List.pairwise_append.1 h
    rw [rankBy_concat, ih hl, merge_of_le w he]

/-- Entries that all stand above the rest are ranked before it, each part for itself. -/
theorem rankBy_filter {p : α → Bool} {l : List α} (h : ∀ x ∈ l, ∀ y ∈ l, p x = true → p y = false → w y < w x) :
    rankBy w l = rankBy w (l.filter p) ++ rankBy w (l.filter (fun e => !p e)) := by
  have hm : rankBy w l = (rankBy w (l.filter p)).merge (rankBy w (l.filter (fun e => !p e))) (outranks w) := by
    induction l using List.reverseRecOn with
    | nil => simp
    | append_singleton l e ih =>
      have hl {x} (hx : x ∈ l) : x ∈ l ++ [e] := List.mem_append_left _ hx
      have he : e ∈ l ++ [e] := List.mem_append_right _ (List.mem_singleton_self e)
      rw [rankBy_concat, ih fun x hx y hy => h x (hl hx) y (hl hy), merge_merge, List.filter_append, List.filter_append]
      cases hp : p e with
      | false => simp [hp, rankBy_concat]
      | true =>
        have hB : ∀ x ∈ rankBy w (l.filter (fun e => !p e)), ∀ y ∈ [e], w x < w y := fun x hx y hy => by
          simp only [mem_rankBy, List.mem_filter, List.mem_singleton, Bool.not_eq_true'] at hx hy
          exact hy ▸ h e he x (hl hx.1) hp hx.2
        rw [merge_of_lt w hB, ← merge_of_le w (fun x hx y hy => (hB y hy x hx).le), ← merge_merge]
        simp [hp, rankBy_concat]
  rw [hm, merge_of_le]
  intro x hx y hy
  simp only [mem_rankBy, List.mem_filter, Bool.not_eq_true'] at hx hy
  exact (h x hx.1 y hy.1 hx.2 hy.2).le

/-- Ranking lists cut to their first entries ranks, in the first places, as ranking all entries at once does. -/
theorem take_rankBy_flatMap (n : Nat) (ls : List (List α)) :
    (rankBy w (ls.flatMap (fun l => (rankBy w l).take n))).take n = (rankBy w ls.flatten).take n := by
  induction ls with
  | nil => rfl
  | cons l ls ih =>
    rw [List.flatMap_cons, List.flatten_cons, rankBy_append, rankBy_append, rankBy_of_pairwise w ((rankBy_pairwise w l).take),
      ← take_merge_take w le_rfl le_rfl, ih, List.take_take, Nat.min_self, take_merge_take w le_rfl le_rfl]

end

/-! ### The classes of the words that travel (R166) -/

theorem taken_taken (w : FWord) : w.taken.taken = w.taken := by
  unfold FWord.taken
  cases hw : w.bad with
  | false => simp [hw]
  | true => rfl

theorem keyClass_travel (k p : Option FWord) : keyClass (some (travel k p).1) = keyClass k := by
  cases k with
  | none => rfl
  | some w => simp only [keyClass, travel, Option.getD_some, taken_taken]

theorem ne_zero_of_good {w : FWord} (h : keyClass (some w) = .good) : w.d ≠ 0 := by
  unfold keyClass FWord.taken at h
  cases hw : w.bad with
  | true => simp [hw, FWord.poison] at h
  | false =>
    intro hd
    cases ht : w.tag <;> simp [hw, ht, hd] at h

/-- The captured pairs as they travel. -/
def carried (l : List (Option FWord × Option FWord)) : List Rank := l.map (fun e => travel e.1 e.2)

/-- The entry is of class good (R166). -/
def isGood (e : Rank) : Bool := decide (keyClass (some e.1) = .good)

/-- The entry is of class bad (R166). -/
def isBad (e : Rank) : Bool := decide (keyClass (some e.1) = .bad)

/-- The entries that get a rank: the good ones, and the bad ones unless they are dropped. -/
def ranked (br : Nat) (m : List Rank) : List Rank := m.filter (fun e => isGood e || (isBad e && decide (br ≠ 2)))

/-- A weight by which R167 ranks: the key of a good pair, and for bad ones a weight below or above them all. -/
def rankWeight (br : Nat) (e : Rank) : Nat := if isGood e then e.1.d.toNat else if br = 1 then 2 ^ 16 else 0

/-- The 16 entries that are emitted. -/
def emission (m : List Rank) : List Rank := (m ++ List.replicate 16 (FWord.zero, FWord.zero)).take 16

theorem rankInsert_eq_merge (e : Rank) (l : List Rank) {w : Rank → Nat} (he : w e = e.1.d.toNat) (hl : ∀ x ∈ l, w x = x.1.d.toNat) :
    rankInsert e l = l.merge [e] (outranks w) := by
  induction l with
  | nil => rw [List.nil_merge]; rfl
  | cons x t ih =>
    have hx := hl x (List.mem_cons_self ..)
    rw [rankInsert, ← he, ← hx]
    split
    · rw [cons_merge_cons_of_lt _ _ ‹_›, List.merge_right]
    · rw [cons_merge_cons_of_le _ _ (by omega), ih fun y hy => hl y (List.mem_cons_of_mem _ hy)]

theorem rankGood_eq_rankBy {l : List Rank} {w : Rank → Nat} (h : ∀ x ∈ l, w x = x.1.d.toNat) : rankGood l = rankBy w l := by
  induction l using List.reverseRecOn with
  | nil => rfl
  | append_singleton l e ih =>
    have hl : ∀ x ∈ l, w x = x.1.d.toNat := fun x hx => h x (List.mem_append_left _ hx)
    have hg : rankGood (l ++ [e]) = rankInsert e (rankGood l) := by simp [rankGood]
    rw [hg, ih hl, rankBy_concat, rankInsert_eq_merge e _ (h e (by simp)) fun x hx => hl x ((mem_rankBy w).1 hx)]

theorem rankWeight_good {br : Nat} {e : Rank} (h : isGood e = true) : rankWeight br e = e.1.d.toNat := if_pos h

theorem isGood_of_bad {e : Rank} (h : isBad e = true) : isGood e = false := by
  rw [isBad, decide_eq_true_eq] at h
  rw [isGood, h]; rfl

theorem rankWeight_bad {br : Nat} {e : Rank} (h : isBad e = true) : rankWeight br e = if br = 1 then 2 ^ 16 else 0 := by
  rw [rankWeight, isGood_of_bad h]; rfl

theorem rankWeight_good_pos {br : Nat} {e : Rank} (h : isGood e = true) : 0 < rankWeight br e := by
  rw [rankWeight_good h]
  exact Nat.pos_of_ne_zero fun hd => ne_zero_of_good (of_decide_eq_true h) (BitVec.eq_of_toNat_eq hd)

theorem rankGood_filter (br : Nat) (m : List Rank) : rankGood (m.filter isGood) = rankBy (rankWeight br) (m.filter isGood) :=
  rankGood_eq_rankBy fun _ hx => rankWeight_good (List.mem_filter.1 hx).2

/-- Bad entries stay in the order given. -/
theorem rankBy_filter_bad (br : Nat) (m : List Rank) : rankBy (rankWeight br) (m.filter isBad) = m.filter isBad :=
  rankBy_of_pairwise _ <| List.pairwise_of_forall_mem_list fun x hx y hy => by
    rw [rankWeight_bad (List.mem_filter.1 hx).2, rankWeight_bad (List.mem_filter.1 hy).2]

theorem isBad_of_ranked {br : Nat} {m : List Rank} {e : Rank} (h : e ∈ ranked br m) : isBad e = !isGood e := by
  have he := (List.mem_filter.1 h).2
  cases hb : isBad e with
  | true => rw [isGood_of_bad hb]; rfl
  | false => rw [hb, Bool.false_and, Bool.or_false] at he; rw [he]; rfl

theorem filter_ranked_good {br : Nat} (m : List Rank) : (ranked br m).filter isGood = m.filter isGood := by
  rw [ranked, List.filter_filter]
  exact List.filter_congr fun e _ => by cases isGood e <;> rfl

theorem filter_ranked_bad {br : Nat} (h : br ≠ 2) (m : List Rank) : (ranked br m).filter isBad = m.filter isBad := by
  rw [ranked, List.filter_filter, decide_eq_true h]
  exact List.filter_congr fun e _ => by cases isGood e <;> cases isBad e <;> rfl

theorem rankBy_ranked_bottom {br : Nat} (h1 : br ≠ 1) (h2 : br ≠ 2) (m : List Rank) :
    rankBy (rankWeight br) (ranked br m) = rankGood (m.filter isGood) ++ m.filter isBad := by
  have hn : (ranked br m).filter (fun e => !isGood e) = (ranked br m).filter isBad :=
    List.filter_congr fun e he => (isBad_of_ranked he).symm
  rw [rankBy_filter (p := isGood), hn, filter_ranked_good, filter_ranked_bad h2, ← rankGood_filter, rankBy_filter_bad]
  intro x _ y hy hx hyg
  rw [rankWeight_bad (by rw [isBad_of_ranked hy, hyg]; rfl), if_neg h1]
  exact rankWeight_good_pos hx

theorem rankBy_ranked_top (m : List Rank) : rankBy (rankWeight 1) (ranked 1 m) = m.filter isBad ++ rankGood (m.filter isGood) := by
  have hn : (ranked 1 m).filter (fun e => !isBad e) = (ranked 1 m).filter isGood :=
    List.filter_congr fun e he => by rw [isBad_of_ranked he, Bool.not_not]
  rw [rankBy_filter (p := isBad), hn, filter_ranked_good, filter_ranked_bad (by decide), ← rankGood_filter, rankBy_filter_bad]
  intro x _ y hy hx hyb
  rw [rankWeight_bad hx, rankWeight_good (by simpa [hyb] using (isBad_of_ranked hy).symm)]
  exact y.1.d.isLt

theorem rankBy_ranked_drop (m : List Rank) : rankBy (rankWeight 2) (ranked 2 m) = rankGood (m.filter isGood) := by
  simp [rankGood_filter 2, ranked]

/-- The ranks of R167 are those of one stable order by weight. -/
theorem rankPairs_ranks (br : Nat) (l : List (Option FWord × Option FWord)) :
    (rankPairs br l).ranks = emission (rankBy (rankWeight br) (ranked br (carried l))) := by
  have hg : (l.filter (fun e => decide (keyClass e.1 = .good))).map (fun e => travel e.1 e.2) = (carried l).filter isGood := by
    simp [carried, List.filter_map, Function.comp_def, isGood, keyClass_travel]
  have hb : (l.filter (fun e => decide (keyClass e.1 = .bad))).map (fun e => travel e.1 e.2) = (carried l).filter isBad := by
    simp [carried, List.filter_map, Function.comp_def, isBad, keyClass_travel]
  simp only [rankPairs, hg, hb]
  split_ifs with h1 h2
  · rw [h1, rankBy_ranked_top]; rfl
  · rw [h2, rankBy_ranked_drop]; rfl
  · rw [rankBy_ranked_bottom h1 h2]; rfl

/-! ### Emitted ranks taken as a list again (R170) -/

theorem emission_eq (m : List Rank) :
    emission m = m.take 16 ++ List.replicate (16 - m.length) (FWord.zero, FWord.zero) := by
  rw [emission, List.take_append, List.take_replicate, Nat.min_eq_left (Nat.sub_le ..)]

theorem emission_take (m : List Rank) : emission (m.take 16) = emission m := by
  rw [emission_eq, emission_eq, List.take_take, List.length_take]
  congr 2; omega

theorem travel_travel (k p : Option FWord) : travel (some (travel k p).1) (some (travel k p).2) = travel k p := by
  simp only [travel, Option.getD_some, taken_taken]

/-- Words that have travelled travel unchanged. -/
theorem carried_travelled {m : List Rank} (h : ∀ e ∈ m, ∃ k p, e = travel k p) : carried (m.map (fun e => (some e.1, some e.2))) = m := by
  rw [carried, List.map_map]
  refine (List.map_congr_left fun e he => ?_).trans (List.map_id m)
  obtain ⟨k, p, rfl⟩ := h e he
  exact travel_travel k p

/-- A list that is merged offers the entries that its own ranking placed first. -/
theorem ranked_ranks (br : Nat) (l : List (Option FWord × Option FWord)) :
    ranked br (carried ((rankPairs br l).ranks.map (fun e => (some e.1, some e.2)))) =
      (rankBy (rankWeight br) (ranked br (carried l))).take 16 := by
  have hm : ∀ e ∈ (rankBy (rankWeight br) (ranked br (carried l))).take 16, e ∈ ranked br (carried l) := fun e he =>
    (mem_rankBy _).1 (List.mem_of_mem_take he)
  rw [rankPairs_ranks, emission_eq, carried_travelled]
  · rw [ranked, List.filter_append, List.filter_eq_self.2 fun e he => (List.mem_filter.1 (hm e he)).2, List.filter_replicate]
    exact List.append_nil _
  · intro e he
    obtain he | he := List.mem_append.1 he
    · obtain ⟨x, -, rfl⟩ := List.mem_map.1 (List.mem_filter.1 (hm e he)).1
      exact ⟨_, _, rfl⟩
    · exact ⟨none, none, List.eq_of_mem_replicate he⟩

end Machine

/-- Settles O25: each list offers its first 16 entries in a stable order by weight, and no entry behind them is among the first 16 of all. -/
theorem mergeRanksAsOneSort : Obligations.MergeRanksAsOneSort := by
  intro br ls _
  have hl : ranked br (carried (ls.flatMap (fun l => (rankPairs br l).ranks.map (fun e => (some e.1, some e.2))))) =
      (ls.map (fun l => ranked br (carried l))).flatMap (fun m => (rankBy (rankWeight br) m).take 16) := by
    simp only [carried, ranked, List.map_flatMap, List.filter_flatMap, List.flatMap_map]
    exact congrArg (ls.flatMap ·) (funext fun l => ranked_ranks br l)
  have hr : ranked br (carried ls.flatten) = (ls.map (fun l => ranked br (carried l))).flatten := by
    simp [carried, ranked, List.map_flatten, List.filter_flatten, Function.comp_def]
  rw [rankPairs_ranks, rankPairs_ranks, hl, hr, ← emission_take, take_rankBy_flatMap, emission_take]

end Sys2Proof
end

/-! ## Emissions of the sorters and the merge unit, and the DEC balls (R154, R168, R170, R172) -/
section
namespace Sys2Proof
open Sys2Proof.Machine

namespace Machine

/-! ### What is emitted and what the merge unit takes (R168, R170, R172) -/

theorem Sorter.emit_due {z : Sorter} {tick : Nat} {c : Capture} (h : z.captures.find? (fun c => c.tick == tick) = some c) :
    z.emit tick = { z with captures := z.captures.filter (fun c => c.tick != tick), emitted := some c, live := true } := by
  rw [Sorter.emit, h]

namespace State
variable {s : State} {k : Nat}

theorem mergeList_due {c : Capture} (hk : s.secIn k = true)
    (h : (s.sorter k).captures.find? (fun c => c.tick == s.tsb.tick) = some c) : s.mergeList k = c.ranks := by
  have ht : c.tick = s.tsb.tick := by simpa using List.find?_some h
  simp [mergeList, Sorter.emit_due h, hk, ht]

theorem mergeList_left (hk : s.secIn k = false) (h : (Tbl.get (0, 0) s.leaves (256 + k)).1 ≠ s.tsb.cx) :
    s.mergeList k = List.replicate 16 (FWord.dark (0x400 + k), FWord.dark (0x400 + k)) := by
  simp [mergeList, hk, h, allOf]

theorem mergeList_leaving (hk : s.secIn k = false) (hs : s.fld (Reg.glbSecState k) 29 26 ≠ 0)
    (h : (Tbl.get (0, 0) s.leaves (256 + k)).1 = s.tsb.cx) : s.mergeList k = List.replicate 16 (FWord.poison 6, FWord.poison 6) := by
  simp [mergeList, hk, hs, h, allOf]

/-- What list `k` is in the current slot (R172): the due emission of a sector in the plane, MARK DARK of one that left in an earlier
crossing, POISON 6 of one that left in this crossing. -/
def Offers (s : State) (k : Nat) (l : List Rank) : Prop :=
  (s.secIn k = true ∧ ∃ c, (s.sorter k).captures.find? (fun c => c.tick == s.tsb.tick) = some c ∧ c.ranks = l) ∨
  (s.secIn k = false ∧ (Tbl.get (0, 0) s.leaves (256 + k)).1 ≠ s.tsb.cx ∧
    l = List.replicate 16 (FWord.dark (0x400 + k), FWord.dark (0x400 + k))) ∨
  (s.secIn k = false ∧ s.fld (Reg.glbSecState k) 29 26 ≠ 0 ∧ (Tbl.get (0, 0) s.leaves (256 + k)).1 = s.tsb.cx ∧
    l = List.replicate 16 (FWord.poison 6, FWord.poison 6))

theorem mergeList_of_offers {l : List Rank} (h : s.Offers k l) : s.mergeList k = l := by
  obtain ⟨hi, c, hc, rfl⟩ | ⟨ho, hx, rfl⟩ | ⟨ho, hs, hx, rfl⟩ := h
  · exact mergeList_due hi hc
  · exact mergeList_left ho hx
  · exact mergeList_leaving ho hs hx

/-- What one ranking of the merge unit takes. -/
def mergeRanking (s : State) : Ranking :=
  rankPairs (s.fld Reg.mrgCfg 15 14) (((maskList (s.reg Reg.mrgCfg >>> 16) 16).flatMap s.mergeList).map (fun e => (some e.1, some e.2)))

/-- The capture of the merge unit in flight, before its counts. -/
def mergeCaptured (s : State) : State :=
  { s with merge := { s.merge with captures := s.merge.captures ++ [{ tick := s.tsb.tick + 12, ranks := s.mergeRanking.ranks }] } }

theorem inv_mergeCaptured (h : s.Inv) : s.mergeCaptured.Inv := h.of_eq ⟨rfl, rfl, rfl, rfl, rfl, rfl, rfl, rfl, rfl, rfl, rfl, rfl, rfl⟩

end State
end Machine

section
variable {s : State}

theorem exec_sorterEmit {k : SectorNo} (hp : s.planeRuns = true) (hk : s.secIn k = true) :
    exec (.sorterEmit k) s = .next (s.setSorter k ((s.sorter k).emit s.tsb.tick)) := by
  show execSorterEmit k s = _
  rw [execSorterEmit, hp, hk]; rfl

theorem exec_mergeEmit (hp : s.planeRuns = true) : exec .mergeEmit s = .next { s with merge := s.merge.emit s.tsb.tick } := by
  show execMergeEmit s = _
  rw [execMergeEmit, hp]; rfl

theorem exec_mergeCapture (hp : s.planeRuns = true) (he : s.rbit Reg.mrgCfg 13 = true) (hs : s.fld Reg.mrgCfg 6 0 = s.tsb.slot)
    (hc : ∀ c ∈ s.merge.captures, c.tick ≠ s.tsb.tick + 12) :
    exec .mergeCapture s =
      .next ((s.mergeCaptured.count Reg.mrgCnt 31 16 s.mergeRanking.cut).count Reg.mrgCnt 15 0 s.mergeRanking.bad) := by
  show execMergeCapture s = _
  have hn : s.merge.captures.any (fun c => c.tick == s.tsb.tick + 12) = false := by simpa using hc
  rw [execMergeCapture, hp, he, hs, if_neg (by simp [hn])]; rfl

theorem sorterEmit_emits (h : s.Inv) (hp : s.planeRuns = true) {k : SectorNo} {c : Capture} (hk : s.secIn k = true)
    (hc : (s.sorter k).captures.find? (fun c => c.tick == s.tsb.tick) = some c) :
    Completes (.sorterEmit k) s (fun t => (t.sorter k).emitted = some c ∧ (t.sorter k).live = true ∧
      (∀ x ∈ (t.sorter k).captures, x.tick ≠ s.tsb.tick) ∧ (t.sorter k).inputs = (s.sorter k).inputs ∧
      (∀ j, j ≠ k.val → t.sorter j = s.sorter j) ∧ t = { s with sorters := t.sorters }) := by
  refine .intro (exec_sorterEmit hp hk) ?_
  rw [Sorter.emit_due hc, State.sorter_setSorter_self h]
  exact ⟨rfl, rfl, fun x hx => by simpa using (List.mem_filter.1 hx).2, rfl, fun j hj => State.sorter_setSorter_of_ne h _ hj, rfl⟩

theorem mergeEmit_emits (hp : s.planeRuns = true) {c : Capture} (hc : s.merge.captures.find? (fun c => c.tick == s.tsb.tick) = some c) :
    Completes .mergeEmit s (fun t => t.merge.emitted = some c ∧ t = { s with merge := t.merge }) :=
  .intro (exec_mergeEmit hp) ⟨by rw [Sorter.emit_due hc], rfl⟩

theorem mergeCapture_takes (h : s.Inv) (hp : s.planeRuns = true) (he : s.rbit Reg.mrgCfg 13 = true)
    (hs : s.fld Reg.mrgCfg 6 0 = s.tsb.slot) (hc : ∀ c ∈ s.merge.captures, c.tick ≠ s.tsb.tick + 12) {e : Nat → List Rank}
    (hl : ∀ k ∈ maskList (s.reg Reg.mrgCfg >>> 16) 16, s.Offers k (e k)) :
    Completes .mergeCapture s (fun t => (∃ c, t.merge.captures = s.merge.captures ++ [c] ∧ c.tick = s.tsb.tick + 12 ∧
        c.ranks = (rankPairs (s.fld Reg.mrgCfg 15 14) (((maskList (s.reg Reg.mrgCfg >>> 16) 16).flatMap e).map
          (fun x => (some x.1, some x.2)))).ranks) ∧
      t.merge.emitted = s.merge.emitted ∧ RegsKept [Reg.mrgCnt] s t ∧ t = { s with regs := t.regs, merge := t.merge }) := by
  have hf := List.flatMap_congr fun k hk => State.mergeList_of_offers (hl k hk)
  refine .intro (exec_mergeCapture hp he hs hc) ⟨⟨_, rfl, rfl, by rw [← hf]; rfl⟩, rfl, ?_, rfl⟩
  have hm : WritesOnly (· ∈ [Reg.mrgCnt]) s s.mergeCaptured := .same (.refl h) State.inv_mergeCaptured rfl
  exact ((hm.count 31 16 _ (List.mem_singleton_self _)).count 15 0 _ (List.mem_singleton_self _)).regsKept

end

/-! ### The ball of a DEC output (R154) -/

namespace Machine.State
variable {s : State} {b : Nat}

theorem decLevel_of_data {w : FWord} (hw : w.bad = false) (ht : w.tag = .data ∨ w.tag = .frame) :
    s.decLevel b w = some (if s.rbit Reg.decCfg (16 + b) then decide (w.d ≠ 0) else w.d.getLsbD 0) := by
  obtain ht | ht := ht <;> simp [decLevel, FWord.taken, hw, ht]

theorem decLevel_of_mark {w : FWord} (hw : w.bad = false) (ht : w.tag = .mark ∨ w.tag = .poison) : s.decLevel b w = none := by
  obtain ht | ht := ht <;> simp [decLevel, FWord.taken, hw, ht]

theorem getLsbD_decDrive (lvl : Option Bool) (i : Fin 16) :
    (s.decDrive b lvl).decPins.getLsbD i = if i.val = b then lvl.getD (s.rbit Reg.decCfg b) else s.decPins.getLsbD i := by
  have hb : (BitVec.ofNat 16 (2 ^ b)).getLsbD i = decide (i.val = b) := by
    rw [BitVec.getLsbD_ofNat, Nat.testBit_two_pow, decide_eq_true i.isLt, Bool.true_and]
    exact decide_eq_decide.2 eq_comm
  simp only [decDrive, setBit_decPins]
  cases lvl.getD (s.rbit Reg.decCfg b) with
  | true =>
    rw [if_pos rfl, BitVec.getLsbD_or, hb]
    split_ifs with hi <;> simp only [hi, decide_true, decide_false, Bool.or_true, Bool.or_false]
  | false =>
    rw [if_neg Bool.false_ne_true, BitVec.getLsbD_and, BitVec.getLsbD_not, hb, decide_eq_true i.isLt]
    split_ifs with hi <;> simp only [hi, decide_true, decide_false, Bool.not_true, Bool.not_false, Bool.and_false, Bool.and_true]

theorem decDrive_writes {p : Nat → Prop} {t : State} (h : WritesOnly p s t) (lvl : Option Bool) (hs : p Reg.decStatus) :
    WritesOnly p s (t.decDrive b lvl) :=
  (h.setBit b lvl.isNone hs).same (fun hi => hi.of_eq ⟨rfl, rfl, rfl, rfl, rfl, rfl, rfl, rfl, rfl, rfl, rfl, rfl, rfl⟩) rfl

theorem rbit_decDrive_status (h : s.Inv) (lvl : Option Bool) (hb : b < 32) : (s.decDrive b lvl).rbit Reg.decStatus b = lvl.isNone :=
  rbit_setBit_self h _ _ hb

theorem reg_decDrive_of_ne (h : s.Inv) (lvl : Option Bool) {a : Nat} (ha : a ≠ Reg.decStatus) : (s.decDrive b lvl).reg a = s.reg a :=
  reg_setBit_of_ne h _ _ ha

/-- The level that a word presented or a departure gives a ball, none for the safe level. -/
def presLevel (s : State) (b : Nat) (p : DecPres) : Option Bool := p.word.bind (s.decLevel b)

/-- The presentation is taken off the list, and a word that gives the safe level counts. -/
def decTaken (s : State) (b : Nat) (p : DecPres) : State :=
  if p.word.isSome && (s.presLevel b p).isNone then ({ s with dec := s.dec.erase p } : State).count Reg.decBadcnt 31 0
  else { s with dec := s.dec.erase p }

section
variable (h : s.Inv) (b : Nat) (p : DecPres)

theorem decTaken_rest : s.decTaken b p = { s with regs := (s.decTaken b p).regs, dec := s.dec.erase p } := by
  unfold decTaken; split <;> rfl

include h

theorem inv_eraseDec : ({ s with dec := s.dec.erase p } : State).Inv :=
  h.of_eq ⟨rfl, rfl, rfl, rfl, rfl, rfl, rfl, rfl, rfl, rfl, rfl, rfl, rfl⟩

theorem decTaken_writes : WritesOnly (· = Reg.decBadcnt) s (s.decTaken b p) := by
  have he : WritesOnly (· = Reg.decBadcnt) s { s with dec := s.dec.erase p } :=
    .same (.refl h) (fun hi => inv_eraseDec hi p) rfl
  exact .ite (he.count 31 0 1 rfl) he

theorem fld_decTaken_of_safe (hc : (p.word.isSome && (s.presLevel b p).isNone) = true) :
    (s.decTaken b p).fld Reg.decBadcnt 31 0 = satAdd (2 ^ 32 - 1) (s.fld Reg.decBadcnt 31 0) 1 := by
  rw [decTaken, if_pos hc]
  exact fld_count_self (inv_eraseDec h p) _ _ (by decide)

end

theorem reg_decTaken_of_not_safe {p : DecPres} (hc : (p.word.isSome && (s.presLevel b p).isNone) = false) (a : Nat) :
    (s.decTaken b p).reg a = s.reg a := by
  rw [decTaken, hc]; rfl

end Machine.State

section
variable {s : State} {b : Fin 16} {p : DecPres}

theorem exec_decEdge (hp : s.dec.find? (fun p => p.bit == b.val && p.tick + 4 == s.tsb.tick) = some p) :
    exec (.decEdge b) s = .next (if s.boot.outDec then (s.decTaken b p).decDrive b (s.presLevel b p) else s.decTaken b p) := by
  show execDecEdge b s = _
  have hb : (s.decTaken b p).boot = s.boot := by rw [State.decTaken_rest]
  rw [← hb, execDecEdge, hp]; rfl

/-- What the edge of a ball leaves, by whether the outputs are released and by the level of the presentation. -/
theorem decEdge_drives (h : s.Inv) (hp : s.dec.find? (fun p => p.bit == b.val && p.tick + 4 == s.tsb.tick) = some p) :
    Completes (.decEdge b) s (fun t =>
      (s.boot.outDec = false → t.decPins = s.decPins) ∧
      (s.boot.outDec = true → (∀ i : Fin 16, i ≠ b → t.decPins.getLsbD i = s.decPins.getLsbD i) ∧
        t.decPins.getLsbD b = (s.presLevel b p).getD (s.rbit Reg.decCfg b) ∧ t.rbit Reg.decStatus b = (s.presLevel b p).isNone) ∧
      t.reg Reg.decBadcnt = (s.decTaken b p).reg Reg.decBadcnt ∧
      t.dec = s.dec.erase p ∧ RegsKept [Reg.decStatus, Reg.decBadcnt] s t ∧
      t = { s with regs := t.regs, dec := t.dec, decPins := t.decPins }) := by
  have hu := State.decTaken_writes h b p
  have hw : WritesOnly (· ∈ [Reg.decStatus, Reg.decBadcnt]) s (s.decTaken b p) := hu.mono fun _ ha => by simp [ha]
  have hdec : (s.decTaken b p).dec = s.dec.erase p := by rw [State.decTaken_rest]
  have hpins : (s.decTaken b p).decPins = s.decPins := by rw [State.decTaken_rest]
  refine .intro (exec_decEdge hp) ?_
  cases ho : s.boot.outDec with
  | false => exact ⟨fun _ => hpins, fun hn => absurd hn Bool.false_ne_true, rfl, hdec, hw.regsKept,
      by rw [if_neg Bool.false_ne_true, State.decTaken_rest]⟩
  | true =>
    have hcfg : (s.decTaken b p).rbit Reg.decCfg b = s.rbit Reg.decCfg b := hu.rbit _ (by decide)
    rw [if_pos rfl]
    refine ⟨fun hn => absurd hn.symm Bool.false_ne_true, fun _ => ⟨fun i hi => ?_, ?_, ?_⟩, ?_, hdec, ?_, ?_⟩
    · rw [State.getLsbD_decDrive, if_neg (Fin.val_ne_of_ne hi), hpins]
    · rw [State.getLsbD_decDrive, if_pos rfl, hcfg]
    · exact State.rbit_decDrive_status hu.inv _ (by omega)
    · exact State.reg_decDrive_of_ne hu.inv _ (by decide)
    · exact (State.decDrive_writes hw _ (by simp)).regsKept
    · rw [State.decTaken_rest]; rfl

end

/-- Settles O26: the emission due in the slot is found by its tick, and the ball is driven by the level of what was presented. -/
theorem sortersAndBallsEmitOnTime : Obligations.SortersAndBallsEmitOnTime := by
  refine ⟨fun s h hp => ⟨fun k c hk hc => sorterEmit_emits h hp hk hc,
    fun he hs hn e hl => mergeCapture_takes h hp he hs hn hl, fun c hc => mergeEmit_emits hp hc⟩,
    fun s b p h hp => ?_⟩
  obtain ⟨t, ht, held, driven, hcnt, hdec, hkept, hrest⟩ := decEdge_drives h hp
  refine ⟨t, ht, held, fun ho => ⟨(driven ho).1, fun w hw hg => ⟨fun htag => ?_, fun htag => ?_⟩⟩, fun ho hn => ?_, hdec, hkept, hrest⟩
  all_goals obtain ⟨-, hpin, hstat⟩ := driven ho
  · have hlvl : s.presLevel b p = some (if s.rbit Reg.decCfg (16 + b.val) then decide (w.d ≠ 0) else w.d.getLsbD 0) := by
      rw [State.presLevel, hw]; exact State.decLevel_of_data hg htag
    rw [hlvl] at hpin hstat
    exact ⟨hpin, hstat, hcnt.trans (State.reg_decTaken_of_not_safe (by simp [hlvl]) _)⟩
  · have hlvl : s.presLevel b p = none := by rw [State.presLevel, hw]; exact State.decLevel_of_mark hg htag
    rw [hlvl] at hpin hstat
    refine ⟨hpin, hstat, ?_⟩
    rw [← State.fld_decTaken_of_safe h b p (by simp [hlvl, hw])]
    simp only [State.fld, hcnt]
  · have hlvl : s.presLevel b p = none := by rw [State.presLevel, hn]; rfl
    rw [hlvl] at hpin hstat
    exact ⟨hpin, hstat, hcnt.trans (State.reg_decTaken_of_not_safe (by simp [hn]) _)⟩

end Sys2Proof
end

/-! ## A cycle of a solo engine (R205 to R208, R227, R259 to R266) -/
section
namespace Sys2Proof
open Sys2Proof.Machine

namespace Machine

/-! ### The banks and the stages of an engine -/

theorem PSlot.f_lt (k : PSlot) (hi lo : Nat) : k.f hi lo < 2 ^ (hi + 1 - lo) := Nat.mod_lt _ (Nat.two_pow_pos _)

theorem Bank.D_setD (b : Bank) {j : Nat} (hj : j < 8) (v : W16) (i : Nat) : (b.setD j v).D i = if i = j then v else b.D i := by
  simp only [Bank.D, Bank.setD, Vector.toArray_setIfInBounds, Array.getD_eq_getD_getElem?, Array.getElem?_setIfInBounds]
  by_cases h : i = j
  · subst h; simp [hj]
  · simp [h, Ne.symm h]

namespace EngSt
variable (g : EngSt) (sh : Bool) (b c : Bank)

@[simp] theorem bank_setBank_self : (g.setBank sh b).bank sh = b := by cases sh <;> rfl
@[simp] theorem bank_setBank_not : (g.setBank sh b).bank (!sh) = g.bank (!sh) := by cases sh <;> rfl
@[simp] theorem setBank_setBank : (g.setBank sh b).setBank sh c = g.setBank sh c := by cases sh <;> rfl
@[simp] theorem setBank_handler : (g.setBank sh b).handler = g.handler := by cases sh <;> rfl
@[simp] theorem setBank_fetching : (g.setBank sh b).fetching = g.fetching := by cases sh <;> rfl
@[simp] theorem setBank_run : (g.setBank sh b).run = g.run := by cases sh <;> rfl
@[simp] theorem setBank_stM : (g.setBank sh b).stM = g.stM := by cases sh <;> rfl

theorem readReg_st : g.readReg sh 0x2A = g.stWord sh := by simp [readReg]

theorem stages_eq {g : EngSt} {d a r m w : Option PSlot} :
    g.stages = [d, a, r, m, w] ↔ g.stD = d ∧ g.stA = a ∧ g.stR = r ∧ g.stM = m ∧ g.stW = w := by
  simp [stages]

/-- The engine after the edge of a cycle: every instruction in flight is one stage on, behind what stages F, D, A and R hand on. -/
def shift (g : EngSt) (tick : Nat) (f d a r : Option PSlot) : EngSt :=
  { g with stW := g.stM, stM := r, stR := a, stA := d, stD := f, cycled := some tick,
           run := if g.run = .holding then (if g.handler.isSome then .handler else .running) else g.run }

variable {g} {tick : Nat} {f d a r : Option PSlot}

@[simp] theorem shift_bank : (g.shift tick f d a r).bank sh = g.bank sh := by cases sh <;> rfl
theorem shift_stages {m : Option PSlot} (h : g.stM = m) : (g.shift tick f d a r).stages = [f, d, a, r, m] := by rw [stages, ← h]; rfl
theorem shift_of_running (h : g.run ≠ .holding) :
    g.shift tick f d a r = { g with stW := g.stM, stM := r, stR := a, stA := d, stD := f, cycled := some tick } := by
  rw [shift, if_neg h]

/-- With nothing behind the instruction in stage W the edge empties the pipeline. -/
theorem shift_last (h : g.run ≠ .holding) {w : Option PSlot} (hg : g.stages = [none, none, none, none, w]) :
    g.shift tick none none none none = { g with stW := none, cycled := some tick } := by
  obtain ⟨hD, hA, hR, hM, -⟩ := stages_eq.1 hg
  rw [shift_of_running h]
  cases g
  cases hD; cases hA; cases hR; cases hM
  rfl

/-- The engine fetches no more. -/
def stopped (g : EngSt) : EngSt := { g with fetching := false }

@[simp] theorem stopped_setBank : (g.setBank sh b).stopped = g.stopped.setBank sh b := by cases sh <;> rfl

end EngSt
end Machine

/-- A cycle that writes only a bank of a running engine keeps the rest of it. -/
theorem RestKept.shift_setBank {g : EngSt} (h : g.run ≠ .holding) (sh : Bool) (b : Bank) {tick : Nat} {f d a r : Option PSlot} :
    RestKept sh g ((g.setBank sh b).shift tick f d a r) := by
  refine ⟨by simp, ?_⟩
  rw [EngSt.shift_of_running (by simpa using h)]
  cases sh <;> rfl

/-- A cycle of the engine alone. -/
theorem EngDoes.of_move {i : Instr} {p : EngineNo} {s : State} {P : EngSt → Prop} {g : EngSt} (h : s.Inv)
    (hx : exec i s = .next (s.engMove p)) (he : s.engMove p = s.setEng p g) (hP : P g) : EngDoes i p s P :=
  Completes.intro (hx.trans (congrArg _ he)) ⟨by rwa [State.eng_setEng_self h], fun _ hk => State.eng_setEng_of_ne h _ hk, rfl⟩

namespace Machine

/-- The command that an engine instruction names is the cycle of that kind. -/
theorem exec_row {o : EngOp} {c : EngineNo → Instr} (h : o.row = some c) (p : EngineNo) (s : State) :
    exec (c p) s = s.engRow p (.instr o) := by
  cases o with
  | alu op =>
    obtain ⟨hlt, -⟩ := List.getElem?_eq_some_iff.1 h
    simp only [List.length_cons, List.length_nil] at hlt
    interval_cases op <;> cases h <;> rfl
  | mac op =>
    simp only [EngOp.row] at h
    split_ifs at h with h0 h1 h2 h3 <;> subst op <;> cases h <;> rfl
  | _ => cases h; rfl

namespace State
variable {s old : State} {p : EngineNo} {k : PSlot}

theorem onGang_solo {q : Nat} (h : s.gang q = [q]) (f : EngSt → EngSt) : s.onGang q f = s.setEng q (f (s.eng q)) := by
  rw [onGang, h]; rfl

theorem anyMember_solo {q : Nat} (h : s.gang q = [q]) (st : EngSt → Option PSlot) (f : Nat → PSlot → Bool) :
    s.anyMember q st f = (st (s.eng q)).any (f q) := by
  simp only [anyMember, h, List.any_cons, List.any_nil, Bool.or_false]
  cases st (s.eng q) <;> rfl

/-! ### Stages W, M, R and A -/

theorem stageW_none {q : Nat} (h : (old.eng q).stW = none) : stageW old s q = s := by rw [stageW, h]
theorem stageM_none {q : Nat} (h : (old.eng q).stM = none) : stageM old s q = s := by rw [stageM, h]
theorem stageM_some {q : Nat} (h : (old.eng q).stM = some k) : stageM old s q = s.setEng q (k.writeM (s.eng q)) := by rw [stageM, h]
theorem stageR_none {q : Nat} (h : (old.eng q).stR = none) : stageR old s q = (s, none, false) := by rw [stageR, h]
theorem stageA_none {q : Nat} (ps : List Nat) (h : (old.eng q).stA = none) : stageA old s ps q = (s, none) := by rw [stageA, h]

/-- DONE, YIELD and the NOP write nothing in stage W. -/
theorem stageW_idle {q : Nat} (h : (old.eng q).stW = some k) (ho : k.op = .done ∨ k.op = .yield ∨ k.op = .nop) :
    stageW old s q = s.setEng q (s.eng q) := by
  rcases ho with e | e | e <;> simp [stageW, h, PSlot.writeW, PSlot.storeW, e]

theorem illegalD_none {q : Nat} (h : (s.eng q).stD = none) : s.illegalD q = false := by simp only [illegalD, h]

/-! ### Stage F -/

theorem fetch_idle {q : Nat} (h : (s.eng q).fetching = false) : fetch old s q = (s, {}) := by simp [fetch, h]

section
variable (hp : s.protIdle = true) {b : Bank} (hf : (s.eng p).fetching = true) {sh : Bool} (hs : (s.eng p).handler.isSome = sh)
  (hb : (s.eng p).bank sh = b) (ha : b.again = [])
include hp hf hs hb ha

/-- The next address is fetched. -/
theorem fetch_next (hr : b.rep = none) (hl : b.loop = none) : fetch old s p =
    (s.setEng p ((s.eng p).setBank sh { b with next := b.next + 1 }), { fetched := some (progSlot s p b.next sh false) }) := by
  subst hs hb
  simp only [fetch, hf, ha, hr, hl, Bool.not_true, Bool.false_eq_true, if_false, read_clean (s := s.setEng _ _) (flips_of_idle hp)]
  rfl

/-- A repetition is fetched (R261). -/
theorem fetch_rep {a : BitVec 11} {n : Nat} (hr : b.rep = some (a, n)) : fetch old s p =
    (s.setEng p ((s.eng p).setBank sh { b with rep := if n ≤ 1 then none else some (a, n - 1) }),
      { fetched := some (progSlot s p a sh true) }) := by
  subst hs hb
  simp only [fetch, hf, ha, hr, Bool.not_true, Bool.false_eq_true, if_false, read_clean (s := s.setEng _ _) (flips_of_idle hp)]
  rfl

end

end State
end Machine

/-! ### Which command the cycle is, and what it does -/

namespace Moves
variable {s : State} {p : EngineNo} {k : PSlot} {c : EngineNo → Instr}

theorem notHolding (h : Moves s p) : (s.eng p).run ≠ .holding := by
  rcases h.runs with e | e <;> rw [e] <;> decide

/-- A POST in stage W that has not been offered would hold the pipeline. -/
theorem noFresh (h : Moves s p) : s.postFresh p = false := by
  have hp := h.noPost
  rw [State.postHold, State.anyMember_solo h.solo] at hp
  rw [State.postFresh, State.anyMember_solo h.solo]
  cases hw : (s.eng p).stW with
  | none => rfl
  | some k =>
    rw [hw, Option.any_some] at hp
    rw [Option.any_some]
    cases ho : k.op == .post with
    | false => rfl
    | true =>
      cases hq : (s.eng p).post with
      | none => simp [ho, hq] at hp
      | _ => simp

theorem engRow_of_kind (h : Moves s p) (hb : s.illegalD p = false) {x : CycleKind} (hk : s.cycleKind p = some x) :
    s.engRow p x = .next (s.engMove p) := by
  simp only [State.engRow, State.isKind, hk, decide_true, Bool.true_or, Bool.not_true, Bool.false_eq_true, if_false, hb, h.noFresh, h.noIn,
    h.noOut, h.noPost, Bool.or_false, Bool.false_and, State.engCycle]
  rfl

/-- A cycle that fetches is named by the instruction fetched. -/
theorem exec_of_fetch (h : Moves s p) (hb : s.illegalD p = false) (hf : (s.eng p).fetching = true)
    (hk : (State.fetch s s p).2.fetched = some k) (hc : k.op.row = some c) : exec (c p) s = .next (s.engMove p) := by
  rw [exec_row hc, h.engRow_of_kind hb]
  simp [State.cycleKind, h.due, hb, h.noFresh, h.noIn, h.noOut, h.noPost, h.notHolding, h.calm, hf, hk]

end Moves

/-- A cycle that fetches nothing is named by the youngest instruction in flight. -/
theorem Drains.exec_of_flight {s : State} {p : EngineNo} {k : PSlot} {c : EngineNo → Instr} (h : Drains s p) (hb : s.illegalD p = false)
    (hk : ((s.eng p).stages.filterMap id).head? = some k) (hc : k.op.row = some c) : exec (c p) s = .next (s.engMove p) := by
  obtain ⟨hm, hf⟩ := h
  rw [exec_row hc, hm.engRow_of_kind hb]
  simp only [State.cycleKind, hm.due, hb, hm.noFresh, hm.noIn, hm.noOut, hm.noPost, hm.notHolding, hm.calm, hf]
  exact congrArg (Option.map _) hk

/-- A cycle with nothing in flight before stage W is named by what stands there. -/
theorem Drains.exec_last {s : State} {p : EngineNo} {k : PSlot} {c : EngineNo → Instr} (h : Drains s p)
    (hs : (s.eng p).stages = [none, none, none, none, some k]) (hc : k.op.row = some c) : exec (c p) s = .next (s.engMove p) :=
  h.exec_of_flight (State.illegalD_none (EngSt.stages_eq.1 hs).1) (by rw [hs]; rfl) hc

namespace Machine.State
variable {s t : State} {p : EngineNo} {k : PSlot}

/-- What the instruction in stage D does to the fetching, unless stage A has discarded it. -/
def decode (s : State) (p : Nat) (c : State × Flow) : State × Flow :=
  match (s.eng p).stD with
  | some k => if c.2.keepD then c.1.controlD p k c.2 else c
  | none => c

/-- What the instruction that leaves stage W does to the run. -/
def retire (s t : State) (p : Nat) : State :=
  match (s.eng p).stW with
  | some k => if k.op = .done ∨ k.op = .yield then t.runEnd p k else t
  | none => t

theorem decode_none {q : Nat} (h : (s.eng q).stD = none) (c : State × Flow) : s.decode q c = c := by rw [decode, h]
theorem decode_some {q : Nat} {k : PSlot} (h : (s.eng q).stD = some k) {c : State × Flow} (hk : c.2.keepD = true) :
    s.decode q c = c.1.controlD q k c.2 := by rw [decode, h, hk]; rfl
theorem controlA_none {q : Nat} (h : (s.eng q).stA = none) (w : Flow) : controlA s t q w = (t, w) := by rw [controlA, h]
theorem retire_none {q : Nat} (h : (s.eng q).stW = none) : s.retire t q = t := by rw [retire, h]
theorem retire_end {q : Nat} {k : PSlot} (h : (s.eng q).stW = some k) (ho : k.op = .done ∨ k.op = .yield) :
    s.retire t q = t.runEnd q k := by simp [retire, h, ho]
theorem retire_go {q : Nat} {k : PSlot} (h : (s.eng q).stW = some k) (ho : ¬(k.op = .done ∨ k.op = .yield)) :
    s.retire t q = t := by simp [retire, h, ho]

/-- A moving cycle of a solo engine, from what its stages, its fetch and its control do, where no read fails and no handler ends. -/
theorem engMove_solo (hm : Moves s p) (hb : s.illegalD p = false) {sr sa : State} {kr ka : Option PSlot} {c d : State × Flow}
    (hr : stageR s (stageM s (stageW s s p) p) p = (sr, kr, false)) (ha : stageA s sr [p.val] p = (sa, ka))
    (hc : controlA s (fetch s sa p).1 p (fetch s sa p).2 = c) (hd : s.decode p c = d) (hu : d.2.ue = false) (he : d.2.handlerEnd = false) :
    s.engMove p = s.retire (d.1.setEng p ((d.1.eng p).shift d.1.tsb.tick d.2.fetched (if d.2.keepD then (s.eng p).stD else none) ka kr)) p := by
  unfold engMove
  extract_lets ps g0 bad take s1 s2 rr ra f fa fd flow dSlot s3 s4 s5
  have hps : ps = [p.val] := hm.solo
  have hbad : bad = false := hb
  have htake : take = false := by simp only [take, g0, hm.calm]; rfl
  have hrr : rr = (sr, [(p.val, kr)], false) := by
    simp only [rr, s2, s1, hps, List.foldl_cons, List.foldl_nil, hr, List.nil_append, Bool.or_false]
  have hra : ra = (sa, [(p.val, ka)]) := by simp only [ra, hps, hrr, List.foldl_cons, List.foldl_nil, ha, List.nil_append]
  have hfa : fa = c := by simp only [fa, f, hra, hc]
  have hfd : fd = d := by
    simp only [fd, g0, hfa, hbad, htake, ← hd, decode]
    cases (s.eng p).stD <;> cases c.2.keepD <;> rfl
  have hs3 : s3 = d.1.setEng p ((d.1.eng p).shift d.1.tsb.tick d.2.fetched (if d.2.keepD then (s.eng p).stD else none) ka kr) := by
    simp only [s3, hps, hrr, hra, hfd, hbad, htake, flow, dSlot, g0, List.foldl_cons, List.foldl_nil, List.lookup_cons_self]; rfl
  have hs5 : s5 = s.retire s3 p := by
    simp only [s5, s4, flow, hfd, he, Bool.false_eq_true, if_false]; rfl
  simp only [hrr, flow, hfd, hu, hbad, htake, g0, hm.calm, hs5, hs3]; rfl

/-! ### The cycles by the stage that is filled -/

/-- A cycle in which an instruction stands in stage M alone, when nothing is fetched. -/
theorem engMove_stageM (h : s.Inv) (hd : Drains s p) (hs : (s.eng p).stages = [none, none, none, some k, none])
    (hk : (k.writeM (s.eng p)).fetching = false) :
    s.engMove p = s.setEng p ((k.writeM (s.eng p)).shift s.tsb.tick none none none none) := by
  obtain ⟨hD, hA, hR, hM, hW⟩ := EngSt.stages_eq.1 hs
  have hmw : stageM s (stageW s s p) p = s.setEng p (k.writeM (s.eng p)) := by rw [stageW_none hW, stageM_some hM]
  have hf : fetch s (s.setEng p (k.writeM (s.eng p))) p = (s.setEng p (k.writeM (s.eng p)), {}) :=
    fetch_idle (by rw [eng_setEng_self h]; exact hk)
  rw [engMove_solo hd.1 (illegalD_none hD) (by rw [hmw, stageR_none hR]) (stageA_none _ hA) (by rw [hf, controlA_none hA])
    (decode_none hD _) rfl rfl, retire_none hW]
  simp [eng_setEng_self h, setEng_setEng h, hD]

/-- A cycle that fetches with nothing in flight. -/
theorem engMove_fetched (h : s.Inv) (hm : Moves s p) (hg : (s.eng p).stages = [none, none, none, none, none]) {g : EngSt} {w : Flow}
    (hf : fetch s s p = (s.setEng p g, w)) (hu : w.ue = false) (he : w.handlerEnd = false) :
    s.engMove p = s.setEng p (g.shift s.tsb.tick w.fetched none none none) := by
  obtain ⟨hD, hA, hR, hM, hW⟩ := EngSt.stages_eq.1 hg
  rw [engMove_solo hm (illegalD_none hD) (by rw [stageW_none hW, stageM_none hM, stageR_none hR]) (stageA_none _ hA)
    (by rw [hf, controlA_none hA]) (decode_none hD _) hu he, retire_none hW]
  simp [eng_setEng_self h, setEng_setEng h, hD]

/-- A cycle that fetches behind an instruction in stage D that goes on to stage A. -/
theorem engMove_decoded (h : s.Inv) (hm : Moves s p) (hb : s.illegalD p = false) (hg : (s.eng p).stages = [some k, none, none, none, none])
    {g g' : EngSt} {w w' : Flow} (hf : fetch s s p = (s.setEng p g, w)) (hw : w.keepD = true)
    (hd : (s.setEng p g).controlD p k w = (s.setEng p g', w')) (hk : w'.keepD = true) (hu : w'.ue = false) (he : w'.handlerEnd = false) :
    s.engMove p = s.setEng p (g'.shift s.tsb.tick w'.fetched (some k) none none) := by
  obtain ⟨hD, hA, hR, hM, hW⟩ := EngSt.stages_eq.1 hg
  rw [engMove_solo hm hb (by rw [stageW_none hW, stageM_none hM, stageR_none hR]) (stageA_none _ hA)
    (by rw [hf, controlA_none hA]) ((decode_some hD hw).trans hd) hu he, retire_none hW]
  simp [eng_setEng_self h, setEng_setEng h, hD, hk]

/-- A cycle in which DONE, YIELD or a NOP leaves stage W, with nothing behind it. -/
theorem engMove_retired (h : s.Inv) (hd : Drains s p) (hg : (s.eng p).stages = [none, none, none, none, some k])
    (ho : k.op = .done ∨ k.op = .yield ∨ k.op = .nop) :
    s.engMove p = s.retire (s.setEng p ((s.eng p).shift s.tsb.tick none none none none)) p := by
  obtain ⟨hD, hA, hR, hM, hW⟩ := EngSt.stages_eq.1 hg
  have hf : fetch s (s.setEng p (s.eng p)) p = (s.setEng p (s.eng p), {}) := fetch_idle (by rw [eng_setEng_self h]; exact hd.2)
  rw [engMove_solo hd.1 (illegalD_none hD) (by rw [stageW_idle hW ho, stageM_none hM, stageR_none hR]) (stageA_none _ hA)
    (by rw [hf, controlA_none hA]) (decode_none hD _) rfl rfl]
  simp [eng_setEng_self h, setEng_setEng h, hD]

end Machine.State

namespace FetchesOn
variable {s : State} {p : EngineNo} {b : Bank} (hf : FetchesOn s p b)
include hf

theorem fetched {sh : Bool} (hs : (s.eng p).handler.isSome = sh) : State.fetch s s p =
    (s.setEng p ((s.eng p).setBank sh { b with next := b.next + 1 }), { fetched := some (progSlot s p b.next sh false) }) := by
  obtain ⟨hm, hfe, hb, ha, hr, hl⟩ := hf
  subst hs
  exact State.fetch_next hm.clean hfe rfl hb.symm ha hr hl

theorem exec {c : EngineNo → Instr} (hb : s.illegalD p = false)
    (hc : (progSlot s p b.next (s.eng p).handler.isSome false).op.row = some c) : exec (c p) s = .next (s.engMove p) :=
  hf.1.exec_of_fetch hb hf.2.1 (by rw [hf.fetched rfl]) hc

end FetchesOn

section
variable {s : State} {p : EngineNo} {k : PSlot} {c : EngineNo → Instr} {P : EngSt → Prop} (h : s.Inv)
include h

/-- A cycle that fetches with nothing in flight. -/
theorem EngDoes.of_fetched (hm : Moves s p) (hs : (s.eng p).stages = [none, none, none, none, none]) (hf : (s.eng p).fetching = true)
    {g : EngSt} (hft : State.fetch s s p = (s.setEng p g, { fetched := some k })) (hc : k.op.row = some c)
    (hP : P (g.shift s.tsb.tick (some k) none none none)) : EngDoes (c p) p s P :=
  .of_move h (hm.exec_of_fetch (State.illegalD_none (EngSt.stages_eq.1 hs).1) hf (by rw [hft]) hc)
    (State.engMove_fetched h hm hs hft rfl rfl) hP

/-- A cycle that fetches at the next address behind an instruction in stage D. -/
theorem EngDoes.of_decoded {b : Bank} (hf : FetchesOn s p b) (hb : s.illegalD p = false) (hs : (s.eng p).stages = [some k, none, none, none, none])
    (hk : k.shadow = (s.eng p).handler.isSome) (hc : (progSlot s p b.next (s.eng p).handler.isSome false).op.row = some c) {g : EngSt} {w : Flow}
    (hd : (s.setEng p ((s.eng p).setBank k.shadow { b with next := b.next + 1 })).controlD p k
      { fetched := some (progSlot s p b.next k.shadow false) } = (s.setEng p g, w))
    (hw : w.keepD = true) (hu : w.ue = false) (he : w.handlerEnd = false) (hP : P (g.shift s.tsb.tick w.fetched (some k) none none)) :
    EngDoes (c p) p s P :=
  .of_move h (hf.exec hb hc) (State.engMove_decoded h hf.1 hb hs (hf.fetched hk.symm) rfl hd hw hu he) hP

end

end Sys2Proof
end

/-! ## The ALU operations (R251, R252) -/
section
namespace Sys2Proof
open Sys2Proof.Machine

namespace Machine

theorem cond16_eq (r : W16) (v : Bool) : cond16 r v = { z := decide (r = 0), n := decide (r.toInt < 0), v := v } := by
  rw [cond16, ← BitVec.msb_eq_toInt, BitVec.msb_eq_getLsbD_last]

/-! ### The results of Table 7 as numbers (R252) -/

theorem w16_clampInt_eq (i : Int) : w16 (clampInt (-32768) 32767 i) = BitVec.ofInt 16 (max (-32768) (min 32767 i)) := by
  rw [clampInt_eq (by decide)]; rfl

theorem aluAbs_eq (x : W16) : (if x = 0x8000 then 0x7FFF else if x.toInt < 0 then -x else x) =
    BitVec.ofInt 16 (max (-32768) (min 32767 (x.toInt.natAbs : Int))) := by
  have hi : x.toInt = if 2 * x.toNat < 65536 then (x.toNat : Int) else x.toNat - 65536 := x.toInt_eq_toNat_cond
  apply BitVec.eq_of_toInt_eq
  rw [BitVec.toInt_ofInt_eq_self (by decide) (by omega) (by omega)]
  split_ifs with hm hn
  · rw [hm]; rfl
  · have hne : x.toNat ≠ 0x8000 := fun e => hm (BitVec.eq_of_toNat_eq e)
    rw [BitVec.toInt_neg_of_ne_intMin hm]; omega
  · omega

theorem aluMin_eq (x y : W16) : (if y.toInt < x.toInt then y else x) = BitVec.ofInt 16 (min x.toInt y.toInt) := by
  split_ifs with h
  · rw [min_eq_right (by omega), BitVec.ofInt_toInt]
  · rw [min_eq_left (by omega), BitVec.ofInt_toInt]

theorem aluMax_eq (x y : W16) : (if x.toInt < y.toInt then y else x) = BitVec.ofInt 16 (max x.toInt y.toInt) := by
  split_ifs with h
  · rw [max_eq_right (by omega), BitVec.ofInt_toInt]
  · rw [max_eq_left (by omega), BitVec.ofInt_toInt]

theorem shiftLeft_eq_ofNat (x : W16) (n : Nat) : x <<< n = BitVec.ofNat 16 (x.toNat * 2 ^ n) :=
  BitVec.eq_of_toNat_eq (by rw [BitVec.toNat_shiftLeft, Nat.shiftLeft_eq, BitVec.toNat_ofNat])

theorem ushiftRight_eq_ofNat (x : W16) (n : Nat) : x >>> n = BitVec.ofNat 16 (x.toNat / 2 ^ n) := by
  rw [← Nat.shiftRight_eq_div_pow, ← BitVec.toNat_ushiftRight, BitVec.ofNat_toNat, BitVec.setWidth_eq]

theorem sshiftRight_eq_ofInt (x : W16) (n : Nat) : x.sshiftRight n = BitVec.ofInt 16 (x.toInt / 2 ^ n) := by
  rw [BitVec.sshiftRight, Int.shiftRight_eq_div_pow]; norm_cast

/-- Equal results have equal condition bits. -/
theorem both_congr {q r : W16} (h : q = r) (v : Bool) : (some q, some (cond16 q v)) = (some r, some (cond16 r v)) := by rw [h]

/-- Stage M of an ALU operation, from its result and its condition bits. -/
theorem PSlot.writeM_alu {k : PSlot} {o : Nat} (ho : k.op = .alu o) {r : W16} {w : Bool} {v : Option Bool}
    (hr : aluOp o k.a k.b = (if w then some r else none, v.map (cond16 r))) (g : EngSt) :
    k.writeM g = g.setBank k.shadow { g.bank k.shadow with
      d := if w then ((g.bank k.shadow).setD (k.f 22 20) r).d else (g.bank k.shadow).d,
      z := v.elim (g.bank k.shadow).z fun _ => decide (r = 0),
      n := v.elim (g.bank k.shadow).n fun _ => decide (r.toInt < 0),
      v := v.getD (g.bank k.shadow).v } := by
  simp only [writeM, ho, hr]
  cases w <;> cases v <;> simp [cond16_eq] <;> rfl

end Machine

/-- Settles O31: operation by operation the result and the condition bits are those of Table 7, and stage M writes nothing else. -/
theorem aluInstructions : Obligations.AluInstructions := by
  intro s p k o c h hd hs ho hc g b x y n sat out r w v hm
  have hr : aluOp o k.a k.b = (if w then some r else none, v.map (cond16 r)) := by
    simp only [List.mem_cons, List.not_mem_nil, or_false, Prod.mk.injEq] at hm
    rcases hm with e | e | e | e | e | e | e | e | e | e | e | e | e | e | e | e | e | e | e
    all_goals obtain ⟨rfl, rfl, rfl, rfl⟩ := e
    exacts [rfl, rfl, both_congr (w16_clampInt_eq _) _, both_congr (w16_clampInt_eq _) _, rfl, rfl, rfl, rfl,
      both_congr (BitVec.zero_sub _).symm _, both_congr (aluAbs_eq _) _, both_congr (aluMin_eq _ _) _, both_congr (aluMax_eq _ _) _,
      rfl, rfl, both_congr (shiftLeft_eq_ofNat _ _) _, both_congr (ushiftRight_eq_ofNat _ _) _, both_congr (sshiftRight_eq_ofInt _ _) _,
      both_congr (congrArg _ (popCount_eq _)) _, rfl]
  obtain ⟨hD, hA, hR, hM, hW⟩ := EngSt.stages_eq.1 hs
  have hk := PSlot.writeM_alu ho hr g
  refine .of_move h (hd.exec_of_flight (State.illegalD_none hD) (by rw [hs]; rfl) hc)
    (State.engMove_stageM h hd hs (by rw [hk]; simpa using hd.2)) ?_
  rw [hk]
  refine ⟨fun i hi => ?_, ?_, ?_, ?_, .shift_setBank hd.1.notHolding ..⟩
  · rw [EngSt.shift_bank, EngSt.bank_setBank_self]
    cases w with
    | true => exact (Bank.D_setD _ (k.f_lt 22 20) r i).trans (if_congr (by simp) rfl rfl)
    | false => exact (if_neg (by simp)).symm
  · rw [EngSt.shift_bank, EngSt.bank_setBank_self]
    cases v <;> exact ⟨rfl, rfl, rfl⟩
  · rw [EngSt.shift_bank, EngSt.bank_setBank_self]
  · exact EngSt.shift_stages ((EngSt.setBank_stM ..).trans hM)

end Sys2Proof
end

/-! ## Transfers, repeats, loops and the end of a run (R259 to R266) -/
section
namespace Sys2Proof
open Sys2Proof.Machine

namespace Machine

/-- The condition of a transfer, code by code (R260, Table 9). -/
theorem branchCond_iff (c : Nat) (f : Cond) (t : BitVec 2) (l0 l1 : W16) : branchCond c f t l0 l1 = true ↔ match c with
    | 0x0 => True | 0x1 => f.z = true | 0x2 => f.z = false | 0x3 => f.n = true | 0x4 => f.n = false | 0x5 => f.v = true
    | 0x6 => f.v = false | 0x7 => f.n ≠ f.v | 0x8 => f.n = f.v | 0x9 => f.z = false ∧ f.n = f.v | 0xA => f.z = true ∨ f.n ≠ f.v
    | 0xB => l0 ≠ 1 | 0xC => l1 ≠ 1 | 0xD => (t = Tag.mark.bits ∨ t = Tag.poison.bits) | _ => False := by
  have hdec : ∀ l : W16, decide (l - 1 ≠ 0) = true ↔ l ≠ 1 := fun l => decide_eq_true_iff.trans (not_congr sub_eq_zero)
  have htag : t.getLsbD 1 = true ↔ t = Tag.mark.bits ∨ t = Tag.poison.bits := by revert t; decide
  split
  case h_12 => exact hdec l0
  case h_13 => exact hdec l1
  case h_14 => exact htag
  case h_15 => grind [branchCond]
  all_goals simp [branchCond]

namespace Bank
variable (b : Bank) (i : Nat) (v : W16)

@[simp] theorem lc_setLc_self : (b.setLc i v).lc i = v := by unfold setLc lc; split_ifs <;> rfl
@[simp] theorem lc_setLc_other : (b.setLc i v).lc (1 - i) = b.lc (1 - i) := by
  rcases Nat.eq_zero_or_pos i with rfl | hi
  · rfl
  · rw [setLc, if_neg (by omega), show 1 - i = 0 by omega]; rfl

@[simp] theorem setLc_loop : (b.setLc i v).loop = b.loop := by unfold setLc; split_ifs <;> rfl

end Bank

namespace PSlot
variable {k : PSlot}

/-- The bank after stage A of a transfer: the counter of a DEC condition, and D7 for a CALL (R259, R260). -/
def transferred (k : PSlot) (b : Bank) : Bank :=
  { b with
    lc0 := if k.f 25 22 = 0xB then b.lc0 - 1 else b.lc0
    lc1 := if k.f 25 22 = 0xC then b.lc1 - 1 else b.lc1
    d := if k.op = .call then (b.setD 7 ((k.addr + 3).setWidth 16)).d else b.d }

theorem D_transferred_seven (b : Bank) : (k.transferred b).D 7 = if k.op = .call then (k.addr + 3).setWidth 16 else b.D 7 := by
  have hc := b.D_setD (j := 7) (by decide) ((k.addr + 3).setWidth 16) 7
  simp only [transferred, Bank.D]
  split_ifs
  · exact hc.trans (if_pos rfl)
  · rfl

theorem D_transferred_of_lt (b : Bank) {i : Nat} (hi : i < 7) : (k.transferred b).D i = b.D i := by
  have hc := b.D_setD (j := 7) (by decide) ((k.addr + 3).setWidth 16) i
  simp only [transferred, Bank.D]
  split_ifs
  · exact hc.trans (if_neg (by omega))
  · rfl

theorem writeA_transfer (ht : k.op.transfer = true) (g : EngSt) : k.writeA g g = g.setBank k.shadow (k.transferred (g.bank k.shadow)) := by
  have hdec : ∀ b : Bank, (if k.f 25 22 = 0xB then b.setLc 0 (b.lc 0 - 1) else if k.f 25 22 = 0xC then b.setLc 1 (b.lc 1 - 1) else b) =
      { b with lc0 := if k.f 25 22 = 0xB then b.lc0 - 1 else b.lc0, lc1 := if k.f 25 22 = 0xC then b.lc1 - 1 else b.lc1 } := by
    intro b
    by_cases hB : k.f 25 22 = 0xB
    · rw [if_pos hB, if_pos hB, if_neg (by omega)]; rfl
    · rw [if_neg hB, if_neg hB]
      split_ifs <;> rfl
  cases ho : k.op with
  | br | ret => simp only [writeA, ho, hdec, transferred, reduceCtorEq, if_false]
  | call => simp only [writeA, ho, hdec, transferred, if_true]; rfl
  | _ => rw [ho] at ht; cases ht

/-- A transfer comes out of stage A with the word that it had. -/
theorem readA_transfer (ht : k.op.transfer = true) (g src : EngSt) :
    (k.readA g src).word = k.word ∧ (k.readA g src).writeA g g = k.writeA g g := by
  cases ho : k.op with
  | br | call => simp [readA, ho]
  | ret =>
    have hr : k.readA g src = { k with a := (g.bank k.shadow).D 7 } := by simp only [readA, ho]
    have hop : (k.readA g src).op = .ret := by rw [hr]; exact ho
    refine ⟨by rw [hr], ?_⟩
    simp only [writeA, hop, ho]
    rw [hr]; rfl
  | _ => rw [ho] at ht; cases ht

end PSlot

namespace State
variable {s t : State} {p : EngineNo} {k : PSlot}

/-- A transfer that is taken sets the next address (R260). -/
theorem controlA_transfer (ha : (s.eng p).stA = some k) (ht : k.op.transfer = true) (hl : ((t.eng p).bank k.shadow).loop = none) (w : Flow) :
    controlA s t p w = (if branchCond (k.f 25 22) ((s.eng p).bank k.shadow).cond (s.eng p).itag ((s.eng p).bank k.shadow).lc0
        ((s.eng p).bank k.shadow).lc1 = true then
      t.setEng p ((t.eng p).setBank k.shadow { (t.eng p).bank k.shadow with
        next := if k.op = .ret then (((s.eng p).bank k.shadow).D 7).setWidth 11 else BitVec.ofNat 11 (k.f 10 0) })
      else t, w) := by
  simp only [controlA, ha, ht, if_true, hl]
  split_ifs <;> simp [← hl]

section
variable (h : s.Inv) (hg : s.gang p = [p.val]) {g : EngSt} {b : Bank} (hb : g.bank k.shadow = b)
include h hb

/-- REP (R261): the instruction behind it is fetched as the first of the copies. -/
theorem controlD_rep (ho : k.op = .rep) (hr : b.rep = none) (w : Flow) : (s.setEng p g).controlD p k w =
    (s.setEng p (g.setBank k.shadow { b with
      xfer1 := false, xfer2 := b.xfer1, rep := if k.f 15 0 ≤ 1 then none else some (k.addr + 1, k.f 15 0 - 1) }),
      { w with fetched := if k.f 15 0 = 0 then none else w.fetched.map (fun x => { x with copy := true }) }) := by
  simp only [controlD, ho, eng_setEng_self h, setEng_setEng h, hb]
  by_cases h0 : k.f 15 0 = 0
  · simp [h0, EngOp.transfer, ← hr]
  · by_cases h1 : k.f 15 0 = 1
    · simp [h1]
    · simp [h0, h1, show ¬k.f 15 0 ≤ 1 by omega]

include hg

/-- LOOP acts (R262). -/
theorem loopStart_solo (count : Nat → W16) : ∃ b', (s.setEng p g).loopStart p k count = s.setEng p (g.setBank k.shadow b') ∧
    b'.lc (k.f 26 26) = count p ∧ b'.lc (1 - k.f 26 26) = b.lc (1 - k.f 26 26) ∧
    (count p = 0 → b'.loop = none ∧ b'.next = BitVec.ofNat 11 (k.f 24 14) + 1) ∧
    (count p ≠ 0 → b'.loop = some { first := k.addr + 1, last := BitVec.ofNat 11 (k.f 24 14), lc1 := decide (k.f 26 26 = 1) } ∧
      b'.next = k.addr + 1) := by
  have hg' : (s.setEng p g).gang p = [p.val] := hg
  simp only [loopStart, hg', List.foldl_cons, List.foldl_nil, eng_setEng_self h, setEng_setEng h, EngSt.bank_setBank_self,
    EngSt.setBank_setBank, hb]
  refine ⟨_, rfl, ?_⟩
  split_ifs with h0
  · exact ⟨Bank.lc_setLc_self .., Bank.lc_setLc_other .., fun _ => ⟨rfl, rfl⟩, fun hn => absurd h0 hn⟩
  · exact ⟨Bank.lc_setLc_self .., Bank.lc_setLc_other .., fun he => absurd he h0, fun _ => ⟨rfl, rfl⟩⟩

/-- LOOP with a count of its own acts in stage D (R262). -/
theorem controlD_loop (ho : k.op = .loop) (hc : k.f 25 25 = 0) (w : Flow) : ∃ b', (s.setEng p g).controlD p k w =
      (s.setEng p (g.setBank k.shadow b'), { w with fetched := none }) ∧
    b'.lc (k.f 26 26) = BitVec.ofNat 16 (k.f 13 0) ∧ b'.lc (1 - k.f 26 26) = b.lc (1 - k.f 26 26) ∧
    (k.f 13 0 = 0 → b'.loop = none ∧ b'.next = BitVec.ofNat 11 (k.f 24 14) + 1) ∧
    (k.f 13 0 ≠ 0 → b'.loop = some { first := k.addr + 1, last := BitVec.ofNat 11 (k.f 24 14), lc1 := decide (k.f 26 26 = 1) } ∧
      b'.next = k.addr + 1) := by
  have hz : BitVec.ofNat 16 (k.f 13 0) = 0 ↔ k.f 13 0 = 0 := by
    rw [← BitVec.toNat_inj, BitVec.toNat_ofNat, Nat.mod_eq_of_lt (Nat.lt_trans (k.f_lt 13 0) (by decide))]; rfl
  obtain ⟨b', he, self, other, zero, turns⟩ := loopStart_solo h hg (k := k) (g := g.setBank k.shadow { b with xfer1 := false, xfer2 := b.xfer1 })
    (EngSt.bank_setBank_self ..) fun _ => BitVec.ofNat 16 (k.f 13 0)
  refine ⟨b', ?_, self, other, fun e => zero (hz.2 e), fun e => turns (mt hz.1 e)⟩
  simp only [controlD, ho, hc, if_true, EngOp.transfer, eng_setEng_self h, setEng_setEng h, hb, he, EngSt.setBank_setBank]

omit hb in
/-- DONE and YIELD end the fetching (R264, R265). -/
theorem controlD_end (ho : k.op = .done ∨ k.op = .yield) (w : Flow) : (s.setEng p g).controlD p k w =
    (s.setEng p (g.stopped.setBank k.shadow { g.bank k.shadow with loop := none, rep := none, again := [] }),
      { w with fetched := none }) := by
  have hg' : (s.setEng p g).gang p = [p.val] := hg
  rcases ho with ho | ho <;>
  · simp only [controlD, ho, onGang_solo hg', eng_setEng_self h, setEng_setEng h]
    cases k.shadow <;> rfl

omit hb in
/-- EVT ends the SLOT handler (R266). -/
theorem controlD_evt (ho : k.op = .evt) (hh : g.handler = some .slot) (w : Flow) : (s.setEng p g).controlD p k w =
    (s.setEng p { g with handler := none, run := .running }, { w with fetched := none }) := by
  have hg' : (s.setEng p g).gang p = [p.val] := hg
  simp only [controlD, ho, onGang_solo hg', eng_setEng_self h, setEng_setEng h, hh, if_true]

end

/-- At the last address of a loop its counter goes down, and the loop turns or ends (R262, R263). -/
theorem fetch_loop (h : s.Inv) (hm : Moves s p) (hf : (s.eng p).fetching = true) {sh : Bool} (hs : (s.eng p).handler.isSome = sh) {b : Bank}
    (hb : (s.eng p).bank sh = b) (ha : b.again = []) (hr : b.rep = none) {l : LoopSt} (hl : b.loop = some l) (hn : b.next = l.last)
    (hg : (s.eng p).stages = [none, none, none, none, none]) {i : Nat} (hi : (if l.lc1 then 1 else 0) = i) : ∃ b', fetch s s p =
      (s.setEng p ((s.eng p).setBank sh b'), { fetched := some (progSlot s p b.next sh false) }) ∧
      b'.lc i = b.lc i - 1 ∧ b'.lc (1 - i) = b.lc (1 - i) ∧
      (b.lc i ≠ 1 → b'.next = l.first ∧ b'.loop = some l) ∧ (b.lc i = 1 → b'.next = l.last + 1 ∧ b'.loop = none) := by
  subst hs hb
  obtain ⟨-, hA, hR, hM, hW⟩ := EngSt.stages_eq.1 hg
  have hend : ∀ i b, (s.eng p).endFetch (s.eng p).handler.isSome i b = b.setLc i (b.lc i - 1) := fun i b => by
    simp only [EngSt.endFetch, writesLc, hA, hR, hM, hW]; rfl
  have hone : ((s.eng p).bank (s.eng p).handler.isSome).lc i - 1 ≠ 0 ↔ ((s.eng p).bank (s.eng p).handler.isSome).lc i ≠ 1 :=
    not_congr sub_eq_zero
  simp only [fetch, hf, ha, hr, hl, hn, hi, hm.solo, hend, hone, Bool.not_true, Bool.false_eq_true, if_false, ne_eq, not_true_eq_false,
    List.foldl_cons, List.foldl_nil, eng_setEng_self h, setEng_setEng h, EngSt.bank_setBank_self, EngSt.setBank_setBank,
    read_clean (s := s.setEng _ _) (flips_of_idle hm.clean)]
  refine ⟨_, rfl, ?_⟩
  split_ifs with h1
  · exact ⟨Bank.lc_setLc_self .., Bank.lc_setLc_other .., fun hn => absurd h1 hn, fun _ => ⟨rfl, rfl⟩⟩
  · exact ⟨Bank.lc_setLc_self .., Bank.lc_setLc_other .., fun _ => ⟨rfl, (Bank.setLc_loop ..).trans hl⟩, fun he => absurd he h1⟩

/-- Stage A of a transfer. -/
theorem stageA_transfer (hA : (s.eng p).stA = some k) (ht : k.op.transfer = true) (ps : List Nat) : ∃ k', k'.word = k.word ∧
    stageA s s ps p = (s.setEng p ((s.eng p).setBank k.shadow (k.transferred ((s.eng p).bank k.shadow))), some k') := by
  simp only [stageA, hA]
  refine ⟨_, ?_, Prod.ext (congrArg (s.setEng p) ?_) rfl⟩
  · exact (PSlot.readA_transfer ht ..).1
  · rw [(PSlot.readA_transfer ht ..).2, PSlot.writeA_transfer ht]

/-- A cycle that fetches behind a transfer in stage A: the next address is the target, or the one after (R259, R260). -/
theorem engMove_transfer (h : s.Inv) (hm : Moves s p) (hg : (s.eng p).stages = [none, some k, none, none, none]) (ht : k.op.transfer = true)
    (hf : (s.eng p).fetching = true) (hs : (s.eng p).handler.isSome = k.shadow) {b : Bank}
    (hb : (s.eng p).bank k.shadow = b) (ha : b.again = []) (hr : b.rep = none) (hl : b.loop = none) :
    ∃ k', k'.word = k.word ∧ s.engMove p = s.setEng p (((s.eng p).setBank k.shadow { k.transferred b with
      next := if branchCond (k.f 25 22) b.cond (s.eng p).itag b.lc0 b.lc1 = true then
        (if k.op = .ret then (b.D 7).setWidth 11 else BitVec.ofNat 11 (k.f 10 0)) else b.next + 1 }).shift s.tsb.tick
          (some (progSlot s p b.next k.shadow false)) none (some k') none) := by
  subst hb
  obtain ⟨hD, hA, hR, hM, hW⟩ := EngSt.stages_eq.1 hg
  obtain ⟨k', hk, hsA⟩ := stageA_transfer hA ht [p.val]
  have he := eng_setEng_self h p ((s.eng p).setBank k.shadow (k.transferred ((s.eng p).bank k.shadow)))
  have hft := fetch_next (old := s) (s := s.setEng p ((s.eng p).setBank k.shadow (k.transferred ((s.eng p).bank k.shadow)))) (p := p)
    hm.clean (b := k.transferred ((s.eng p).bank k.shadow)) (by rw [he]; simpa using hf) (sh := k.shadow) (by rw [he]; simpa using hs)
    (by rw [he]; simp) ha hr hl
  refine ⟨k', hk, ?_⟩
  rw [engMove_solo hm (illegalD_none hD) (by rw [stageW_none hW, stageM_none hM, stageR_none hR]) hsA
    (by
      rw [hft, controlA_transfer hA ht]
      rw [setEng_setEng h, eng_setEng_self h, he, EngSt.setBank_setBank, EngSt.bank_setBank_self]; exact hl)
    (decode_none hD _) rfl rfl, retire_none hW]
  split_ifs <;> simp only [eng_setEng_self h, setEng_setEng h, EngSt.bank_setBank_self, EngSt.setBank_setBank, hD] <;> rfl

/-! ### The end of a run (R264, R265, R287) -/

/-- A Sillage record touches neither the engines nor what they hold, and no register but SLG_LOST. -/
theorem record_rest (s : State) (ty : SlgType) (a b c d : Nat) : (s.record ty a b c d).engines = s.engines ∧
    (s.record ty a b c d).dpt.eng = s.dpt.eng ∧ ∀ x, x ≠ Reg.slgLost → s.Inv → (s.record ty a b c d).reg x = s.reg x := by
  unfold record
  split_ifs
  · exact ⟨rfl, rfl, fun _ _ _ => rfl⟩
  · exact ⟨rfl, rfl, fun x hx h => reg_count_of_ne h 31 0 1 hx⟩
  · exact ⟨rfl, rfl, fun _ _ _ => rfl⟩

theorem leaveService_rest (s : State) (v : SvcItem) :
    (s.leaveService v).engines = s.engines ∧ (s.leaveService v).dpt.eng = s.dpt.eng ∧ (s.leaveService v).regs = s.regs := by
  simp only [leaveService, touch]
  split_ifs <;> exact ⟨rfl, rfl, rfl⟩

/-- The item of an engine ends, not aborted: the engines stand, no item runs, and no register but SLG_LOST changes. -/
theorem itemEnd_rest (h : s.Inv) (q : Nat) {reason : Nat} (hr : reason / reasonAbort % 2 ≠ 1) : (s.itemEnd q reason).engines = s.engines ∧
    ((s.itemEnd q reason).engDpt q).running = none ∧ ∀ x, x ≠ Reg.slgLost → (s.itemEnd q reason).reg x = s.reg x := by
  unfold itemEnd
  cases hv : (s.engDpt q).running with
  | none => exact ⟨rfl, hv, fun _ _ => rfl⟩
  | some v =>
    have hrun : ((s.setEngDpt q { s.engDpt q with running := none }).engDpt q).running = none := by rw [engDpt_setEngDpt_self h]
    have hi : (s.setEngDpt q { s.engDpt q with running := none }).Inv := (setEngDpt_still (Still.refl s) _ _).inv h
    simp only [hr, decide_false, Bool.false_eq_true, if_false]
    split
    · exact ⟨rfl, hrun, fun _ _ => rfl⟩
    · obtain ⟨he, hd, hk⟩ := record_rest ((s.setEngDpt q { s.engDpt q with running := none }).leaveService v) .complete v.task q
        v.flow.toNat reason
      obtain ⟨le, ld, lr⟩ := leaveService_rest (s.setEngDpt q { s.engDpt q with running := none }) v
      refine ⟨he.trans le, ?_, fun x hx => (hk x hx ((leaveService_still (Still.refl _) v).inv hi)).trans ?_⟩
      · rw [engDpt, hd, ld]; exact hrun
      · rw [reg, lr]; rfl

theorem eng_setReg (q a : Nat) (w : W32) : (s.setReg a w).eng q = s.eng q := rfl

theorem reg_setEng (q a : Nat) (g : EngSt) : (s.setEng q g).reg a = s.reg a := rfl

theorem engStCopy_ne_secSpare (q k : Nat) : Reg.engStCopy q ≠ Reg.secSpare k := by
  simp only [Reg.engStCopy, Reg.secSpare, Reg.sec, Reg.secBase]; omega

theorem engStCopy_ne_slgLost (p : EngineNo) : Reg.engStCopy p ≠ Reg.slgLost := by
  simp only [Reg.engStCopy, Reg.slgLost, Reg.sec, Reg.secBase, Reg.glb]; omega

/-- Only SEC_SPARE among the registers says which engines a gang has (R16, R231). -/
theorem gang_setReg (h : s.Inv) {a : Nat} (ha : ∀ k, Reg.secSpare k ≠ a) (w : W32) (q : Nat) : (s.setReg a w).gang q = s.gang q := by
  have hf : ∀ k hi lo, (s.setReg a w).fld (Reg.secSpare k) hi lo = s.fld (Reg.secSpare k) hi lo := fun k hi lo => by
    rw [fld, reg_setReg_of_ne h w (ha k), fld]
  have hz : ∀ q, (s.setReg a w).gangSize q = s.gangSize q := fun _ => rfl
  have hs : ∀ k i, (s.setReg a w).spareOf k i = s.spareOf k i := fun _ _ => by simp only [spareOf, hf]
  have hl : (s.setReg a w).logOf q = s.logOf q := by simp only [logOf, hf, hs]
  have hp : ∀ e, (s.setReg a w).physOf e = s.physOf e := fun _ => by simp only [physOf, hs]
  simp only [gang, hl, hp, hz]

theorem runEnd_pinned (h : s.Inv) {q : Nat} (hg : s.gang q = [q]) (hp : s.pooled q = false) (g : EngSt) :
    (s.setEng q g).runEnd q k = s.setEng q { g with run := .idle, ended := true } := by
  have hg' : (s.setEng q g).gang q = [q] := hg
  have hp' : (s.setEng q g).pooled q = false := hp
  simp only [runEnd, hp', Bool.false_eq_true, if_false, onGang_solo hg', eng_setEng_self h, setEng_setEng h]

/-- The run of a pooled engine ends by YIELD. -/
theorem runEnd_yield (h : s.Inv) {q : Nat} (hg : s.gang q = [q]) (hp : s.pooled q = true) (ho : k.op = .yield) (g : EngSt) (hh : g.handler = none)
    (hq : Reg.engStCopy q ≠ Reg.slgLost) :
    let t := (s.setEng q g).runEnd q k
    t.eng q = { g with run := .idle, wd := 0, wdDone := false, yieldAt := some (k.addr + 1, bitsOf g.tk 27 16) } ∧
      t.reg (Reg.engStCopy q) = (g.readReg false 0x2A).setWidth 32 ∧ (t.engDpt q).running = none := by
  have hi : (s.setEng q g).Inv := (setEng_still (Still.refl s) _ _).inv h
  have hg' : (s.setEng q g).gang q = [q] := hg
  have hp' : (s.setEng q g).pooled q = true := hp
  have hc : (s.setEng q g).copySt q = (s.setEng q g).setReg (Reg.engStCopy q) ((g.readReg false 0x2A).setWidth 32) := by
    rw [copySt, eng_setEng_self h, hh, EngSt.readReg_st, Option.isSome_none]
  generalize hu : (s.setEng q g).copySt q = u at hc
  have hui : u.Inv := hc ▸ inv_setReg hi _ _
  have hue : u.eng q = g := by rw [hc, eng_setReg, eng_setEng_self h]
  have hug : u.gang q = [q] := by rw [hc, gang_setReg hi fun k => (engStCopy_ne_secSpare q k).symm]; exact hg'
  simp only [runEnd, hp', if_true, hg', List.foldl_cons, List.foldl_nil, hu, onGang_solo hug, ho, eng_setEng_self h, hue]
  obtain ⟨he, hd, hk⟩ := itemEnd_rest (s := u.setEng q { g with
    run := .idle, wd := 0, wdDone := false, yieldAt := some (k.addr + 1, bitsOf g.tk 27 16) })
    ((setEng_still (Still.refl u) _ _).inv hui) q (reason := reasonYield) (by decide)
  refine ⟨?_, (hk _ hq).trans ?_, hd⟩
  · rw [eng, he]; exact eng_setEng_self hui ..
  · rw [reg_setEng, hc, reg_setReg_self hi]

end State
end Machine

/-- Settles O35: transfers in stage A, what stage D does to the fetching, the turn of a loop, and what leaves stage W. -/
theorem controlInstructions : Obligations.ControlInstructions := by
  intro s p k c h g sh b
  refine ⟨fun hf hk hc => ⟨fun hs ht => ?transfer, fun hs hb hn => ⟨fun ho => ?rep, fun ho h25 => ?loop, fun ho => ?ends, fun ho hh => ?evt⟩⟩,
    fun a n hm hf ha hr hc hs => ?copies, fun l hm hf ha hr hl hn hc hs => ?turn,
    fun hd hs => ⟨fun ho hp => ?done, fun ho hp hh => ?yield, fun ho => ?nop⟩⟩
  all_goals obtain ⟨hD, -, -, hM, hW⟩ := EngSt.stages_eq.1 hs
  case transfer =>
    have ⟨hm, hfe, _, ha, hr, hl⟩ := hf
    obtain ⟨k', hw, he⟩ := State.engMove_transfer h hm hs ht hfe hk.symm (congrArg g.bank hk) ha hr hl
    rw [hk] at he
    refine .of_move h (hf.exec (State.illegalD_none hD) hc) he ?_
    rw [EngSt.shift_bank, EngSt.bank_setBank_self]
    exact ⟨fun hy => if_pos ((branchCond_iff ..).2 hy), fun hn => if_neg (mt (branchCond_iff ..).1 hn), rfl, rfl,
      k.D_transferred_seven b, fun i hi => k.D_transferred_of_lt b hi, rfl, rfl, ⟨k', rfl, hw⟩, rfl, .shift_setBank hm.notHolding ..⟩
  case rep =>
    have ⟨hm, _, _, _, hr, _⟩ := hf
    have hd := State.controlD_rep (p := p) (b := { b with next := b.next + 1 }) h (EngSt.bank_setBank_self g k.shadow _) ho hr
    refine .of_decoded h hf hb hs hk hc (hd _) rfl rfl rfl ?_
    rw [EngSt.setBank_setBank, hk, EngSt.shift_bank, EngSt.bank_setBank_self]
    refine ⟨?_, ?_, rfl, rfl, .shift_setBank hm.notHolding ..⟩
    · rw [EngSt.shift_stages ((EngSt.setBank_stM ..).trans hM), hn]; rfl
    · show b.next + 1 = _
      rw [hn, add_assoc]; rfl
  case loop =>
    have hm := hf.1
    obtain ⟨b', hd, self, other, zero, turns⟩ := State.controlD_loop h hm.solo (EngSt.bank_setBank_self ..) ho h25 _
    refine .of_decoded h hf hb hs hk hc hd rfl rfl rfl ?_
    rw [EngSt.setBank_setBank, hk, EngSt.shift_bank, EngSt.bank_setBank_self]
    exact ⟨EngSt.shift_stages ((EngSt.setBank_stM ..).trans hM), ⟨self, other, zero, turns⟩, .shift_setBank hm.notHolding ..⟩
  case ends =>
    have hm := hf.1
    refine .of_decoded h hf hb hs hk hc (State.controlD_end h hm.solo ho _) rfl rfl rfl ?_
    rw [EngSt.stopped_setBank, EngSt.setBank_setBank, hk]
    exact ⟨EngSt.setBank_fetching .., EngSt.shift_stages ((EngSt.setBank_stM ..).trans hM),
      .shift_setBank (g := g.stopped) hm.notHolding ..⟩
  case evt =>
    refine .of_decoded h hf hb hs hk hc (State.controlD_evt h hf.1.solo ho ((EngSt.setBank_handler ..).trans hh) _) rfl rfl rfl ?_
    have hsh : k.shadow = true := hk.trans (congrArg Option.isSome hh)
    rw [hsh]
    exact ⟨rfl, rfl, rfl, EngSt.shift_stages hM⟩
  case copies =>
    refine .of_fetched h hm hs hf (State.fetch_rep hm.clean hf rfl rfl ha hr) hc ?_
    rw [EngSt.shift_bank, EngSt.bank_setBank_self]
    exact ⟨EngSt.shift_stages ((EngSt.setBank_stM ..).trans hM), rfl, rfl⟩
  case turn =>
    obtain ⟨b', hft, down, other, turns, ends⟩ := State.fetch_loop h hm hf rfl rfl ha hr hl hn hs rfl
    refine .of_fetched h hm hs hf hft hc ?_
    rw [EngSt.shift_bank, EngSt.bank_setBank_self]
    exact ⟨down, other, turns, ends⟩
  case done =>
    have he := State.engMove_retired h hd hs (.inl ho)
    rw [State.retire_end hW (.inl ho), State.runEnd_pinned h hd.1.solo hp] at he
    exact .of_move h (hd.exec_last hs (c := .engDone) (by rw [ho]; rfl)) he ⟨rfl, rfl, rfl, rfl, EngSt.shift_stages (tick := s.tsb.tick) hM⟩
  case yield =>
    have he := State.engMove_retired h hd hs (.inr (.inl ho))
    rw [State.retire_end hW (.inr ho)] at he
    obtain ⟨hy, hst, hrun⟩ := State.runEnd_yield h hd.1.solo hp ho (g.shift s.tsb.tick none none none none) hh (State.engStCopy_ne_slgLost p)
    refine Completes.intro ((hd.exec_last hs (c := .engYield) (by rw [ho]; rfl)).trans (congrArg _ he)) ?_
    rw [hy]
    exact ⟨rfl, rfl, rfl, rfl, hst, hrun⟩
  case nop =>
    have he := State.engMove_retired h hd hs (.inr (.inr ho))
    rw [State.retire_go hW (by rw [ho]; decide), EngSt.shift_last hd.1.notHolding hs] at he
    exact .of_move h (hd.exec_last hs (c := .engNop) (by rw [ho]; rfl)) he rfl

end Sys2Proof
end

/-! ## Sillage's record of a task number beyond the tasks (R295) -/
section
namespace Sys2Proof
open Sys2Proof.Machine

/-- Sillage runs and selects DISPATCH records; the count is at its first slot and no record waits. -/
def sillageRuns : State := State.reset.setReg Reg.slgCfg 0x80000002

theorem sillageRuns_inv : sillageRuns.Inv := State.inv_setReg State.reset_inv _ _

/-- The number 32,768 does not fit TASK, [21:10] of word 2: its bit 15 falls on the lowest bit of SLOT, [31:25]. -/
theorem sillageRuns_record : (sillageRuns.record .dispatch 0x8000 0 0 0).dpt.slg = [#v[0, 0, 0x02400000, 0]] := by decide +kernel

/-- Refutes O40: the clause that reads the current slot in word 2 of a record asks no bound of the task number, and in slot 0 a record for
task 32,768 reads slot 1. -/
theorem not_sillageAndDispatcherReset : ¬Obligations.SillageAndDispatcherReset := by
  intro ho
  obtain ⟨hrecord, -⟩ := ho sillageRuns sillageRuns_inv
  obtain ⟨hroom, -⟩ := hrecord .dispatch 0x8000 0 0 0 (by decide +kernel) (by decide +kernel) (by decide +kernel)
  obtain ⟨r, hr, -, -, hnow, -⟩ := hroom (by decide +kernel)
  obtain ⟨-, -, -, hslot⟩ := hnow (by decide +kernel) (by decide +kernel) (by decide +kernel)
  have hwords : r = #v[0, 0, 0x02400000, 0] := by
    rw [sillageRuns_record] at hr
    exact (List.singleton_inj.1 hr).symm
  rw [hwords] at hslot
  exact absurd hslot (by decide +kernel)

end Sys2Proof
end

/-! ## What the dispatcher's operations on a task change (R276, R277, R279, R281, R295) -/
section
namespace Sys2Proof
open Sys2Proof.Machine

namespace Machine

/-- From `s` to `u` no task but `t` changes, no register but those of `p`, and beside them nothing but the dispatcher's notes of changed
tasks and fresh flags and what waits in Sillage. -/
structure TaskOnly (t : Nat) (p : Nat → Prop) (s u : State) : Prop extends WritesOnly p s u where
  others : ∀ x, x ≠ t → u.task x = s.task x
  rest : u = { s with
    regs := u.regs
    dpt := { s.dpt with tasks := u.dpt.tasks, dirty := u.dpt.dirty, fresh := u.dpt.fresh, slg := u.dpt.slg, slgLost := u.dpt.slgLost,
                        slgTime := u.dpt.slgTime } }

namespace TaskOnly
variable {t : Nat} {p : Nat → Prop} {s u v : State}

theorem refl (h : s.Inv) : TaskOnly t p s s := ⟨.refl h, fun _ _ => rfl, rfl⟩

theorem trans (h : TaskOnly t p s u) (k : TaskOnly t p u v) : TaskOnly t p s v :=
  ⟨h.toWritesOnly.trans k.toWritesOnly, fun x hx => (k.others x hx).trans (h.others x hx), by rw [k.rest, h.rest]⟩

theorem mem (h : TaskOnly t p s u) : u.mem = s.mem := by rw [h.rest]
theorem engines (h : TaskOnly t p s u) : u.engines = s.engines := by rw [h.rest]
theorem dptEng (h : TaskOnly t p s u) : u.dpt.eng = s.dpt.eng := by rw [h.rest]
theorem msgs (h : TaskOnly t p s u) : u.dpt.msgs = s.dpt.msgs := by rw [h.rest]
theorem posts (h : TaskOnly t p s u) : u.dpt.posts = s.dpt.posts := by rw [h.rest]
theorem responses (h : TaskOnly t p s u) : u.dpt.responses = s.dpt.responses := by rw [h.rest]
theorem cycle (h : TaskOnly t p s u) : u.dpt.cycle = s.dpt.cycle := by rw [h.rest]
theorem engDpt (h : TaskOnly t p s u) (q : Nat) : u.engDpt q = s.engDpt q := by rw [State.engDpt, h.dptEng]; rfl
theorem byte (h : TaskOnly t p s u) (a : Nat) : u.byte a = s.byte a := BytesKept.of_mem h.mem a

theorem setReg (h : TaskOnly t p s u) {a : Nat} (w : W32) (ha : p a) : TaskOnly t p s (u.setReg a w) :=
  ⟨h.toWritesOnly.setReg w ha, h.others, congrArg (fun x : State => x.setReg a w) h.rest⟩
theorem setBit (h : TaskOnly t p s u) {a : Nat} (i : Nat) (b : Bool) (ha : p a) : TaskOnly t p s (u.setBit a i b) := h.setReg _ ha
theorem count (h : TaskOnly t p s u) {a : Nat} (hi lo k : Nat) (ha : p a) : TaskOnly t p s (u.count a hi lo k) := h.setReg _ ha

theorem setTask (h : TaskOnly t p s u) (k : TaskSt) : TaskOnly t p s (u.setTask t k) :=
  ⟨h.toWritesOnly.same (State.setTask_still (.refl u) t k).inv rfl,
    fun x hx => (State.task_setTask_of_ne h.inv k hx).trans (h.others x hx), congrArg (fun x : State => x.setTask t k) h.rest⟩

theorem mono {q : Nat → Prop} (h : TaskOnly t p s u) (hq : ∀ a, p a → q a) : TaskOnly t q s u := ⟨h.toWritesOnly.mono hq, h.others, h.rest⟩

theorem touch (h : TaskOnly t p s u) (x : Nat) : TaskOnly t p s (u.touch x) := by
  unfold State.touch
  split
  · exact h
  · exact ⟨h.toWritesOnly.same (fun i => i.of_eq ⟨rfl, rfl, rfl, rfl, rfl, rfl, rfl, rfl, rfl, rfl, rfl, rfl, rfl⟩) rfl, h.others,
      congrArg (fun y : State => { y with dpt := { y.dpt with dirty := u.dpt.dirty ++ [x] } }) h.rest⟩

theorem fresh (h : TaskOnly t p s u) (fs : List (Nat × Nat)) : TaskOnly t p s (u.fresh fs) :=
  ⟨h.toWritesOnly.same (fun i => i.of_eq ⟨rfl, rfl, rfl, rfl, rfl, rfl, rfl, rfl, rfl, rfl, rfl, rfl, rfl⟩) rfl, h.others,
    congrArg (fun y : State => { y with dpt := { y.dpt with fresh := u.dpt.fresh ++ fs } }) h.rest⟩

theorem clean (h : TaskOnly t p s u) : TaskOnly t p s { u with dpt := { u.dpt with dirty := [] } } :=
  ⟨h.toWritesOnly.same (fun i => i.of_eq ⟨rfl, rfl, rfl, rfl, rfl, rfl, rfl, rfl, rfl, rfl, rfl, rfl, rfl⟩) rfl, h.others,
    congrArg (fun y : State => { y with dpt := { y.dpt with dirty := [] } }) h.rest⟩

/-- Offering a record to Sillage, which may lose it and count. -/
theorem record (h : TaskOnly t p s u) (hp : p Reg.slgLost) (ty : SlgType) (a b c d : Nat) : TaskOnly t p s (u.record ty a b c d) := by
  refine h.trans ?_
  have hi := (State.record_still (.refl u) ty a b c d).inv h.inv
  unfold State.record at hi ⊢
  split_ifs at hi ⊢ with hoff hfull
  · exact .refl h.inv
  · exact ⟨⟨hi, fun x hx => State.reg_count_of_ne h.inv 31 0 1 (fun e => hx (e ▸ hp))⟩, fun _ _ => rfl, rfl⟩
  · exact ⟨⟨hi, fun _ _ => rfl⟩, fun _ _ => rfl, rfl⟩

theorem foldl {α : Type} {f : State → α → State} (h : TaskOnly t p s u) (hf : ∀ v x, TaskOnly t p s v → TaskOnly t p s (f v x))
    (l : List α) : TaskOnly t p s (l.foldl f u) := by
  induction l generalizing u with
  | nil => exact h
  | cons x l ih => exact ih (hf u x h)

end TaskOnly

/-! ### Records leave tasks and notes as they are -/

namespace State
variable {s u : State} {t : Nat}

@[simp] theorem record_tasks (s : State) (ty : SlgType) (a b c d : Nat) : (s.record ty a b c d).dpt.tasks = s.dpt.tasks := by
  unfold record; split_ifs <;> rfl
@[simp] theorem record_dirty (s : State) (ty : SlgType) (a b c d : Nat) : (s.record ty a b c d).dpt.dirty = s.dpt.dirty := by
  unfold record; split_ifs <;> rfl
@[simp] theorem record_task (s : State) (ty : SlgType) (a b c d x : Nat) : (s.record ty a b c d).task x = s.task x := by
  simp only [task, record_tasks]

@[simp] theorem touch_tasks (s : State) (x : Nat) : (s.touch x).dpt.tasks = s.dpt.tasks := by unfold touch; split <;> rfl
@[simp] theorem touch_task (s : State) (x y : Nat) : (s.touch x).task y = s.task y := by simp only [task, touch_tasks]
theorem touch_dirty (h : s.dpt.dirty = []) (x : Nat) : (s.touch x).dpt.dirty = [x] := by simp [touch, h]

end State

/-! ### Readiness (R277, step 5 of R281) -/

/-- A task whose readiness has been evaluated at a crossing count. -/
def TaskSt.evaluated (k : TaskSt) (r : Bool) (now : W32) : TaskSt :=
  { k with ready := r, readyStamp := if r && !k.ready then now else k.readyStamp }

@[simp] theorem TaskSt.evaluated_false (k : TaskSt) (now : W32) : k.evaluated false now = { k with ready := false } := rfl

/-- A register of the global window that is neither in a task's descriptor nor among those of the sectors. -/
def GlbReg (a : Nat) : Prop := ∃ o, o < 0x10000 ∧ a = Reg.glb o

theorem GlbReg.task_ne {a t w : Nat} (h : GlbReg a) (ht : t < 4096) (hw : w < 16) : Reg.task t w ≠ a := by
  obtain ⟨o, -, rfl⟩ := h
  simp only [Reg.task, Reg.glb]
  omega

theorem GlbReg.secSpare_ne {a : Nat} (h : GlbReg a) (k : Nat) : Reg.secSpare k ≠ a := by
  obtain ⟨o, ho, rfl⟩ := h
  simp only [Reg.secSpare, Reg.sec, Reg.secBase, Reg.glb]
  omega

namespace State
variable {s u : State} {t : Nat}

/-- Whether a task is dispatchable is a matter of the task, but for its readiness, and of its descriptor. -/
theorem dispatchable_congr (hr : ∀ w, w < 16 → u.reg (Reg.task t w) = s.reg (Reg.task t w)) {r : Bool} {now : W32}
    (hk : u.task t = (s.task t).evaluated r now) : u.dispatchable t = s.dispatchable t := by
  simp only [dispatchable, flagsOk, candidate, tValid, tCap, tMode, rbit, fld, hr 0 (by omega), hr 3 (by omega), hr 4 (by omega),
    hr 7 (by omega), hk, TaskSt.evaluated]
  rfl

theorem dispatchable_of_parked (h : (s.task t).parked = true) : s.dispatchable t = false := by simp [dispatchable, h]
theorem dispatchable_of_disabled (h : (s.task t).disabled = true) : s.dispatchable t = false := by simp [dispatchable, h]

theorem evalReady_eq (s : State) (t : Nat) : s.evalReady t =
    (let s1 := s.setTask t ((s.task t).evaluated (s.dispatchable t) s.stamp)
     if s.dispatchable t && !(s.task t).ready then s1.record .ready t noEngine 0 0 else s1) := rfl

theorem task_evalReady (h : s.Inv) (t : Nat) : (s.evalReady t).task t = (s.task t).evaluated (s.dispatchable t) s.stamp := by
  rw [evalReady_eq]
  dsimp only
  split
  · rw [record_task, task_setTask_self h]
  · rw [task_setTask_self h]

/-- No task has changed. -/
theorem readiness_of_clean (h : s.dpt.dirty = []) : s.readiness = s := by
  unfold readiness
  split
  · rfl
  · rw [h]; exact congrArg (fun d => { s with dpt := { s.dpt with dirty := d } }) h.symm

/-- One task has changed. -/
theorem readiness_of_dirty (hr : s.dptRuns = true) (h : s.dpt.dirty = [t]) :
    s.readiness = { s.evalReady t with dpt := { (s.evalReady t).dpt with dirty := [] } } := by
  simp [readiness, hr, h]

theorem readiness_in_reset (h : s.dptRuns = false) : s.readiness = s := by simp [readiness, h]

end State

namespace TaskOnly
variable {t : Nat} {p : Nat → Prop} {s u : State}

theorem evalReady (h : TaskOnly t p s u) (hp : p Reg.slgLost) : TaskOnly t p s (u.evalReady t) := by
  rw [State.evalReady_eq]
  dsimp only
  split
  · exact (h.setTask _).record hp ..
  · exact h.setTask _

theorem readiness (h : TaskOnly t p s u) (hp : p Reg.slgLost) (hd : u.dpt.dirty = [] ∨ u.dpt.dirty = [t]) : TaskOnly t p s u.readiness := by
  rcases hd with hd | hd
  · rwa [State.readiness_of_clean hd]
  · cases hr : u.dptRuns with
    | false => rwa [State.readiness_in_reset hr]
    | true => rw [State.readiness_of_dirty hr hd]; exact (h.evalReady hp).clean

theorem reg_task (h : TaskOnly t p s u) (hg : ∀ a, p a → GlbReg a) (ht : t < 4096) {w : Nat} (hw : w < 16) :
    u.reg (Reg.task t w) = s.reg (Reg.task t w) :=
  h.kept _ fun hp => (hg _ hp).task_ne ht hw rfl

end TaskOnly

/-- From `s` to `u` the task `t` became `k`, and its readiness is to be evaluated. -/
structure TaskTo (t : Nat) (k : TaskSt) (p : Nat → Prop) (s u : State) : Prop extends TaskOnly t p s u where
  task : u.task t = k
  dirty : u.dpt.dirty = [t]

namespace TaskTo
variable {t : Nat} {k : TaskSt} {p : Nat → Prop} {s u : State}

theorem of_touch (h : TaskOnly t p s u) (hk : u.task t = k) (hd : u.dpt.dirty = []) : TaskTo t k p s (u.touch t) :=
  ⟨h.touch t, (State.touch_task u t t).trans hk, State.touch_dirty hd t⟩

/-- What the evaluation of its readiness leaves of the task. -/
theorem task_readiness (h : TaskTo t k p s u) (hr : u.dptRuns = true) : u.readiness.task t = k.evaluated (u.dispatchable t) u.stamp := by
  rw [State.readiness_of_dirty hr h.dirty, ← h.task]
  exact State.task_evalReady h.inv t

theorem dirty_readiness (h : TaskTo t k p s u) (hr : u.dptRuns = true) : u.readiness.dpt.dirty = [] := by
  rw [State.readiness_of_dirty hr h.dirty]

/-- The task is ready when it is dispatchable. -/
theorem ready_readiness (h : TaskTo t k p s u) (hp : p Reg.slgLost) (hg : ∀ a, p a → GlbReg a) (ht : t < 4096) (hr : u.dptRuns = true) :
    (u.readiness.task t).ready = u.readiness.dispatchable t := by
  have hk := h.task_readiness hr
  have ho : TaskOnly t p u u.readiness := (TaskOnly.refl h.inv).readiness hp (.inr h.dirty)
  rw [State.dispatchable_congr (fun w hw => ho.reg_task hg ht hw) (hk.trans (by rw [h.task])), hk]
  rfl

end TaskTo
end Machine
end Sys2Proof
end

/-! ## The commands of DPT_CMD (R279, R280, R288 to R290, R293) -/
section
namespace Sys2Proof
open Sys2Proof.Machine

namespace Tbl
variable {α : Type} {d : α} {b : Nat} {t : Tbl α} {e : Nat × α}

theorem le_of_mem (h : risingFrom b t = true) (he : e ∈ t) : b ≤ e.1 := by
  induction t generalizing b with
  | nil => cases he
  | cons f t ih =>
    simp only [risingFrom, Bool.and_eq_true, decide_eq_true_eq] at h
    rcases List.mem_cons.1 he with rfl | he
    · exact h.1
    · have := ih h.2 he
      omega

/-- An entry of a table in form is what its key reads as. -/
theorem get_of_mem (h : risingFrom b t = true) (he : e ∈ t) : t.get d e.1 = e.2 := by
  induction t generalizing b with
  | nil => cases he
  | cons f t ih =>
    simp only [risingFrom, Bool.and_eq_true, decide_eq_true_eq] at h
    rcases List.mem_cons.1 he with rfl | he
    · simp [get]
    · have := le_of_mem h.2 he
      rw [get, if_neg (by omega), if_neg (by omega), ih h.2 he]

end Tbl

/-- Bit `i` of a word with one bit set. -/
theorem getLsbD_ofNat_two_pow {w i : Nat} (f : Nat) (hi : i < w) : (BitVec.ofNat w (2 ^ f)).getLsbD i = decide (i = f) := by
  rw [BitVec.getLsbD_ofNat, Nat.testBit_two_pow, decide_eq_true hi, Bool.true_and, decide_eq_decide]
  exact eq_comm

theorem getLsbD_setFlag (k : W32) (f : Nat) {i : Nat} (hi : i < 32) :
    (k ||| BitVec.ofNat 32 (2 ^ f)).getLsbD i = (decide (i = f) || k.getLsbD i) := by
  rw [BitVec.getLsbD_or, getLsbD_ofNat_two_pow f hi, Bool.or_comm]

theorem getLsbD_clearFlag (k : W32) (f : Nat) {i : Nat} (hi : i < 32) :
    (k &&& ~~~(BitVec.ofNat 32 (2 ^ f))).getLsbD i = (decide (i ≠ f) && k.getLsbD i) := by
  rw [BitVec.getLsbD_and, BitVec.getLsbD_not, getLsbD_ofNat_two_pow f hi, decide_eq_true hi, Bool.true_and, Bool.and_comm, decide_not]

theorem Machine.WritesOnly.dptRuns {p : Nat → Prop} {s u : State} (h : WritesOnly p s u) (hp : ¬p Reg.dptStatus) : u.dptRuns = s.dptRuns := by
  simp only [State.dptRuns, h.fld _ _ hp]

/-- A command that takes its task to `k`, whose readiness is then evaluated. -/
theorem TaskGets.of_taskTo {c : Instr} {t : TaskNo} {s u : State} {k : TaskSt} {but : List Nat} {P : TaskSt → Prop}
    (hb : ∀ a ∈ but, a = Reg.dptDisc) (hr : s.dptRuns = true) (hx : exec c s = .next u.readiness) (h : TaskTo t k (· ∈ Reg.slgLost :: but) s u)
    (hP : P (k.evaluated (u.dispatchable t) u.stamp)) : TaskGets c t s but P := by
  have hg : ∀ a, a ∈ Reg.slgLost :: but → GlbReg a := fun a ha => by
    rcases List.mem_cons.1 ha with rfl | ha
    · exact ⟨0x908C, by decide, rfl⟩
    · exact ⟨_, by decide, hb a ha⟩
  have hs : Reg.dptStatus ∉ Reg.slgLost :: but := fun ha => by
    rcases List.mem_cons.1 ha with e | ha
    · exact absurd e (by decide)
    · exact absurd (hb _ ha) (by decide)
  have hu : u.dptRuns = true := (h.dptRuns hs).trans hr
  have ho := h.readiness (List.mem_cons_self ..) (.inr h.dirty)
  refine Completes.intro hx ⟨?_, h.ready_readiness (List.mem_cons_self ..) hg t.isLt hu, ho.others, ho.dptEng, ho.engines, ho.posts,
    h.dirty_readiness hu, ho.regsKept, ho.byte⟩
  rwa [h.task_readiness hu]

namespace Machine.State
variable {s : State} {t : Nat} {p : Nat → Prop}

/-- An item that no engine holds prefetched returns from none. -/
theorem returnTask_of_notPrefetched (h : s.Inv) (hn : NotPrefetched s t) : s.returnTask t = s := by
  rw [returnTask, List.filter_eq_nil_iff.2]
  · rfl
  · intro e he
    have hd : s.engDpt e.1 = e.2 := Tbl.get_of_mem (Tbl.wf_rising h.engDpt) he
    cases hv : e.2.prefetch with
    | none => exact Bool.false_ne_true
    | some v => simpa using hn e.1 v (by rw [hd, hv])

/-- A task is parked (R288, R289). -/
theorem parkTask_taskTo (h : s.Inv) (hp : p Reg.slgLost) (hn : NotPrefetched s t) (hd : s.dpt.dirty = []) (dis supp : Bool) :
    TaskTo t { s.task t with parked := true, disabled := (s.task t).disabled || dis, ready := false } p s (s.parkTask t dis supp) := by
  have ho := (TaskOnly.refl (t := t) (p := p) h).setTask
    { s.task t with parked := true, disabled := (s.task t).disabled || dis, ready := false }
  have hr := returnTask_of_notPrefetched (t := t) ho.inv (fun q v hv => hn q v (by rwa [ho.engDpt] at hv))
  unfold parkTask
  dsimp only
  rw [hr]
  refine .of_touch (ho.record hp ..) ?_ ?_
  · rw [record_task, task_setTask_self h]
  · rw [record_dirty]; exact hd

/-- A task is written and its readiness is to be evaluated. -/
theorem setTask_taskTo (h : s.Inv) (hd : s.dpt.dirty = []) (k : TaskSt) : TaskTo t k p s ((s.setTask t k).touch t) :=
  .of_touch ((TaskOnly.refl h).setTask k) (task_setTask_self h t k) hd

/-- A flag is set, or cleared where the present cycle has not set it (R279, R281). -/
theorem applyFlag_taskTo (h : s.Inv) (hv : s.tValid t = true) (hd : s.dpt.dirty = []) {f : Nat} {set : Bool}
    (hf : set = false → (t, f) ∉ s.dpt.fresh) :
    TaskTo t { s.task t with flags := if set then (s.task t).flags ||| BitVec.ofNat 32 (2 ^ f)
                                      else (s.task t).flags &&& ~~~(BitVec.ofNat 32 (2 ^ f)) } p s (s.applyFlag t f set) := by
  have hset : (!set && decide ((t, f) ∈ s.dpt.fresh)) = false := by
    cases set with
    | true => rfl
    | false => simpa using hf rfl
  simp only [applyFlag, hv, hset, if_true, Bool.false_eq_true, if_false]
  exact .of_touch (((TaskOnly.refl h).setTask _).fresh _) (task_setTask_self h t _) hd

theorem applyFlag_of_fresh {f : Nat} (hv : s.tValid t = true) (hf : (t, f) ∈ s.dpt.fresh) : s.applyFlag t f false = s := by
  simp [applyFlag, hv, hf]

/-- The items of a task that wait, which DRAIN discards. -/
def waiting (s : State) (t : Nat) : List RingItem := (s.task t).ring.filter (fun i => !i.serv)

/-- The waiting items of a task recorded by DRAIN (R289). -/
def waitingRecorded (s : State) (t : Nat) : State :=
  (s.waiting t).foldl (fun s i => s.record .complete t noEngine i.flow.toNat reasonDrain) s

theorem waitingRecorded_only (h : s.Inv) : TaskOnly t (· ∈ [Reg.slgLost]) s (s.waitingRecorded t) :=
  (TaskOnly.refl h).foldl (fun _ _ hv => hv.record (List.mem_singleton_self _) ..) _

theorem waitingRecorded_dirty (s : State) (t : Nat) : (s.waitingRecorded t).dpt.dirty = s.dpt.dirty := by
  rw [waitingRecorded]
  generalize s.waiting t = l
  induction l generalizing s with
  | nil => rfl
  | cons i l ih => rw [List.foldl_cons, ih, record_dirty]

/-- DRAIN: the waiting items of a disabled task are recorded, discarded and counted (R289). -/
theorem cmdDrain_eq (hv : s.tValid t = true) (hk : (s.task t).disabled = true) : ∃ q, s.cmdDrain t =
    ((((s.waitingRecorded t).setTask t { s.task t with ring := (s.task t).ring.filter (fun i => i.serv), qhead := q }).count
      Reg.dptDisc 31 0 (s.waiting t).length).record .cancel t noEngine 0 reasonDrain).touch t := by
  simp only [cmdDrain, hv, hk, Bool.not_true, Bool.false_eq_true, if_false]
  exact ⟨_, rfl⟩

theorem cmdDrain_taskTo (h : s.Inv) (hv : s.tValid t = true) (hk : (s.task t).disabled = true) (hd : s.dpt.dirty = []) :
    ∃ q, TaskTo t { s.task t with ring := (s.task t).ring.filter (fun i => i.serv), qhead := q } (· ∈ [Reg.slgLost, Reg.dptDisc]) s
        (s.cmdDrain t) ∧
      (s.cmdDrain t).readiness.fld Reg.dptDisc 31 0 = satAdd (2 ^ 32 - 1) (s.fld Reg.dptDisc 31 0) (s.waiting t).length := by
  obtain ⟨q, hq⟩ := cmdDrain_eq hv hk
  generalize hdr : (s.waitingRecorded t).setTask t { s.task t with ring := (s.task t).ring.filter (fun i => i.serv), qhead := q } = u at hq
  have hw := waitingRecorded_only (t := t) h
  have hu : TaskOnly t (· ∈ [Reg.slgLost]) s u := hdr ▸ hw.setTask _
  have hdirty : u.dpt.dirty = [] := by rw [← hdr, setTask_dpt_dirty, waitingRecorded_dirty, hd]
  have hk' : TaskTo t { s.task t with ring := (s.task t).ring.filter (fun i => i.serv), qhead := q } (· ∈ [Reg.slgLost, Reg.dptDisc]) s
      (s.cmdDrain t) := by
    rw [hq]
    refine .of_touch (((hu.mono (by simp)).count _ _ _ (by simp)).record (by simp) ..) ?_ ?_
    · rw [record_task, ← hdr]; exact task_setTask_self hw.inv ..
    · rw [record_dirty]; exact hdirty
  have hlast : TaskOnly t (· ∈ [Reg.slgLost]) (u.count Reg.dptDisc 31 0 (s.waiting t).length) (s.cmdDrain t).readiness := by
    have := ((TaskOnly.refl (t := t) (inv_count hu.inv Reg.dptDisc 31 0 (s.waiting t).length)).record
      (List.mem_singleton_self _) .cancel t noEngine 0 reasonDrain).touch t
    rw [← hq] at this
    exact this.readiness (List.mem_singleton_self _) (.inr hk'.dirty)
  have hne : Reg.dptDisc ∉ [Reg.slgLost] := by decide
  refine ⟨q, hk', ?_⟩
  rw [hlast.fld _ _ hne, fld_count_self hu.inv _ _ (by decide), hu.fld _ _ hne]

/-! ### An engine is parked, or runs again (R290) -/

/-- An engine parked or not, with the record of it. -/
def engParked (s : State) (q : Nat) (b : Bool) : State := (s.setEngDpt q { s.engDpt q with parked := b }).record .cancel 0 q 0 reasonEng

theorem engParked_dirty (s : State) (q : Nat) (b : Bool) : (s.engParked q b).dpt.dirty = s.dpt.dirty := by rw [engParked, record_dirty]; rfl

theorem engParked_parks (h : s.Inv) (q : Nat) (b : Bool) :
    (s.engParked q b).engDpt q = { s.engDpt q with parked := b } ∧ (∀ x, x ≠ q → (s.engParked q b).engDpt x = s.engDpt x) ∧
      (s.engParked q b).dpt.tasks = s.dpt.tasks ∧ (s.engParked q b).engines = s.engines ∧ RegsKept [Reg.slgLost] s (s.engParked q b) ∧
      BytesKept s (s.engParked q b) := by
  have hi : (s.setEngDpt q { s.engDpt q with parked := b }).Inv := (setEngDpt_still (.refl s) _ _).inv h
  have ho := (TaskOnly.refl (t := 0) (p := (· ∈ [Reg.slgLost])) hi).record (List.mem_singleton_self _) .cancel 0 q 0 reasonEng
  refine ⟨?_, fun x hx => ?_, record_tasks .., ho.engines, ho.regsKept, ho.byte⟩
  · exact (ho.engDpt q).trans (engDpt_setEngDpt_self h ..)
  · exact (ho.engDpt x).trans (engDpt_setEngDpt_of_ne h _ hx)

end Machine.State

/-- A command of DPT_CMD while the dispatcher runs. -/
theorem next_of_dptCmd {s u : State} {f : State → State} (hr : s.dptRuns = true) (hf : f s = u) :
    (s.dptCmd f).readiness.go = .next u.readiness := by
  rw [State.dptCmd, if_pos hr, hf]
  rfl

section
variable {s : State} {t : TaskNo} (h : s.Inv) (hd : s.dpt.dirty = [])
include h hd

omit hd in
/-- What names a task that is not configured is counted (R280). -/
theorem evtDiscard_counts : s.evtDiscard.fld Reg.dptEvtDisc 31 0 = satAdd (2 ^ 32 - 1) (s.fld Reg.dptEvtDisc 31 0) 1 ∧
    s.evtDiscard.rbit Reg.dptStatus 0 = true ∧ RegsKept [Reg.dptEvtDisc, Reg.dptStatus] s s.evtDiscard := by
  have hi := State.inv_count h Reg.dptEvtDisc 31 0 1
  refine ⟨?_, State.rbit_setBit_self hi _ _ (by decide), ?_⟩
  · exact (State.fld_setBit_of_ne hi _ _ _ _ (by decide)).trans (State.fld_count_self h _ _ (by decide))
  · exact (((WritesOnly.refl h).count _ _ _ (by simp)).setBit _ _ (by simp)).regsKept

/-- The command names a task that is not configured (R280). -/
theorem completes_evtDiscard {c : Instr} (hc : exec c s = .next s.evtDiscard.readiness) :
    Completes c s (fun u => u.fld Reg.dptEvtDisc 31 0 = satAdd (2 ^ 32 - 1) (s.fld Reg.dptEvtDisc 31 0) 1 ∧
      u.rbit Reg.dptStatus 0 = true ∧ RegsKept [Reg.dptEvtDisc, Reg.dptStatus] s u ∧ u = { s with regs := u.regs }) := by
  have hclean : s.evtDiscard.readiness = s.evtDiscard := State.readiness_of_clean hd
  obtain ⟨count, bit, kept⟩ := evtDiscard_counts h
  exact Completes.intro (hc.trans (congrArg _ hclean)) ⟨count, bit, kept, rfl⟩

/-- The command comes while the dispatcher does not run (R293). -/
theorem completes_cmdErr {c : Instr} {f : State → State} (hr : s.dptRuns = false) (hc : exec c s = (s.dptCmd f).readiness.go) :
    Completes c s (fun u => u.rbit Reg.dptStatus 4 = true ∧ RegsKept [Reg.dptStatus] s u ∧ u = { s with regs := u.regs }) := by
  have he : (s.dptCmd f).readiness = s.setBit Reg.dptStatus 4 true := by
    rw [State.dptCmd, hr]
    exact State.readiness_of_clean hd
  refine Completes.intro (hc.trans (congrArg _ he)) ⟨State.rbit_setBit_self h _ _ (by decide), ?_, rfl⟩
  exact ((WritesOnly.refl h).setBit _ _ (List.mem_singleton_self _)).regsKept

/-- DPT_CANCEL, DPT_RESUME, DPT_DISABLE, DPT_ENABLE and DPT_DRAIN on a configured task none of whose items is prefetched. -/
theorem taskCommands (hr : s.dptRuns = true) (hv : s.tValid t = true) (hn : NotPrefetched s t) :
    let k := s.task t
    (k.parked = false → k.disabled = false →
      TaskGets (.dptCancel t) t s [] (fun u => u = { k with parked := true, ready := false })) ∧
    ((k.parked = true ∨ k.disabled = true) → exec (.dptCancel t) s = .next s) ∧
    (k.parked = true → k.disabled = false →
      TaskGets (.dptResume t) t s [] (fun u => u = { k with parked := false, ready := u.ready, readyStamp := u.readyStamp })) ∧
    (k.disabled = false →
      TaskGets (.dptDisable t) t s [] (fun u => u = { k with parked := true, disabled := true, ready := false })) ∧
    (k.disabled = true →
      TaskGets (.dptEnable t) t s []
        (fun u => u = { k with parked := false, disabled := false, ready := u.ready, readyStamp := u.readyStamp })) ∧
    (k.disabled = true →
      TaskGets (.dptDrain t) t s [Reg.dptDisc] (fun u => u.ring = k.ring.filter (fun i => i.serv) ∧
        u = { k with ring := u.ring, qhead := u.qhead, ready := false }) ∧
      Completes (.dptDrain t) s (fun u => u.fld Reg.dptDisc 31 0 =
        satAdd (2 ^ 32 - 1) (s.fld Reg.dptDisc 31 0) (k.ring.filter (fun i => !i.serv)).length)) := by
  intro k
  have noRegs : ∀ a ∈ ([] : List Nat), a = Reg.dptDisc := nofun
  have parks (dis : Bool) := State.parkTask_taskTo (p := (· ∈ [Reg.slgLost])) h (List.mem_singleton_self _) hn hd dis false
  refine ⟨?cancel, ?cancelled, ?resume, ?disable, ?enable, ?drain⟩
  case cancel =>
    intro (hp : (s.task t).parked = false) (hk : (s.task t).disabled = false)
    refine .of_taskTo noRegs hr (next_of_dptCmd hr (by simp [State.cmdCancel, hv, hp, hk])) (parks false) ?_
    rw [State.dispatchable_of_parked (by rw [(parks false).task])]
    simp [k]
  case cancelled =>
    intro (hpk : (s.task t).parked = true ∨ (s.task t).disabled = true)
    exact (next_of_dptCmd hr (by simp [State.cmdCancel, hv, hpk])).trans (congrArg _ (State.readiness_of_clean hd))
  case resume =>
    intro (hp : (s.task t).parked = true) (hk : (s.task t).disabled = false)
    have resumes : s.cmdResume t = (s.setTask t { s.task t with parked := false }).touch t := by simp [State.cmdResume, hv, hp, hk]
    exact .of_taskTo noRegs hr (next_of_dptCmd hr resumes) (State.setTask_taskTo h hd _) rfl
  case disable =>
    intro (hk : (s.task t).disabled = false)
    refine .of_taskTo noRegs hr (next_of_dptCmd hr (by simp [State.cmdDisable, hv, hk])) (parks true) ?_
    rw [State.dispatchable_of_parked (by rw [(parks true).task])]
    simp [k]
  case enable =>
    intro (hk : (s.task t).disabled = true)
    have enables : s.cmdEnable t = (s.setTask t { s.task t with disabled := false, parked := false }).touch t := by
      simp [State.cmdEnable, hv, hk]
    exact .of_taskTo noRegs hr (next_of_dptCmd hr enables) (State.setTask_taskTo h hd _) rfl
  case drain =>
    intro (hk : (s.task t).disabled = true)
    obtain ⟨q, hdrain, hcount⟩ := State.cmdDrain_taskTo h hv hk hd
    refine ⟨.of_taskTo (by simp) hr (next_of_dptCmd hr rfl) hdrain ?_, .intro (next_of_dptCmd hr rfl) hcount⟩
    rw [State.dispatchable_of_disabled (by rw [hdrain.task]; exact hk)]
    exact ⟨rfl, rfl⟩

/-- DPT_SIGNAL and DPT_CLRF on a configured task. -/
theorem flagCommands (hr : s.dptRuns = true) (hv : s.tValid t = true) (f : Fin 32) :
    let k := s.task t
    TaskGets (.dptSignal t f) t s [] (fun u => (∀ i, i < 32 → u.flags.getLsbD i = (decide (i = f.val) || k.flags.getLsbD i)) ∧
      u = { k with flags := u.flags, ready := u.ready, readyStamp := u.readyStamp }) ∧
    ((t.val, f.val) ∉ s.dpt.fresh →
      TaskGets (.dptClrf t f) t s [] (fun u => (∀ i, i < 32 → u.flags.getLsbD i = (decide (i ≠ f.val) && k.flags.getLsbD i)) ∧
        u = { k with flags := u.flags, ready := u.ready, readyStamp := u.readyStamp })) ∧
    ((t.val, f.val) ∈ s.dpt.fresh → exec (.dptClrf t f) s = .next s) := by
  intro k
  have noRegs : ∀ a ∈ ([] : List Nat), a = Reg.dptDisc := nofun
  refine ⟨?signal, fun hf => ?clrf, fun hf => ?fresh⟩
  case signal =>
    exact .of_taskTo noRegs hr (next_of_dptCmd hr rfl) (State.applyFlag_taskTo h hv hd (set := true) nofun)
      ⟨fun i hi => getLsbD_setFlag _ _ hi, rfl⟩
  case clrf =>
    exact .of_taskTo noRegs hr (next_of_dptCmd hr rfl) (State.applyFlag_taskTo h hv hd (set := false) fun _ => hf)
      ⟨fun i hi => getLsbD_clearFlag _ _ hi, rfl⟩
  case fresh =>
    exact (next_of_dptCmd hr (State.applyFlag_of_fresh hv hf)).trans (congrArg _ (State.readiness_of_clean hd))

/-- ENG_DISABLE and ENG_ENABLE on an engine with an empty prefetch slot (R290). -/
theorem engineCommands (hr : s.dptRuns = true) (p : EngineNo) (hp : s.engCmdOk p = true) (hf : (s.engDpt p).prefetch = none) :
    ∀ x ∈ [(Instr.engDisable (BitVec.ofNat 10 p), true), (.engEnable (BitVec.ofNat 10 p), false)],
      Completes x.1 s (fun u => u.engDpt p = { s.engDpt p with parked := x.2 } ∧ (∀ q, q ≠ p.val → u.engDpt q = s.engDpt q) ∧
        u.dpt.tasks = s.dpt.tasks ∧ u.engines = s.engines ∧ RegsKept [Reg.slgLost] s u ∧ BytesKept s u) := by
  have hn : (BitVec.ofNat 10 p.val).toNat = p.val := by rw [BitVec.toNat_ofNat]; omega
  have disables : s.cmdEngDisable (BitVec.ofNat 10 p).toNat = s.engParked p true := by
    rw [hn, State.cmdEngDisable, hp, State.returnPrefetch, hf]; rfl
  have enables : s.cmdEngEnable (BitVec.ofNat 10 p).toNat = s.engParked p false := by rw [hn, State.cmdEngEnable, hp]; rfl
  have clean (b : Bool) := State.readiness_of_clean ((State.engParked_dirty s p b).trans hd)
  simp only [List.forall_mem_cons, List.not_mem_nil, false_implies, implies_true, and_true]
  exact ⟨.intro ((next_of_dptCmd hr disables).trans (congrArg _ (clean true))) (State.engParked_parks h p true),
    .intro ((next_of_dptCmd hr enables).trans (congrArg _ (clean false))) (State.engParked_parks h p false)⟩

end

/-- Settles O37: a command on a task takes it to one new state, whose readiness is then evaluated; a command on an engine writes its notes; the
others are refused. -/
theorem dispatcherCommandsActOnTasks : Obligations.DispatcherCommandsActOnTasks := by
  intro s t h hd k
  refine ⟨fun hr hv hn => ?_, fun hr hv f => ?_, fun p hr => engineCommands h hd hr p, fun hr f p => ?_⟩
  · obtain ⟨cancel, cancelled, resume, disable, enable, drain⟩ := taskCommands h hd hr hv hn
    exact ⟨cancel, cancelled, resume, disable, enable, drain, flagCommands h hd hr hv⟩
  · have hv' : (!s.tValid t) = true := by rw [hv]; rfl
    simp only [List.forall_mem_cons, List.not_mem_nil, false_implies, implies_true, and_true]
    exact ⟨completes_evtDiscard h hd (next_of_dptCmd hr (if_pos hv')), completes_evtDiscard h hd (next_of_dptCmd hr (if_pos hv')),
      completes_evtDiscard h hd (next_of_dptCmd hr (if_pos hv')), completes_evtDiscard h hd (next_of_dptCmd hr (if_pos hv')),
      completes_evtDiscard h hd (next_of_dptCmd hr (if_pos hv')), completes_evtDiscard h hd (next_of_dptCmd hr (if_neg (by simp [hv]))),
      completes_evtDiscard h hd (next_of_dptCmd hr (if_neg (by simp [hv])))⟩
  · simp only [List.forall_mem_cons, List.not_mem_nil, false_implies, implies_true, and_true]
    exact ⟨completes_cmdErr h hd hr rfl, completes_cmdErr h hd hr rfl, completes_cmdErr h hd hr rfl, completes_cmdErr h hd hr rfl,
      completes_cmdErr h hd hr rfl, completes_cmdErr h hd hr rfl, completes_cmdErr h hd hr rfl, completes_cmdErr h hd hr rfl,
      completes_cmdErr h hd hr rfl⟩

end Sys2Proof
end

/-! ## Flag messages, item copies and DISPATCH (R265, R279, R283, R285, R286) -/
section
namespace Sys2Proof
open Sys2Proof.Machine

namespace Machine

/-! ### A flag message that arrives (R279) -/

namespace State
variable {s u : State} {m : FlagMsg}

/-- What a flag message leaves of a configured task, its readiness evaluated. -/
theorem flagArrives_task (h : s.Inv) (hr : s.dptRuns = true) (hv : s.tValid m.task = true) (hd : s.dpt.dirty = []) :
    TaskOnly m.task (· ∈ [Reg.slgLost]) s (s.flagArrives m).readiness ∧
      (∀ i, i < 32 → ((s.flagArrives m).readiness.task m.task).flags.getLsbD i =
        if i = m.flag then m.set || (decide ((m.task, m.flag) ∈ s.dpt.fresh) && (s.task m.task).flags.getLsbD i)
        else (s.task m.task).flags.getLsbD i) ∧
      ((s.flagArrives m).readiness.task m.task).ring = (s.task m.task).ring := by
  have hslg : Reg.slgLost ∈ [Reg.slgLost] := List.mem_singleton_self _
  rw [flagArrives, if_pos hr]
  by_cases hf : m.set = false ∧ (m.task, m.flag) ∈ s.dpt.fresh
  · obtain ⟨hset, hfresh⟩ := hf
    rw [hset, applyFlag_of_fresh hv hfresh, readiness_of_clean hd]
    exact ⟨.refl h, fun i _ => by simp [hfresh], rfl⟩
  · have ht := applyFlag_taskTo (p := (· ∈ [Reg.slgLost])) h hv hd (f := m.flag) (set := m.set) fun hs hi => hf ⟨hs, hi⟩
    have hk := ht.task_readiness ((ht.dptRuns (by decide)).trans hr)
    refine ⟨ht.readiness hslg (.inr ht.dirty), fun i hi => ?_, ?_⟩
    · rw [hk, TaskSt.evaluated]
      dsimp only
      cases hs : m.set with
      | true =>
        rw [if_pos rfl, getLsbD_setFlag _ _ hi]
        by_cases e : i = m.flag <;> simp [e]
      | false =>
        have hn : (m.task, m.flag) ∉ s.dpt.fresh := fun hi => hf ⟨hs, hi⟩
        rw [if_neg Bool.false_ne_true, getLsbD_clearFlag _ _ hi]
        by_cases e : i = m.flag <;> simp [e, hn]
    · rw [hk]; rfl

/-! ### The copy of an item (R285) -/

theorem engDpt_setBytes (s : State) (a : Nat) (l : List Byte) (q : Nat) : (s.setBytes a l).engDpt q = s.engDpt q := by
  rw [setBytes_rest]; rfl

/-- The copy for a solo engine while memory protection is idle: the item's bytes are written to the window. -/
theorem copyItem_solo {p : Nat} {v : SvcItem} {sl : Nat} (hv : (s.engDpt p).prefetch = some v) (hsl : v.slot = some sl) (hg : s.gang p = [p])
    (hp : s.protIdle = true) :
    let y := engWin p + 0x4000 + 2 * (if v.win = true then 0xFE0 else 0xFC0)
    s.copyItem p = ((s.noteSecond y 64).setBytes y (s.bytes (itemAddr sl) 64)).setEngDpt p
      { s.engDpt p with prefetch := some { v with copied := true } } := by
  intro y
  have hst (l : List Byte) : (s.noteSecond y 64).store y l = (s.noteSecond y 64).setBytes y l := store_idle (s := s.noteSecond _ _) hp _ _
  have he (l : List Byte) : ((s.noteSecond y 64).setBytes y l).engDpt p = s.engDpt p := engDpt_setBytes ..
  rw [← he (s.bytes (itemAddr sl) 64), ← hst]
  simp only [copyItem, hv, hsl, hg, List.foldl_cons, List.foldl_nil]
  rfl

/-! ### The start of an item (R286) -/

/-- Which engine serves which is a matter of SEC_SPARE (R16, R236). -/
theorem spareOf_congr (hr : ∀ k, u.reg (Reg.secSpare k) = s.reg (Reg.secSpare k)) (k i : Nat) : u.spareOf k i = s.spareOf k i := by
  have hf : ∀ hi lo, u.fld (Reg.secSpare k) hi lo = s.fld (Reg.secSpare k) hi lo := fun _ _ => by rw [fld, hr k, fld]
  simp only [spareOf, hf]

theorem logOf_congr (hr : ∀ k, u.reg (Reg.secSpare k) = s.reg (Reg.secSpare k)) (q : Nat) : u.logOf q = s.logOf q := by
  have hf : ∀ k hi lo, u.fld (Reg.secSpare k) hi lo = s.fld (Reg.secSpare k) hi lo := fun k _ _ => by rw [fld, hr k, fld]
  simp only [logOf, hf, spareOf_congr hr]

/-- Which engines a gang has is a matter of SEC_SPARE and of its descriptor (R16, R231). -/
theorem gang_congr {q : Nat} (hr : ∀ k, u.reg (Reg.secSpare k) = s.reg (Reg.secSpare k)) (hd : u.engDesc q 0 = s.engDesc q 0) :
    u.gang q = s.gang q := by
  simp only [gang, gangSize, physOf, logOf_congr hr, spareOf_congr hr, hd]

theorem engDesc_of_mem (hm : u.mem = s.mem) (q w : Nat) : u.engDesc q w = s.engDesc q w := by simp only [engDesc, le, byte, hm]

/-- An engine's item moves from its prefetch slot to its service. -/
def itemTaken (s : State) (q : Nat) (v : SvcItem) : State :=
  s.setEngDpt q { s.engDpt q with running := some v, prefetch := none, lastWin := some v.win, since := none }

/-- The start of the item in an engine's prefetch slot: the slot empties, the task notes the engine, the dispatch counts. -/
theorem itemStart_starts (h : s.Inv) {q : Nat} {v : SvcItem} (hv : (s.engDpt q).prefetch = some v) :
    TaskOnly v.task (· ∈ [Reg.dptDisp, Reg.slgLost]) (s.itemTaken q v) (s.itemStart q) ∧
      (s.itemStart q).task v.task = { s.task v.task with last := some (s.logNo q) } ∧
      (s.itemStart q).fld Reg.dptDisp 31 0 = satAdd (2 ^ 32 - 1) (s.fld Reg.dptDisp 31 0) 1 := by
  have h1 : (s.itemTaken q v).Inv := (setEngDpt_still (.refl s) _ _).inv h
  have ht := ((TaskOnly.refl (t := v.task) (p := (· ∈ [Reg.slgLost])) h1).setTask { s.task v.task with last := some (s.logNo q) }).touch v.task
  have hu : s.itemStart q = ((((s.itemTaken q v).setTask v.task { s.task v.task with last := some (s.logNo q) }).touch v.task).count
      Reg.dptDisp 31 0).record .dispatch v.task q v.flow.toNat 0 := by
    simp only [itemStart, hv]
    rfl
  have hlast := (TaskOnly.refl (t := v.task) (p := (· ∈ [Reg.slgLost])) (inv_count ht.inv Reg.dptDisp 31 0 1)).record
    (List.mem_singleton_self _) .dispatch v.task q v.flow.toNat 0
  have hne : Reg.dptDisp ∉ [Reg.slgLost] := by decide
  rw [hu]
  refine ⟨((ht.mono (by simp)).count _ _ _ (by simp)).record (by simp) .., ?_, ?_⟩
  · exact (record_task ..).trans ((touch_task ..).trans (task_setTask_self h1 ..))
  · rw [hlast.fld _ _ hne, fld_count_self ht.inv _ _ (by decide), ht.fld _ _ hne]
    rfl

end State

/-- An idle engine that starts an item at an address of its program, with the TK of its task and window (R265, R286). -/
def EngSt.dispatched (g : EngSt) (v : SvcItem) (a : BitVec 11) : EngSt :=
  { g.unstick with run := .running, fetching := true, taint := none, fg := g.fg.start a, yieldAt := none, wd := 0, wdDone := false, ended := false,
                   tk := BitVec.ofNat 32 (v.task * 2 ^ 16 + if v.win then 2 ^ 15 else 0) }

/-- Where an item starts: after the YIELD of an item of its task, else at the start of the task. -/
def EngSt.startAt (g : EngSt) (v : SvcItem) (entry : BitVec 11) : BitVec 11 :=
  match g.yieldAt with
  | some (a, t) => if t = v.task then a else entry
  | none => entry

/-- TK of an item that starts: its task in [27:16], its window in bit 15, else 0. -/
theorem EngSt.tk_dispatched (g : EngSt) (v : SvcItem) (a : BitVec 11) (ht : v.task < 4096) :
    bitsOf (g.dispatched v a).tk 27 16 = v.task ∧ (g.dispatched v a).tk.getLsbD 15 = v.win ∧ bitsOf (g.dispatched v a).tk 14 0 = 0 ∧
      bitsOf (g.dispatched v a).tk 31 28 = 0 := by
  have hw : (if v.win then 2 ^ 15 else 0) < 2 ^ 16 := by split <;> decide
  refine ⟨?_, ?_, ?_, ?_⟩
  · rw [EngSt.dispatched, bitsOf_ofNat _ _ (by decide)]; omega
  · rw [EngSt.dispatched, BitVec.getLsbD_ofNat, Nat.testBit_eq_decide_div_mod_eq]
    cases v.win <;> simp <;> omega
  · rw [EngSt.dispatched, bitsOf_ofNat _ _ (by decide)]
    split <;> omega
  · rw [EngSt.dispatched, bitsOf_ofNat _ _ (by decide)]; omega

end Machine

section
variable {s : State} (h : s.Inv)
include h

/-- FLAG_SET_ARRIVAL. -/
theorem flagSetArrival_applies {src : FlagSrc} {m : FlagMsg} (hm : s.dpt.msgs.find? (fun m => decide (m.src = src)) = some m)
    (hd : s.dpt.dirty = []) :
    Completes (.flagSetArrival src) s (fun u => u.dpt.msgs = s.dpt.msgs.erase m ∧
      (s.dptRuns = false → u = { s with dpt := { s.dpt with msgs := u.dpt.msgs } }) ∧
      (s.dptRuns = true → s.tValid m.task = true →
        (∀ i, i < 32 → (u.task m.task).flags.getLsbD i = if i = m.flag then
          m.set || (decide ((m.task, m.flag) ∈ s.dpt.fresh) && (s.task m.task).flags.getLsbD i) else (s.task m.task).flags.getLsbD i) ∧
        (u.task m.task).ring = (s.task m.task).ring ∧ (∀ x, x ≠ m.task → u.task x = s.task x) ∧ RegsKept [Reg.slgLost] s u) ∧
      (s.dptRuns = true → s.tValid m.task = false → u.dpt.tasks = s.dpt.tasks ∧
        u.fld Reg.dptEvtDisc 31 0 = satAdd (2 ^ 32 - 1) (s.fld Reg.dptEvtDisc 31 0) 1 ∧ RegsKept [Reg.dptEvtDisc, Reg.dptStatus] s u) ∧
      u.dpt.eng = s.dpt.eng ∧ BytesKept s u) := by
  have hx : exec (.flagSetArrival src) s =
      .next (({ s with dpt := { s.dpt with msgs := s.dpt.msgs.erase m } } : State).flagArrives m).readiness := by
    change execFlagSetArrival src s = _
    rw [execFlagSetArrival, hm]
    rfl
  refine Completes.intro hx ?_
  generalize hs1 : ({ s with dpt := { s.dpt with msgs := s.dpt.msgs.erase m } } : State) = s1
  have h1 : s1.Inv := hs1 ▸ h.of_eq ⟨rfl, rfl, rfl, rfl, rfl, rfl, rfl, rfl, rfl, rfl, rfl, rfl, rfl⟩
  have hd1 : s1.dpt.dirty = [] := hs1 ▸ hd
  cases hr : s.dptRuns with
  | false =>
    have hr1 : s1.dptRuns = false := hs1 ▸ hr
    rw [State.flagArrives, hr1, if_neg Bool.false_ne_true, State.readiness_in_reset hr1, ← hs1]
    exact ⟨rfl, fun _ => rfl, nofun, nofun, rfl, fun _ => rfl⟩
  | true =>
    have hr1 : s1.dptRuns = true := hs1 ▸ hr
    cases hv : s.tValid m.task with
    | false =>
      have hv1 : s1.tValid m.task = false := hs1 ▸ hv
      have hu : (s1.flagArrives m).readiness = s1.evtDiscard := by
        rw [State.flagArrives, if_pos hr1, State.applyFlag, if_neg (by simp [hv1])]
        exact State.readiness_of_clean hd1
      obtain ⟨count, -, kept⟩ := evtDiscard_counts h1
      rw [hu, ← hs1] at *
      exact ⟨rfl, nofun, nofun, fun _ _ => ⟨rfl, count, kept⟩, rfl, fun _ => rfl⟩
    | true =>
      have hv1 : s1.tValid m.task = true := hs1 ▸ hv
      obtain ⟨ho, hflags, hring⟩ := State.flagArrives_task h1 hr1 hv1 hd1
      rw [ho.msgs, ho.dptEng]
      rw [← hs1] at ho hflags hring ⊢
      exact ⟨rfl, nofun, fun _ _ => ⟨hflags, hring, ho.others, ho.regsKept⟩, nofun, rfl, ho.byte⟩

/-- ITEM_COPY_COMPLETE on a solo engine while memory protection is idle. -/
theorem itemCopyComplete_copies {p : EngineNo} {v : SvcItem} {sl : Nat} (hr : s.dptRuns = true) (hv : (s.engDpt p).prefetch = some v)
    (hc : v.copied = false) (hsl : v.slot = some sl) (hg : s.gang p = [p.val]) (hp : s.protIdle = true) :
    let y := engWin p + 0x4000 + 2 * (if v.win = true then 0xFE0 else 0xFC0)
    Completes (.itemCopyComplete p) s (fun u =>
      (∀ j, j < 64 → u.byte (y + j) = s.byte (itemAddr sl + j)) ∧ (∀ a, (a < y ∨ y + 64 ≤ a) → u.byte a = s.byte a) ∧
      u.engDpt p = { s.engDpt p with prefetch := some { v with copied := true } } ∧ (∀ q, q ≠ p.val → u.engDpt q = s.engDpt q) ∧
      u = { s with mem := u.mem, ports := u.ports, dpt := { s.dpt with eng := u.dpt.eng } }) := by
  intro y
  have hx : exec (.itemCopyComplete p) s = .next (s.copyItem p) := by
    change execItemCopyComplete p s = _
    simp only [execItemCopyComplete, hv, hc, hr, hsl, State.read_clean (State.flips_of_idle hp), Bool.not_true, Bool.or_self, Bool.false_eq_true,
      if_false]
    rfl
  rw [State.copyItem_solo hv hsl hg hp] at hx
  generalize hl : s.bytes (itemAddr sl) 64 = l at hx
  have hi : (s.noteSecond y 64).Inv := h.of_eq ⟨rfl, rfl, rfl, rfl, rfl, rfl, rfl, rfl, rfl, rfl, rfl, rfl, rfl⟩
  have hb := State.inv_setBytes hi y l
  have hn : l.length = 64 := hl ▸ State.bytes_length ..
  refine Completes.intro hx ⟨fun j hj => ?_, fun a ha => ?_, State.engDpt_setEngDpt_self hb _ _, fun q hq => ?_, ?_⟩
  · refine (State.byte_setBytes hi y (hn.symm ▸ hj)).trans ?_
    simp [← hl, State.bytes]
  · exact State.byte_setBytes_of_outside hi y _ (hn.symm ▸ ha)
  · exact (State.engDpt_setEngDpt_of_ne hb _ hq).trans (State.engDpt_setBytes ..)
  · rw [State.setBytes_rest]; rfl

/-- DISPATCH of a copied item on an idle solo engine. -/
theorem exec_dispatch {p : EngineNo} {v : SvcItem} (hv : (s.engDpt p).prefetch = some v) (hc : v.copied = true) (hpool : s.pooled p = true)
    (hg : s.gang p = [p.val]) (hin : s.engIn p = true) (hrun : (s.eng p).run = .idle) :
    exec (.dispatch p) s = .next ((s.itemStart p).setEng p
      ((s.eng p).dispatched v ((s.eng p).startAt v (BitVec.ofNat 11 (s.fld (Reg.task v.task 0) 26 16))))) := by
  obtain ⟨ho, -, -⟩ := State.itemStart_starts h hv
  have hgang : (s.itemStart p).gang p = [p.val] := by
    rw [State.gang_congr (s := s) (fun k => ?_) (State.engDesc_of_mem ho.mem p 0), hg]
    refine (ho.kept _ fun hk => ?_).trans rfl
    rcases List.mem_pair.1 hk with e | e
    · exact GlbReg.secSpare_ne ⟨_, by decide, rfl⟩ k e
    · exact GlbReg.secSpare_ne ⟨_, by decide, rfl⟩ k e
  have hlead : s.leads p = true := by simp [State.leads, hg]
  have heng : (s.itemStart p).eng p = s.eng p := by rw [State.eng, ho.engines]; rfl
  change execDispatch p s = _
  simp only [execDispatch, hv, hpool, hlead, hin, hc, hrun, decide_true, Bool.and_self, Bool.not_true, Bool.false_eq_true, if_false,
    State.onGang_solo hgang, heng]
  rfl

end

/-- Settles O39: a message goes through `flagArrives`, the copy of a solo engine is one store, and DISPATCH is the start of the item, then the
engine's. -/
theorem itemsReachTheirEngine : Obligations.ItemsReachTheirEngine := by
  intro s h
  refine ⟨fun src m hm hd _ _ => flagSetArrival_applies h hm hd, fun p v sl hr hv hc hsl hg hp => itemCopyComplete_copies h hr hv hc hsl hg hp,
    fun p v hv hc ht hpool hg hin hrun => ?_⟩
  intro g
  obtain ⟨ho, htask, hcount⟩ := State.itemStart_starts h hv
  have hself := State.eng_setEng_self ho.inv p ((s.eng p).dispatched v ((s.eng p).startAt v (BitVec.ofNat 11 (s.fld (Reg.task v.task 0) 26 16))))
  have htaken : (s.itemStart p).engDpt p = { s.engDpt p with running := some v, prefetch := none, lastWin := some v.win, since := none } :=
    (ho.engDpt p).trans (State.engDpt_setEngDpt_self h ..)
  obtain ⟨htk, hwin, hlow, hhigh⟩ := EngSt.tk_dispatched g v (g.startAt v (BitVec.ofNat 11 (s.fld (Reg.task v.task 0) 26 16))) ht
  refine Completes.intro (exec_dispatch h hv hc hpool hg hin hrun) ?_
  rw [hself]
  refine ⟨rfl, rfl, rfl, rfl, rfl, rfl, rfl, htk, hwin, hlow, hhigh, rfl, rfl, rfl, rfl, rfl, rfl, congrArg EngDpt.running htaken,
    congrArg EngDpt.prefetch htaken, congrArg TaskSt.last htask, (congrArg TaskSt.ring htask).trans rfl, hcount, fun q hq => ?_,
    fun a ha => ?_, ho.byte⟩
  · exact (State.eng_setEng_of_ne ho.inv _ hq).trans (by rw [State.eng, ho.engines]; rfl)
  · exact ho.kept a ha

end Sys2Proof
end

/-! ## A dispatcher cycle (R270, R271, R281, R284, R285, R292) -/
section
namespace Sys2Proof
open Sys2Proof.Machine

namespace Machine

/-! ### Which engines request work (R283) -/

namespace State
variable {s u : State}

theorem requests_congr {q : Nat} (hr : ∀ k, u.reg (Reg.secSpare k) = s.reg (Reg.secSpare k)) (hd : u.engDesc q 0 = s.engDesc q 0)
    (he : u.engines = s.engines) (hp : (u.engDpt q).parked = (s.engDpt q).parked) (hf : (u.engDpt q).prefetch = (s.engDpt q).prefetch) :
    u.requests q = s.requests q := by
  have hq : u.eng q = s.eng q := by rw [eng, he]; rfl
  simp only [requests, pooled, leads, engIn, engOut, gang_congr hr hd, logOf_congr hr, hd, hq, hp, hf]

end State

theorem TaskOnly.requests {t : Nat} {p : Nat → Prop} {s u : State} (h : TaskOnly t p s u) (hg : ∀ a, p a → GlbReg a) (q : Nat) :
    u.requests q = s.requests q :=
  State.requests_congr (fun k => h.kept _ fun hk => (hg _ hk).secSpare_ne k rfl) (State.engDesc_of_mem h.mem q 0) h.engines
    (by rw [h.engDpt]) (by rw [h.engDpt])

namespace State
variable {s u : State} {t : Nat}

/-! ### Waits (R284) -/

/-- From `s` to `u` nothing changes but since when engines wait. -/
structure Waits (s u : State) : Prop where
  inv : u.Inv
  rest : u = { s with dpt := { s.dpt with eng := u.dpt.eng } }
  engDpt : ∀ q, u.engDpt q = { s.engDpt q with since := (u.engDpt q).since }

theorem Waits.requests (h : Waits s u) (q : Nat) : u.requests q = s.requests q :=
  requests_congr (fun k => by rw [h.rest]; rfl) (engDesc_of_mem (by rw [h.rest]) q 0) (by rw [h.rest]) (by rw [h.engDpt]) (by rw [h.engDpt])

theorem startWaits_waits (h : s.Inv) : Waits s s.startWaits := by
  have hl (l : List Nat) : ∀ u, Waits s u → Waits s (l.foldl (fun s q =>
      let d := s.engDpt q
      if s.requests q && d.since.isNone then s.setEngDpt q { d with since := some s.dpt.cycle } else s) u) := by
    induction l with
    | nil => exact fun u hu => hu
    | cons q l ih =>
      refine fun u hu => ih _ ?_
      dsimp only
      split
      · refine ⟨(setEngDpt_still (.refl u) _ _).inv hu.inv, congrArg (fun x : State => x.setEngDpt q _) hu.rest, fun x => ?_⟩
        by_cases hx : x = q
        · rw [hx, engDpt_setEngDpt_self hu.inv, hu.engDpt q]
        · rw [engDpt_setEngDpt_of_ne hu.inv _ hx]; exact hu.engDpt x
      · exact hu
  exact hl (List.range 544) s ⟨h, rfl, fun _ => rfl⟩

/-! ### The parts of a cycle (R281) -/

/-- A cycle begins: posts and flag messages arrive. -/
def cycleBegins (s : State) (posts flags : Nat) : State :=
  { s with dpt := { s.dpt with posts := s.dpt.posts.drop posts, msgs := s.dpt.msgs.drop flags, cycle := s.dpt.cycle + 1 } }

/-- Step 6 of a cycle. -/
def cycleServes (s : State) : State :=
  let u := if s.dptRuns then (s.startWaits).assignOne s.dpt.kept else s
  { u with dpt := { u.dpt with fresh := [] } }

theorem cycleBegins_inv (h : s.Inv) (posts flags : Nat) : (s.cycleBegins posts flags).Inv :=
  h.of_eq ⟨rfl, rfl, rfl, rfl, rfl, rfl, rfl, rfl, rfl, rfl, rfl, rfl, rfl⟩

/-- A cycle without a command. -/
theorem exec_dispatcherCycle (s : State) (posts flags : Nat) : exec (.dispatcherCycle [] posts flags) s =
    .next ((((s.dpt.posts.take posts).foldl post (s.cycleBegins posts flags)).cycleFlags (s.dpt.msgs.take flags) []).readiness.cycleServes) := rfl

theorem assignOne_of_none (h : s.requesters = []) (kept : Nat → W32) : s.assignOne kept = s := by
  unfold assignOne
  rw [h, List.findSome?_nil]

theorem requesters_of_none (hn : ∀ q, q < 544 → s.requests q = false) : s.requesters = [] := by
  have hnone : (List.range 544).filter (fun q => s.requests q) = [] :=
    List.filter_eq_nil_iff.2 fun q hq hr => by
      rw [hn q (List.mem_range.1 hq)] at hr
      exact Bool.false_ne_true hr
  rw [requesters, hnone, List.foldr_nil]

theorem cycleServes_runs (hr : s.dptRuns = true) : s.cycleServes =
    { s.startWaits.assignOne s.dpt.kept with dpt := { (s.startWaits.assignOne s.dpt.kept).dpt with fresh := [] } } := by
  unfold cycleServes
  dsimp only
  rw [if_pos hr]

/-- Step 6 without an assignment only notes waits. -/
theorem cycleServes_waits (h : s.Inv) (hreq : s.startWaits.requesters = []) :
    ∃ u, Waits s u ∧ s.cycleServes = { u with dpt := { u.dpt with fresh := [] } } := by
  unfold cycleServes
  dsimp only
  rw [assignOne_of_none hreq]
  cases s.dptRuns with
  | true => exact ⟨_, startWaits_waits h, by rw [if_pos rfl]⟩
  | false => exact ⟨s, ⟨h, rfl, fun _ => rfl⟩, rfl⟩

/-- Step 6 where no engine requests work. -/
theorem cycleServes_of_no_requests (h : s.Inv) (hn : ∀ q, q < 544 → s.requests q = false) :
    ∃ e, s.cycleServes = { s with dpt := { s.dpt with eng := e, fresh := [] } } := by
  obtain ⟨u, hu, e⟩ := cycleServes_waits h (requesters_of_none fun q hq => ((startWaits_waits h).requests q).trans (hn q hq))
  exact ⟨u.dpt.eng, by rw [e, hu.rest]⟩

/-! ### Commands and flag messages of a cycle -/

theorem foldl_flagArrives_in_reset (hr : s.dptRuns = false) (l : List FlagMsg) : l.foldl flagArrives s = s := by
  induction l with
  | nil => rfl
  | cons m l ih => rw [List.foldl_cons, flagArrives, hr, if_neg Bool.false_ne_true, ih]

theorem cycleFlags_in_reset (hr : s.dptRuns = false) (ms : List FlagMsg) (cmds : List W32) : s.cycleFlags ms cmds = s := by
  simp only [cycleFlags, foldl_flagArrives_in_reset hr]

theorem cycleFlags_nil (s : State) : s.cycleFlags [] [] = s := rfl

theorem cycleFlags_singleton (s : State) (m : FlagMsg) : s.cycleFlags [m] [] = s.flagArrives m := by
  cases hs : m.set <;> simp [cycleFlags, hs]

/-- A cycle in reset refuses its command, whatever but the reset it is (R281, R293). -/
theorem dptCycle_in_reset {w : W32} {reset : State → State} (h : s.Inv) (hr : s.dptRuns = false) (hw : bitsOf w 31 28 ≠ 15) :
    s.dptCycle reset [w] 0 0 =
      { s.setBit Reg.dptStatus 4 true with dpt := { s.dpt with cycle := s.dpt.cycle + 1, fresh := [] } } := by
  have hbits : (s.setBit Reg.dptStatus 4 true).dptRuns = false := by
    rw [← hr, dptRuns, fld_setBit_of_disjoint h _ _ (.inr (by decide)) (by decide)]
    rfl
  have herr : ((s.cycleBegins 0 0).setBit Reg.dptStatus 4 true).dptRuns = false := hbits
  have hcmd (later : State → Nat → Bool) : (s.cycleBegins 0 0).cycleCmd reset later w = (s.cycleBegins 0 0).setBit Reg.dptStatus 4 true := by
    have hr' : (s.cycleBegins 0 0).dptRuns = false := hr
    rw [cycleCmd, if_neg hw, dptCmd, hr']
    rfl
  unfold dptCycle
  simp only [List.take_zero, List.drop_zero, List.foldl_cons, List.foldl_nil]
  rw [show ({ s with dpt := { s.dpt with posts := s.dpt.posts, msgs := s.dpt.msgs, cycle := s.dpt.cycle + 1 } } : State) = s.cycleBegins 0 0 from rfl,
    hcmd, cycleFlags_in_reset herr, readiness_in_reset herr, herr]
  rfl

/-! ### An assignment (R284, R285) -/

theorem requesters_of_one {q : EngineNo} (hn : ∀ x, s.requests x = decide (x = q.val)) : s.requesters = [q.val] := by
  have hone : (List.range 544).filter (fun x => s.requests x) = [q.val] := by
    simp only [hn]
    rw [List.filter_eq, List.count_eq_one_of_mem List.nodup_range (List.mem_range.2 q.isLt)]
    rfl
  rw [requesters, hone]
  rfl

theorem Waits.choose (h : Waits s u) (q : Nat) : u.choose q = s.choose q := by rw [h.rest]; rfl

theorem assignOne_of_one {q : Nat} (hr : s.requesters = [q]) (hc : s.choose q = some t) (kept : Nat → W32) :
    s.assignOne kept = s.assign q t (kept t) := by
  unfold assignOne
  rw [hr, List.findSome?_cons, hc]
  rfl

/-- Step 6 where one engine requests work and a task is chosen for it. -/
theorem cycleServes_of_one {q : EngineNo} (h : s.Inv) (hr : s.dptRuns = true) (hn : ∀ x, s.requests x = decide (x = q.val))
    (hc : s.choose q = some t) :
    ∃ u, Waits s u ∧ s.cycleServes = { u.assign q t (s.dpt.kept t) with dpt := { (u.assign q t (s.dpt.kept t)).dpt with fresh := [] } } := by
  have hw := startWaits_waits h
  have hass := assignOne_of_one (requesters_of_one fun x => (hw.requests x).trans (hn x)) ((hw.choose q).trans hc) s.dpt.kept
  exact ⟨s.startWaits, hw, (cycleServes_runs hr).trans (by rw [hass])⟩

end State

/-- The service that an assignment of an item begins. -/
def RingItem.served (i : RingItem) (t : Nat) (w : Bool) : SvcItem :=
  { task := t, flow := i.flow, slot := some i.slot, stamp := i.stamp, win := w, copied := false }

/-- A task whose item goes into service (R276, R281): AUTOCLR clears flags but those kept. -/
def TaskSt.serving (k : TaskSt) (i : RingItem) (autoclr keep : W32) : TaskSt :=
  { k with ring := k.ring.map (fun r => if r.slot = i.slot then { r with serv := true } else r), inserv := k.inserv + 1,
           flags := k.flags &&& ~~~(autoclr &&& ~~~keep) }

namespace State
variable {s u : State} {t : Nat}

/-- An assignment writes the task and the prefetch slot, whose window is not that of the item before, and offers its record. -/
theorem assign_eq {q : Nat} {i : RingItem} (hi : s.candidate t = some i) (keep : W32) :
    ∃ w reason, (∀ x, (s.engDpt q).lastWin = some x → w = !x) ∧ s.assign q t keep =
      (((s.setTask t ((s.task t).serving i (s.reg (Reg.task t 5)) keep)).setEngDpt q
        { s.engDpt q with prefetch := some (i.served t w), since := none }).touch t).record .prefetch t q i.flow.toNat reason := by
  refine ⟨match (s.engDpt q).lastWin with | some w => !w | none => false, if s.aged t then reasonAged else s.tier t (s.logNo q), ?_, ?_⟩
  · intro x hx
    rw [hx]
  · simp only [assign, hi, candStamp, Option.map_some, Option.some.injEq]
    rfl

end State

/-- Bit `i` of the flags of a task that the present cycle has set. -/
theorem Dpt.getLsbD_kept (d : Dpt) (t : Nat) {i : Nat} (hi : i < 32) : (d.kept t).getLsbD i = decide ((t, i) ∈ d.fresh) := by
  have hor (l : List (Nat × Nat)) (a : W32) :
      (l.foldl (fun a e => a ||| BitVec.ofNat 32 (2 ^ e.2)) a).getLsbD i = (a.getLsbD i || decide (∃ e ∈ l, i = e.2)) := by
    induction l generalizing a with
    | nil => simp
    | cons e l ih =>
      rw [List.foldl_cons, ih, getLsbD_setFlag _ _ hi, Bool.or_comm (decide (i = e.2)), Bool.or_assoc]
      simp only [List.exists_mem_cons_iff, Bool.decide_or]
  rw [kept, hor, show (0 : W32).getLsbD i = false from BitVec.getLsbD_zero, Bool.false_or, decide_eq_decide]
  constructor
  · rintro ⟨e, he, rfl⟩
    obtain ⟨hm, ht⟩ := List.mem_filter.1 he
    rwa [← eq_of_beq ht]
  · exact fun hm => ⟨(t, i), List.mem_filter.2 ⟨hm, beq_self_eq_true t⟩, rfl⟩

/-! ### A post (R270, R271, R292) -/

/-- The first free slot of a ring that is not full holds none of its items. -/
theorem freeSlot_not_mem {base cap head : Nat} {ring : List RingItem} (h : ring.length < cap) :
    freeSlot base cap ring head ∉ ring.map (fun r => r.slot) := by
  unfold freeSlot
  cases hl : ring.getLast? with
  | none =>
    rw [List.getLast?_eq_none_iff.1 hl]
    exact List.not_mem_nil
  | some i =>
    dsimp only
    generalize i.slot - base + 1 = start
    cases hf : ((List.range cap).map (fun j => base + (start + j) % cap)).find? (fun x => !(ring.any (fun r => r.slot == x))) with
    | some x =>
      have := List.find?_some hf
      simpa [List.mem_map] using this
    | none =>
      have hinj : ∀ x ∈ List.range cap, ∀ y ∈ List.range cap, base + (start + x) % cap = base + (start + y) % cap → x = y := by
        intro x hx y hy e
        have hxy : x ≡ y [MOD cap] := Nat.ModEq.add_left_cancel' start (Nat.add_left_cancel e)
        rwa [Nat.ModEq, Nat.mod_eq_of_lt (List.mem_range.1 hx), Nat.mod_eq_of_lt (List.mem_range.1 hy)] at hxy
      have hsub : (List.range cap).map (fun j => base + (start + j) % cap) ⊆ ring.map (fun r => r.slot) := by
        intro x hx
        have := List.find?_eq_none.1 hf x hx
        simpa [List.mem_map] using this
      have hlen := (List.subperm_of_subset (List.Nodup.map_on hinj List.nodup_range) hsub).length_le
      rw [List.length_map, List.length_map, List.length_range] at hlen
      omega

namespace State
variable {s u : State} {t : Nat}

/-- The bytes of an item's words. -/
def itemBytes (words : List W16) : List Byte := words.flatMap (fun w => [BitVec.ofNat 8 w.toNat, BitVec.ofNat 8 (w.toNat / 256)])

/-- What a store leaves in memory is a matter of memory. -/
theorem mem_setBytes_congr (h : u.mem = s.mem) (a : Nat) (l : List Byte) : (u.setBytes a l).mem = (s.setBytes a l).mem := by
  induction l generalizing s u a with
  | nil => exact h
  | cons b l ih => exact ih (by simp only [setByte, h]) (a + 1)

theorem itemBytes_length (words : List W16) : (itemBytes words).length = 2 * words.length := flatMap_length _ 2 (fun _ => rfl) words

/-- The words of an item read as they were written. -/
theorem half_setBytes_itemBytes (h : s.Inv) (a : Nat) {words : List W16} {j : Nat} (hj : j < words.length) :
    (s.setBytes a (itemBytes words)).half (a + 2 * j) = words.getD j 0 := by
  induction words generalizing s a j with
  | nil => exact absurd hj (Nat.not_lt_zero j)
  | cons w ws ih =>
    have h0 := inv_setByte h a (BitVec.ofNat 8 w.toNat)
    have h1 := inv_setByte h0 (a + 1) (BitVec.ofNat 8 (w.toNat / 256))
    have he : s.setBytes a (itemBytes (w :: ws)) = ((s.setByte a (BitVec.ofNat 8 w.toNat)).setByte (a + 1)
        (BitVec.ofNat 8 (w.toNat / 256))).setBytes (a + 2) (itemBytes ws) := rfl
    rw [he]
    cases j with
    | zero =>
      refine half_of_bytes ?_ ?_
      · rw [byte_setBytes_of_outside h1 _ _ (by omega), byte_setByte_of_ne h0 _ (by omega)]; exact byte_setByte_self h _ _
      · rw [byte_setBytes_of_outside h1 _ _ (by omega)]; exact byte_setByte_self h0 _ _
    | succ j =>
      rw [show a + 2 * (j + 1) = a + 2 + 2 * j by omega]
      exact ih h1 (a + 2) (Nat.lt_of_succ_lt_succ hj)

/-- The response to a post: its grounds in their order (R281). -/
def postCode (s : State) (q : PostReq) : W16 :=
  if s.tValid q.task = false then 3 else if (s.task q.task).disabled = true then 2
  else if s.tCap q.task ≤ (s.task q.task).ring.length then 1 else 0

/-- A refused post is counted and recorded (R292). -/
def refused (s : State) (q : PostReq) (why : Nat) : State := refuseRecord ((s.count Reg.dptRef 31 0).setBit Reg.dptStatus 1 true) q why

theorem post_of_refused {q : PostReq} (hr : s.dptRuns = true) (hc : s.postCode q ≠ 0) :
    ∃ u why, s.post q = (u.refused q why).respond q (s.postCode q) ∧
      (s.postCode q = 3 ∧ u = s ∨ u = s.setTask q.task { s.task q.task with refused := satAdd 65535 (s.task q.task).refused 1 }) := by
  unfold post postCode at *
  rw [hr]
  by_cases hv : s.tValid q.task = false
  · simp only [hv, if_true]
    exact ⟨s, reasonNotask, rfl, .inl ⟨trivial, rfl⟩⟩
  by_cases hk : (s.task q.task).disabled = true
  · simp only [hv, hk, if_true]
    exact ⟨_, reasonDisabled, rfl, .inr rfl⟩
  by_cases hf : s.tCap q.task ≤ (s.task q.task).ring.length
  · simp only [hv, hk, hf, if_true]
    exact ⟨_, reasonFull, rfl, .inr rfl⟩
  · simp [hv, hk, hf] at hc

/-- The item of a post in the slot that it takes (R270, R271). -/
def postedItem (s : State) (q : PostReq) : RingItem :=
  { slot := freeSlot (s.tBase q.task) (s.tCap q.task) (s.task q.task).ring (s.task q.task).qhead, flow := q.flow, stamp := s.stamp, src := q.src,
    serv := false }

end State

/-- A task that accepts an item, with its watermark. -/
def TaskSt.posted (k : TaskSt) (i : RingItem) (wm : Nat) : TaskSt :=
  { k with ring := k.ring ++ [i], flags := k.flags ||| 1 ||| (if wm ≠ 0 ∧ (k.ring ++ [i]).length = wm then 2 else 0),
           accepted := satAdd (2 ^ 32 - 1) k.accepted 1, qhead := if k.ring = [] then i.slot else k.qhead }

namespace State
variable {s u : State} {t : Nat}

theorem post_of_accepted {q : PostReq} (hr : s.dptRuns = true) (hc : s.postCode q = 0) : ∃ fs, s.post q =
    (((((s.writeItem (s.postedItem q).slot q.words).setTask q.task
      ((s.task q.task).posted (s.postedItem q) (s.fld (Reg.task q.task 8) 15 0))).fresh fs).count Reg.dptAcc 31 0).touch q.task).respond q 0 := by
  have hv : s.tValid q.task = true := Bool.of_not_eq_false fun hv => by simp [postCode, hv] at hc
  have hk : ¬(s.task q.task).disabled = true := fun hk => by simp [postCode, hv, hk] at hc
  have hf : ¬s.tCap q.task ≤ (s.task q.task).ring.length := fun hf => by simp [postCode, hv, hk, hf] at hc
  unfold post
  dsimp only
  rw [if_neg (by simp [hr]), if_neg (by simp [hv]), if_neg hk, if_neg hf]
  exact ⟨_, rfl⟩

theorem refuseRecord_only {p : Nat → Prop} (h : s.Inv) (hp : p Reg.slgLost) (q : PostReq) (why : Nat) : TaskOnly t p s (refuseRecord s q why) :=
  (TaskOnly.refl h).record hp ..

/-- What a refused post leaves. -/
theorem refused_counts (h : s.Inv) (q : PostReq) (why : Nat) : TaskOnly t (· ∈ [Reg.dptRef, Reg.dptStatus, Reg.slgLost]) s (s.refused q why) ∧
    (s.refused q why).dpt.tasks = s.dpt.tasks ∧ (s.refused q why).dpt.dirty = s.dpt.dirty ∧ (s.refused q why).rbit Reg.dptStatus 1 = true ∧
    (s.refused q why).fld Reg.dptRef 31 0 = satAdd (2 ^ 32 - 1) (s.fld Reg.dptRef 31 0) 1 := by
  have h1 := inv_count h Reg.dptRef 31 0 1
  have h2 := inv_setBit h1 Reg.dptStatus 1 true
  have hrec := refuseRecord_only (t := t) (p := (· = Reg.slgLost)) h2 rfl q why
  refine ⟨?_, record_tasks .., record_dirty .., ?_, ?_⟩
  · exact (((TaskOnly.refl h).count _ _ _ (by simp)).setBit _ _ (by simp)).record (by simp) ..
  · exact (hrec.rbit _ (by decide)).trans (rbit_setBit_self h1 _ _ (by decide))
  · exact (hrec.fld _ _ (by decide)).trans ((fld_setBit_of_ne h1 _ _ _ _ (by decide)).trans (fld_count_self h _ _ (by decide)))

theorem engWin_lt_itemAddr {q : Nat} (hq : q < 544) (slot : Nat) : engWin q + 0x6004 ≤ itemAddr slot := by
  unfold engWin itemAddr Reg.secBase
  omega

/-- Where memory protection is idle, an item is written as its bytes, and no engine's descriptor changes. -/
theorem writeItem_idle (h : s.protIdle = true) (slot : Nat) (words : List W16) :
    s.writeItem slot words = s.setBytes (itemAddr slot) (itemBytes words) := store_idle h _ _

theorem requests_setBytes (h : s.Inv) {q : Nat} (hq : q < 544) (slot : Nat) (l : List Byte) :
    (s.setBytes (itemAddr slot) l).requests q = s.requests q := by
  have hb (a : Nat) (ha : a < engWin q + 0x6004) : (s.setBytes (itemAddr slot) l).byte a = s.byte a :=
    byte_setBytes_of_outside h _ _ (.inl (lt_of_lt_of_le ha (engWin_lt_itemAddr hq slot)))
  refine requests_congr (fun k => ?_) ?_ ?_ ?_ ?_
  · rw [setBytes_rest]; rfl
  · simp only [engDesc, le, hb _ (show engWin q + 0x6000 + 4 * 0 < _ by omega), hb _ (show engWin q + 0x6000 + 4 * 0 + 1 < _ by omega),
      hb _ (show engWin q + 0x6000 + 4 * 0 + 1 + 1 < _ by omega), hb _ (show engWin q + 0x6000 + 4 * 0 + 1 + 1 + 1 < _ by omega)]
  · rw [setBytes_rest]
  · rw [engDpt_setBytes]
  · rw [engDpt_setBytes]

end State
end Machine

/-! ### The cycles of O38 -/

section
variable {s : State}

/-- A cycle takes the oldest post. -/
theorem Machine.State.exec_cycle_post {q : PostReq} {rest : List PostReq} (hq : s.dpt.posts = q :: rest) :
    exec (.dispatcherCycle [] 1 0) s = .next (((s.cycleBegins 1 0).post q).readiness.cycleServes) := by
  rw [State.exec_dispatcherCycle, hq]; rfl

variable (h : s.Inv) (hr : s.dptRuns = true) (hd : s.dpt.dirty = [])
include h hr hd

/-- A cycle refuses a post. -/
theorem cycle_refuses {q : PostReq} {rest : List PostReq} (hq : s.dpt.posts = q :: rest) (hn : ∀ p, s.requests p = false)
    (hc : s.postCode q ≠ 0) : Completes (.dispatcherCycle [] 1 0) s (fun u =>
      u.dpt.posts = rest ∧ u.dpt.msgs = s.dpt.msgs ∧ u.dpt.responses = s.dpt.responses ++ [(q.src, s.postCode q)] ∧
      u.dpt.cycle = s.dpt.cycle + 1 ∧ (∀ x, x ≠ q.task → u.task x = s.task x) ∧ u.engines = s.engines ∧
      (u.task q.task).ring = (s.task q.task).ring ∧ (u.task q.task).flags = (s.task q.task).flags ∧ u.rbit Reg.dptStatus 1 = true ∧
      u.fld Reg.dptRef 31 0 = satAdd (2 ^ 32 - 1) (s.fld Reg.dptRef 31 0) 1 ∧
      (s.postCode q ≠ 3 → (u.task q.task).refused = satAdd 65535 (s.task q.task).refused 1) ∧
      RegsKept [Reg.dptRef, Reg.dptStatus, Reg.slgLost] s u ∧ BytesKept s u) := by
  have h0 := State.cycleBegins_inv h 1 0
  obtain ⟨a, why, hpost, ha⟩ := State.post_of_refused (s := s.cycleBegins 1 0) hr hc
  have hcode : (s.cycleBegins 1 0).postCode q = s.postCode q := rfl
  -- what stands before the count: the task with the refusal noted, or as it was
  obtain ⟨hto, hdirty, hring, hflags, hrefused⟩ : TaskOnly q.task (fun _ => False) (s.cycleBegins 1 0) a ∧ a.dpt.dirty = [] ∧
      (a.task q.task).ring = (s.task q.task).ring ∧ (a.task q.task).flags = (s.task q.task).flags ∧
      (s.postCode q ≠ 3 → (a.task q.task).refused = satAdd 65535 (s.task q.task).refused 1) := by
    rcases ha with ⟨h3, rfl⟩ | rfl
    · exact ⟨.refl h0, hd, rfl, rfl, fun hne => absurd h3 hne⟩
    · refine ⟨(TaskOnly.refl h0).setTask _, hd, ?_⟩
      rw [State.task_setTask_self h0]
      exact ⟨rfl, rfl, fun _ => rfl⟩
  obtain ⟨hcounts, htasks, hdirty', hbit, hfld⟩ := State.refused_counts (t := q.task) hto.inv q why
  have hall := (hto.mono (q := (· ∈ [Reg.dptRef, Reg.dptStatus, Reg.slgLost])) nofun).trans hcounts
  generalize a.refused q why = b at *
  have hb : (b.respond q (s.postCode q)).Inv := (State.respond_still (.refl b) _ _).inv hall.inv
  have hg : ∀ x, x ∈ [Reg.dptRef, Reg.dptStatus, Reg.slgLost] → GlbReg x := by
    simp only [List.forall_mem_cons, List.not_mem_nil, false_implies, implies_true, and_true]
    exact ⟨⟨_, by decide, rfl⟩, ⟨_, by decide, rfl⟩, ⟨_, by decide, rfl⟩⟩
  have hread : (b.respond q (s.postCode q)).readiness = b.respond q (s.postCode q) := State.readiness_of_clean (hdirty'.trans hdirty)
  obtain ⟨e, he⟩ := State.cycleServes_of_no_requests hb fun p _ => (hall.requests hg p).trans (hn p)
  have hx := State.exec_cycle_post hq
  rw [hpost, hcode, hread, he] at hx
  have htask : b.task q.task = a.task q.task := by rw [State.task, htasks]; rfl
  refine Completes.intro hx ⟨hall.posts.trans (by simp [State.cycleBegins, hq]), hall.msgs, ?_, hall.cycle, hall.others, hall.engines,
    (congrArg _ htask).trans hring, (congrArg _ htask).trans hflags, hbit, ?_, fun hne => (congrArg _ htask).trans (hrefused hne),
    hall.regsKept, hall.byte⟩
  · exact congrArg (· ++ [(q.src, s.postCode q)]) hall.responses
  · exact hfld.trans (by rw [hto.fld _ _ id]; rfl)

/-- A cycle accepts a post. -/
theorem cycle_accepts {q : PostReq} {rest : List PostReq} (hq : s.dpt.posts = q :: rest) (hn : ∀ p, s.requests p = false)
    (hp : s.protIdle = true) (ht : q.task < 4096) (hc : s.postCode q = 0) : Completes (.dispatcherCycle [] 1 0) s (fun u =>
      u.dpt.posts = rest ∧ u.dpt.msgs = s.dpt.msgs ∧ u.dpt.responses = s.dpt.responses ++ [(q.src, 0)] ∧
      u.dpt.cycle = s.dpt.cycle + 1 ∧ (∀ x, x ≠ q.task → u.task x = s.task x) ∧ u.engines = s.engines ∧
      ∃ ready now, u.task q.task = ((s.task q.task).posted (s.postedItem q) (s.fld (Reg.task q.task 8) 15 0)).evaluated ready now ∧
      (u.task q.task).ready = u.dispatchable q.task ∧
      u.mem = (s.setBytes (itemAddr (s.postedItem q).slot) (State.itemBytes q.words)).mem ∧
      u.fld Reg.dptAcc 31 0 = satAdd (2 ^ 32 - 1) (s.fld Reg.dptAcc 31 0) 1 ∧ RegsKept [Reg.dptAcc, Reg.slgLost] s u) := by
  have h0 := State.cycleBegins_inv h 1 0
  obtain ⟨fs, hpost⟩ := State.post_of_accepted (s := s.cycleBegins 1 0) hr hc
  rw [State.writeItem_idle (s := s.cycleBegins 1 0) hp] at hpost
  -- `w`: the item's bytes are written; `a`: the task, its flags and the count too; `c`: the response sets out
  obtain ⟨w, hw⟩ : ∃ w, w = (s.cycleBegins 1 0).setBytes (itemAddr (s.postedItem q).slot) (State.itemBytes q.words) := ⟨_, rfl⟩
  obtain ⟨k, hk⟩ : ∃ k, k = (s.task q.task).posted (s.postedItem q) (s.fld (Reg.task q.task 8) 15 0) := ⟨_, rfl⟩
  replace hpost : (s.cycleBegins 1 0).post q = ((((w.setTask q.task k).fresh fs).count Reg.dptAcc 31 0).touch q.task).respond q 0 := by
    rw [hw, hk]; exact hpost
  have hwr : w = { s.cycleBegins 1 0 with mem := w.mem } := by rw [hw]; exact State.setBytes_rest ..
  have hwi : w.Inv := hw ▸ State.inv_setBytes h0 ..
  have hslg : Reg.slgLost ∈ [Reg.slgLost] := List.mem_singleton_self _
  have hto := ((TaskOnly.refl (t := q.task) (p := (· ∈ [Reg.slgLost])) hwi).setTask k).fresh fs
  have hta : TaskTo q.task k (· ∈ [Reg.dptAcc, Reg.slgLost]) w ((((w.setTask q.task k).fresh fs).count Reg.dptAcc 31 0).touch q.task) :=
    .of_touch ((hto.mono (by simp)).count _ _ _ (by simp)) (State.task_setTask_self hwi ..) (show w.dpt.dirty = [] by rw [hwr]; exact hd)
  have hacc : ((((w.setTask q.task k).fresh fs).count Reg.dptAcc 31 0).touch q.task).fld Reg.dptAcc 31 0 =
      satAdd (2 ^ 32 - 1) (s.fld Reg.dptAcc 31 0) 1 := by
    rw [((TaskOnly.refl (t := q.task) (p := fun _ => False) (State.inv_count hto.inv Reg.dptAcc 31 0 1)).touch q.task).fld _ _ id,
      State.fld_count_self hto.inv _ _ (by decide), hto.fld _ _ (by decide), hwr]
    rfl
  generalize (((w.setTask q.task k).fresh fs).count Reg.dptAcc 31 0).touch q.task = a at *
  have hc' : TaskTo q.task k (· ∈ [Reg.slgLost]) (a.respond q 0) (a.respond q 0) :=
    ⟨.refl ((State.respond_still (.refl a) _ _).inv hta.inv), hta.task, hta.dirty⟩
  have hrun : (a.respond q 0).dptRuns = true := (hta.dptRuns (by decide)).trans (by rw [hwr]; exact hr)
  have hlast := hc'.readiness hslg (.inr hc'.dirty)
  have hg : ∀ x, x ∈ [Reg.dptAcc, Reg.slgLost] → GlbReg x := by
    simp only [List.forall_mem_cons, List.not_mem_nil, false_implies, implies_true, and_true]
    exact ⟨⟨_, by decide, rfl⟩, ⟨_, by decide, rfl⟩⟩
  have hreq (p : Nat) (hp : p < 544) : (a.respond q 0).readiness.requests p = false := by
    rw [hlast.requests (fun x hx => hg x (List.mem_cons_of_mem _ hx)), show (a.respond q 0).requests p = a.requests p from rfl,
      hta.requests hg, hw, State.requests_setBytes h0 hp]
    exact hn p
  obtain ⟨e, he⟩ := State.cycleServes_of_no_requests hlast.inv hreq
  have hx := State.exec_cycle_post hq
  rw [hpost, he] at hx
  have hwrite : w.dpt = (s.cycleBegins 1 0).dpt := by rw [hwr]
  refine Completes.intro hx ⟨?_, hlast.msgs.trans (hta.msgs.trans ((congrArg Dpt.msgs hwrite).trans rfl)), ?_,
    hlast.cycle.trans (hta.cycle.trans (congrArg Dpt.cycle hwrite)),
    fun x hx => ?_, hlast.engines.trans (hta.engines.trans (by rw [hwr]; rfl)), _, _, hk ▸ hc'.task_readiness hrun,
    hc'.ready_readiness hslg (fun x hx => hg x (List.mem_cons_of_mem _ hx)) ht hrun, ?_, ?_, fun x hx => ?_⟩
  · exact hlast.posts.trans (hta.posts.trans ((congrArg Dpt.posts hwrite).trans (by simp [State.cycleBegins, hq])))
  · exact hlast.responses.trans (congrArg (· ++ [(q.src, 0)]) (hta.responses.trans ((congrArg Dpt.responses hwrite).trans rfl)))
  · exact (hlast.others x hx).trans ((hta.others x hx).trans (by rw [State.task, hwrite]; rfl))
  · exact hlast.mem.trans (hta.mem.trans (by rw [hw]; exact State.mem_setBytes_congr (s := s) (u := s.cycleBegins 1 0) rfl _ _))
  · exact (hlast.fld _ _ (by decide)).trans hacc
  · exact (hlast.kept x fun hm => hx (List.mem_cons_of_mem _ hm)).trans ((hta.kept x hx).trans (by rw [hwr]; rfl))


/-- A cycle delivers a flag message. -/
theorem cycle_delivers {m : FlagMsg} {rest : List FlagMsg} (hm : s.dpt.msgs = m :: rest) (hn : ∀ p, s.requests p = false)
    (hv : s.tValid m.task = true) : Completes (.dispatcherCycle [] 0 1) s (fun u =>
      u.dpt.msgs = rest ∧ u.dpt.posts = s.dpt.posts ∧ u.dpt.cycle = s.dpt.cycle + 1 ∧
      (∀ i, i < 32 → (u.task m.task).flags.getLsbD i = (if i = m.flag then
        m.set || (decide ((m.task, m.flag) ∈ s.dpt.fresh) && (s.task m.task).flags.getLsbD i) else (s.task m.task).flags.getLsbD i)) ∧
      (u.task m.task).ring = (s.task m.task).ring ∧
      (∀ x, x ≠ m.task → u.task x = s.task x) ∧ u.engines = s.engines ∧ RegsKept [Reg.slgLost] s u ∧ BytesKept s u) := by
  obtain ⟨ho, hflags, hring⟩ := State.flagArrives_task (s := s.cycleBegins 0 1) (m := m) (State.cycleBegins_inv h 0 1) hr hv hd
  have hg : ∀ x, x ∈ [Reg.slgLost] → GlbReg x := by
    simp only [List.forall_mem_cons, List.not_mem_nil, false_implies, implies_true, and_true]
    exact ⟨_, by decide, rfl⟩
  obtain ⟨e, he⟩ := State.cycleServes_of_no_requests ho.inv fun p _ => (ho.requests hg p).trans (hn p)
  have hx := State.exec_dispatcherCycle s 0 1
  rw [hm, List.take_succ_cons, List.take_zero, List.take_zero, List.foldl_nil, State.cycleFlags_singleton, he] at hx
  exact Completes.intro hx ⟨ho.msgs.trans (by simp [State.cycleBegins, hm]), ho.posts, ho.cycle, hflags, hring, ho.others, ho.engines,
    ho.regsKept, ho.byte⟩

/-- A cycle assigns an item. -/
theorem cycle_assigns {p : EngineNo} {t : Nat} {i : RingItem} (hn : ∀ q, s.requests q = decide (q = p.val)) (hc : s.choose p = some t)
    (hi : s.candidate t = some i) : Completes (.dispatcherCycle [] 0 0) s (fun u =>
      (∃ w, (u.engDpt p).prefetch = some (i.served t w) ∧ ∀ w', (s.engDpt p).lastWin = some w' → w = !w') ∧
      (u.engDpt p).running = (s.engDpt p).running ∧ (∀ q, q ≠ p.val → (u.engDpt q).prefetch = (s.engDpt q).prefetch) ∧
      u.task t = (s.task t).serving i (s.reg (Reg.task t 5)) (s.dpt.kept t) ∧ (∀ x, x ≠ t → u.task x = s.task x) ∧
      u.dpt.responses = s.dpt.responses ∧ u.engines = s.engines ∧ RegsKept [Reg.slgLost] s u ∧ BytesKept s u) := by
  have h0 := State.cycleBegins_inv h 0 0
  obtain ⟨u, hw, hserves⟩ := State.cycleServes_of_one (s := s.cycleBegins 0 0) h0 hr hn hc
  have hcand : u.candidate t = some i := by rw [hw.rest]; exact hi
  obtain ⟨w, reason, hwin, hassign⟩ := State.assign_eq (q := p.val) hcand (s.dpt.kept t)
  have htask (x : Nat) : u.task x = s.task x := by rw [hw.rest]; rfl
  have hreg (a : Nat) : u.reg a = s.reg a := by rw [hw.rest]; rfl
  have heng := hw.engDpt
  have hx := State.exec_dispatcherCycle s 0 0
  rw [List.take_zero, List.take_zero, List.foldl_nil, State.cycleFlags_nil, State.readiness_of_clean (s := s.cycleBegins 0 0) hd, hserves,
    show (s.cycleBegins 0 0).dpt.kept t = s.dpt.kept t from rfl, hassign] at hx
  -- `a`: the task and the prefetch slot are written; the rest is a note and a record
  obtain ⟨k, hk⟩ : ∃ k, k = (u.task t).serving i (u.reg (Reg.task t 5)) (s.dpt.kept t) := ⟨_, rfl⟩
  obtain ⟨d, hdd⟩ : ∃ d, d = { u.engDpt p with prefetch := some (i.served t w), since := none } := ⟨_, rfl⟩
  rw [← hk, ← hdd] at hx
  have h1 : (u.setTask t k).Inv := (State.setTask_still (.refl u) t k).inv hw.inv
  have h2 : ((u.setTask t k).setEngDpt p d).Inv := (State.setEngDpt_still (.refl _) _ _).inv h1
  have ho := ((TaskOnly.refl (t := t) (p := (· ∈ [Reg.slgLost])) h2).touch t).record (List.mem_singleton_self _) .prefetch t p i.flow.toNat reason
  have hself : ((((u.setTask t k).setEngDpt p d).touch t).record .prefetch t p i.flow.toNat reason).task t = k :=
    (State.record_task ..).trans ((State.touch_task ..).trans (State.task_setTask_self hw.inv ..))
  refine Completes.intro hx ⟨⟨w, ?_, fun w' hw' => ?_⟩, ?_, fun q hq => ?_, ?_, fun x hx => ?_, ?_, ?_, fun a ha => ?_, fun a => ?_⟩
  · exact congrArg EngDpt.prefetch ((ho.engDpt p).trans ((State.engDpt_setEngDpt_self h1 ..).trans hdd))
  · exact hwin w' (by rw [heng]; exact hw')
  · refine (congrArg EngDpt.running ((ho.engDpt p).trans ((State.engDpt_setEngDpt_self h1 ..).trans hdd))).trans ?_
    rw [heng]; rfl
  · refine (congrArg EngDpt.prefetch ((ho.engDpt q).trans (State.engDpt_setEngDpt_of_ne h1 _ hq))).trans ?_
    exact (congrArg EngDpt.prefetch (heng q)).trans rfl
  · exact hself.trans (by rw [hk, htask, hreg])
  · exact (ho.others x hx).trans ((State.task_setTask_of_ne hw.inv k hx).trans (htask x))
  · exact ho.responses.trans (by rw [hw.rest]; rfl)
  · exact ho.engines.trans (by rw [hw.rest]; rfl)
  · exact (ho.kept a ha).trans (hreg a)
  · exact (ho.byte a).trans (by rw [hw.rest]; rfl)

end

/-- Bit `i` of the flags of a task whose item goes into service. -/
theorem Machine.TaskSt.getLsbD_serving (k : TaskSt) (r : RingItem) (autoclr : W32) (d : Dpt) (t : Nat) {i : Nat} (hi : i < 32) :
    (k.serving r autoclr (d.kept t)).flags.getLsbD i = (k.flags.getLsbD i && (!autoclr.getLsbD i || decide ((t, i) ∈ d.fresh))) := by
  rw [serving, BitVec.getLsbD_and, BitVec.getLsbD_not, BitVec.getLsbD_and, BitVec.getLsbD_not, d.getLsbD_kept t hi, decide_eq_true hi,
    Bool.true_and, Bool.true_and, Bool.not_and, Bool.not_not]

/-- A cycle in reset refuses its command. -/
theorem cycle_in_reset {s : State} (h : s.Inv) (hr : s.dptRuns = false) {w : W32} (hw : bitsOf w 31 28 ≠ 15) :
    Completes (.dispatcherCycle [w] 0 0) s (fun u => u.rbit Reg.dptStatus 4 = true ∧ RegsKept [Reg.dptStatus] s u ∧
      u = { s with regs := u.regs, dpt := { s.dpt with cycle := s.dpt.cycle + 1, fresh := [] } }) := by
  have hx : exec (.dispatcherCycle [w] 0 0) s = .next (s.dptCycle State.dispatcherResetNow [w] 0 0) := rfl
  rw [State.dptCycle_in_reset h hr hw] at hx
  exact Completes.intro hx ⟨State.rbit_setBit_self h _ _ (by decide),
    ((WritesOnly.refl (p := (· ∈ [Reg.dptStatus])) h).setBit 4 true (List.mem_singleton_self _)).regsKept, rfl⟩

/-- A post is accepted only into a task with room. -/
theorem Machine.State.room_of_postCode {s : State} {q : PostReq} (hc : s.postCode q = 0) : (s.task q.task).ring.length < s.tCap q.task := by
  by_contra hf
  rw [postCode, if_pos (Nat.le_of_not_lt hf)] at hc
  split_ifs at hc <;> exact absurd hc (by decide)

/-- Settles O38: a cycle is its posts, its flag messages, the evaluation of what they changed, and the service of an engine; each of its four
cases has its lemma. -/
theorem dispatcherCycleServesPosts : Obligations.DispatcherCycleServesPosts := by
  refine ⟨fun s w h hr hw => cycle_in_reset h hr hw, fun s h hr hd => ⟨fun q rest hq hn hp ht => ?_,
    fun m rest hm hn _ _ hv => cycle_delivers h hr hd hm hn hv, fun p t i hn hc hi => ?_⟩⟩
  · intro t k code
    have hcode : code = s.postCode q := rfl
    clear_value code
    subst hcode
    by_cases hc : s.postCode q = 0
    · obtain ⟨u, hx, hposts, hmsgs, hresp, hcycle, hothers, hengs, ready, now, htask, hready, hmem, hacc, hkept⟩ :=
        cycle_accepts h hr hd hq hn hp ht hc
      have hbyte (a : Nat) : u.byte a = (s.setBytes (itemAddr (s.postedItem q).slot) (State.itemBytes q.words)).byte a := BytesKept.of_mem hmem a
      refine Completes.intro hx ⟨hposts, hmsgs, hc ▸ hresp, hcycle, hothers, hengs, fun hne => absurd hc hne, fun _ => ⟨s.postedItem q, ?_⟩⟩
      rw [htask] at hready
      rw [htask]
      refine ⟨rfl, rfl, rfl, rfl, rfl, freeSlot_not_mem (State.room_of_postCode hc), ?_, rfl, hready, fun j hj => ?_, fun a ha => ?_, hacc, hkept⟩
      · simp [TaskSt.evaluated, TaskSt.posted, k, t]
      · exact (State.half_congr (hbyte _) (hbyte _)).trans (State.half_setBytes_itemBytes h _ hj)
      · exact (hbyte a).trans (State.byte_setBytes_of_outside h _ _ (by rwa [State.itemBytes_length]))
    · obtain ⟨u, hx, hposts, hmsgs, hresp, hcycle, hothers, hengs, hrefused⟩ := cycle_refuses h hr hd hq hn hc
      exact Completes.intro hx ⟨hposts, hmsgs, hresp, hcycle, hothers, hengs, fun _ => hrefused, fun h0 => absurd h0 hc⟩
  · intro k
    obtain ⟨u, hx, hprefetch, hrun, hslots, htask, hothers, hresp, hengs, hkept, hbytes⟩ := cycle_assigns h hr hd hn hc hi
    refine Completes.intro hx ⟨hprefetch, hrun, hslots, ?_⟩
    rw [htask]
    exact ⟨rfl, rfl, fun j hj => TaskSt.getLsbD_serving _ _ _ _ _ hj, hothers, hresp, hengs, hkept, hbytes⟩

end Sys2Proof
end
